-- ==== Sys2Proof/Word.lean ====
section
/-! DEFINITION. Word types of the device and their plainest arithmetic (R5, R6, R9). -/

namespace Sys2Proof

/-- A control-space register (R9). -/
abbrev Reg := BitVec 32

/-- A 64-byte word of memory (R38, R52); byte `k` is bits `8k+7 .. 8k`, little-endian (R6). -/
abbrev Line := BitVec 512

/-- A 36-bit device address (R77). -/
abbrev DevAddr := BitVec 36

/-- A table keyed by number: keys strictly rising, no entry equal to what an unlisted key reads as. -/
abbrev Tab (α : Type) := List (Nat × α)

end Sys2Proof
end

