-- ==== Sys2Proof/Syntax.lean ====
section
/-! DEFINITION. The commands of the block: one constructor of `Instr` per row of spec/opcode_table.json.
Operands are what the sender of the command supplies: addresses, frames, packets and values, and, for an event
whose outcome is physical (a sensor reading, a training result, a random nonce), that outcome. -/

namespace Sys2Proof

/-- A host write-data beat: META, the 64 bytes and the CRC of its DC word (R54, R60). -/
structure HostBeat where
  info : BitVec 16
  data : Line
  crc  : BitVec 16
deriving DecidableEq, Repr

/-- Who reaches control space, and on which path of latches (R37, R47, R444): kind 0 a host source,
1 the sideband, 2 the debug TAP, 3 a relayed access from another device. -/
structure Agent where
  kind   : Fin 4
  ch     : Fin 32
  srcid  : BitVec 6
  secure : Bool
  dev    : BitVec 6
  field  : BitVec 4
deriving DecidableEq, Repr

/-- The code word in which what arrives on a link begins (R397): its header, and the symbols that the decoder has corrected in the
code words received since the row before. -/
structure CodeWord where
  header : BitVec 20
  fixed  : BitVec 16
deriving DecidableEq, Repr

/-- START (R397): flit slot 0 begins a packet. -/
def CodeWord.start (w : CodeWord) : Bool := w.header.getLsbD 12

/-- One lane measurement of TSV training (R163, R166): the measured centre and width of the window, in steps. -/
structure LaneMeas where
  centre : BitVec 6
  eye    : BitVec 6
deriving DecidableEq, Repr

/-- The physical outcomes of a start-up attempt (R469 to R476): what the hardware's own circuits answer. -/
structure StartEnv where
  /-- PLL-F, PLL-D and PLL-H lock (R505). -/
  pllOk      : Bool
  /-- The fuse arrays read without an uncorrectable error (R472). -/
  fuseOk     : Bool
  /-- The flash answers SFDP and meets R477. -/
  flashOk    : Bool
  /-- log2 of the flash size in bytes, from SFDP (R503). -/
  density    : BitVec 8
  /-- Copy A, copy B: the flash answers every read within 10 ms (R482). -/
  readOk     : BitVec 2
  /-- A decoder outside a floe slot, a channel controller and a bank unit fails (R475). -/
  eccBad     : Bool
  /-- A memory test outside a floe slot and a channel fails (R476). -/
  sramBad    : Bool
  /-- Slots that fail R475 or R476 (R503 CFG_BIST). -/
  bist       : BitVec 136
  /-- Channels whose own self-test or TSV training fails (R164, R475, R476). -/
  tsvDown    : BitVec 32
  /-- The START and CURRENT settings and window widths that TSV training finds (R164), by lane. -/
  lanes      : List LaneMeas
  /-- Step 5 fails to write or verify a channel (R472). -/
  dramBad    : Bool
  /-- Every rail stayed in range and every die-slice in self-refresh up to step 5 (R465). -/
  held       : Bool
  /-- Channels whose host drives CK (R469). -/
  ckSeen     : BitVec 32
  /-- Channels whose host-port training succeeds (R75). -/
  hostOk     : BitVec 32
  /-- Milliseconds from time zero to the end of step 7 (R472). -/
  startMs    : BitVec 16
deriving DecidableEq, Repr

/-- The commands: one constructor per row of spec/opcode_table.json, in the table's order. -/
inductive Instr where
  -- Host port
  | hostRd (ch : Fin 32) (body : BitVec 64) (crc : BitVec 16)
  | hostWr (ch : Fin 32) (body : BitVec 64) (crc : BitVec 16) (beats : List HostBeat)
  | hostWrm (ch : Fin 32) (body : BitVec 64) (crc : BitVec 16) (mask : BitVec 64) (maskCrc : BitVec 16) (beats : List HostBeat)
  | hostIdleFrame (ch : Fin 32) (body : BitVec 64) (crc : BitVec 16)
  | hostLinkFrame (ch : Fin 32) (body : BitVec 64) (crc : BitVec 16)
  | hostTrainFrame (ch : Fin 32) (body : BitVec 64) (crc : BitVec 16)
  | hostReservedOpFrame (ch : Fin 32) (body : BitVec 64) (crc : BitVec 16)
  | corruptFrame (ch : Fin 32) (cause : Fin 3)
  | hostWriteBeat (ch : Fin 32) (beat : HostBeat)
  | hostAckTimer (ch : Fin 32)
  | hostReadDataReturn (ch : Fin 32)
  | hostCreditReturn (ch : Fin 32)
  | hostLinkFail (ch : Fin 32)
  | hostTrainingAttempt (ch : Fin 32) (laneOk : BitVec 68) (completed : Bool) (rack : BitVec 8)
  | hpCtrlRetrain (ag : Agent) (ch : Fin 32)
  | hpCtrlRevive (ag : Agent) (ch : Fin 32)
  -- Control space, rings and the command processor
  | registerWrite (ag : Agent) (off : BitVec 24) (val : Reg)
  | doorbellWrite (ring : Fin 1024) (srcid : BitVec 6) (secure : Bool) (data : Line) (mask : BitVec 64)
  | doorbellStatusRead (ring : Fin 1024) (srcid : BitVec 6) (secure : Bool) (tag : BitVec 9)
  | admRingEnable (ag : Agent) (field : Fin 16) (cfg : Reg)
  | packetFetch (ring : Fin 1024)
  | nop (ring : Fin 1024) (idx : BitVec 32)
  | launch (ring : Fin 1024) (idx : BitVec 32)
  | nboPost (ring : Fin 1024) (idx : BitVec 32)
  | copy (ring : Fin 1024) (idx : BitVec 32) (words : Nat)
  | fill (ring : Fin 1024) (idx : BitVec 32) (words : Nat)
  | fence (ring : Fin 1024) (idx : BitVec 32)
  | queryRing (ring : Fin 1024) (idx : BitVec 32)
  | queryFloes (ring : Fin 1024) (idx : BitVec 32)
  | queryUsage (ring : Fin 1024) (idx : BitVec 32)
  | msg (ring : Fin 1024) (idx : BitVec 32)
  | freeze (ring : Fin 1024) (idx : BitVec 32)
  | thaw (ring : Fin 1024) (idx : BitVec 32)
  | ringCreate (ring : Fin 1024) (idx : BitVec 32)
  | ringDestroy (ring : Fin 1024) (idx : BitVec 32)
  | fieldCfgDriftsAssign (ring : Fin 1024) (idx : BitVec 32)
  | fieldCfgDriftsRelease (ring : Fin 1024) (idx : BitVec 32)
  | fieldCfgLease (ring : Fin 1024) (idx : BitVec 32)
  | fieldCfgSemsGrant (ring : Fin 1024) (idx : BitVec 32)
  | fieldCfgSemsWithdraw (ring : Fin 1024) (idx : BitVec 32)
  | fieldCfgRingsStop (ring : Fin 1024) (idx : BitVec 32)
  | fieldCfgRingsStart (ring : Fin 1024) (idx : BitVec 32)
  | fieldCfgSwitchDone (ring : Fin 1024) (idx : BitVec 32)
  | warmReset (ring : Fin 1024) (idx : BitVec 32)
  | groupFound (ring : Fin 1024) (idx : BitVec 32)
  | groupJoin (ring : Fin 1024) (idx : BitVec 32)
  | groupLeave (ring : Fin 1024) (idx : BitVec 32)
  | leaveTimeout (ring : Fin 1024) (idx : BitVec 32)
  | twinPair (ring : Fin 1024) (idx : BitVec 32)
  | twinUnpair (ring : Fin 1024) (idx : BitVec 32)
  | twinResync (ring : Fin 1024) (idx : BitVec 32)
  | collBarrier (ring : Fin 1024) (idx : BitVec 32)
  | collBroadcast (ring : Fin 1024) (idx : BitVec 32)
  | collAllReduce (ring : Fin 1024) (idx : BitVec 32)
  | collReduceScatter (ring : Fin 1024) (idx : BitVec 32)
  | collAllGather (ring : Fin 1024) (idx : BitVec 32)
  | groupQuery (ring : Fin 1024) (idx : BitVec 32)
  | commandEnd (ring : Fin 1024) (idx : BitVec 32)
  | heldRecordWrite (ring : Fin 1024)
  | commandTimeout (ring : Fin 1024) (idx : BitVec 32)
  -- DRAM channels
  | schedulerSlot (ch : Fin 32)
  | channelRequestAccept (ch : Fin 32) (port : Fin 4)
  | class0Promotion (ch : Fin 32) (bank : Option (Fin 64)) (id : Nat)
  | pageIdleTimeout (ch : Fin 32) (bank : Fin 64)
  | powerDownEntry (ch : Fin 32)
  | powerDownExit (ch : Fin 32)
  | refreshInterval (ch : Fin 32)
  | refreshStart (ch : Fin 32)
  | refreshEnd (ch : Fin 32)
  | trrTableReset (ch : Fin 32)
  | periodicRetrain (ch : Fin 32) (lanes : List LaneMeas)
  | fullRetrain (ch : Fin 32) (ok : Bool) (lanes : List LaneMeas)
  | chCtrlRetrain (ag : Agent) (ch : Fin 32)
  | intlvLog2Write (g : BitVec 5)
  -- Bank units
  | nboAccept (ch : Fin 32) (pos : Nat)
  | nboRsum (ch : Fin 32) (bank : Fin 64)
  | nboRmax (ch : Fin 32) (bank : Fin 64)
  | nboDotw (ch : Fin 32) (bank : Fin 64)
  | nboAccw (ch : Fin 32) (bank : Fin 64)
  | nboSetw (ch : Fin 32) (bank : Fin 64)
  | nboCshift (ch : Fin 32) (bank : Fin 64)
  | firnLoad (ch : Fin 32) (bank : Fin 64)
  | atomEnd (ch : Fin 32) (bank : Fin 64)
  | chainHop (ch : Fin 32) (bank : Fin 64)
  -- Floe front end
  | dispatchCycle (slot : Fin 136)
  | icacheLineFill (slot : Fin 136) (line : BitVec 29)
  | waitRelease (slot : Fin 136)
  | engineIssue (slot : Fin 136) (engine : Fin 6)
  | engineCommandComplete (slot : Fin 136) (engine : Fin 6)
  | headerSignal (slot : Fin 136) (bundle : Nat)
  | bundleRetire (slot : Fin 136)
  | floeHalted (slot : Fin 136)
  -- Scalar slot
  | movi (slot : Fin 136) (a : Fin 8) (imm : BitVec 16)
  | insi (slot : Fin 136) (a : Fin 8) (p : Fin 3) (imm : BitVec 16)
  | mov (slot : Fin 136) (a b : Fin 8)
  | addi (slot : Fin 136) (a : Fin 8) (imm : BitVec 16)
  | scalarAdd (slot : Fin 136) (a b : Fin 8)
  | scalarSub (slot : Fin 136) (a b : Fin 8)
  | shli (slot : Fin 136) (a : Fin 8) (n : BitVec 6)
  | shri (slot : Fin 136) (a : Fin 8) (n : BitVec 6)
  | andi (slot : Fin 136) (a : Fin 8) (imm : BitVec 16)
  | cmp (slot : Fin 136) (k : Fin 4) (a : Fin 8) (byReg : Bool) (b : Fin 8) (imm : BitVec 16)
  | cmpx (slot : Fin 136) (k : Fin 4)
  | br (slot : Fin 136) (off : BitVec 26)
  | endProgram (slot : Fin 136)
  | icinv (slot : Fin 136)
  | qcfg (slot : Fin 136) (q : Fin 32) (record : BitVec 18)
  | qfree (slot : Fin 136) (q : Fin 32)
  | ldr (slot : Fin 136) (a : Fin 8) (record : BitVec 18)
  | time (slot : Fin 136) (a b : Fin 8)
  | epoch (slot : Fin 136) (a : Fin 8)
  -- Vector slot: the issued command of the vector engine is performed
  | vecAdd (slot : Fin 136)
  | vecSub (slot : Fin 136)
  | vecMul (slot : Fin 136)
  | vecFma (slot : Fin 136)
  | vecMax (slot : Fin 136)
  | vecMin (slot : Fin 136)
  | vecAbs (slot : Fin 136)
  | vecNeg (slot : Fin 136)
  | vecRcp (slot : Fin 136)
  | vecRsqrt (slot : Fin 136)
  | vecExp2 (slot : Fin 136)
  | vecLog2 (slot : Fin 136)
  | vecCvt (slot : Fin 136)
  | vecMxq (slot : Fin 136)
  | vecRsum (slot : Fin 136)
  | vecRmax (slot : Fin 136)
  | vecAnd (slot : Fin 136)
  | vecOr (slot : Fin 136)
  | vecXor (slot : Fin 136)
  | vecShl (slot : Fin 136)
  | vecShr (slot : Fin 136)
  | vecCmplt (slot : Fin 136)
  | vecCmpeq (slot : Fin 136)
  | vecSel (slot : Fin 136)
  | vecCopy (slot : Fin 136)
  -- Matrix slot
  | mma (slot : Fin 136)
  | drain (slot : Fin 136)
  | accld (slot : Fin 136)
  | accz (slot : Fin 136)
  -- Load slot
  | ldt (slot : Fin 136)
  | ldg (slot : Fin 136)
  | ldl (slot : Fin 136)
  | ldq (slot : Fin 136)
  -- Store slot
  | stt (slot : Fin 136)
  | sts (slot : Fin 136)
  | stl (slot : Fin 136)
  | nbop (slot : Fin 136)
  -- Sync slot
  | sigr (slot : Fin 136)
  | tlset (slot : Fin 136)
  | tadd (slot : Fin 136)
  | semadd (slot : Fin 136)
  | seminc (slot : Fin 136)
  | semset (slot : Fin 136)
  | semwait (slot : Fin 136)
  | semtake (slot : Fin 136)
  | send (slot : Fin 136)
  | recv (slot : Fin 136)
  | commit (slot : Fin 136)
  | commitMarkWrite (slot : Fin 136)
  | hubCycle (drift : Fin 32)
  | syncWatchdogExpiry (slot : Fin 136)
  -- Descriptor table
  | dtCreate (ag : Agent) (slot : Fin 136) (entry : Fin 256)
  | dtInvalidate (ag : Agent) (slot : Fin 136) (entry : Fin 256)
  | dtInvalidateAll (ag : Agent) (slot : Fin 136)
  | dtReadBack (ag : Agent) (slot : Fin 136) (entry : Fin 256)
  -- Errors, containment and recovery
  | floeFault (slot : Fin 136) (cause : Fin 16)
  | floeFreezeStart (slot : Fin 136)
  | floeFenced (slot : Fin 136)
  | repairWrite (ch : Fin 32)
  | patrolScrubVisit (ch : Fin 32)
  | twinReadResponse (ch : Fin 32) (word : BitVec 30) (data : Line) (poison : Bool)
  | twinReadTimeout (ch : Fin 32) (word : BitVec 30)
  | coalesceWindowClose (code : BitVec 16) (ukind : BitVec 8) (unit : BitVec 16)
  | moraineRingCopy
  | morHeadWrite (ag : Agent) (val : Reg)
  | morFirstFatalClear (ag : Agent)
  -- Peer and twin links
  | peerRd (link : Fin 5) (cw : CodeWord) (hdr : BitVec 256)
  | peerWr (link : Fin 5) (cw : CodeWord) (hdr : BitVec 256) (data : Line)
  | peerWrm (link : Fin 5) (cw : CodeWord) (hdr : BitVec 256) (data : Line)
  | mirrorStreamItem (link : Fin 5) (cw : CodeWord) (hdr : BitVec 256) (data : Line)
  | rspData (link : Fin 5) (cw : CodeWord) (hdr : BitVec 256) (data : Line)
  | rspStatus (link : Fin 5) (cw : CodeWord) (hdr : BitVec 256)
  | remoteTimeout (tag : BitVec 12)
  | collContribution (link : Fin 5) (cw : CodeWord) (hdr : BitVec 256) (data : Line)
  | mgmtHello (link : Fin 5) (cw : CodeWord) (hdr : BitVec 256) (data : Line)
  | mgmtJoin (link : Fin 5) (cw : CodeWord) (hdr : BitVec 256) (data : Line)
  | mgmtAdmit (link : Fin 5) (cw : CodeWord) (hdr : BitVec 256) (data : Line)
  | mgmtRefuse (link : Fin 5) (cw : CodeWord) (hdr : BitVec 256) (data : Line)
  | mgmtTwinNotice (link : Fin 5) (cw : CodeWord) (hdr : BitVec 256) (data : Line)
  | mgmtMembers (link : Fin 5) (cw : CodeWord) (hdr : BitVec 256) (data : Line)
  | mgmtLeave (link : Fin 5) (cw : CodeWord) (hdr : BitVec 256) (data : Line)
  | mgmtTime (link : Fin 5) (cw : CodeWord) (hdr : BitVec 256) (data : Line)
  | mgmtRealign (link : Fin 5) (cw : CodeWord) (hdr : BitVec 256) (data : Line)
  | mgmtAligned (link : Fin 5) (cw : CodeWord) (hdr : BitVec 256) (data : Line)
  | mgmtStaged (link : Fin 5) (cw : CodeWord) (hdr : BitVec 256) (data : Line)
  | mgmtCommit (link : Fin 5) (cw : CodeWord) (hdr : BitVec 256) (data : Line)
  | mgmtAbort (link : Fin 5) (cw : CodeWord) (hdr : BitVec 256) (data : Line)
  | mgmtFence (link : Fin 5) (cw : CodeWord) (hdr : BitVec 256) (data : Line)
  | mgmtResetReq (link : Fin 5) (cw : CodeWord) (hdr : BitVec 256) (data : Line)
  | mgmtAlive (link : Fin 5) (cw : CodeWord) (hdr : BitVec 256) (data : Line)
  | linkPacket (link : Fin 5) (cw : CodeWord) (hdr : BitVec 256)
  | peerCorruptPacket (link : Fin 5) (cw : CodeWord) (cause : Fin 3)
  | peerAckTimer (link : Fin 5)
  | peerResendTimeout (link : Fin 5)
  | peerLinkFail (link : Fin 5)
  | linkTrainingAttempt (link : Fin 5) (ok : Bool) (laneOk : BitVec 8) (reversed : Bool) (polarity : BitVec 8)
  | lnkCtrlRetrain (ag : Agent) (link : Fin 5)
  | lnkCtrlRevive (ag : Agent) (link : Fin 5)
  | timeAlignment
  | realignRepeat
  | memberAbsent (dev : BitVec 6)
  | founderTaken (reach : BitVec 64)
  | twinLoss
  | relayWindowAccess (ag : Agent) (window : Fin 16) (off : BitVec 11) (op : BitVec 2) (cls : BitVec 2) (tag : BitVec 9) (data : Line) (mask : BitVec 64)
  -- Debug and test access
  | dbgChal (nonce : BitVec 256)
  | dbgUnlock (resp : BitVec 776)
  | dbgClose
  | dbgCtrlClose (ag : Agent)
  | idcode
  | samplePreload (levels : BitVec 2671) (shifted : BitVec 5342)
  | extest (levels : BitVec 2671) (shifted : BitVec 5342)
  | csAccess (shifted : BitVec 64)
  | stackSel (dies : BitVec 17)
  | wrapIr (codes : List (BitVec 8))
  | wrapDr (cells : List Bool)
  | bypass (code : BitVec 8) (tdi : Bool)
  -- Reset, start-up, flash and the sideband
  | powerOnReset
  | resetPinAssert
  | resetPinRelease (lowMs : BitVec 16)
  | resetPinStuck
  | sidebandReset (key : BitVec 16)
  | rstCtrlClear (ag : Agent) (key : BitVec 16)
  | rstCtrlClearRetry (ag : Agent) (key : BitVec 16)
  | startup (env : StartEnv)
  | coldHoldRelease (env : StartEnv)
  | hostWaitExpiry (ch : Fin 32)
  | startupWatchdog
  | flRead (ag : Agent)
  | flProgram (ag : Agent) (ok : Bool)
  | flErase (ag : Agent) (ok : Bool)
  | sbSetAddr (bytes : List (BitVec 8)) (pecOk : Bool)
  | sbRead
  | sbWrite (bytes : List (BitVec 8)) (pecOk : Bool)
  | sbStatus
  | sbQuickCommand
  | smbusTimeout
  -- Clocks, power and temperature
  | sensorConversion (dram : List (BitVec 12)) (base : List (BitVec 12))
  | sensorTimeout (sensor : Fin 25)
  | powerAdjust (avgDw : BitVec 16) (peakDw : BitVec 16)
  | powerOver
  | thermalTrip (comparator : Fin 17)
  | thermalRestart
  | pllUnlock (pll : Fin 3)
  | phaseOpen (phase : Fin 34)
  | senseFail (phase : Fin 34)
  | powerGood
  | railOutOfRange (rail : Fin 8)
  | monProcStart (ag : Agent)
  | testLogicReset
  | monProcCountEnd (counts : List (BitVec 20))
deriving DecidableEq, Repr

end Sys2Proof
end

