-- ==== Sys2Proof/Machine/Bits.lean ====
section
/-! DEFINITION. Bit fields (R5), byte order (R6), sign extension (R15) and small lists of numbers. -/

namespace Sys2Proof.Machine

/-- Bits `hi` down to `lo` of a number, as R5 and R15 write `x[hi:lo]`. -/
def bits (x : Nat) (hi lo : Nat) : Nat := (x >>> lo) % 2 ^ (hi + 1 - lo)

/-- Bit `n` of a number. -/
def bit (x : Nat) (n : Nat) : Bool := x.testBit n

/-- Bits `hi` down to `lo` of a register. -/
def fld (r : Reg) (hi lo : Nat) : Nat := bits r.toNat hi lo

/-- Bit `n` of a register. -/
def rbit (r : Reg) (n : Nat) : Bool := r.getLsbD n

/-- The register with bits `hi` down to `lo` replaced by `v`. -/
def setFld (r : Reg) (hi lo : Nat) (v : Nat) : Reg :=
  let m : Nat := (2 ^ (hi + 1 - lo) - 1) <<< lo
  (r &&& ~~~(BitVec.ofNat 32 m)) ||| BitVec.ofNat 32 ((v % 2 ^ (hi + 1 - lo)) <<< lo)

/-- The register with bit `n` set to `b`. -/
def setBit (r : Reg) (n : Nat) (b : Bool) : Reg := setFld r n n b.toNat

/-- Two's complement reading of the low `w` bits (R15 `sext`). -/
def sextInt (w : Nat) (x : Nat) : Int :=
  let m := x % 2 ^ w
  if m < 2 ^ (w - 1) then (m : Int) else (m : Int) - (2 ^ w : Nat)

/-- The `w`-bit two's complement pattern of an integer. -/
def patInt (w : Nat) (x : Int) : Nat := (x % (2 ^ w : Nat)).toNat

/-- Little-endian number of a list of bytes (R6). -/
def leNat : List (BitVec 8) → Nat
  | [] => 0
  | b :: bs => b.toNat + 256 * leNat bs

/-- Big-endian number of a list of bytes (R6, digests and signatures). -/
def beNat (bs : List (BitVec 8)) : Nat := leNat bs.reverse

/-- The `n` little-endian bytes of a number (R6). -/
def toLe : Nat → Nat → List (BitVec 8)
  | 0, _ => []
  | n + 1, x => BitVec.ofNat 8 x :: toLe n (x / 256)

/-- The `n` big-endian bytes of a number. -/
def toBe (n x : Nat) : List (BitVec 8) := (toLe n x).reverse

/-- Byte `k` of a 64-byte word. -/
def lineByte (w : Line) (k : Nat) : BitVec 8 := BitVec.ofNat 8 (w.toNat >>> (8 * k))

/-- The 64 bytes of a word. -/
def lineBytes (w : Line) : List (BitVec 8) := toLe 64 w.toNat

/-- The word of a list of bytes, the first at the lowest address. -/
def bytesLine (bs : List (BitVec 8)) : Line := BitVec.ofNat 512 (leNat bs)

/-- Little-endian field of `n` bytes at byte `k` of a structure held as one number. -/
def fieldAt (x k n : Nat) : Nat := (x >>> (8 * k)) % 2 ^ (8 * n)

/-- How many bits of the low `w` bits of a number are set. -/
def popCount : Nat → Nat → Nat
  | 0, _ => 0
  | w + 1, x => x % 2 + popCount w (x / 2)

/-- The positions of the set bits among the low `w` bits, ascending. -/
def setBits (w x : Nat) : List Nat := (List.range w).filter x.testBit

/-- The quotient rounded up; 0 for a divisor of 0. -/
def ceilDiv (a b : Nat) : Nat := if b = 0 then 0 else (a + b - 1) / b

/-- Saturate at a limit. -/
def sat (m x : Nat) : Nat := if x < m then x else m

/-- Clamp into a range. -/
def clampNat (lo hi x : Nat) : Nat := if x < lo then lo else if hi < x then hi else x

/-- The first element satisfying a predicate, with its position. -/
def findPos {α : Type} (p : α → Bool) : List α → Nat → Option (Nat × α)
  | [], _ => none
  | x :: xs, n => if p x then some (n, x) else findPos p xs (n + 1)

/-- A list with the element at a position removed. -/
def dropAt {α : Type} : List α → Nat → List α
  | [], _ => []
  | _ :: xs, 0 => xs
  | x :: xs, n + 1 => x :: dropAt xs n

/-- A list with the element at a position replaced. -/
def putAt {α : Type} : List α → Nat → α → List α
  | [], _, _ => []
  | _ :: xs, 0, y => y :: xs
  | x :: xs, n + 1, y => x :: putAt xs n y

/-- A list of a fixed number of elements with the one at a position replaced. -/
def setAt {α : Type} (n : Nat) (dflt : α) (xs : List α) (i : Nat) (y : α) : List α :=
  (List.range n).map fun k => if k = i then y else (xs[k]?).getD dflt

/-- Insert before the first element that it comes before. -/
def insertBy {α : Type} (lt : α → α → Bool) (x : α) : List α → List α
  | [] => [x]
  | y :: ys => if lt x y then x :: y :: ys else y :: insertBy lt x ys

def sortBy {α : Type} (lt : α → α → Bool) (xs : List α) : List α := xs.foldl (fun acc x => insertBy lt x acc) []

/-- How much of the numbers from `a` up to but not including `b` a list of such ranges covers. -/
def covered (a b : Nat) (xs : List (Nat × Nat)) : Nat :=
  ((sortBy (fun x y => decide (x.1 < y.1)) xs).foldl (fun (s : Nat × Nat) x =>
    let lo := max s.1 x.1
    let hi := min b x.2
    if lo < hi then (hi, s.2 + (hi - lo)) else s) (a, 0)).2

/-- When a clock that started at `start` and stands still in the ranges `ps` has counted `len`, as seen at `now`; none while
it stands still. -/
def dueAt (start len now : Nat) (ps : List (Nat × Nat)) (still : Bool) : Option Nat :=
  let left := len - (now - start - covered start now ps)
  if left = 0 then some now else if still then none else some (now + left)

/-- Apply a step for each number of a list, from the left. -/
def forEach {α β : Type} (xs : List β) (s : α) (f : α → β → α) : α := xs.foldl f s

/-- Apply `f` for k = 0 to n − 1. -/
def forNat {α : Type} (n : Nat) (s : α) (f : α → Nat → α) : α := (List.range n).foldl f s

end Sys2Proof.Machine
end

