-- ==== Sys2Proof/Machine/Float.lean ====
section
/-! DEFINITION. Floating-point values as exact dyadic numbers, their formats (R173, R177, R275), one rounding
(R177, R283, R285, R291), and the four functions of R284. -/

namespace Sys2Proof.Machine

/-- A floating-point datum: NaN, an infinity, or sign, magnitude `m × 2^e` (zero keeps its sign). -/
inductive FVal where
  | nan
  | inf (neg : Bool)
  | fin (neg : Bool) (m : Nat) (e : Int)
deriving DecidableEq, Repr

/-- A binary format: exponent and mantissa widths and bias; `special` 0: no infinity and no NaN (E2M3, E3M2, E2M1);
1: IEEE style; 2: E4M3 (NaN only). -/
structure FFmt where
  eb      : Nat
  mb      : Nat
  bias    : Int
  special : Fin 3
deriving DecidableEq, Repr

def fFP64 : FFmt := { eb := 11, mb := 52, bias := 1023, special := 1 }
def fFP32 : FFmt := { eb := 8, mb := 23, bias := 127, special := 1 }
def fBF16 : FFmt := { eb := 8, mb := 7, bias := 127, special := 1 }
def fFP16 : FFmt := { eb := 5, mb := 10, bias := 15, special := 1 }
def fE4M3 : FFmt := { eb := 4, mb := 3, bias := 7, special := 2 }
def fE5M2 : FFmt := { eb := 5, mb := 2, bias := 15, special := 1 }
def fE2M3 : FFmt := { eb := 2, mb := 3, bias := 1, special := 0 }
def fE3M2 : FFmt := { eb := 3, mb := 2, bias := 3, special := 0 }
def fE2M1 : FFmt := { eb := 2, mb := 1, bias := 1, special := 0 }

/-- Width of a format in bits. -/
def FFmt.width (f : FFmt) : Nat := 1 + f.eb + f.mb

/-- The pattern of the largest finite magnitude. -/
def FFmt.maxMag (f : FFmt) : Nat :=
  match f.special with
  | 0 => 2 ^ (f.eb + f.mb) - 1
  | 1 => (2 ^ f.eb - 1) * 2 ^ f.mb - 1
  | _ => 2 ^ (f.eb + f.mb) - 2

/-- The pattern of the canonical quiet NaN (R177, R275). -/
def FFmt.qnan (f : FFmt) : Nat :=
  match f.special with
  | 2 => 2 ^ (f.eb + f.mb) - 1
  | _ => (2 ^ f.eb - 1) * 2 ^ f.mb + 2 ^ (f.mb - 1)

/-- The value of a pattern (R275). -/
def FFmt.dec (f : FFmt) (x : Nat) : FVal :=
  let neg := x.testBit (f.eb + f.mb)
  let e := bits x (f.eb + f.mb - 1) f.mb
  let m := x % 2 ^ f.mb
  if f.special = 1 ∧ e = 2 ^ f.eb - 1 then
    if m = 0 then .inf neg else .nan
  else if f.special = 2 ∧ e = 2 ^ f.eb - 1 ∧ m = 2 ^ f.mb - 1 then .nan
  else if e = 0 then .fin neg m (1 - f.bias - f.mb)
  else .fin neg (m + 2 ^ f.mb) ((e : Int) - f.bias - f.mb)

/-- How a result beyond the largest finite magnitude is given. -/
inductive Overflow where
  | inf
  | maxFinite
  | nan
deriving DecidableEq, Repr

/-- The pattern of a magnitude `m × 2^e` rounded once, to nearest even or toward zero, subnormals kept; none on
overflow. -/
def FFmt.roundMag (f : FFmt) (rtz : Bool) (m : Nat) (e : Int) : Option Nat :=
  if m = 0 then some 0
  else
    let top : Int := (Nat.log2 m : Int) + e
    let q : Int := max top (1 - f.bias) - f.mb
    let r : Nat :=
      if q ≤ e then m * 2 ^ (e - q).toNat
      else
        let s := (q - e).toNat
        let k := m / 2 ^ s
        let rem := m % 2 ^ s
        let half := 2 ^ (s - 1)
        if rtz then k
        else if half < rem || (rem == half && k % 2 == 1) then k + 1 else k
    -- `r × 2^q`, r below 2^(mb + 1) or equal to it
    let p : Int := if r < 2 ^ f.mb then r
      else if r = 2 ^ (f.mb + 1) then (q + 1 + f.mb + f.bias) * 2 ^ f.mb
      else (q + f.mb + f.bias) * 2 ^ f.mb + (r - 2 ^ f.mb : Nat)
    let p := p.toNat
    if p ≤ f.maxMag then some p else none

/-- The pattern of a sign and a magnitude pattern. -/
def FFmt.signed (f : FFmt) (neg : Bool) (mag : Nat) : Nat := (if neg then 2 ^ (f.eb + f.mb) else 0) + mag

/-- Encode a value with one rounding. -/
def FFmt.enc (f : FFmt) (rtz : Bool) (ov : Overflow) (v : FVal) : Nat :=
  match v with
  | .nan => f.qnan
  | .inf neg =>
    match f.special with
    | 1 => if ov = .maxFinite then f.signed neg f.maxMag else f.signed neg ((2 ^ f.eb - 1) * 2 ^ f.mb)
    | 2 => if ov = .nan then f.qnan else f.signed neg f.maxMag
    | _ => f.signed neg f.maxMag
  | .fin neg m e =>
    match f.roundMag rtz m e with
    | some p => f.signed neg p
    | none =>
      match ov with
      | .inf => if f.special = 1 then f.signed neg ((2 ^ f.eb - 1) * 2 ^ f.mb) else f.signed neg f.maxMag
      | .maxFinite => f.signed neg f.maxMag
      | .nan => f.qnan

/-- R177 and R283: overflow gives an infinity to nearest even and the largest finite magnitude toward zero; an
infinite result stays infinite. -/
def FFmt.encStd (f : FFmt) (rtz : Bool) (v : FVal) : Nat :=
  match v with
  | .fin neg m e =>
    match f.roundMag rtz m e with
    | some p => f.signed neg p
    | none => if rtz then f.signed neg f.maxMag else f.signed neg ((2 ^ f.eb - 1) * 2 ^ f.mb)
  | w => f.enc rtz .inf w

def FVal.isNan : FVal → Bool
  | .nan => true
  | _ => false

def FVal.isInf : FVal → Bool
  | .inf _ => true
  | _ => false

def FVal.neg : FVal → FVal
  | .nan => .nan
  | .inf s => .inf !s
  | .fin s m e => .fin (!s) m e

/-- The signed integer of a finite value at exponent `e`, for `e` not above its own. -/
def signedAt (neg : Bool) (m : Nat) (x e : Int) : Int :=
  let v : Int := m * 2 ^ (x - e).toNat
  if neg then -v else v

/-- Exact sum. Zeros of opposite sign give +0; −0 only when every term is −0 (R177, R283, R291). -/
def FVal.add : FVal → FVal → FVal
  | .nan, _ => .nan
  | _, .nan => .nan
  | .inf s, .inf t => if s = t then .inf s else .nan
  | .inf s, _ => .inf s
  | _, .inf t => .inf t
  | .fin s m e, .fin t n g =>
    let x := min e g
    let v := signedAt s m e x + signedAt t n g x
    if v = 0 then .fin (m = 0 ∧ n = 0 ∧ s ∧ t) 0 0
    else .fin (v < 0) v.natAbs x

/-- Exact product: 0 × Inf is NaN. -/
def FVal.mul : FVal → FVal → FVal
  | .nan, _ => .nan
  | _, .nan => .nan
  | .inf s, .inf t => .inf (s != t)
  | .inf s, .fin t n _ => if n = 0 then .nan else .inf (s != t)
  | .fin s m _, .inf t => if m = 0 then .nan else .inf (s != t)
  | .fin s m e, .fin t n g => .fin (s != t) (m * n) (e + g)

/-- Order by value with −0 equal to +0; false when an operand is NaN. -/
def FVal.lt : FVal → FVal → Bool
  | .nan, _ => false
  | _, .nan => false
  | .inf s, .inf t => s && !t
  | .inf s, .fin _ _ _ => s
  | .fin _ _ _, .inf t => !t
  | .fin s m e, .fin t n g =>
    let x := min e g
    decide (signedAt s m e x < signedAt t n g x)

def FVal.eqv : FVal → FVal → Bool
  | .nan, _ => false
  | _, .nan => false
  | .inf s, .inf t => s == t
  | .inf _, .fin _ _ _ => false
  | .fin _ _ _, .inf _ => false
  | .fin s m e, .fin t n g =>
    let x := min e g
    decide (signedAt s m e x = signedAt t n g x)

/-- Is the value zero? -/
def FVal.isZero : FVal → Bool
  | .fin _ m _ => m == 0
  | _ => false

def FVal.sign : FVal → Bool
  | .nan => false
  | .inf s => s
  | .fin s _ _ => s

/-- The greater by R179: NaN if either is NaN, −0 below +0. -/
def FVal.maxv (a b : FVal) : FVal :=
  if a.isNan || b.isNan then .nan
  else if a.isZero && b.isZero then (if a.sign then b else a)
  else if a.lt b then b else a

/-- The lesser, by the same rule with the order reversed (R282). -/
def FVal.minv (a b : FVal) : FVal :=
  if a.isNan || b.isNan then .nan
  else if a.isZero && b.isZero then (if a.sign then a else b)
  else if b.lt a then b else a

/-- The value of an integer. -/
def FVal.ofInt (x : Int) : FVal := .fin (x < 0) x.natAbs 0

/-- A finite value rounded to an integer, to nearest even or toward zero. -/
def roundToInt (rtz neg : Bool) (m : Nat) (e : Int) : Int :=
  let k : Nat :=
    if 0 ≤ e then m * 2 ^ e.toNat
    else
      let s := (-e).toNat
      let q := m / 2 ^ s
      let rem := m % 2 ^ s
      let half := 2 ^ (s - 1)
      if rtz then q else if half < rem || (rem == half && q % 2 == 1) then q + 1 else q
  if neg then -(k : Int) else k

/-! ## The functions of R284 -/

/-- Integer square root by bits, from bit `n` down. -/
def isqrtGo (x : Nat) : Nat → Nat → Nat
  | 0, r => r
  | n + 1, r => let t := r + 2 ^ n; isqrtGo x n (if t * t ≤ x then t else r)

def isqrt (bitsOf x : Nat) : Nat := isqrtGo x bitsOf 0

/-- 1 ÷ a, with a sticky bit below the precision kept. -/
def frcp : FVal → FVal
  | .nan => .nan
  | .inf s => .fin s 0 0
  | .fin s m e =>
    if m = 0 then .inf s
    else
      let k := Nat.log2 m + 64
      let q := 2 ^ k / m
      .fin s (2 * q + (if q * m = 2 ^ k then 0 else 1)) (-e - k - 1)

/-- 1 ÷ √a. -/
def frsqrt : FVal → FVal
  | .nan => .nan
  | .inf s => if s then .nan else .fin false 0 0
  | .fin s m e =>
    if m = 0 then .inf s
    else if s then .nan
    else
      -- make the exponent even: a = m' × 2^(2h)
      let odd := e % 2 ≠ 0
      let m' := if odd then 2 * m else m
      let h : Int := (if odd then e - 1 else e) / 2
      let k := Nat.log2 m' / 2 + 80
      let r := isqrt 200 (2 ^ (2 * k) / m')
      .fin false (2 * r + (if r * r * m' = 2 ^ (2 * k) then 0 else 1)) (-h - k - 1)

/-- Fixed-point precision of the table of 2^(2^−i). -/
def expPrec : Nat := 192

/-- 2^(2^−i) for i = 1 to n, in units of 2^−192, each the square root of the one before. -/
def expRoots : Nat → Nat → List Nat
  | 0, _ => []
  | n + 1, x => let r := isqrt 194 (x * 2 ^ expPrec); r :: expRoots n r

/-- 2^(f ÷ 2^n) for 0 ≤ f < 2^n, in units of 2^−192, rounded down. -/
def expFrac (n f : Nat) : Nat :=
  ((expRoots n (2 * 2 ^ expPrec)).zipIdx).foldl
    (fun acc p => if f.testBit (n - 1 - p.2) then acc * p.1 / 2 ^ expPrec else acc) (2 ^ expPrec)

/-- 2^a. -/
def fexp2 : FVal → FVal
  | .nan => .nan
  | .inf s => if s then .fin false 0 0 else .inf false
  | .fin s m e =>
    if m = 0 then .fin false 1 0
    else if 0 ≤ (Nat.log2 m : Int) + e - 9 then
      if s then .fin false 1 (-1000) else .fin false 1 1000
    else if (Nat.log2 m : Int) + e < -40 then
      -- |a| < 2^−40: 1 plus or minus less than half a unit
      if s then .fin false (2 ^ 60 - 1) (-60) else .fin false (2 ^ 60 + 1) (-60)
    else
      -- |a| as a fixed-point number with 80 fraction bits, exact
      let n : Nat := 80
      let fx : Int := if s then -((m * 2 ^ (e + (n : Int)).toNat : Nat) : Int) else ((m * 2 ^ (e + (n : Int)).toNat : Nat) : Int)
      let whole : Int := fx / (2 ^ n : Nat)
      let f := (fx % (2 ^ n : Nat)).toNat
      if f = 0 then .fin false 1 whole
      else .fin false (2 * expFrac n f + 1) (whole - expPrec - 1)

/-- Fraction bits of log2 of a fixed-point number in [1, 2) with 512 bits below the point. -/
def logBits : Nat → Nat → Nat → Nat
  | 0, _, acc => acc
  | n + 1, x, acc =>
    let y := x * x / 2 ^ 512
    if 2 * 2 ^ 512 ≤ y then logBits n (y / 2) (2 * acc + 1) else logBits n y (2 * acc)

/-- log2(a). -/
def flog2 : FVal → FVal
  | .nan => .nan
  | .inf s => if s then .nan else .inf false
  | .fin s m e =>
    if m = 0 then .inf true
    else if s then .nan
    else
      let k := Nat.log2 m
      let whole : Int := k + e
      if m = 2 ^ k then FVal.ofInt whole
      else
        let x := m * 2 ^ 512 / 2 ^ k
        let v : Int := whole * (2 ^ 128 : Nat) + (logBits 128 x 0 : Nat)
        -- the exact value lies strictly between v and v + 1, in units of 2^−128
        if 0 ≤ v then .fin false (2 * v.toNat + 1) (-129)
        else .fin true (2 * (-(v + 1)).toNat + 1) (-129)

end Sys2Proof.Machine
end

