-- ==== Sys2Proof/Machine/Vector.lean ====
section
/-! DEFINITION. Tiles (R261, R276), the arithmetic of the vector slot (R280 to R287) and the poison it carries (R365). -/

namespace Sys2Proof.Machine

/-- A tile: its bytes as one little-endian number and a poison flag for each 64-byte word (R261, R276). -/
structure Tile where
  size   : Nat
  data   : Nat
  poison : Nat
deriving DecidableEq, Repr

/-- Element `n` of a format of `b` bits (R276). -/
def Tile.elem (t : Tile) (b n : Nat) : Nat := (t.data >>> (b * n)) % 2 ^ b

/-- Does element `n` of width `b` lie in a poisoned word? -/
def Tile.elemPoison (t : Tile) (b n : Nat) : Bool :=
  t.poison.testBit (b * n / 512) || t.poison.testBit ((b * n + b - 1) / 512)

/-- The tile of elements of `b` bits, each with its poison. -/
def tileOf (size b : Nat) (es : List (Nat × Bool)) : Tile :=
  { size := size
    data := (es.foldr (fun p x => p.1 % 2 ^ b + 2 ^ b * x) 0) % 2 ^ (8 * size)
    poison := (es.zipIdx).foldl (fun w p =>
      if p.1.2 then w ||| 2 ^ (b * p.2 / 512) ||| 2 ^ ((b * p.2 + b - 1) / 512) else w) 0 }

/-- The four formats of the vector slot (R280). -/
inductive VFmt where
  | fp32
  | bf16
  | int32
  | fp64
deriving DecidableEq, Repr

def vfmtOf : Nat → VFmt
  | 0 => .fp32
  | 1 => .bf16
  | 2 => .int32
  | _ => .fp64

def VFmt.bits : VFmt → Nat
  | .fp32 => 32
  | .bf16 => 16
  | .int32 => 32
  | .fp64 => 64

/-- The floating-point format, for the three that are one. -/
def VFmt.fl : VFmt → FFmt
  | .fp32 => fFP32
  | .bf16 => fBF16
  | .int32 => fFP32
  | .fp64 => fFP64

/-- An exact zero product is +0 (R283). -/
def posZero : FVal → FVal
  | .fin s m e => if m = 0 then .fin false 0 0 else .fin s m e
  | v => v

/-- One element of an element-wise opcode (R282, R283). -/
def vecElem (op : Nat) (f : VFmt) (a b c : Nat) : Nat :=
  let w := f.bits
  let fl := f.fl
  let ones := 2 ^ w - 1
  let int := f == .int32
  let ia := sextInt 32 a
  let ib := sextInt 32 b
  let ic := sextInt 32 c
  let va := fl.dec a
  let vb := fl.dec b
  let vc := fl.dec c
  let rnd := fun v => fl.encStd false v
  match op with
  | 0x01 => if int then patInt 32 (ia + ib) else rnd (va.add vb)
  | 0x02 => if int then patInt 32 (ia - ib) else rnd (va.add vb.neg)
  | 0x03 => if int then patInt 32 (ia * ib) else rnd (posZero (va.mul vb))
  | 0x04 => if int then patInt 32 (ia * ib + ic) else rnd ((va.mul vb).add vc)
  | 0x05 => if int then patInt 32 (max ia ib) else rnd (va.maxv vb)
  | 0x06 => if int then patInt 32 (min ia ib) else rnd (va.minv vb)
  | 0x07 => if int then patInt 32 (if ia < 0 then -ia else ia) else a % 2 ^ (w - 1)
  | 0x08 => if int then patInt 32 (-ia) else a ^^^ 2 ^ (w - 1)
  | 0x09 => rnd (frcp va)
  | 0x0A => rnd (frsqrt va)
  | 0x0B => rnd (fexp2 va)
  | 0x0C => rnd (flog2 va)
  | 0x11 => a &&& b
  | 0x12 => a ||| b
  | 0x13 => a ^^^ b
  | 0x14 => (a <<< (b % 32)) % 2 ^ 32
  | 0x15 => patInt 32 (ia / (2 ^ (b % 32) : Nat))
  | 0x16 => if (if int then decide (ia < ib) else va.lt vb) then ones else 0
  | 0x17 => if (if int then decide (ia = ib) else va.eqv vb) then ones else 0
  | 0x18 => if c = 0 then b else a
  | _ => a

/-- Fields of the vector slot (R280). -/
structure VSlot where
  op    : Nat
  fmt   : Nat
  bmode : Nat
  a     : Nat
  b     : Nat
  c     : Nat
  d     : Nat
  imm   : Nat
deriving DecidableEq, Repr

def vslot (w : Nat) : VSlot :=
  { op := bits w 47 43, fmt := bits w 42 41, bmode := bits w 40 39, a := bits w 38 33, b := bits w 32 27,
    c := bits w 26 21, d := bits w 20 16, imm := bits w 15 0 }

/-- Does the opcode use B, use C (R282)? -/
def vecUsesB (op : Nat) : Bool :=
  [0x01, 0x02, 0x03, 0x04, 0x05, 0x06, 0x11, 0x12, 0x13, 0x14, 0x15, 0x16, 0x17, 0x18].contains op

def vecUsesC (op : Nat) : Bool := op == 0x04 || op == 0x18

/-- The immediate operand of BMODE 1 (R281). -/
def immB (f : VFmt) (imm : Nat) : Nat :=
  match f with
  | .int32 => patInt 32 (sextInt 16 imm)
  | .bf16 => imm
  | .fp32 => imm * 2 ^ 16
  | .fp64 => fFP64.encStd false (match fBF16.dec imm with
    | .nan => .nan
    | v => v)

/-- The index of the B element for element `n` (R281). -/
def bIndex (s : VSlot) (n : Nat) : Nat :=
  match s.bmode with
  | 2 => n / 2 ^ (s.imm % 16)
  | 3 => n % 2 ^ (s.imm % 16)
  | _ => n

/-- The element-wise result on whole tiles. -/
def vecElementwise (s : VSlot) (ta tb tc : Tile) (dsize : Nat) : Tile :=
  let f := vfmtOf s.fmt
  let w := f.bits
  let e := ta.size * 8 / w
  tileOf dsize w ((List.range e).map fun n =>
    let k := bIndex s n
    let useB := vecUsesB s.op && s.bmode != 1
    let b := if s.bmode == 1 then immB f s.imm else tb.elem w k
    (vecElem s.op f (ta.elem w n) b (tc.elem w n),
     ta.elemPoison w n || (useB && tb.elemPoison w k) || (vecUsesC s.op && tc.elemPoison w n)))

/-- Width in bits of a floe format code (R274); 0 for a reserved one. -/
def fmtBits : Nat → Nat
  | 0 => 32 | 1 => 16 | 2 => 16 | 3 => 8 | 4 => 8 | 5 => 32 | 6 => 8 | 7 => 4 | 8 => 6 | 9 => 6 | 10 => 4 | 11 => 64
  | _ => 0

/-- The floating-point format of a floe format code, if it is one (R274, R275). -/
def fmtFloat : Nat → Option FFmt
  | 0 => some fFP32 | 1 => some fBF16 | 2 => some fFP16 | 3 => some fE4M3 | 4 => some fE5M2 | 8 => some fE2M3
  | 9 => some fE3M2 | 10 => some fE2M1 | 11 => some fFP64
  | _ => none

/-- One element of CVT (R285). -/
def cvtElem (dst src : Nat) (rtz sat : Bool) (x : Nat) : Nat :=
  let db := fmtBits dst
  let lo : Int := -(2 ^ (db - 1) : Nat)
  let hi : Int := (2 ^ (db - 1) : Nat) - 1
  let clampI := fun v : Int => patInt db (max lo (min hi v))
  let ovf := fun (f : FFmt) (isInf : Bool) =>
    if f = fE4M3 ∧ !sat then Overflow.nan
    else if f.special = 1 ∧ !sat ∧ (isInf || !rtz) then Overflow.inf else Overflow.maxFinite
  match fmtFloat src, fmtFloat dst with
  | some fs, some fd =>
    match fs.dec x with
    | .nan => fd.qnan
    | .inf s => fd.enc rtz (ovf fd true) (.inf s)
    | v => fd.enc rtz (ovf fd false) v
  | some fs, none =>
    match fs.dec x with
    | .nan => 0
    | .inf s => patInt db (if s then lo else hi)
    | .fin s m e => clampI (roundToInt rtz s m e)
  | none, some fd => fd.enc rtz (ovf fd false) (FVal.ofInt (sextInt (fmtBits src) x))
  | none, none =>
    let v := sextInt (fmtBits src) x
    if sat then clampI v else patInt db v

/-- CVT on a tile. -/
def vecCvtTile (s : VSlot) (ta : Tile) (dsize : Nat) : Tile :=
  let dst := s.imm % 16
  let src := bits s.imm 7 4
  let sb := fmtBits src
  let e := ta.size * 8 / sb
  tileOf dsize (fmtBits dst) ((List.range e).map fun n =>
    (cvtElem dst src (s.imm.testBit 8) (s.imm.testBit 9) (ta.elem sb n), ta.elemPoison sb n))

/-- emax of an MX element format (R286). -/
def mxEmax (fmt : Nat) : Int := if fmt = 9 then 4 else 2

/-- One block of MXQ: its scale and its 32 element patterns (R286). -/
def mxqBlock (fmt : Nat) (v : List Nat) : Nat × List Nat :=
  let vs := v.map fFP32.dec
  if vs.any fun x => x.isNan || x.isInf then (0xFF, v.map fun _ => 0)
  else
    -- floor(log2 of the greatest magnitude)
    let lg := vs.filterMap fun x => match x with
      | .fin _ m e => if m = 0 then none else some ((Nat.log2 m : Int) + e)
      | _ => none
    let x : Int := match lg with
      | [] => -127
      | l :: ls => max (-127) (min 127 (ls.foldl max l - mxEmax fmt))
    let fd := (fmtFloat fmt).getD fE2M1
    ((x + 127).toNat, vs.map fun y => match y with
      | .fin s m e => fd.enc false .maxFinite (.fin s m (e - x))
      | _ => 0)

/-- MXQ on a tile (R286): the element data and then the scales; poison covers whole blocks (R365). -/
def vecMxqTile (s : VSlot) (ta : Tile) (dsize : Nat) : Tile :=
  let fmt := s.imm % 16
  let eb := fmtBits fmt
  let e := ta.size * 8 / 32
  let block := fun m i => (List.range 32).map fun j => (m * 32 + j) * 32 + i
  let bp := fun m i => (block m i).any fun n => ta.elemPoison 32 n
  let bv := fun m i => mxqBlock fmt ((block m i).map fun n => ta.elem 32 n)
  let elems := (List.range e).map fun n =>
    let i := n % 32
    let m := n / 32 / 32
    (((bv m i).2)[n / 32 % 32]?.getD 0, bp m i)
  let scales := (List.range (e / 32)).map fun k => ((bv (k / 32) (k % 32)).1, bp (k / 32) (k % 32))
  let t1 := tileOf dsize eb elems
  let off := e * eb / 8
  let t2 := tileOf dsize 8 ((List.replicate off (0, false)) ++ scales)
  { size := dsize, data := t1.data ||| t2.data, poison := t1.poison ||| t2.poison }

/-- Pairwise reduction of a list whose length is a power of 2, `n` levels (R287). -/
def pairwise {α : Type} (comb : α → α → α) : Nat → List α → List α
  | 0, v => v
  | n + 1, v =>
    let rec half : List α → List α
      | a :: b :: t => comb a b :: half t
      | t => t
    pairwise comb n (half v)

/-- RSUM and RMAX on a tile (R287). -/
def vecReduceTile (s : VSlot) (ta : Tile) (dsize : Nat) : Tile :=
  let f := vfmtOf s.fmt
  let w := f.bits
  let l := s.imm % 16
  let g := 2 ^ l
  let e := ta.size * 8 / w
  let mx := s.op == 0x10
  -- BF16 sums run in FP32 and are rounded once at the end
  let wide := f == .bf16 && !mx
  let ext := fun x => if wide then x * 2 ^ 16 else x
  let comb := fun x y => if wide then vecElem 0x01 .fp32 x y 0 else vecElem (if mx then 0x05 else 0x01) f x y 0
  let fin := fun x => if wide then fBF16.encStd false (fFP32.dec x) else x
  tileOf dsize w ((List.range (e / g)).map fun j =>
    let ns := (List.range g).map fun i => j * g + i
    (fin (((pairwise comb l (ns.map fun n => ext (ta.elem w n))).head?).getD 0), ns.any fun n => ta.elemPoison w n))

/-- The tile a vector command pushes. -/
def vecTile (s : VSlot) (ta tb tc : Tile) (dsize : Nat) : Tile :=
  match s.op with
  | 0x0D => vecCvtTile s ta dsize
  | 0x0E => vecMxqTile s ta dsize
  | 0x0F => vecReduceTile s ta dsize
  | 0x10 => vecReduceTile s ta dsize
  | _ => vecElementwise s ta tb tc dsize

/-- Is the slot word legal by the rules checked in every bundle: 0 legal, else the halt code (R270, R282). DESIGN CHOICE (log 163):
what R281 bars of BMODE, B and IMM is an illegal slot, 0x02, in every bundle, as an unused field is (R270, R304). -/
def vecLegal (w : Nat) : Nat :=
  let s := vslot w
  if s.op = 0 then 2
  else if 0x19 < s.op then 1
  else
    let fmtOk := match s.op with
      | 0x09 => s.fmt == 0 | 0x0A => s.fmt == 0 | 0x0B => s.fmt == 0 | 0x0C => s.fmt == 0
      | 0x0E => s.fmt == 0
      | 0x11 => s.fmt == 2 | 0x12 => s.fmt == 2 | 0x13 => s.fmt == 2 | 0x14 => s.fmt == 2 | 0x15 => s.fmt == 2
      | _ => true
    let cvtCode := fun c : Nat => c < 8 || c == 11
    let codeOk := match s.op with
      | 0x0D => cvtCode (s.imm % 16) && cvtCode (bits s.imm 7 4)
      | 0x0E => [8, 9, 10].contains (s.imm % 16)
      | _ => true
    if !fmtOk || !codeOk then 1
    else
      let immUse := match s.op with
        | 0x0D => 0x3FF
        | 0x0E => 0xF
        | 0x0F => 0xF
        | 0x10 => 0xF
        | _ => if s.bmode = 1 then 0xFFFF else if 2 ≤ s.bmode then 0xF else 0
      if s.op = 0x0D ∧ s.fmt ≠ 0 then 2
      else if !vecUsesB s.op && (s.bmode != 0 || s.b != 0) then 2
      else if s.bmode = 1 ∧ s.b ≠ 0 then 2
      else if !vecUsesC s.op && s.c != 0 then 2
      else if s.imm &&& immUse ≠ s.imm then 2
      else 0

/-- Tile requirements of check 0x03 (R281, R285 to R287): sizes of A, B, C and D in bytes. -/
def vecSizesOk (w : Nat) (sa sb sc sd : Nat) : Bool :=
  let s := vslot w
  let f := vfmtOf s.fmt
  let wb := f.bits
  let e := sa * 8 / wb
  match s.op with
  | 0x0D =>
    let e := sa * 8 / fmtBits (bits s.imm 7 4)
    decide (ceilDiv (e * fmtBits (s.imm % 16)) 8 ≤ sd)
  | 0x0E =>
    let e := sa / 4
    e % 1024 == 0 && decide (e * fmtBits (s.imm % 16) / 8 + e / 32 ≤ sd)
  | 0x0F => decide (s.imm % 16 ≤ 10) && e % 2 ^ (s.imm % 16) == 0 && decide (e / 2 ^ (s.imm % 16) * wb / 8 ≤ sd)
  | 0x10 => decide (s.imm % 16 ≤ 10) && e % 2 ^ (s.imm % 16) == 0 && decide (e / 2 ^ (s.imm % 16) * wb / 8 ≤ sd)
  | _ =>
    let bOk := if !vecUsesB s.op then true
      else match s.bmode with
        | 0 => sb == sa
        | 1 => true
        | 2 => decide (ceilDiv e (2 ^ (s.imm % 16)) * wb / 8 ≤ sb)
        | _ => decide (2 ^ (s.imm % 16) * wb / 8 ≤ sb)
    bOk && (!vecUsesC s.op || sc == sa) && decide (sa ≤ sd)

/-! ## The matrix slot -/

/-- Fields of the matrix slot (R288). -/
structure MSlot where
  op  : Nat
  fmt : Nat
  acc : Nat
  a   : Nat
  b   : Nat
  d   : Nat
  z   : Bool
  rtz : Bool
  sat : Bool
deriving DecidableEq, Repr

def mslot (w : Nat) : MSlot :=
  { op := bits w 39 35, fmt := bits w 34 31, acc := bits w 30 29, a := bits w 28 23, b := bits w 22 17,
    d := bits w 16 12, z := w.testBit 11, rtz := w.testBit 10, sat := w.testBit 9 }

def matLegal (w : Nat) : Nat :=
  let s := mslot w
  if s.op = 0 then 2
  else if 4 < s.op then 1
  else
    let int := s.fmt = 6 ∨ s.fmt = 7
    let fmtOk := if s.op = 1 then [1, 2, 3, 4, 6, 7, 8, 9, 10].contains s.fmt else s.fmt == 0
    if !fmtOk then 1
    else if w % 512 ≠ 0 then 2
    else match s.op with
      | 1 => if s.d ≠ 0 ∨ (int ∧ s.rtz) ∨ (¬ int ∧ s.sat) then 2 else 0
      | 2 => if s.a ≠ 0 ∨ s.b ≠ 0 ∨ s.rtz ∨ s.sat then 2 else 0
      | 3 => if s.b ≠ 0 ∨ s.d ≠ 0 ∨ s.z ∨ s.rtz ∨ s.sat then 2 else 0
      | _ => if s.a ≠ 0 ∨ s.b ≠ 0 ∨ s.d ≠ 0 ∨ s.z ∨ s.rtz ∨ s.sat then 2 else 0

/-- Bytes for each k of an operand tile, k-steps of one accumulation, K granule, least and greatest K (R290). -/
def mmaShape (fmt : Nat) : Nat × Nat × Nat × Nat × Nat :=
  if fmt = 1 ∨ fmt = 2 then (64, 1, 1, 1, 128)
  else if fmt = 3 ∨ fmt = 4 ∨ fmt = 6 then (32, 2, 2, 2, 256)
  else if fmt = 7 then (16, 4, 4, 4, 512)
  else if fmt = 8 ∨ fmt = 9 then (25, 4, 64, 64, 320)
  else (17, 4, 64, 64, 448)

/-- Tile requirements of the matrix slot (R289, R290). -/
def matSizesOk (w : Nat) (sa sb sd : Nat) : Bool :=
  let s := mslot w
  match s.op with
  | 1 =>
    let (per, _, gran, lo, hi) := mmaShape s.fmt
    sa == sb && sa % per == 0 && (sa / per) % gran == 0 && decide (lo ≤ sa / per) && decide (sa / per ≤ hi)
  | 2 => sd == 4096
  | 3 => sa == 4096
  | _ => true

/-- The value of an operand element with its block scale (R291): row or column `i`, step `k`. -/
def mmaVal (fmt kk : Nat) (t : Tile) (i k : Nat) : FVal :=
  let b := fmtBits fmt
  let v := match fmtFloat fmt with
    | some f => f.dec (t.elem b (32 * k + i))
    | none => FVal.ofInt (sextInt b (t.elem b (32 * k + i)))
  if 8 ≤ fmt then
    let sc := t.elem 8 (32 * kk * b / 8 + 32 * (k / 32) + i)
    if sc = 0xFF then .nan else v.mul (.fin false 1 ((sc : Int) - 127))
  else v

/-- `accumulate_int` of R291. -/
def accInt (sat : Bool) (c : Nat) (ts : List FVal) : Nat :=
  let ti : List Int := ts.map fun t => match t with
    | .fin s m e => (if s then -1 else 1) * (m * 2 ^ e.toNat : Nat)
    | _ => 0
  let s := sextInt 32 c + ti.foldl (· + ·) 0
  if sat then patInt 32 (max (-2147483648) (min 2147483647 s)) else patInt 32 s

/-- `accumulate_fp` of R291: exact sum, one rounding. -/
def accFp (rtz : Bool) (c : Nat) (ts : List FVal) : Nat :=
  fFP32.encStd rtz (ts.foldl FVal.add (fFP32.dec c))

/-- MMA on accumulator and tiles (R291). -/
def mma (s : MSlot) (acc : BitVec 32768) (ta tb : Tile) : BitVec 32768 :=
  let (per, p, _, _, _) := mmaShape s.fmt
  let kk := ta.size / per
  let int := s.fmt == 6 || s.fmt == 7
  let base : Nat := if s.z then 0 else acc.toNat
  let out := (List.range 1024).map fun ij =>
    let i := ij / 32
    let j := ij % 32
    (List.range (kk / p)).foldl (fun c g =>
      let ts := (List.range p).map fun q =>
        (mmaVal s.fmt kk ta i (p * g + q)).mul (mmaVal s.fmt kk tb j (p * g + q))
      if int then accInt s.sat c ts else accFp s.rtz c ts) ((base >>> (32 * ij)) % 2 ^ 32)
  BitVec.ofNat 32768 (out.foldr (fun x y => x + 2 ^ 32 * y) 0)

/-- Does any word of an operand tile that MMA uses carry poison (R365)? -/
def Tile.anyPoison (t : Tile) : Bool := t.poison != 0

end Sys2Proof.Machine
end

