-- ==== Sys2Proof/Machine/BankMath.lean ====
section
/-! DEFINITION. The near-bank descriptor (R181 to R184) and the arithmetic of a bank unit (R173 to R180, R226). -/

namespace Sys2Proof.Machine

/-- The fields of an NBO descriptor (R181). -/
structure NboDesc where
  op       : Nat
  fmt      : Nat
  uns      : Bool
  sat      : Bool
  rtz      : Bool
  hred     : Bool
  perRow   : Bool
  accum    : Bool
  chain    : Bool
  dir      : Bool
  ordered  : Bool
  firnSrc  : Nat
  firnN    : Nat
  ch       : Nat
  bank     : Nat
  bankEnd  : Nat
  rowFirst : Nat
  rowCount : Nat
  colFirst : Nat
  colCount : Nat
  laneMask : Nat
  drow     : Nat
  dcol     : Nat
  dslot    : Nat
  tag      : Nat
  frow     : Nat
  fbank    : Nat
  fword    : Nat
  payload  : BitVec 256
  /-- Every reserved bit is 0. -/
  resOk    : Bool
deriving DecidableEq, Repr

def nboDesc (l : Line) : NboDesc :=
  let x := l.toNat
  let w := fun k => fieldAt x (4 * k) 4
  let c := w 0
  { op := bits c 5 0, fmt := bits c 8 6, uns := bit c 9, sat := bit c 10, rtz := bit c 11, hred := bit c 12,
    perRow := bit c 13, accum := bit c 14, chain := bit c 15, dir := bit c 16, ordered := bit c 17,
    firnSrc := bits c 19 18, firnN := bits c 22 20,
    ch := bits (w 1) 4 0, bank := bits (w 1) 10 5, bankEnd := bits (w 1) 16 11,
    rowFirst := bits (w 2) 14 0, rowCount := bits (w 2) 30 16 + 1,
    colFirst := bits (w 3) 4 0, colCount := bits (w 3) 9 5 + 1, laneMask := bits (w 3) 31 16,
    drow := bits (w 4) 14 0, dcol := bits (w 4) 20 16, dslot := bits (w 4) 23 21, tag := w 5,
    frow := bits (w 6) 14 0, fbank := bits (w 6) 21 16, fword := bits (w 6) 25 22,
    payload := BitVec.ofNat 256 (x / 2 ^ 256),
    resOk := bits c 31 23 == 0 && bits (w 1) 31 17 == 0 && !bit (w 2) 15 && !bit (w 2) 31 && bits (w 3) 15 10 == 0
      && !bit (w 4) 15 && bits (w 4) 31 24 == 0 && !bit (w 6) 15 && bits (w 6) 31 26 == 0 && w 7 == 0 }

/-- RSUM, RMAX or DOTW. -/
def NboDesc.reduces (d : NboDesc) : Bool := d.op == 1 || d.op == 2 || d.op == 3

/-- The 128-byte result of RSUM on INT8 (R183). -/
def NboDesc.wide (d : NboDesc) : Bool := d.op == 1 && d.fmt == 3

/-- Lanes work in FP32 (R173). -/
def NboDesc.float (d : NboDesc) : Bool := d.fmt == 1 || d.fmt == 2 || d.fmt == 5

/-- Width in bits of an element (R173). -/
def bankBits : Nat → Nat
  | 0 => 16 | 1 => 16 | 2 => 16 | 3 => 8 | 4 => 4 | _ => 32

/-- Column words of the result (R183, R193). -/
def NboDesc.resultCols (d : NboDesc) : Nat := if d.hred then 1 else if d.wide then 4 else 2

/-- All elements enabled (R184). -/
def NboDesc.fullMask (d : NboDesc) : Bool := d.laneMask == (if 5 ≤ d.fmt then 0x00FF else 0xFFFF)

/-- The rules of R184 that the descriptor alone decides. -/
def NboDesc.valid (d : NboDesc) : Bool :=
  let opOk : Bool := match d.op with
    | 1 => decide (d.fmt ≤ 3) | 2 => decide (d.fmt ≤ 2) | 3 => decide (d.fmt ≤ 4) | 4 => decide (d.fmt ≤ 6)
    | 5 => decide (d.fmt ≤ 6) | 6 => d.fmt == 0
    | _ => false
  let usesFirn := d.op == 3 || d.op == 4 || d.op == 5
  let masks := d.op == 4 || d.op == 5
  d.resOk && opOk
    && (!d.uns || d.fmt == 3 || d.fmt == 4)
    && decide (d.rowFirst + d.rowCount ≤ 32768) && decide (d.colFirst + d.colCount ≤ 32)
    && (!(d.op == 4 || d.op == 6 || (d.op == 5 && !d.fullMask)) || decide (d.colCount ≤ 16))
    && (if d.chain then (d.reduces || d.op == 6) && decide (d.bank < d.bankEnd)
        else d.op != 6 && d.bankEnd == d.bank && !d.dir)
    && (d.op != 6 || (d.rowCount == 1 && d.dcol == 0 && d.dslot == 0 && !d.hred && !d.perRow && !d.accum))
    && (d.reduces || (!d.hred && !d.perRow && !d.accum && d.dcol == 0 && d.dslot == 0 && (d.op == 6 || d.drow == 0)))
    && !(d.hred && d.perRow)
    && (!d.perRow || (decide (d.rowCount ≤ 16) && !d.wide))
    && (!d.reduces || d.hred || (if d.wide then d.dcol % 4 == 0 else d.dcol % 2 == 0))
    && (d.hred || d.dslot == 0)
    && (if usesFirn then d.firnSrc == 1 || d.firnSrc == 2 else d.firnSrc == 0)
    && (d.firnSrc == 2 || d.firnN == 0)
    && (d.firnSrc != 2 || decide (d.fword + d.firnN + 1 ≤ 16))
    && (d.firnSrc == 1 || d.payload == 0)
    && (d.firnSrc == 2 || (d.frow == 0 && d.fbank == 0 && d.fword == 0))
    && (if masks then d.laneMask != 0 && (decide (d.fmt < 5) || decide (d.laneMask < 256)) else d.laneMask == 0)
    && (!d.ordered || d.op == 4)

/-! ## Arithmetic -/

/-- Element `i` of a column word. -/
def colElem (fmt : Nat) (x : BitVec 256) (i : Nat) : Nat := (x.toNat >>> (bankBits fmt * i)) % 2 ^ bankBits fmt

/-- The float format of an operand format (R173). -/
def bankFloat : Nat → FFmt
  | 1 => fFP16
  | 2 => fBF16
  | _ => fFP32

/-- The exact value of an element. -/
def bankVal (d : NboDesc) (x : Nat) : FVal :=
  if d.float then (bankFloat d.fmt).dec x
  else FVal.ofInt (if d.uns then x else sextInt (bankBits d.fmt) x)

/-- The 32-bit lane `l` of an accumulator. -/
def lane (v : BitVec 512) (l : Nat) : Nat := (v.toNat >>> (32 * l)) % 2 ^ 32

def vecOfLanes (ls : List Nat) : BitVec 512 := BitVec.ofNat 512 (ls.foldr (fun x y => x % 2 ^ 32 + 2 ^ 32 * y) 0)

/-- `add` on a lane: an exact value joins it with one rounding, or wraps or saturates (R176, R177). -/
def laneAdd (d : NboDesc) (a : Nat) (v : FVal) : Nat :=
  if d.float then fFP32.encStd d.rtz ((fFP32.dec a).add v)
  else accInt d.sat a [v]

/-- `max` on lanes (R179). -/
def laneMax (d : NboDesc) (a : Nat) (v : FVal) : Nat :=
  if d.float then fFP32.encStd d.rtz ((fFP32.dec a).maxv v)
  else
    let x : Int := match v with
      | .fin s m e => (if s then -1 else 1) * (m * 2 ^ e.toNat : Nat)
      | _ => 0
    patInt 32 (max (sextInt 32 a) x)

/-- A lane's value as an operand of a combiner. -/
def laneVal (d : NboDesc) (a : Nat) : FVal := if d.float then fFP32.dec a else FVal.ofInt (sextInt 32 a)

/-- The combiner of the operation on two lanes (R179). -/
def comb (d : NboDesc) (a b : Nat) : Nat := if d.op = 2 then laneMax d a (laneVal d b) else laneAdd d a (laneVal d b)

/-- The combiner's identity (R179). -/
def combId (d : NboDesc) : Nat :=
  if d.op = 2 then (if d.float then 0xFF800000 else 0x80000000) else 0

def identityVec (d : NboDesc) : BitVec 512 := vecOfLanes (List.replicate 16 (combId d))

/-- Combine two vectors lane by lane, the first upstream (R180). -/
def combVec (d : NboDesc) (a b : BitVec 512) : BitVec 512 :=
  vecOfLanes ((List.range 16).map fun l => comb d (lane a l) (lane b l))

/-- `hred` of R180 over 16 lanes, or over 32 for the 1,024-bit vector. -/
def hred (d : NboDesc) (ac0 ac1 : BitVec 512) : Nat :=
  let ls0 := (List.range 16).map (lane ac0)
  if d.wide then ((pairwise (comb d) 5 (ls0 ++ (List.range 16).map (lane ac1))).head?).getD 0
  else ((pairwise (comb d) 4 ls0).head?).getD 0

/-- One column word of RSUM, RMAX or DOTW on the accumulators (R182). -/
def reduceCol (d : NboDesc) (ac0 ac1 : BitVec 512) (x w : BitVec 256) : BitVec 512 × BitVec 512 :=
  let e := fun i => bankVal d (colElem d.fmt x i)
  match d.op with
  | 1 =>
    let a0 := vecOfLanes ((List.range 16).map fun i => laneAdd d (lane ac0 i) (e i))
    if d.fmt = 3 then (a0, vecOfLanes ((List.range 16).map fun i => laneAdd d (lane ac1 i) (e (i + 16))))
    else (a0, ac1)
  | 2 => (vecOfLanes ((List.range 16).map fun i => laneMax d (lane ac0 i) (e i)), ac1)
  | _ =>
    let p := if d.fmt = 3 then 2 else if d.fmt = 4 then 4 else 1
    (vecOfLanes ((List.range 16).map fun l =>
      let s := (List.range p).foldl (fun s j =>
        let t := (e (p * l + j)).mul (bankVal d (colElem d.fmt w (p * l + j)))
        if j = 0 then t else s.add t) (FVal.fin false 0 0)
      laneAdd d (lane ac0 l) s), ac1)

/-- Is element `i` enabled by LANEMASK (R182)? -/
def enabled (d : NboDesc) (i : Nat) : Bool :=
  if d.fmt = 3 then d.laneMask.testBit (i / 2) else if d.fmt = 4 then d.laneMask.testBit (i / 4)
  else d.laneMask.testBit i

/-- R178: the narrow result of D plus an exact value. -/
def accwElem (d : NboDesc) (dv : Nat) (v : FVal) : Nat :=
  let b := bankBits d.fmt
  if d.float then
    let f := bankFloat d.fmt
    let s := (bankVal d dv).add v
    if d.fmt = 5 then f.encStd d.rtz s
    else match s with
      | .inf n => f.enc d.rtz .inf (.inf n)
      | w => f.enc d.rtz (if d.rtz || d.sat then .maxFinite else .inf) w
  else
    let iv : Int := match v with
      | .fin s m e => (if s then -1 else 1) * (m * 2 ^ e.toNat : Nat)
      | _ => 0
    let x : Int := (if d.uns then (dv : Int) else sextInt b dv) + iv
    if !d.sat then patInt b x
    else if d.uns then patInt b (max 0 (min x ((2 ^ b : Nat) - 1)))
    else patInt b (max (-(2 ^ (b - 1) : Nat)) (min x ((2 ^ (b - 1) : Nat) - 1)))

/-- The contribution vector of a staged ACCW: one 32-bit value for each element of a 16-bit or 32-bit format, and
the elements in place for the integer formats (R226). -/
def stageVec (d : NboDesc) : BitVec 512 :=
  if d.fmt = 1 ∨ d.fmt = 2 then
    vecOfLanes ((List.range 16).map fun i => fFP32.encStd false ((bankFloat d.fmt).dec (colElem d.fmt d.payload i)))
  else d.payload.zeroExtend 512

/-- The value of element `i` of a contribution vector. -/
def contribVal (d : NboDesc) (v : BitVec 512) (i : Nat) : FVal :=
  if d.float then fFP32.dec (lane v i)
  else bankVal d (colElem d.fmt (v.truncate 256) i)

/-- `fold` of R226. -/
def foldVec (d : NboDesc) (v : BitVec 512) (n : NboDesc) : BitVec 512 :=
  if d.float then
    vecOfLanes ((List.range 16).map fun i =>
      if d.fmt = 5 ∧ 8 ≤ i then 0
      else if enabled d i then
        fFP32.encStd d.rtz ((fFP32.dec (lane v i)).add ((bankFloat d.fmt).dec (colElem d.fmt n.payload i)))
      else lane v i)
  else
    let b := bankBits d.fmt
    let es := (List.range (256 / b)).map fun i =>
      if enabled d i then (colElem d.fmt (v.truncate 256) i + colElem d.fmt n.payload i) % 2 ^ b
      else colElem d.fmt (v.truncate 256) i
    BitVec.ofNat 512 (es.foldr (fun x y => x + 2 ^ b * y) 0)

/-- One column word of ACCW or SETW: the new word, given the stored word and the value of each element (R178, R182). -/
def updateCol (d : NboDesc) (x : BitVec 256) (w : BitVec 256) (contrib : Option (BitVec 512)) : BitVec 256 :=
  let b := bankBits d.fmt
  BitVec.ofNat 256 (((List.range (256 / b)).map fun i =>
    let dv := colElem d.fmt x i
    if !enabled d i then dv
    else if d.op = 5 then colElem d.fmt w i
    else match contrib with
      | some v => accwElem d dv (contribVal d v i)
      | none => accwElem d dv (bankVal d (colElem d.fmt w i))).foldr (fun e y => e % 2 ^ b + 2 ^ b * y) 0)

/-- The code words, 0 to 3, of a column word that hold an enabled element (R219). -/
def enabledWords (d : NboDesc) : BitVec 4 :=
  let b := bankBits d.fmt
  BitVec.ofNat 4 ((List.range 4).foldl (fun m c =>
    if (List.range (64 / b)).any fun j => enabled d (c * (64 / b) + j) then m + 2 ^ c else m) 0)

end Sys2Proof.Machine
end

