-- ==== Sys2Proof/Config.lean ====
section
/-! DEFINITION. The values that the spec leaves open: constants without a body, of which nothing can be proved. -/

namespace Sys2Proof.Config

/-- The 64 bytes of a data word whose content the spec calls undefined and that no store holds, by use number. -/
opaque freeLine : Nat → Line

end Sys2Proof.Config
end

