-- ==== Sys2Proof/Machine/Store.lean ====
section
/-! DEFINITION. Sparse tables in one canonical form, and memories of bytes under the (72,64) code (R360, R361). -/

namespace Sys2Proof.Machine

/-! ## Tables -/

/-- The value at a key: the listed one, or what an unlisted key reads as. -/
def tabGet {α : Type} (dflt : Nat → α) : Tab α → Nat → α
  | [], k => dflt k
  | (j, v) :: t, k => if j = k then v else tabGet dflt t k

/-- Remove a key. -/
def tabErase {α : Type} : Tab α → Nat → Tab α
  | [], _ => []
  | (j, v) :: t, k => if j = k then tabErase t k else (j, v) :: tabErase t k

/-- Put a value at a key, keeping the keys rising. -/
def tabInsert {α : Type} : Tab α → Nat → α → Tab α
  | [], k, v => [(k, v)]
  | (j, w) :: t, k, v =>
    if k < j then (k, v) :: (j, w) :: t
    else if j = k then (k, v) :: t
    else (j, w) :: tabInsert t k v

/-- Write a key: writing what an unlisted key reads as removes the entry. -/
def tabSet {α : Type} [DecidableEq α] (dflt : Nat → α) (t : Tab α) (k : Nat) (v : α) : Tab α :=
  if v = dflt k then tabErase t k else tabInsert t k v

/-- Forget the keys that satisfy a predicate: they read as unlisted. -/
def tabDrop {α : Type} (p : Nat → Bool) (t : Tab α) : Tab α := t.filter fun e => !p e.1

/-- The canonical form: keys strictly rising, no entry equal to what an unlisted key reads as. -/
def tabWf {α : Type} [DecidableEq α] (dflt : Nat → α) : Tab α → Bool
  | [] => true
  | (k, v) :: t =>
    (decide (v ≠ dflt k)) && (t.all fun e => decide (k < e.1)) && tabWf dflt t

/-! ## The code -/

/-- The columns of data bits 0 to 63 (R360). -/
def eccCols : List Nat :=
  (List.range 256).filter (fun v => popCount 8 v = 3) ++ [0x1F, 0x2F, 0x37, 0x3B, 0x3D, 0x3E, 0x4F, 0x57]

/-- The check bits computed from data: the XOR of the columns of the set bits (R360). -/
def eccCheck (d : Nat) : Nat :=
  (eccCols.zipIdx).foldl (fun c p => if d.testBit p.2 then c ^^^ p.1 else c) 0

/-- The four classes of a code word (R361). -/
inductive EccClass where
  | good
  /-- Data bit inverted. -/
  | corrected (bit : Nat)
  /-- A check bit inverted: the data stand. -/
  | correctedCheck
  | marked
  | uncorrectable
deriving DecidableEq, Repr

/-- Classify a syndrome (R361). -/
def eccClass (s : Nat) : EccClass :=
  if s = 0 then .good
  else match findPos (fun c => c == s) eccCols 0 with
    | some (i, _) => .corrected i
    | none =>
      if popCount 8 s = 1 then .correctedCheck
      else if 7 ≤ popCount 8 s then .marked
      else .uncorrectable

/-- Is data of this class passed on poisoned (R361)? -/
def EccClass.poisoned : EccClass → Bool
  | .marked => true
  | .uncorrectable => true
  | _ => false

/-- Decode one code word: the data passed on and its class (R361). -/
def eccDecode (d s : Nat) : Nat × EccClass :=
  match eccClass s with
  | .corrected i => (d ^^^ 2 ^ i, .corrected i)
  | c => (d, c)

end Sys2Proof.Machine
end

