-- ==== Sys2Proof/Machine/TypesMem.lean ====
section
/-! DEFINITION. The state of the memories, the host port, the DRAM channels and the event log: plain data. -/

namespace Sys2Proof.Machine

/-- A memory under the (72,64) code (R360 to R362): the stored data bytes (an unlisted byte holds 0) and, for each
8-byte code word by number, its syndrome (R361): 0 when the stored check bits are those of the stored data. -/
structure EccMem where
  bytes : List Host.Cell
  synd  : Tab (BitVec 8)
deriving DecidableEq, Repr

/-- Where a host request came from and what its answer carries (R62, R79). -/
structure HostTag where
  ch    : Fin 32
  srcid : BitVec 6
  tag   : BitVec 9
  seq   : BitVec 8
  op    : BitVec 4
  len   : BitVec 2
  waddr : BitVec 31
deriving DecidableEq, Repr

/-- Where a relayed request came from (R414, R417). -/
structure PeerTag where
  link  : Fin 5
  dev   : BitVec 6
  tag   : BitVec 12
  cls   : BitVec 2
deriving DecidableEq, Repr

/-- The sender of a request inside a channel (R26, R137, R346, R387). -/
inductive Origin where
  | host (h : HostTag)
  /-- A floe: its logical number, the engine (0 the instruction fetch, 3 the load slot, 4 the store slot), and the number of the
  engine's command, or of the line fetched. -/
  | floe (f : BitVec 7) (engine : Nat) (cmd : Nat)
  /-- A command of a ring (R98). -/
  | ring (n : Fin 1024) (idx : BitVec 32)
  /-- A packet fetch or history read of a ring. -/
  | fetch (n : Fin 1024)
  /-- The firn load of a bank's unit (R188): the NBO and the bank. -/
  | firn (nbo : Nat) (bank : Nat)
  | peer (p : PeerTag)
  /-- An item of the partner's mirror stream, or a twin read of its recovery (R387, R429, R432). -/
  | twinRead (link : Fin 5) (tag : BitVec 12)
  /-- The copy of the event log to its ring (R377). -/
  | moraine
  /-- Patrol scrub (R370). -/
  | scrub
  /-- A repair write (R363). -/
  | repair
deriving DecidableEq, Repr

/-- A memory request that a port's ingress holds until the controller takes it (R73, R137, R138). -/
structure PortReq where
  origin : Origin
  write  : Bool
  /-- Masked write of one word (R83); a whole-word write otherwise. -/
  masked : Bool
  addr   : DevAddr
  /-- Words addressed, minus 1. -/
  len    : BitVec 2
  cls    : BitVec 2
  field  : Option (BitVec 4)
  secure : Bool
  mask   : BitVec 64
  data   : List Line
  poison : Bool
  /-- Command slot of acceptance. -/
  since  : Nat
  /-- The DRAM words addressed, as the address order in force at acceptance places them (R134). -/
  words  : List Nat
  /-- Its number of arrival at the channel, which NBOs share (R352). -/
  arr    : Nat
  /-- Slot of the promotion that made it class 0, if one did (R141). -/
  promoted : Option Nat := none
  /-- Bits of enabled bytes that a floe's store of 4-bit elements leaves as they are (R328). -/
  keep   : Line := 0
  /-- It passed its checks before the switch point of a FIELD_CFG whose region is being zeroed (R454). -/
  old    : Bool := false
deriving DecidableEq, Repr

/-- An entry of the scheduler: one word read (R142), a scrub read or a repair write. -/
structure SchedReq where
  id       : Nat
  origin   : Origin
  /-- 0 host, 1 drift, 2 near-bank, 3 peer, 4 maintenance (R137). -/
  port     : Fin 5
  cls      : BitVec 2
  /-- Slot of the promotion that made it class 0, if one did (R141, R142). -/
  promoted : Option Nat
  /-- DRAM word number: ((channel × 64 + bank) × 32768 + row) × 16 + W. -/
  word     : Nat
  /-- Index of the word within its request. -/
  index    : BitVec 2
  field    : Option (BitVec 4)
  since    : Nat
  /-- Arrival number of its request. -/
  arr      : Nat
deriving DecidableEq, Repr

/-- A word of a channel's write buffer (R149). -/
structure BufWord where
  id       : Nat
  word     : Nat
  data     : Line
  /-- The bytes that it holds: a masked write that meets an atom leaves the others to the array (R83, R209). -/
  mask     : BitVec 64
  /-- Bits of those bytes that it leaves to the array (R328). -/
  keep     : Line
  /-- Code words to be written with the mark. -/
  marks    : BitVec 8
  cls      : BitVec 2
  promoted : Option Nat
  /-- Field, port, acceptance and arrival number of its oldest write (R149). -/
  field    : Option (BitVec 4)
  port     : Fin 5
  since    : Nat
  arr      : Nat
  /-- Acceptance of the earliest native class-0 write merged into it (R149). -/
  native   : Option Nat
  /-- The NBOs behind which it is held (R210): it is held until each has finished. -/
  held     : List Nat
  /-- Host write words merged into it, whose credits return when it leaves (R73). -/
  hostWords : Nat
  /-- Arrival numbers of the host-port and peer-port requests in it (R145). -/
  arrs     : List Nat
  /-- The floes and commands whose stores it holds (R371). -/
  srcs     : List Origin
  /-- It reads uncorrectable in the buffer: it is poisoned, and written with the mark (R362). -/
  ue       : Bool := false
deriving DecidableEq, Repr

/-- An entry of a bank's activate table (R159). -/
structure ActEntry where
  row   : Nat
  count : Nat
  flag  : Bool
deriving DecidableEq, Repr

/-- A bank of a channel (R126, R151, R159 to R161): times are command slots. -/
structure Bank where
  /-- Open row, if any. -/
  row      : Option Nat
  lastAct  : Option Nat
  lastRd   : Option Nat
  lastWr   : Option Nat
  lastPre  : Option Nat
  /-- Start of the idle timer (R151). -/
  idleFrom : Option Nat
  /-- The idle timer has reached its limit (R151). -/
  idleDue  : Bool
  /-- End of a targeted refresh under way (R161). -/
  trrUntil : Option Nat
  acts     : List ActEntry
  /-- Rows of pending targeted-refresh events, oldest first (R160). -/
  events   : List Nat
deriving DecidableEq, Repr

def Bank.init : Bank :=
  { row := none, lastAct := none, lastRd := none, lastWr := none, lastPre := none, idleFrom := none,
    idleDue := false, trrUntil := none, acts := [], events := [] }

/-- A word in twin recovery, since when, and the requests that wait for it (R387). -/
structure Recovery where
  word    : Nat
  since   : Nat
  sent    : Bool
  waiting : List SchedReq
deriving DecidableEq, Repr

/-- A data word that a read has produced and that its port has not yet sent (R61, R143). -/
structure ReadyWord where
  origin : Origin
  /-- Its DRAM word. -/
  word   : Nat
  cls    : BitVec 2
  index  : BitVec 2
  data   : Line
  poison : Bool
  since  : Nat
deriving DecidableEq, Repr

/-- A DRAM channel and its controller (R126 to R167). Times are command slots. -/
structure Chan where
  /-- Training and initialisation complete, in service (CH_STAT.READY). -/
  ready     : Bool
  training  : Bool
  down      : Bool
  selfRef   : Bool
  powerDown : Bool
  /-- Since when the channel has had nothing to do (R153). -/
  idleFrom  : Option Nat
  /-- First command after a wake (tXP). -/
  wakeAt    : Nat
  hostIn    : List PortReq
  driftIn   : List PortReq
  peerIn    : List PortReq
  reqs      : List SchedReq
  wbuf      : List BufWord
  readyQ    : List ReadyWord
  nextId    : Nat
  banks     : Tab Bank
  /-- The last four activates and targeted refreshes: slot and bank, newest first (tFAW, tRRD). -/
  lastActs  : List (Nat × Nat)
  /-- Slots of the last activates that throttling bounds (R518), newest first. -/
  lastThr   : List Nat
  /-- Last read and write column commands: slot and bank group, newest first. -/
  lastRds   : List (Nat × Nat)
  lastWrs   : List (Nat × Nat)
  /-- Last slot in which the scheduler ran. -/
  lastSlot  : Option Nat
  /-- Words and atom column operations issued for each field in the window (R144). -/
  shares    : Tab Nat
  window    : Nat
  /-- OWED (R155). -/
  owed      : Int
  /-- End of the current tREFI. -/
  nextRefi  : Nat
  lastRef   : Option Nat
  /-- End of the refresh under way. -/
  refUntil  : Option Nat
  refForced : Bool
  /-- A forced refresh is pending (R156). -/
  forced    : Bool
  /-- Order of its request for a stagger slot (R157). -/
  refAsked  : Option Nat
  /-- All-bank refreshes since the tables were emptied (R160). -/
  refCount  : Nat
  /-- The next retraining visit falls due in this slot (R166). -/
  nextVisit : Nat
  /-- A visit is due: it shares the next refresh (R166). -/
  visitDue  : Bool
  /-- End of a retraining pause. -/
  pauseUntil : Option Nat
  /-- Start of the refresh or retrain under way, and end of the last: chain transfers stall meanwhile (R199). -/
  stallFrom : Option Nat
  stallEnd  : Nat
  /-- A full retrain is called for or under way (R167), and its failures so far. -/
  retrain   : Bool
  retrainFails : Nat
  /-- Next row of patrol scrub: bank × 32768 + row, and the slot of its last visit (R370). -/
  scrubNext : Nat
  scrubAt   : Nat
  recovery  : List Recovery
  /-- NBOs waiting at the near-bank port in arrival order, by number (R186). -/
  nearWait  : List Nat
  /-- Host-port and peer-port requests waiting for a bank at its boundary: bank and arrival number (R145). -/
  atBoundary : List (Nat × Nat)
deriving DecidableEq, Repr

def Chan.init : Chan :=
  { ready := false, training := false, down := false, selfRef := false, powerDown := false, idleFrom := none,
    wakeAt := 0, hostIn := [], driftIn := [], peerIn := [], reqs := [], wbuf := [], readyQ := [], nextId := 0,
    banks := [], lastActs := [], lastThr := [], lastRds := [], lastWrs := [], lastSlot := none, shares := [],
    window := 0, owed := 0, nextRefi := 0, lastRef := none, refUntil := none, refForced := false, forced := false,
    refAsked := none, refCount := 0, nextVisit := 0, visitDue := false, pauseUntil := none, stallFrom := none, stallEnd := 0,
    retrain := false, retrainFails := 0,
    scrubNext := 0, scrubAt := 0, recovery := [], nearWait := [], atBoundary := [] }

/-- A beat that the device drives: its implicit RSEQ, its META, its 64 bytes and its CRC (R60, R65, R67). -/
structure DevBeat where
  rseq : BitVec 8
  info : BitVec 16
  data : Line
  crc  : BitVec 16
deriving DecidableEq, Repr

/-- A beat that waits to be driven; `c0` marks a data beat of a class-0 read (R143). -/
structure OutBeat where
  c0   : Bool
  info : BitVec 16
  data : Line
deriving DecidableEq, Repr

/-- A request frame as it arrived, with its mask frame and the data beats that came with it (R55, R57). -/
structure FrameIn where
  body    : BitVec 64
  crc     : BitVec 16
  mask    : BitVec 64
  maskCrc : BitVec 16
  beats   : List HostBeat
deriving DecidableEq, Repr

/-- Why a channel trains (R75, R76, R72). -/
inductive TrainCause where
  | start
  | service
  | linkFail
deriving DecidableEq, Repr

/-- A host channel (R67 to R76, R86). -/
structure HostPort where
  up       : Bool
  training : Option TrainCause
  down     : Bool
  slow     : Bool
  expSeq   : BitVec 8
  nextRseq : BitVec 8
  lastRack : BitVec 8
  /-- `in_error` and `nak_time` of R68. -/
  inError  : Bool
  nakTime  : Option Nat
  /-- Accepted frames not yet acknowledged, and when the oldest was accepted (R68). -/
  unacked  : Nat
  unackedSince : Nat
  /-- Device beats sent and not acknowledged: what the host has received or will (R67). -/
  held     : List DevBeat
  /-- Beats that wait for a free place among the 128 (R67). -/
  outq     : List OutBeat
  /-- A frame that waits for its write data (R68). -/
  waiting  : Option FrameIn
  /-- Sequenced frames received behind it (R68). -/
  behind   : List FrameIn
  /-- Cumulative credits granted, and consumed by the host (R73). -/
  rqGiven  : BitVec 16
  wdGiven  : BitVec 16
  rqUsed   : BitVec 16
  wdUsed   : BitVec 16
  /-- Credits freed and not yet returned. -/
  rqFreed  : Nat
  wdFreed  : Nat
  /-- Read tags in use, with the beats each has still to send (R80). -/
  tags     : List (BitVec 9 × Nat)
  /-- Replay rounds in a row that the expected frame, and the beat after `rnakAt`, have called for: nine when eight have failed
  (R72). -/
  rounds   : Nat
  rnaks    : Nat
  rnakAt   : BitVec 8
  replay   : Bool
  /-- The device asks for retraining by a link beat (R76). -/
  askTrain : Bool
  attempts : Nat
  /-- The TRAINED link beat of the last training (R75). -/
  trained  : Option Line
  /-- When the command clock of the channel's rings has paused, and since when it pauses now (R116). -/
  pauses   : List (Nat × Nat)
  pauseFrom : Option Nat
deriving DecidableEq, Repr

def HostPort.init : HostPort :=
  { up := false, training := none, down := false, slow := false, expSeq := 0, nextRseq := 0, lastRack := 0xFF,
    inError := false, nakTime := none, unacked := 0, unackedSince := 0, held := [], outq := [], waiting := none, behind := [],
    rqGiven := 0, wdGiven := 0, rqUsed := 0, wdUsed := 0, rqFreed := 0, wdFreed := 0, tags := [], rounds := 0,
    replay := false, askTrain := false, attempts := 0, trained := none, pauses := [], pauseFrom := none,
    rnaks := 0, rnakAt := 0 }

/-- A moraine event, as the entry of R374 holds it. -/
structure MorEvent where
  time   : BitVec 64
  code   : BitVec 16
  sev    : BitVec 2
  rept   : Bool
  field  : Option (BitVec 4)
  unit   : BitVec 16
  ukind  : BitVec 8
  addr   : BitVec 64
  info   : BitVec 32
deriving DecidableEq, Repr

/-- An open coalescing window (R376): its key, the slot it opened in, and the last occurrence counted. -/
structure MorWindow where
  code   : BitVec 16
  ukind  : BitVec 8
  unit   : BitVec 16
  opened : Nat
  count  : Nat
  last   : MorEvent
deriving DecidableEq, Repr

/-- The base-die fuses (R469, R382, R479, R484). -/
structure Fuses where
  uid       : BitVec 64
  /-- The four SHA-384 key digests, and the revoked ones. -/
  keyDigest : List (BitVec 384)
  revoked   : BitVec 4
  /-- The security-version thermometer. -/
  svn       : BitVec 64
  /-- The vendor public key, X then Y (R458). -/
  vendorKey : BitVec 768
  vendorEn  : Bool
  /-- The repair record: at most 16 slots (R382). -/
  repair    : List (Fin 136)
deriving DecidableEq, Repr

def Fuses.start : Fuses :=
  { uid := 1, keyDigest := [0, 0, 0, 0], revoked := 0, svn := 0, vendorKey := 0, vendorEn := false, repair := [] }

end Sys2Proof.Machine
end

