-- ==== Sys2Proof/Machine/EccMem.lean ====
section
/-! DEFINITION. Reading and writing memories under the (72,64) code (R82, R83, R360, R361, R366), 64-byte word by
64-byte word, and the address orders (R131 to R135). -/

namespace Sys2Proof.Machine

/-- The stored data byte at an address. -/
def EccMem.byte (m : EccMem) (a : Nat) : BitVec 8 := tabGet (fun _ => 0) m.bytes a

/-- Store one data byte, the check bits apart. -/
def EccMem.putByte (m : EccMem) (a : Nat) (b : BitVec 8) : EccMem :=
  { m with bytes := tabSet (fun _ => 0) m.bytes a b }

/-- Store bytes from an address up. -/
def EccMem.putBytes (m : EccMem) (a : Nat) : List (BitVec 8) → EccMem
  | [] => m
  | b :: bs => (m.putByte a b).putBytes (a + 1) bs

/-- The syndrome of a code word. -/
def EccMem.syndrome (m : EccMem) (w : Nat) : BitVec 8 := tabGet (fun _ => 0) m.synd w

def EccMem.putSynd (m : EccMem) (w : Nat) (s : BitVec 8) : EccMem :=
  { m with synd := tabSet (fun _ => 0) m.synd w s }

/-- The 64 data bits of a code word as stored. -/
def EccMem.raw64 (m : EccMem) (w : Nat) : Nat := leNat ((List.range 8).map fun i => m.byte (8 * w + i))

/-- A code word decoded (R361). -/
def EccMem.read64 (m : EccMem) (w : Nat) : Nat × EccClass := eccDecode (m.raw64 w) (m.syndrome w).toNat

/-- What reading a 64-byte word gives. -/
structure WordRead where
  data      : Line
  /-- Some code word is marked or uncorrectable (R361). -/
  poison    : Bool
  /-- Code words corrected, and found uncorrectable without the mark. -/
  corrected : Nat
  uncorr    : Nat
  /-- Code words, by position, that are marked or uncorrectable. -/
  marks     : BitVec 8
deriving DecidableEq, Repr

/-- Decode the eight code words of 64-byte word number `n` (R361, R364). -/
def EccMem.readWord (m : EccMem) (n : Nat) : WordRead :=
  let cs := (List.range 8).map fun i => m.read64 (8 * n + i)
  { data := BitVec.ofNat 512 (cs.foldr (fun c x => c.1 % 2 ^ 64 + 2 ^ 64 * x) 0)
    poison := cs.any fun c => c.2.poisoned
    corrected := (cs.filter fun c => match c.2 with
      | .corrected _ => true
      | .correctedCheck => true
      | _ => false).length
    uncorr := (cs.filter fun c => c.2 == .uncorrectable).length
    marks := BitVec.ofNat 8 (cs.foldr (fun c x => (if c.2.poisoned then 1 else 0) + 2 * x) 0) }

/-- Write a whole 64-byte word with the given code words marked and the others encoded afresh (R82, R360). -/
def EccMem.writeWord (m : EccMem) (n : Nat) (d : Line) (marks : BitVec 8) : EccMem :=
  (List.range 8).foldl (fun m i => m.putSynd (8 * n + i) (if marks.getLsbD i then 0xFF else 0))
    (m.putBytes (64 * n) (lineBytes d))

/-- The bytes of `old` with those of `new` that the mask enables. -/
def mergeLine (old new : Line) (mask : BitVec 64) : Line :=
  bytesLine ((List.range 64).map fun i => if mask.getLsbD i then lineByte new i else lineByte old i)

/-- The code words that hold an enabled byte. -/
def maskWords (mask : BitVec 64) : BitVec 8 :=
  BitVec.ofNat 8 ((List.range 8).foldr (fun i x => (if fieldAt mask.toNat i 1 = 0 then 0 else 1) + 2 * x) 0)

/-- `new`, but for the bits of `keep`, which stay those of `old`. -/
def keepBits (old new keep : Line) : Line := (new &&& ~~~keep) ||| (old &&& keep)

/-- The bits of the bytes that a mask enables. -/
def maskBits (mask : BitVec 64) : Line := mergeLine 0 (BitVec.allOnes 512) mask

/-- The result of a masked write on a stored word (R83, R366): the new data, its marks, and whether the stored
word was poisoned. An all-ones mask replaces the word; poisoned data mark what they reach. The bits of `keep` stay as they are:
the other halves of bytes in which a 4-bit element is written (R328). -/
def mergeWord (old : WordRead) (new : Line) (mask : BitVec 64) (poison : Bool) (keep : Line := 0) : Line × BitVec 8 × Bool :=
  if mask = BitVec.allOnes 64 ∧ keep = 0 then (new, if poison then 0xFF else 0, false)
  else
    let d := mergeLine old.data (keepBits old.data new keep) mask
    if old.poison then (d, 0xFF, true)
    else (d, if poison then maskWords mask else 0, false)

/-- Every word from byte `a`, `n` bytes, becomes zeros with valid check bits. -/
def EccMem.zero (m : EccMem) (a n : Nat) : EccMem :=
  { bytes := tabDrop (fun k => decide (a ≤ k) && decide (k < a + n)) m.bytes
    synd := tabDrop (fun k => decide (a / 8 ≤ k) && decide (k < (a + n) / 8)) m.synd }

/-- Both tables are canonical. -/
def EccMem.wf (m : EccMem) : Bool := tabWf (fun _ => (0 : BitVec 8)) m.bytes && tabWf (fun _ => (0 : BitVec 8)) m.synd

/-! ## Address orders -/

/-- Where a byte of DRAM lies (R126). -/
structure Place where
  ch   : Nat
  bank : Nat
  row  : Nat
  w    : Nat
  byte : Nat
deriving DecidableEq, Repr

/-- The bank hash of ORD0, ORD1 and ORD2 (R133). -/
def hashBank (b row : Nat) : Nat :=
  (((bits b 5 3) ^^^ (bits row 2 0)) ^^^ (bits row 5 3)) * 8 + bits b 2 0

/-- `decode(a)` of R135; `ord` is none in interleave mode. -/
def decodeAddr (ord : Option Nat) (g : Nat) (a : Nat) : Place :=
  match ord with
  | none =>
    let l := (bits a 35 (g + 5)) * 2 ^ g + (if g = 0 then 0 else bits a (g - 1) 0)
    { ch := bits a (g + 4) g, bank := bits l 15 10, row := bits l 30 16, w := bits l 9 6, byte := bits a 5 0 }
  | some 0 =>
    { ch := bits a 12 8, bank := hashBank (bits a 20 15) (bits a 35 21), row := bits a 35 21,
      w := bits a 14 13 * 4 + bits a 7 6, byte := bits a 5 0 }
  | some 1 =>
    { ch := bits a 35 31, bank := hashBank (bits a 15 10) (bits a 30 16), row := bits a 30 16,
      w := bits a 9 6, byte := bits a 5 0 }
  | some 2 =>
    { ch := bits a 35 33 * 4 + bits a 9 8, bank := hashBank (bits a 17 12) (bits a 32 18), row := bits a 32 18,
      w := bits a 11 10 * 4 + bits a 7 6, byte := bits a 5 0 }
  | some _ =>
    { ch := bits a 35 31, bank := bits a 30 25, row := bits a 24 10, w := bits a 9 6, byte := bits a 5 0 }

/-- The DRAM word number of a place. -/
def Place.word (p : Place) : Nat := ((p.ch * 64 + p.bank) * 32768 + p.row) * 16 + p.w

/-- The channel, bank, row and W of a DRAM word number. -/
def wordPlace (n : Nat) : Place :=
  { ch := n / 16 / 32768 / 64, bank := n / 16 / 32768 % 64, row := n / 16 % 32768, w := n % 16, byte := 0 }

/-- The device address of a place: the inverse of `decodeAddr` (R132 to R134). -/
def encodeAddr (ord : Option Nat) (g : Nat) (p : Place) : Nat :=
  match ord with
  | none =>
    let l := p.row * 2 ^ 16 + p.bank * 2 ^ 10 + p.w * 2 ^ 6 + p.byte
    (l / 2 ^ g) * 2 ^ (g + 5) + p.ch * 2 ^ g + l % 2 ^ g
  | some 0 =>
    p.row * 2 ^ 21 + hashBank p.bank p.row * 2 ^ 15 + (p.w / 4) * 2 ^ 13 + p.ch * 2 ^ 8 + (p.w % 4) * 2 ^ 6 + p.byte
  | some 1 =>
    p.ch * 2 ^ 31 + p.row * 2 ^ 16 + hashBank p.bank p.row * 2 ^ 10 + p.w * 2 ^ 6 + p.byte
  | some 2 =>
    (p.ch / 4) * 2 ^ 33 + p.row * 2 ^ 18 + hashBank p.bank p.row * 2 ^ 12 + (p.w / 4) * 2 ^ 10 +
      (p.ch % 4) * 2 ^ 8 + (p.w % 4) * 2 ^ 6 + p.byte
  | some _ =>
    p.ch * 2 ^ 31 + p.bank * 2 ^ 25 + p.row * 2 ^ 10 + p.w * 2 ^ 6 + p.byte

end Sys2Proof.Machine
end

