-- ==== Sys2Proof/Machine/RegMap.lean ====
section
/-! DEFINITION. The control-space register map (R9 to R12, R35): one row for each register, with the bits each
access code of R10 governs, its value after a reset that reinitialises its block, and the bits that survive. -/

namespace Sys2Proof.Machine

/-- A register, or an array of `n` × `m` registers at `off + i × st + j × st2`. -/
structure RegRow where
  name   : String
  off    : Nat
  n      : Nat := 1
  st     : Nat := 4
  m      : Nat := 1
  st2    : Nat := 4
  /-- Value after a reset that reinitialises the block; a field marked cfg reads 0 until it is loaded (R11). -/
  reset  : Reg := 0
  /-- Bits that survive every reset but power-on (R11). -/
  sticky : Reg := 0
  rw     : Reg := 0
  rws    : Reg := 0
  rwl    : Reg := 0
  w1c    : Reg := 0
  /-- 1 the low half, 2 the high half of a 64-bit quantity (R9, R47). -/
  half   : Nat := 0
deriving DecidableEq, Repr

/-- Does the register row hold the offset? -/
def RegRow.holds (r : RegRow) (o : Nat) : Bool :=
  if o < r.off then false
  else
    let d := o - r.off
    let i := if r.n ≤ 1 then 0 else d / r.st
    let e := d - i * r.st
    decide (i < r.n) && (if r.m ≤ 1 then e == 0 else e % r.st2 == 0 && decide (e / r.st2 < r.m))

/-! ## Offsets used by name -/

abbrev rIdent : Nat := 0x0
abbrev rUidLo : Nat := 0x10
abbrev rUidHi : Nat := 0x14
abbrev rTimeLo : Nat := 0x200
abbrev rTimeHi : Nat := 0x204
abbrev rTimeStat : Nat := 0x208
abbrev rRstCause : Nat := 0x300
abbrev rRstStat : Nat := 0x304
abbrev rRstCtrl : Nat := 0x308
abbrev rCfgStat : Nat := 0x400
abbrev rCfgVersion : Nat := 0x404
abbrev rCfgSeq : Nat := 0x408
abbrev rCfgSvn : Nat := 0x40C
abbrev rCfgErr : Nat := 0x410
abbrev rCfgStartMs : Nat := 0x414
abbrev rCfgHdown : Nat := 0x418
abbrev rCfgDdown : Nat := 0x41C
abbrev rCfgBist : Nat := 0x420
abbrev rCfgHash : Nat := 0x440
abbrev rFlCtrl : Nat := 0x600
abbrev rFlAddr : Nat := 0x604
abbrev rFlStat : Nat := 0x608
abbrev rFlBuf : Nat := 0x700

abbrev rFld (f : Nat) : Nat := 0x020000 + 0x100 * f
abbrev rFldQos (f : Nat) : Nat := rFld f + 0x08
abbrev rSemOwn (k : Nat) : Nat := 0x030000 + 4 * k
abbrev rHst (ch k : Nat) : Nat := 0x040000 + 0x40 * ch + 4 * k
abbrev rRegion (r : Nat) : Nat := 0x080000 + 4 * r
abbrev rDbgStat : Nat := 0x0F0000
abbrev rDbgCtrl : Nat := 0x0F0004
abbrev rDbgPolicy : Nat := 0x0F0008

abbrev rCh (ch : Nat) : Nat := 0x100000 + ch * 0x4000
abbrev rChStat (ch : Nat) : Nat := rCh ch
abbrev rChCfg (ch : Nat) : Nat := rCh ch + 0x4
abbrev rChCtrl (ch : Nat) : Nat := rCh ch + 0x8
abbrev rChPage (ch : Nat) : Nat := rCh ch + 0xC
abbrev rChTarget (ch p : Nat) : Nat := rCh ch + 0x10 + 4 * p
abbrev rChActThr (ch : Nat) : Nat := rCh ch + 0x20
abbrev rChLatMax (ch : Nat) : Nat := rCh ch + 0x24
abbrev rChAct (ch : Nat) : Nat := rCh ch + 0x100
abbrev rChRef (ch : Nat) : Nat := rCh ch + 0x108
abbrev rChRefForced (ch : Nat) : Nat := rCh ch + 0x110
abbrev rChTrr (ch : Nat) : Nat := rCh ch + 0x118
abbrev rChPromote (ch : Nat) : Nat := rCh ch + 0x120
abbrev rChRetrain (ch : Nat) : Nat := rCh ch + 0x128
abbrev rChTsvLane (ch k : Nat) : Nat := rCh ch + 0x400 + 4 * k
abbrev rHpStat (ch : Nat) : Nat := rCh ch + 0x3000
abbrev rHpCtrl (ch : Nat) : Nat := rCh ch + 0x3004
abbrev rHpErr (ch : Nat) : Nat := rCh ch + 0x3008
abbrev rHpCrc (ch : Nat) : Nat := rCh ch + 0x3010
abbrev rHpReplay (ch : Nat) : Nat := rCh ch + 0x3018
abbrev rHpDup (ch : Nat) : Nat := rCh ch + 0x3020
abbrev rHpLane (ch k : Nat) : Nat := rCh ch + 0x3028 + 4 * k

abbrev rFloe (n : Nat) : Nat := 0x200000 + n * 0x1000
abbrev rFreeze (n : Nat) : Nat := rFloe n + 0xC00
abbrev rFreezeStores (n : Nat) : Nat := rFloe n + 0xC04
abbrev rFreezeTime (n : Nat) : Nat := rFloe n + 0xC08
abbrev rPoisonStat (n : Nat) : Nat := rFloe n + 0xC10
abbrev rPoisonAddr (n : Nat) : Nat := rFloe n + 0xC14
abbrev rLsCe (n : Nat) : Nat := rFloe n + 0xC20
abbrev rLsUe (n : Nat) : Nat := rFloe n + 0xC28
abbrev rPoisonStored (n : Nat) : Nat := rFloe n + 0xC30

abbrev rDrift (d : Nat) : Nat := 0x300000 + d * 0x1000
abbrev rDriftField (d : Nat) : Nat := rDrift d + 0x100

abbrev rMorEntry (i k : Nat) : Nat := 0x500000 + 32 * i + 4 * k
abbrev rMorStat : Nat := 0x580000
abbrev rMorSeq : Nat := 0x580004
abbrev rMorCfg : Nat := 0x580008
abbrev rMorBase : Nat := 0x580010
abbrev rMorTail : Nat := 0x580018
abbrev rMorHead : Nat := 0x58001C
abbrev rMorDrop : Nat := 0x580020
abbrev rMorFatal : Nat := 0x580040
abbrev rErrScrub : Nat := 0x580100
abbrev rErrTwin : Nat := 0x580104
abbrev rErrCe (ch : Nat) : Nat := 0x581000 + ch * 0x40
abbrev rErrUe (ch : Nat) : Nat := rErrCe ch + 0x08
abbrev rErrScrubRows (ch : Nat) : Nat := rErrCe ch + 0x10
abbrev rErrTwinOk (ch : Nat) : Nat := rErrCe ch + 0x18
abbrev rErrTwinFail (ch : Nat) : Nat := rErrCe ch + 0x20

abbrev rCpStat : Nat := 0x800
abbrev rCpTimeout : Nat := 0x804
abbrev rCpAttnRoute : Nat := 0x808
abbrev rCpAttnDev : Nat := 0x80C
abbrev rCpAttnLevel : Nat := 0x810
abbrev rCpDevsrc : Nat := 0x814
abbrev rCpFieldPend : Nat := 0x818
abbrev rCpRingPend (ch : Nat) : Nat := 0x880 + 4 * ch
abbrev rAdm (f : Nat) : Nat := 0xC00 + 0x40 * f
abbrev rAdmCfg (f : Nat) : Nat := rAdm f + 0x18
abbrev rAdmTicket (f : Nat) : Nat := rAdm f + 0x1C

abbrev rNbStat (ch : Nat) : Nat := rCh ch + 0x2000
abbrev rNbToken (ch : Nat) : Nat := rCh ch + 0x2004
abbrev rNbTokenUse (ch : Nat) : Nat := rCh ch + 0x2008
abbrev rNbAtom (ch : Nat) : Nat := rCh ch + 0x2100
abbrev rNbFin (ch : Nat) : Nat := rCh ch + 0x2108
abbrev rNbRej (ch : Nat) : Nat := rCh ch + 0x2110
abbrev rNbTokwait (ch : Nat) : Nat := rCh ch + 0x2118
abbrev rNbCorr (ch : Nat) : Nat := rCh ch + 0x2120
abbrev rNbBank (ch b : Nat) : Nat := rCh ch + 0x2400 + 4 * b

abbrev rFloeId (n : Nat) : Nat := rFloe n
abbrev rFloeStat (n : Nat) : Nat := rFloe n + 0x4
abbrev rHaltReason (n : Nat) : Nat := rFloe n + 0x8
abbrev rHaltAddr (n : Nat) : Nat := rFloe n + 0x10
abbrev rRetire (n : Nat) : Nat := rFloe n + 0x18
abbrev rFloeEpoch (n : Nat) : Nat := rFloe n + 0x20
abbrev rFloeCmdq (n e : Nat) : Nat := rFloe n + 0x40 + 4 * e
abbrev rFloeQstat (n q : Nat) : Nat := rFloe n + 0x80 + 4 * q
abbrev rFloeCycles (n : Nat) : Nat := rFloe n + 0x100
abbrev rFloeBundles (n : Nat) : Nat := rFloe n + 0x108
abbrev rFloeSkipped (n : Nat) : Nat := rFloe n + 0x110
abbrev rStallRunahead (n : Nat) : Nat := rFloe n + 0x118
abbrev rStallCmdq (n : Nat) : Nat := rFloe n + 0x120
abbrev rStallIcache (n : Nat) : Nat := rFloe n + 0x128
abbrev rStallWait (n : Nat) : Nat := rFloe n + 0x130
abbrev rStallQcfg (n : Nat) : Nat := rFloe n + 0x138
abbrev rIcMiss (n : Nat) : Nat := rFloe n + 0x140
abbrev rIcErr (n : Nat) : Nat := rFloe n + 0x148
abbrev rDriftMap (d : Nat) : Nat := rDrift d
abbrev rDriftSpare (d : Nat) : Nat := rDrift d + 0x4
abbrev rDriftFloes (d : Nat) : Nat := rDrift d + 0x8

abbrev rDtStage (n k : Nat) : Nat := rFloe n + 0x400 + 4 * k
abbrev rDtCmd (n : Nat) : Nat := rFloe n + 0x480
abbrev rDtStatus (n : Nat) : Nat := rFloe n + 0x484
abbrev rDtFirst (n : Nat) : Nat := rFloe n + 0x488
abbrev rDtLast (n : Nat) : Nat := rFloe n + 0x490
abbrev rDtValid (n k : Nat) : Nat := rFloe n + 0x4A0 + 4 * k
abbrev rTrkStat (n : Nat) : Nat := rFloe n + 0x500
abbrev rTrkWaitLoad (n : Nat) : Nat := rFloe n + 0x600
abbrev rTrkWaitStore (n : Nat) : Nat := rFloe n + 0x608
abbrev rIdxUsed (n : Nat) : Nat := rFloe n + 0x610
abbrev rIdxSkipped (n : Nat) : Nat := rFloe n + 0x618
abbrev rScatNbo (n : Nat) : Nat := rFloe n + 0x620
abbrev rScatPoison (n : Nat) : Nat := rFloe n + 0x628

abbrev rSyncFlags (n : Nat) : Nat := rFloe n + 0x800
abbrev rSyncWdog (n : Nat) : Nat := rFloe n + 0x808
abbrev rSyncWait (n : Nat) : Nat := rFloe n + 0x80C
abbrev rSemSel (n : Nat) : Nat := rFloe n + 0x810
abbrev rSemVal (n : Nat) : Nat := rFloe n + 0x818
abbrev rCommitStat (n : Nat) : Nat := rFloe n + 0x840
abbrev rCommitSeq (n : Nat) : Nat := rFloe n + 0x844
abbrev rCommitResume (n : Nat) : Nat := rFloe n + 0x848
abbrev rCommitTime (n : Nat) : Nat := rFloe n + 0x850
abbrev rCommitN (n k : Nat) : Nat := rFloe n + 0x880 + 8 * k
abbrev rSyncCnt (n t : Nat) : Nat := rFloe n + 0x900 + 4 * t
abbrev rSyncLimit (n t : Nat) : Nat := rFloe n + 0xA00 + 4 * t

abbrev rLnk (l : Nat) : Nat := 0x400000 + 0x100 * l
abbrev rLnkStat (l : Nat) : Nat := rLnk l
abbrev rLnkCtrl (l : Nat) : Nat := rLnk l + 0x4
abbrev rLnkErr (l : Nat) : Nat := rLnk l + 0x8
abbrev rLnkPeerUid (l : Nat) : Nat := rLnk l + 0x10
abbrev rLnkCrc (l : Nat) : Nat := rLnk l + 0x20
abbrev rLnkReplay (l : Nat) : Nat := rLnk l + 0x28
abbrev rLnkDup (l : Nat) : Nat := rLnk l + 0x30
abbrev rLnkFecCorr (l : Nat) : Nat := rLnk l + 0x38
abbrev rLnkFecUncorr (l : Nat) : Nat := rLnk l + 0x40
abbrev rGrpStat : Nat := 0x400800
abbrev rGrpEpoch : Nat := 0x400804
abbrev rGrpMembers : Nat := 0x400808
abbrev rGrpCfg : Nat := 0x400810
abbrev rGrpTrim : Nat := 0x400814
abbrev rGrpRoute (k : Nat) : Nat := 0x400900 + 4 * k
abbrev rTwinStat : Nat := 0x400A00
abbrev rTwinUid : Nat := 0x400A04
abbrev rTwinLag : Nat := 0x400A0C
abbrev rRlyCtrl (w : Nat) : Nat := 0x401000 + 0x10 * w
abbrev rRlyBase (w : Nat) : Nat := 0x401004 + 0x10 * w

abbrev rThmStat : Nat := 0x010000
abbrev rThmCfg : Nat := 0x010004
abbrev rThmDram (i : Nat) : Nat := 0x010100 + 4 * i
abbrev rThmBase (k : Nat) : Nat := 0x010200 + 4 * k
abbrev rThmTrip : Nat := 0x010300
abbrev rPwrLimit : Nat := 0x010400
abbrev rPwrStat : Nat := 0x010404
abbrev rPwrEnergy : Nat := 0x010408
abbrev rPwrPhase (p : Nat) : Nat := 0x010500 + 4 * p
abbrev rClkStat : Nat := 0x010600
abbrev rMonVolt (v : Nat) : Nat := 0x010700 + 4 * v
abbrev rMonProcCtrl : Nat := 0x010800
abbrev rMonProc (k : Nat) : Nat := 0x010804 + 4 * k

/-! ## Rows -/

/-- A 64-bit read-only counter, its two halves (R9), replicated `n` times. -/
def ctr64 (name : String) (off : Nat) (n : Nat := 1) (st : Nat := 4) (sticky : Reg := 0) : List RegRow :=
  [{ name := name ++ "_LO", off := off, n := n, st := st, sticky := sticky, half := 1 },
   { name := name ++ "_HI", off := off + 4, n := n, st := st, sticky := sticky, half := 2 }]

/-- The global block: identity, features, timebase, reset, configuration status and flash (R41, R44, R46, R502, R503). -/
def rowsGlobal : List RegRow :=
  [{ name := "GLB_IDENT", off := rIdent, reset := 0x0A216440 },
   { name := "GLB_STEP", off := 0x4, reset := 0x0100 },
   { name := "GLB_CONTRACT", off := 0x8, reset := 0x0100 },
   { name := "GLB_UID_LO", off := rUidLo, sticky := 0xFFFFFFFF, half := 1 },
   { name := "GLB_UID_HI", off := rUidHi, sticky := 0xFFFFFFFF, half := 2 },
   { name := "FEAT_FLOE", off := 0x100, reset := 0x08020414 },
   { name := "FEAT_MATRIX", off := 0x104, reset := 0x00202043 },
   { name := "FEAT_MATRIX_FMT", off := 0x108, reset := 0x042119FC },
   { name := "FEAT_VECTOR", off := 0x10C, reset := 0x40820207 },
   { name := "FEAT_STORE", off := 0x110, reset := 0x20010107 },
   { name := "FEAT_QUEUE", off := 0x114, reset := 0x20080100 },
   { name := "FEAT_FRONT", off := 0x118, reset := 0x80100800 },
   { name := "FEAT_SYNC", off := 0x11C, reset := 0x40401000 },
   { name := "FEAT_MEM", off := 0x120, reset := 0x20404015 },
   { name := "FEAT_DRAM", off := 0x124, reset := 0x80000A20 },
   { name := "FEAT_BANKU", off := 0x128, reset := 0x80020200 },
   { name := "FEAT_BANKU_FMT", off := 0x12C, reset := 0x10107C0C },
   { name := "FEAT_SYSTEM", off := 0x130, reset := 0x40411044 },
   { name := "FEAT_CLOCK", off := 0x134, reset := 0x04B001F4 },
   { name := "GLB_TIME_LO", off := rTimeLo, half := 1 },
   { name := "GLB_TIME_HI", off := rTimeHi, half := 2 },
   { name := "GLB_TIME_STAT", off := rTimeStat },
   { name := "RST_CAUSE", off := rRstCause, sticky := 0x1FF, w1c := 0xFF },
   { name := "RST_STAT", off := rRstStat, sticky := 0xE00CFFFF },
   { name := "RST_CTRL", off := rRstCtrl },
   { name := "CFG_STAT", off := rCfgStat, sticky := 0xFF00 },
   { name := "CFG_VERSION", off := rCfgVersion },
   { name := "CFG_SEQ", off := rCfgSeq },
   { name := "CFG_SVN", off := rCfgSvn },
   { name := "CFG_ERR", off := rCfgErr, reset := 0x0C0C },
   { name := "CFG_START_MS", off := rCfgStartMs },
   { name := "CFG_HDOWN", off := rCfgHdown },
   { name := "CFG_DDOWN", off := rCfgDdown },
   { name := "CFG_BIST", off := rCfgBist, n := 5 },
   { name := "CFG_HASH", off := rCfgHash, n := 12 },
   { name := "FL_CTRL", off := rFlCtrl },
   { name := "FL_ADDR", off := rFlAddr, rws := 0x7FFFFF },
   { name := "FL_STAT", off := rFlStat },
   { name := "FL_BUF", off := rFlBuf, n := 64, rws := 0xFFFFFFFF }]

/-- The command-processor registers (R125). -/
def rowsCp : List RegRow :=
  [{ name := "CP_STAT", off := rCpStat },
   { name := "CP_TIMEOUT", off := rCpTimeout, rws := 0xFFFF },
   { name := "CP_ATTN_ROUTE", off := rCpAttnRoute, rws := 0xFFFFFFFF },
   { name := "CP_ATTN_DEV", off := rCpAttnDev, rws := 0x80000003 },
   { name := "CP_ATTN_LEVEL", off := rCpAttnLevel },
   { name := "CP_ATTN_DEVSRC", off := rCpDevsrc, w1c := 0xF0000000 },
   { name := "CP_FIELD_PEND", off := rCpFieldPend },
   { name := "CP_RING_PEND", off := rCpRingPend 0, n := 32 },
   { name := "ADM_BASE_LO", off := rAdm 0, n := 16, st := 0x40, rws := 0xFFFFFFFF, half := 1 },
   { name := "ADM_BASE_HI", off := rAdm 0 + 4, n := 16, st := 0x40, rws := 0xF, half := 2 },
   { name := "ADM_CPL_LO", off := rAdm 0 + 8, n := 16, st := 0x40, rws := 0xFFFFFFFF, half := 1 },
   { name := "ADM_CPL_HI", off := rAdm 0 + 0xC, n := 16, st := 0x40, rws := 0xF, half := 2 },
   { name := "ADM_HIST_LO", off := rAdm 0 + 0x10, n := 16, st := 0x40, rws := 0xFFFFFFFF, half := 1 },
   { name := "ADM_HIST_HI", off := rAdm 0 + 0x14, n := 16, st := 0x40, rws := 0xF, half := 2 },
   { name := "ADM_CFG", off := rAdmCfg 0, n := 16, st := 0x40, rws := 0xE01F03FF },
   { name := "ADM_TICKET", off := rAdmTicket 0, n := 16, st := 0x40, rws := 0xFFFFFFFF }]

/-- The bank-unit registers of the channel blocks (R206). -/
def rowsNear : List RegRow :=
  [{ name := "NB_STAT", off := rNbStat 0, n := 32, st := 0x4000 },
   { name := "NB_TOKEN", off := rNbToken 0, n := 32, st := 0x4000, rws := 0x3F0003FF },
   { name := "NB_TOKEN_USE", off := rNbTokenUse 0, n := 32, st := 0x4000 }] ++
  ctr64 "NB_ATOM" (rNbAtom 0) 32 0x4000 ++ ctr64 "NB_FIN" (rNbFin 0) 32 0x4000 ++
  ctr64 "NB_REJ" (rNbRej 0) 32 0x4000 ++ ctr64 "NB_TOKWAIT" (rNbTokwait 0) 32 0x4000 ++
  ctr64 "NB_CORR" (rNbCorr 0) 32 0x4000 ++
  [{ name := "NB_BANK", off := rNbBank 0 0, n := 32, st := 0x4000, m := 64 }]

/-- The floe blocks at 0x000 to 0x3FF (R268) and the drift blocks at 0x000 to 0x0FF (R269). -/
def rowsFloe : List RegRow :=
  [{ name := "FLOE_ID", off := rFloeId 0, n := 136, st := 0x1000 },
   { name := "FLOE_STAT", off := rFloeStat 0, n := 136, st := 0x1000 },
   { name := "FLOE_HALT_REASON", off := rHaltReason 0, n := 136, st := 0x1000 }] ++
  ctr64 "FLOE_HALT_ADDR" (rHaltAddr 0) 136 0x1000 ++ ctr64 "FLOE_RETIRE" (rRetire 0) 136 0x1000 ++
  [{ name := "FLOE_EPOCH", off := rFloeEpoch 0, n := 136, st := 0x1000 },
   { name := "FLOE_CMDQ", off := rFloeCmdq 0 1, n := 136, st := 0x1000, m := 5 },
   { name := "FLOE_QSTAT", off := rFloeQstat 0 0, n := 136, st := 0x1000, m := 32 }] ++
  ctr64 "FLOE_CYCLES" (rFloeCycles 0) 136 0x1000 ++ ctr64 "FLOE_BUNDLES" (rFloeBundles 0) 136 0x1000 ++
  ctr64 "FLOE_SKIPPED" (rFloeSkipped 0) 136 0x1000 ++ ctr64 "FLOE_STALL_RUNAHEAD" (rStallRunahead 0) 136 0x1000 ++
  ctr64 "FLOE_STALL_CMDQ" (rStallCmdq 0) 136 0x1000 ++ ctr64 "FLOE_STALL_ICACHE" (rStallIcache 0) 136 0x1000 ++
  ctr64 "FLOE_STALL_WAIT" (rStallWait 0) 136 0x1000 ++ ctr64 "FLOE_STALL_QCFG" (rStallQcfg 0) 136 0x1000 ++
  ctr64 "FLOE_IC_MISS" (rIcMiss 0) 136 0x1000 ++ ctr64 "FLOE_IC_ERR" (rIcErr 0) 136 0x1000 ++
  [{ name := "DRIFT_MAP", off := rDriftMap 0, n := 32, st := 0x1000 },
   { name := "DRIFT_SPARE", off := rDriftSpare 0, n := 32, st := 0x1000 },
   { name := "DRIFT_FLOES", off := rDriftFloes 0, n := 32, st := 0x1000 }]

/-- The field block (R445, R460). -/
def rowsField : List RegRow :=
  [{ name := "FLD_DRIFTS", off := rFld 0, n := 16, st := 0x100 },
   { name := "FLD_RES", off := rFld 0 + 4, n := 16, st := 0x100 },
   { name := "FLD_QOS", off := rFldQos 0, n := 16, st := 0x100, rws := 0x03FF00FF },
   { name := "FLD_TOKUSE", off := rFld 0 + 0xC, n := 16, st := 0x100 },
   { name := "SEM_OWN", off := rSemOwn 0, n := 1024 },
   { name := "HST", off := rHst 0 0, n := 512, rws := 0x8F8F8F8F },
   { name := "REGION", off := rRegion 0, n := 32768 },
   { name := "DBG_STAT", off := rDbgStat, sticky := 0xF0000003 },
   { name := "DBG_CTRL", off := rDbgCtrl },
   { name := "DBG_POLICY", off := rDbgPolicy, sticky := 0x40000000 }]

/-- The channel blocks: the DRAM channel and its host port (R86, R170). -/
def rowsChannel : List RegRow :=
  [{ name := "CH_STAT", off := rChStat 0, n := 32, st := 0x4000 },
   { name := "CH_CFG", off := rChCfg 0, n := 32, st := 0x4000, reset := 0x80080000, rws := 0x1F0000 },
   { name := "CH_CTRL", off := rChCtrl 0, n := 32, st := 0x4000, rws := 1 },
   { name := "CH_PAGE", off := rChPage 0, n := 32, st := 0x4000, rws := 0x7FF },
   { name := "CH_TARGET", off := rChTarget 0 0, n := 32, st := 0x4000, m := 4, rws := 0xFFFF },
   { name := "CH_ACT_THR", off := rChActThr 0, n := 32, st := 0x4000, rws := 0x3FFF },
   { name := "CH_LAT_MAX", off := rChLatMax 0, n := 32, st := 0x4000, rw := 0xFFFF }] ++
  ctr64 "CH_ACT" (rChAct 0) 32 0x4000 ++ ctr64 "CH_REF" (rChRef 0) 32 0x4000 ++
  ctr64 "CH_REF_FORCED" (rChRefForced 0) 32 0x4000 ++ ctr64 "CH_TRR" (rChTrr 0) 32 0x4000 ++
  ctr64 "CH_PROMOTE" (rChPromote 0) 32 0x4000 ++ ctr64 "CH_RETRAIN" (rChRetrain 0) 32 0x4000 ++
  [{ name := "CH_TSV_LANE", off := rChTsvLane 0 0, n := 32, st := 0x4000, m := 39 },
   { name := "HP_STAT", off := rHpStat 0, n := 32, st := 0x4000, reset := 0xFF },
   { name := "HP_CTRL", off := rHpCtrl 0, n := 32, st := 0x4000 },
   { name := "HP_ERR", off := rHpErr 0, n := 32, st := 0x4000, w1c := 0xFC000000 }] ++
  ctr64 "HP_CRC" (rHpCrc 0) 32 0x4000 ++ ctr64 "HP_REPLAY" (rHpReplay 0) 32 0x4000 ++
  ctr64 "HP_DUP" (rHpDup 0) 32 0x4000 ++
  [{ name := "HP_LANE", off := rHpLane 0 0, n := 32, st := 0x4000, m := 4 }]

/-- Freeze, poison and local-store error registers of the floe blocks (R393). -/
def rowsFreeze : List RegRow :=
  [{ name := "FLOE_FREEZE", off := rFreeze 0, n := 136, st := 0x1000, sticky := 3 },
   { name := "FLOE_FREEZE_STORES", off := rFreezeStores 0, n := 136, st := 0x1000 }] ++
  ctr64 "FLOE_FREEZE_TIME" (rFreezeTime 0) 136 0x1000 ++
  [{ name := "FLOE_POISON_STAT", off := rPoisonStat 0, n := 136, st := 0x1000, w1c := 0x80000000 }] ++
  ctr64 "FLOE_POISON_ADDR" (rPoisonAddr 0) 136 0x1000 ++ ctr64 "FLOE_LS_CE" (rLsCe 0) 136 0x1000 ++
  ctr64 "FLOE_LS_UE" (rLsUe 0) 136 0x1000 ++ ctr64 "FLOE_POISON_STORED" (rPoisonStored 0) 136 0x1000

/-- Descriptor table, tracker and scatter registers of the floe blocks (R336). -/
def rowsDesc : List RegRow :=
  [{ name := "DT_STAGE", off := rDtStage 0 0, n := 136, st := 0x1000, m := 32, rw := 0xFFFFFFFF },
   { name := "DT_CMD", off := rDtCmd 0, n := 136, st := 0x1000 },
   { name := "DT_STATUS", off := rDtStatus 0, n := 136, st := 0x1000 }] ++
  ctr64 "DT_FIRST" (rDtFirst 0) 136 0x1000 ++ ctr64 "DT_LAST" (rDtLast 0) 136 0x1000 ++
  [{ name := "DT_VALID", off := rDtValid 0 0, n := 136, st := 0x1000, m := 8 },
   { name := "TRK_STAT", off := rTrkStat 0, n := 136, st := 0x1000 }] ++
  ctr64 "TRK_WAIT_LOAD" (rTrkWaitLoad 0) 136 0x1000 ++ ctr64 "TRK_WAIT_STORE" (rTrkWaitStore 0) 136 0x1000 ++
  ctr64 "IDX_USED" (rIdxUsed 0) 136 0x1000 ++ ctr64 "IDX_SKIPPED" (rIdxSkipped 0) 136 0x1000 ++
  ctr64 "SCAT_NBO" (rScatNbo 0) 136 0x1000 ++ ctr64 "SCAT_POISON" (rScatPoison 0) 136 0x1000

/-- Synchronisation registers of the floe blocks (R359). -/
def rowsSync : List RegRow :=
  ctr64 "SYNC_FLAGS" (rSyncFlags 0) 136 0x1000 ++
  [{ name := "SYNC_WDOG", off := rSyncWdog 0, n := 136, st := 0x1000, rw := 0xFFFF },
   { name := "SYNC_WAIT", off := rSyncWait 0, n := 136, st := 0x1000 },
   { name := "SEM_SEL", off := rSemSel 0, n := 136, st := 0x1000, rw := 0xFFF }] ++
  ctr64 "SEM_VAL" (rSemVal 0) 136 0x1000 ++
  [{ name := "COMMIT_STAT", off := rCommitStat 0, n := 136, st := 0x1000 },
   { name := "COMMIT_SEQ", off := rCommitSeq 0, n := 136, st := 0x1000 }] ++
  ctr64 "COMMIT_RESUME" (rCommitResume 0) 136 0x1000 ++ ctr64 "COMMIT_TIME" (rCommitTime 0) 136 0x1000 ++
  [{ name := "COMMIT_N_LO", off := rCommitN 0 0, n := 136, st := 0x1000, m := 8, st2 := 8, half := 1 },
   { name := "COMMIT_N_HI", off := rCommitN 0 0 + 4, n := 136, st := 0x1000, m := 8, st2 := 8, half := 2 },
   { name := "SYNC_CNT", off := rSyncCnt 0 0, n := 136, st := 0x1000, m := 64 },
   { name := "SYNC_LIMIT", off := rSyncLimit 0 0, n := 136, st := 0x1000, m := 64 }]

/-- The peer block: links, group, twin and relay registers (R438 to R441). -/
def rowsPeer : List RegRow :=
  [{ name := "LNK_STAT", off := rLnkStat 0, n := 5, st := 0x100 },
   { name := "LNK_CTRL", off := rLnkCtrl 0, n := 5, st := 0x100, rws := 0x20000000 },
   { name := "LNK_ERR", off := rLnkErr 0, n := 5, st := 0x100, w1c := 0xF0000000 }] ++
  ctr64 "LNK_PEER_UID" (rLnkPeerUid 0) 5 0x100 ++ ctr64 "LNK_CRC" (rLnkCrc 0) 5 0x100 ++
  ctr64 "LNK_REPLAY" (rLnkReplay 0) 5 0x100 ++ ctr64 "LNK_DUP" (rLnkDup 0) 5 0x100 ++
  ctr64 "LNK_FEC_CORR" (rLnkFecCorr 0) 5 0x100 ++ ctr64 "LNK_FEC_UNCORR" (rLnkFecUncorr 0) 5 0x100 ++
  [{ name := "GRP_STAT", off := rGrpStat },
   { name := "GRP_EPOCH", off := rGrpEpoch }] ++
  ctr64 "GRP_MEMBERS" rGrpMembers ++
  [{ name := "GRP_CFG", off := rGrpCfg, rws := 0xFFFF },
   { name := "GRP_TIME_TRIM", off := rGrpTrim },
   { name := "GRP_ROUTE", off := rGrpRoute 0, n := 8 },
   { name := "TWIN_STAT", off := rTwinStat }] ++
  ctr64 "TWIN_UID" rTwinUid ++
  [{ name := "TWIN_LAG", off := rTwinLag },
   { name := "RLY_CTRL", off := rRlyCtrl 0, n := 16, st := 0x10, rws := 0x800F003F, w1c := 0x40000000 },
   { name := "RLY_BASE_LO", off := rRlyBase 0, n := 16, st := 0x10, rws := 0xFFFFF800, half := 1 },
   { name := "RLY_BASE_HI", off := rRlyBase 0 + 4, n := 16, st := 0x10, rws := 0x1F, half := 2 }]

/-- Thermal, power and monitor registers (R523). -/
def rowsThermal : List RegRow :=
  [{ name := "THM_STAT", off := rThmStat, reset := 0x00400000 },
   { name := "THM_CFG", off := rThmCfg, rws := 0x7F7F },
   { name := "THM_DRAM", off := rThmDram 0, n := 16, reset := 0x00400000 },
   { name := "THM_BASE", off := rThmBase 0, n := 9 },
   { name := "THM_TRIP", off := rThmTrip, sticky := 0xFFFFFFFF },
   { name := "PWR_LIMIT", off := rPwrLimit, rws := 0xFF },
   { name := "PWR_STAT", off := rPwrStat, reset := 0x20000000 }] ++
  ctr64 "PWR_ENERGY" rPwrEnergy ++
  [{ name := "PWR_PHASE", off := rPwrPhase 0, n := 34, reset := 0x20000000, sticky := 0xFF800000 },
   { name := "CLK_STAT", off := rClkStat, sticky := 0xFFFFFFFF },
   { name := "MON_VOLT", off := rMonVolt 0, n := 9 },
   { name := "MON_PROC_CTRL", off := rMonProcCtrl },
   { name := "MON_PROC", off := rMonProc 0, n := 9 }]

/-- DRIFT_FIELD of the drift blocks (R461). -/
def rowsDriftField : List RegRow :=
  [{ name := "DRIFT_FIELD", off := rDriftField 0, n := 32, st := 0x1000 }]

/-- The moraine block (R392): it survives every reset but power-on (R464), but for the fields marked cfg. -/
def rowsMoraine : List RegRow :=
  -- TIME and ADDR of an entry are 64-bit quantities (R47, R374)
  ctr64 "MOR_ENTRY_TIME" (rMorEntry 0 0) 4096 32 0xFFFFFFFF ++ ctr64 "MOR_ENTRY_ADDR" (rMorEntry 0 5) 4096 32 0xFFFFFFFF ++
  [{ name := "MOR_ENTRY", off := rMorEntry 0 2, n := 4096, st := 32, m := 3, sticky := 0xFFFFFFFF },
   { name := "MOR_ENTRY_INFO", off := rMorEntry 0 7, n := 4096, st := 32, sticky := 0xFFFFFFFF },
   { name := "MOR_STAT", off := rMorStat, sticky := 0xFFFFFFFF, w1c := 0x10000000 },
   { name := "MOR_SEQ", off := rMorSeq, sticky := 0xFFFFFFFF },
   { name := "MOR_CFG", off := rMorCfg, sticky := 0xFFFFFFFF, rws := 0x831FFFFF },
   { name := "MOR_BASE_LO", off := rMorBase, sticky := 0xFFFFFFFF, rws := 0xFFFFFFFF, half := 1 },
   { name := "MOR_BASE_HI", off := rMorBase + 4, sticky := 0xFFFFFFFF, rws := 0xF, half := 2 },
   { name := "MOR_TAIL", off := rMorTail, sticky := 0xFFFFFFFF },
   { name := "MOR_HEAD", off := rMorHead, sticky := 0xFFFFFFFF, rws := 0xFFFFFFFF },
   { name := "MOR_DROP_LO", off := rMorDrop, sticky := 0xFFFFFFFF, half := 1 },
   { name := "MOR_DROP_HI", off := rMorDrop + 4, sticky := 0xFFFFFFFF, half := 2 },
   { name := "MOR_FIRST_FATAL", off := rMorFatal, sticky := 0xFFFFFFFF },
   { name := "ERR_SCRUB", off := rErrScrub, sticky := 0xFFFFFFFF, rws := 0x800000FF },
   { name := "ERR_TWIN", off := rErrTwin, sticky := 0xFFFFFFFF, rws := 0xFFFF }] ++
  ctr64 "ERR_CE" (rErrCe 0) 32 0x40 0xFFFFFFFF ++ ctr64 "ERR_UE" (rErrUe 0) 32 0x40 0xFFFFFFFF ++
  ctr64 "ERR_SCRUB_ROWS" (rErrScrubRows 0) 32 0x40 0xFFFFFFFF ++ ctr64 "ERR_TWIN_OK" (rErrTwinOk 0) 32 0x40 0xFFFFFFFF ++
  ctr64 "ERR_TWIN_FAIL" (rErrTwinFail 0) 32 0x40 0xFFFFFFFF

/-- The rows of the block that an offset lies in (R35, R36). -/
def blockRows (o : Nat) : List RegRow :=
  if o < 0x10000 then rowsGlobal ++ rowsCp
  else if o < 0x20000 then rowsThermal
  else if o < 0x100000 then rowsField
  else if o < 0x200000 then rowsChannel ++ rowsNear
  else if o < 0x300000 then rowsFloe ++ rowsDesc ++ rowsSync ++ rowsFreeze
  else if o < 0x400000 then rowsFloe ++ rowsDriftField
  else if o < 0x500000 then rowsPeer
  else rowsMoraine

/-- The register at an offset, if one is there (R12). -/
def regRow (o : Nat) : Option RegRow := (blockRows o).find? fun r => r.holds o

/-- The value of a register after a reset that reinitialises its block (R11). -/
def regReset (o : Nat) : Reg :=
  match regRow o with
  | some r => r.reset
  | none => 0

end Sys2Proof.Machine
end

