-- ==== Sys2Proof/Machine/TypesCmd.lean ====
section
/-! DEFINITION. The state of command rings, active commands and near-bank operations: plain data. -/

namespace Sys2Proof.Machine

/-- A completion record that waits to be written (R102, R113): its bytes without TIME, the original's ticket for a
duplicate, and what follows the record under R114. -/
structure HeldRec where
  idx    : BitVec 32
  bytes  : BitVec 256
  dupOf  : Option (BitVec 32)
  /-- History slot to be written after it. -/
  hist   : Option Nat
  noattn : Bool
  sem    : Option Nat
deriving DecidableEq, Repr

/-- A command ring with its completion ring and history buffer (R88, R91, R94, R115, R118). -/
structure Ring where
  /-- 0 unconfigured, 1 running, 2 error, 3 stopped. -/
  state    : Fin 4
  field    : BitVec 4
  secure   : Bool
  admin    : Bool
  attnEn   : Bool
  log2     : Nat
  base     : DevAddr
  cpl      : DevAddr
  hist     : DevAddr
  rtimeout : BitVec 16
  tail     : BitVec 32
  head     : BitVec 32
  ctail    : BitVec 32
  chead    : BitVec 32
  hticket  : BitVec 32
  nacc     : Nat
  epoch    : BitVec 16
  error    : BitVec 8
  dbReject : Nat
  /-- Indices of records written with NOATTN = 0 that the host has not consumed (R118). -/
  attnRecs : List (BitVec 32)
  /-- A record or history write was refused: no record is written any more (R115). -/
  cplDead  : Bool
  /-- Records that wait for an earlier one, duplicates that wait for their original among them (R102, R113). -/
  heldRecs : List HeldRec
  /-- The stored state is uncorrectable (R362). -/
  ue       : Bool
deriving DecidableEq, Repr

def Ring.init : Ring :=
  { state := 0, field := 0, secure := false, admin := false, attnEn := false, log2 := 0, base := 0, cpl := 0,
    hist := 0, rtimeout := 0, tail := 0, head := 0, ctail := 0, chead := 0, hticket := 0, nacc := 0, epoch := 0,
    error := 0, dbReject := 0, attnRecs := [], cplDead := false, heldRecs := [], ue := false }

/-- How a command ended: STATUS, RESULT0, RESULT1 (R111). -/
structure CmdEnd where
  status : BitVec 8
  r0     : BitVec 64
  r1     : BitVec 64
deriving DecidableEq, Repr

/-- A command fetched and not yet ended (R97). -/
structure Cmd where
  ring    : Fin 1024
  idx     : BitVec 32
  /-- The 64-byte packet (R100). -/
  packet  : Line
  field   : BitVec 4
  secure  : Bool
  /-- Its effect has begun: the checks of R104 have passed. -/
  begun   : Bool
  /-- The slot it started in (R116). -/
  since   : Nat
  /-- Words done, descriptors posted (COPY, FILL, NBO_POST), or contributions. -/
  pos     : Nat
  /-- Poisoned words moved, NBOs finished. -/
  count   : Nat
  /-- NBO_POST: lowest list index that did not finish OK, and its status (R106). -/
  firstErr : Option (Nat × BitVec 8)
  /-- Its timeout has expired and its posted NBOs still run (R117). -/
  timedOut : Bool
  /-- FIELD_CFG LEASE: NBOs accepted before the switch point that touch a changed region (R455). -/
  nboWaits : List Nat
  /-- FIELD_CFG: commands issued on a descriptor entry that it invalidated: slot, engine, number (R313). -/
  entryWaits : List (Nat × Nat × Nat)
  /-- LAUNCH: floes still running; first halt and first freeze (R105). -/
  floes   : List (BitVec 7)
  halted  : Option (BitVec 7 × BitVec 8 × BitVec 64)
  frozen  : Option (BitVec 7)
  /-- FENCE: commands it waits for (ring, index). -/
  awaits  : List (Nat × BitVec 32)
  /-- MSG: posted into an inbox. -/
  posted  : Bool
  /-- The record that a FIELD_CFG has read (R453). -/
  buffer  : List Line
  done    : Option CmdEnd
deriving DecidableEq, Repr

/-- The poster of an NBO (R98, R106, R256, R430). -/
inductive Poster where
  /-- Ring, command index, list index. -/
  | ring (n : Fin 1024) (idx : BitVec 32) (pos : Nat)
  /-- Logical floe, its store-engine command number. -/
  | floe (f : BitVec 7) (cmd : Nat)
  /-- The partner's mirror stream, with the tag of the item (R430). -/
  | mirror (tag : BitVec 12)
deriving DecidableEq, Repr

def Poster.isMirror : Poster → Bool
  | .mirror _ => true
  | _ => false

/-- The poison and contents of one bank unit for its executing NBO (R174, R217). -/
structure BankUnit where
  bank    : Nat
  /-- W0 to W15 and their poison flags. -/
  w       : List (BitVec 256)
  wPoison : BitVec 16
  ac0     : BitVec 512
  ac1     : BitVec 512
  vPoison : Bool
  /-- Words of the firn load done, compute atoms ended. -/
  loaded  : Nat
  atoms   : Nat
  /-- Chain: the slot in which the upstream vector has arrived and been combined (R197); this unit has sent on. -/
  received : Option Nat
  sent    : Bool
  /-- Chain shift: the slot in which all the column words have arrived (R198); the receiving write has ended. -/
  arrived : Option Nat
  written : Bool
  /-- Chain shift: the poisoned code words of each column word received (R219). -/
  shift   : List (BitVec 4)
  /-- Slot in which its executing NBO began, or its last atom ended (R189). -/
  nextSince : Nat
  /-- Its promotion (R141, R189): the start of the age that reached 2,000 ns, and the slot of the promotion. -/
  promo   : Option (Nat × Nat)
deriving DecidableEq, Repr

/-- A near-bank operation (R181). -/
structure Nbo where
  id      : Nat
  desc    : Line
  /-- W0 arrives poisoned (R366). -/
  w0Poison : Bool
  /-- The descriptor's control bytes arrived poisoned (R222). -/
  descPoison : Bool
  poster  : Poster
  field   : Option (BitVec 4)
  secure  : Bool
  cls     : BitVec 2
  since   : Nat
  /-- Its number of arrival at the channel, which the drift port's requests share (R352). -/
  arr     : Nat
  accepted : Bool
  /-- Contribution vector of a staged ACCW and its poison by element (R226). -/
  vec     : BitVec 512
  /-- The NBOs folded into it: poster, number and TAG (R225). -/
  folds   : List (Poster × Nat × BitVec 32)
  units   : List BankUnit
  /-- It met poison (R221). -/
  poison  : Bool
deriving DecidableEq, Repr

/-- What an atom does (R188, R198). -/
inductive AtomKind where
  /-- Compute atom of the row at this offset. -/
  | compute (k : Nat)
  | result
  /-- Chain shift: the sending Read atom, the receiving Write atom. -/
  | shiftSend
  | shiftRecv
deriving DecidableEq, Repr

/-- A running atom (R193). Times are command slots. -/
structure Atom where
  nbo     : Nat
  kind    : AtomKind
  row     : Nat
  start   : Nat
  ends    : Nat
  /-- Its reads and lane work have been done. -/
  worked  : Bool
  /-- It found an uncorrectable code word in a mirrored row and is abandoned (R223). -/
  abandon : Bool
  /-- Column words to write when it ends: column word, data, marks. -/
  out     : List (Nat × BitVec 256 × BitVec 4)
deriving DecidableEq, Repr

/-- The near-bank slots of a bank (R203, R204, R206). -/
structure BankNear where
  exec     : Option Nat
  staged   : Option Nat
  /-- Slots reserved for a waiting chain NBO. -/
  reserved : List Nat
  atom     : Option Atom
  lastRow  : Nat
  tokenWait : Bool
deriving DecidableEq, Repr

def BankNear.init : BankNear :=
  { exec := none, staged := none, reserved := [], atom := none, lastRow := 0, tokenWait := false }

/-- Booked compute tokens: one token of a die and field for each of the bank cycles from `first` to `last` (R201). -/
structure Booking where
  first : Nat
  last  : Nat
  die   : Nat
  field : Option (BitVec 4)
deriving DecidableEq, Repr

end Sys2Proof.Machine
end

