-- ==== Sys2Proof/Machine/TypesFloe.lean ====
section
/-! DEFINITION. The state of the floes: front end, engines, tile queues, caches and logical identities: plain data. -/

namespace Sys2Proof.Machine

/-- States of a physical slot (R235). -/
inductive FloeSt where
  | idle
  | running
  | ending
  | halting
  | halted
  | frozen
  | unassigned
deriving DecidableEq, Repr

/-- The setting of a comparator (R244). -/
inductive CmpB where
  | imm (v : BitVec 16)
  | reg (b : Fin 8)
deriving DecidableEq, Repr

/-- States of a queue slot (R258). -/
inductive SlotSt where
  | free
  | filling
  | ready
  | reading
deriving DecidableEq, Repr

/-- A configured tile queue (R256, R258). -/
structure TileQ where
  base     : Nat
  tile     : Nat
  producer : Nat
  consumer : Nat
  depth    : Nat
  /-- Next slot to pop, next slot to fill. -/
  head     : Nat
  fill     : Nat
  slots    : Tab SlotSt
deriving DecidableEq, Repr

/-- An entry of a tensor descriptor table (R305, R313): its 128 bytes. -/
structure DescEntry where
  bytes  : BitVec 1024
  poison : Bool
deriving DecidableEq, Repr

/-- A command in an engine's command slots (R231, R249, R250). -/
structure ECmd where
  /-- Its bundle, by dispatch number, and that bundle's address. -/
  bundle    : Nat
  pc        : DevAddr
  /-- The slot field (R238). -/
  word      : BitVec 48
  /-- N0 to N7 as they stood before the bundle's own scalar command (R272). -/
  nregs     : List (BitVec 48)
  issued    : Bool
  /-- Its effect has been made. -/
  performed : Bool
  /-- It faulted and completes nothing further (R263). -/
  faulted   : Bool
  /-- Queue slots taken: queue, slot, keep. -/
  srcs      : List (Nat × Nat × Bool)
  /-- Queue slot being filled. -/
  dst       : Option (Nat × Nat)
  /-- Descriptors or elements posted so far. -/
  pos       : Nat
  /-- NBOs posted and not finished: id and index. -/
  nbos      : List (Nat × Nat)
  /-- Tags of its remote requests that are not answered, and the words answered: address, data, poison (R331, R415). -/
  tags      : List Nat
  got       : List (Nat × Line × Bool)
  /-- Device addresses of its requests to channels of this device that are not answered (R149, R333). -/
  words     : List Nat
  /-- Its requests have been sent, or COMMIT has begun to wait. -/
  sent      : Bool
  /-- Its source tiles have been read, its indices counted (R320). -/
  counted   : Bool
  /-- The descriptor entry that it names, as the table held it when it issued (R304, R313). -/
  entry     : Option DescEntry
  /-- A synchronisation wait: its kind (SYNC_WAIT.KIND), the command slot it began in, and the watchdog period in µs
  then in force (R252, R301, R345). -/
  waiting   : Option (Nat × Nat × Nat)
  /-- N0 to N7 after the bundle's scalar command, and the bundle that follows in program order (R354). -/
  nafter    : List (BitVec 48)
  next      : DevAddr
  number    : Nat
deriving DecidableEq, Repr

/-- A bundle dispatched and not retired (R247, R251). -/
structure BundleRec where
  number   : Nat
  pc       : DevAddr
  header   : BitVec 32
  skipped  : Bool
  released : Bool
  /-- Engines whose command of the bundle has not completed, as a mask of slots 0 to 5. -/
  open_    : BitVec 6
  signalled : Bool
deriving DecidableEq, Repr

/-- An entry of the wait list (R248): the bundle's number, address and header, and the slot it was listed in. -/
structure WaitEnt where
  number : Nat
  pc     : DevAddr
  header : BitVec 32
  since  : Nat
  period : Nat
deriving DecidableEq, Repr

/-- A line of the instruction cache: set, tag and its 128 bytes; most recently used first within a set (R253). -/
structure ICLine where
  line  : BitVec 29
  data  : BitVec 1024
  /-- The fetch returned poison, or was refused: what the front end finds when it needs the bundle (R253). -/
  bad   : BitVec 2
  used  : Nat
  /-- Parity of the line fails (R255). -/
  parity : Bool
deriving DecidableEq, Repr

/-- A physical slot (R231 to R269). -/
structure Floe where
  st       : FloeSt
  /-- Logical floe held (R268). -/
  ident    : Option (BitVec 7)
  retired  : Bool
  pc       : DevAddr
  /-- Cycles for which the front end is still held (R245). -/
  hold     : Nat
  /-- Start of a bundle beyond the last dispatched: N0 to N7. -/
  n        : List (BitVec 48)
  cmps     : List (Option (Fin 8 × CmpB))
  acc      : List (BitVec 32768)
  accPoison : BitVec 4
  queues   : Tab (Option TileQ)
  icache   : List ICLine
  icUse    : Nat
  /-- Lines requested and not arrived (R253). -/
  fetching : List (BitVec 29)
  bundles  : List BundleRec
  nextBundle : Nat
  waitList : List WaitEnt
  /-- The bundle at pc is already in the wait list, under this number. -/
  waitHere : Option Nat
  engines  : List (List ECmd)
  nextCmd  : Nat
  desc     : Tab (Option DescEntry)
  /-- Halt recorded: code, bundle address, slot (R264). -/
  halt     : Option (BitVec 8 × DevAddr × Fin 8)
  more     : Bool
  haltAtDispatch : Bool
  /-- LAUNCH that the floe runs for: ring and command index. -/
  launch   : Option (Fin 1024 × BitVec 32)
  /-- The freeze has not yet fenced the floe (R380); store-engine commands issued and not completed at time zero. -/
  fencing  : Bool
  openStores : Nat
  /-- Store-engine commands completed since the mark, or since LAUNCH (R380). -/
  storesDone : Nat
deriving DecidableEq, Repr

def Floe.init : Floe :=
  { st := .unassigned, ident := none, retired := false, pc := 0, hold := 0, n := List.replicate 8 0,
    cmps := List.replicate 4 none, acc := List.replicate 4 0, accPoison := 0, queues := [], icache := [], icUse := 0, fetching := [],
    bundles := [], nextBundle := 0, waitList := [], waitHere := none, engines := List.replicate 6 [], nextCmd := 0,
    desc := [], halt := none, more := false, haltAtDispatch := false, launch := none, fencing := false,
    openStores := 0, storesDone := 0 }

/-- A message (R119): its 32 bytes. -/
structure Msg where
  bytes : BitVec 256
  /-- The MSG command that waits for its consumption, for a ring sender (R122). -/
  cmd   : Option (Fin 1024 × BitVec 32)
deriving DecidableEq, Repr

/-- A commit mark (R354). -/
structure Mark where
  seq    : BitVec 32
  epoch  : BitVec 16
  resume : DevAddr
  n      : List (BitVec 48)
  time   : BitVec 64
deriving DecidableEq, Repr

/-- What belongs to a logical identity, whichever slot carries it (R119, R120, R337, R354). -/
structure Logical where
  flags    : BitVec 64
  counters : Tab (BitVec 32)
  limits   : Tab (BitVec 32)
  epoch    : BitVec 16
  /-- Messages sent, modulo 2^16, and data messages posted and neither consumed nor discarded. -/
  sent     : BitVec 16
  allowance : Nat
  data     : List Msg
  statuses : List Msg
  mark     : Option Mark
  /-- Local store to be cleared at the next thaw (R454). -/
  clearAtThaw : Bool
  /-- An object or inbox slot is uncorrectable (R368). -/
  ue       : Bool
deriving DecidableEq, Repr

def Logical.init : Logical :=
  { flags := 0, counters := [], limits := [], epoch := 0, sent := 0, allowance := 0, data := [], statuses := [],
    mark := none, clearAtThaw := false, ue := false }

end Sys2Proof.Machine
end

