-- ==== Sys2Proof/Machine/TypesLink.lean ====
section
/-! DEFINITION. The state of the peer links, the group, the collectives and the twin (chapter 12): plain data. -/

namespace Sys2Proof.Machine

/-- A packet (R399): its header fields and its data word. -/
structure Packet where
  typ    : Nat
  cls    : BitVec 2
  world  : Bool
  poison : Bool
  field  : BitVec 4
  dst    : BitVec 6
  dev    : BitVec 6
  orig   : BitVec 16
  tag    : BitVec 12
  epoch  : BitVec 16
  addr   : Nat
  status : Nat
  arg    : BitVec 64
  data   : Line
deriving DecidableEq, Repr

/-- Why a link trains (R406, R407). -/
inductive LinkCause where
  | start
  | service
  | linkFail
deriving DecidableEq, Repr

/-- What HELLO says of the other end (R407): GLB_UID, GLB_CONTRACT, hash, device number, link number. -/
structure Hello where
  uid      : BitVec 64
  contract : BitVec 32
  hash     : BitVec 384
  dev      : BitVec 6
  link     : Nat
deriving DecidableEq, Repr

/-- A link (R394 to R407). Virtual channels: 0 request, 1 response, 2 collective (R400). -/
structure Link where
  up       : Bool
  training : Option LinkCause
  down     : Bool
  attempts : Nat
  laneOk   : BitVec 8
  /-- Lane reversal, and the lanes with polarity inversion, that training has corrected (R396; log 166). -/
  reversed : Bool
  polarity : BitVec 8
  peer     : Option Hello
  /-- Next SEQ expected and next SEQ to send (R403). -/
  expSeq   : BitVec 10
  nextSeq  : BitVec 10
  /-- A CRC failure or SEQ gap has been answered by NAK and not yet been repaired (R404). -/
  inError  : Bool
  /-- After a NAK: flits are discarded until a code word with START = 1 (R404). -/
  discard  : Bool
  /-- Accepted packets not acknowledged, and since when the oldest waits (R404). -/
  unacked  : Nat
  unackedSince : Nat
  /-- When the last LINK was sent, and since when the 2 µs of the sender run: the last LINK received, or the last resend (R404). -/
  linkSent : Nat
  quietFrom : Nat
  /-- Packets sent and not acknowledged, with their SEQ: what the other end has received or will. -/
  held     : List (BitVec 10 × Packet)
  /-- Packets that wait for credit or for a free place among 512, in order. -/
  outq     : List Packet
  /-- Cumulative credits received from the other end, and consumed, for each VC (R404, R405). -/
  given    : List (BitVec 16)
  used     : List (BitVec 16)
  /-- Cumulative credits granted to the other end, and those it has consumed. -/
  granted  : List (BitVec 16)
  consumed : List (BitVec 16)
  /-- The fields of the last LINK packets sent, newest last: ACKSEQ, NAK, RETRAIN, credits. -/
  links    : List (BitVec 10 × Bool × Bool × List (BitVec 16))
  /-- Replay rounds in a row: nine when eight have failed (R406). -/
  rounds   : Nat
  replay   : Bool
  askTrain : Bool
  /-- When the link has stood in replay or training, and since when it does now (R406). -/
  pauses   : List (Nat × Nat)
  pauseFrom : Option Nat
deriving DecidableEq, Repr

def Link.init : Link :=
  { up := false, training := none, down := false, attempts := 0, laneOk := 0, reversed := false, polarity := 0, peer := none,
    expSeq := 0, nextSeq := 0, inError := false, discard := false, unacked := 0, unackedSince := 0, linkSent := 0, quietFrom := 0,
    held := [], outq := [],
    given := [128, 128, 64], used := [0, 0, 0], granted := [128, 128, 64], consumed := [0, 0, 0], links := [],
    rounds := 0, replay := false, askTrain := false, pauses := [], pauseFrom := none }

/-- On whose behalf a request to another device runs (R402, R415). -/
inductive RemoteWho where
  /-- Logical floe, engine, command number, word address. -/
  | floe (f : BitVec 7) (engine : Nat) (cmd : Nat) (addr : Nat)
  /-- A host access through a relay window (R416). -/
  | host (t : HostTag) (window : Nat)
  /-- A mirror-stream item of a region (R430). -/
  | mirror (region : Nat)
  /-- A twin read of a DRAM word (R387). -/
  | twin (word : Nat)
deriving DecidableEq, Repr

/-- A request sent to another device and not answered (R399, R415). -/
structure Remote where
  tag   : BitVec 12
  dst   : BitVec 6
  write : Bool
  who   : RemoteWho
  /-- When it was first sent, if it has been (R415). -/
  since : Option Nat
deriving DecidableEq, Repr

/-- A collective in progress on this device (R421 to R427). -/
structure Coll where
  ring    : Fin 1024
  idx     : BitVec 32
  field   : BitVec 4
  id      : BitVec 32
  kind    : Nat
  op      : Nat
  root    : Nat
  members : BitVec 64
  src     : Nat
  dst     : Nat
  stage   : Nat
  len     : Nat
  epoch   : BitVec 16
  /-- Words held: rank × 2^25 + word index, with data and poison. -/
  words   : Tab (Option (Line × Bool))
  /-- COMMIT has come, or was sent by the coordinator: the copy to DST is due (R424). -/
  commit  : Bool
  /-- Output words in STAGE, whether the output is whole there, its poisoned words, and words copied to DST (R424, R427). -/
  stagePos : Nat
  staged  : Bool
  poisoned : Nat
  copyPos : Nat
  /-- At the coordinator: who has staged. -/
  stagedBy : BitVec 64
deriving DecidableEq, Repr

/-- Group membership (R408 to R413, R439). -/
structure Group where
  member   : Bool
  founder  : BitVec 6
  epoch    : BitVec 16
  set      : BitVec 64
  /-- Commands that wait: GROUP_JOIN, GROUP_LEAVE (ring, index). -/
  joining  : Option (Fin 1024 × BitVec 32)
  leaving  : Option (Fin 1024 × BitVec 32)
  /-- Slot at which each member, or the founder, was last heard (R412, R419). -/
  heard    : Tab Nat
  /-- Members that report realigning, when some did, and since when some do now (R420, R427). -/
  realign  : BitVec 64
  pauses   : List (Nat × Nat)
  pauseFrom : Option Nat
  /-- When the last exchange of time stamps began, and whether its answer is still to come (R419). -/
  exchangeAt : Nat
  exchanging : Bool
  /-- Collectives that a mismatch has ended before this device has issued them: field and COLL_ID (R423). -/
  mismatch : List (BitVec 4 × BitVec 32)
deriving DecidableEq, Repr

def Group.init : Group :=
  { member := false, founder := 0, epoch := 0, set := 0, joining := none, leaving := none, heard := [], realign := 0,
    pauses := [], pauseFrom := none, exchangeAt := 0, exchanging := false, mismatch := [] }

/-- The twin (R428 to R434, R440). -/
structure Twin where
  paired   : Bool
  partner  : BitVec 64
  /-- The partner's UID that a waiting TWIN_PAIR names, with the command. -/
  wants    : Option (BitVec 64 × Fin 1024 × BitVec 32)
  /-- The UID that the partner's notice named. -/
  offered  : Option (BitVec 64)
  /-- The partner still holds the pairing. -/
  partnerHolds : Bool
  /-- Mirrored regions out of sync. -/
  outSync  : List Nat
  /-- TWIN_RESYNC: ring, index, next region, next word of it, regions left. -/
  resync   : Option (Fin 1024 × BitVec 32 × Nat × Nat × Nat)
deriving DecidableEq, Repr

def Twin.init : Twin :=
  { paired := false, partner := 0, wants := none, offered := none, partnerHolds := false, outSync := [], resync := none }

end Sys2Proof.Machine
end

