-- ==== Sys2Proof/Machine/TypesSys.lean ====
section
/-! DEFINITION. The state of reset, start-up, the sideband, the test access port, the sensors and the pins: plain data. -/

namespace Sys2Proof.Machine

/-- Where the device stands between power and service (R463 to R473, R496, R507, R520, R541). -/
inductive Phase where
  /-- No power-good. -/
  | off
  /-- The power-on reset has run; the rails have not yet been in range for 2 ms. -/
  | rising
  /-- RESET_n is recognised low. -/
  | held
  /-- The reset's trigger has ended: time zero of start-up is reached. -/
  | waiting
  /-- Start-up step 1 waits for the PLLs. -/
  | starting
  /-- The cold hold at the end of step 3. -/
  | cold
  /-- Step 6 waits for a channel that has shown no CK. -/
  | hostWait
  | running
  | permafrost
  /-- A PLL has lost lock: until RESET_n, a sideband reset or power-on. -/
  | stopped
  /-- Both fabric phases are lost: until power-on. -/
  | dead
  /-- A thermal trip. -/
  | tripped
deriving DecidableEq, Repr

/-- Do the device's clocks run and its blocks work? -/
def Phase.live : Phase → Bool
  | .running => true
  | .permafrost => true
  | .hostWait => true
  | _ => false

/-- The sideband port, in the always-on domain (R499, R500). -/
structure Sideband where
  /-- SBADDR[1:0], sampled at power-on. -/
  addr   : BitVec 2
  offset : BitVec 24
  count  : BitVec 5
  status : BitVec 8
  /-- Bytes that the last read returned. -/
  answer : List (BitVec 8)
deriving DecidableEq, Repr

/-- The test access port and what lies behind it (R457, R458, R552 to R556). -/
structure Tap where
  ir       : BitVec 8
  /-- The value last captured, which Shift-DR shifts out, and its width in bits. -/
  captured : Nat
  width    : Nat
  /-- The boundary register as last updated. -/
  boundary : BitVec 5342
  /-- EXTEST drives the bumps from the boundary register. -/
  driving  : Bool
  nonce    : Option (BitVec 256)
  /-- CS_ACCESS: DONE, DENIED and the data of the last completed read. -/
  csDone   : Bool
  csDenied : Bool
  csData   : Reg
  stack    : BitVec 17
  /-- Wrapper instruction registers: the base die, then DRAM dies 0 to 15. -/
  wir      : List (BitVec 8)
  /-- Wrapper cells of each die, by die. -/
  cells    : Tab (List Bool)
deriving DecidableEq, Repr

/-- What stands outside the memories, the channels, the floes and the links. -/
structure Sys where
  phase     : Phase
  /-- Bit j: ATTN_n[j] is driven low (R118). -/
  attn      : BitVec 4
  /-- The pin that a thermal trip holds low (R520). -/
  tripAttn  : BitVec 4
  /-- A trip waits for the cooling of R521: since when every die has been below 85 °C. -/
  cooling   : Option Nat
  /-- Address order in force at self-refresh entry; none when nothing is retained (R465). Inside: none for interleave. -/
  saved     : Option (Option Nat)
  /-- The reset under way retained DRAM so far. -/
  retaining : Bool
  /-- VDD_AON or VDD_IO18 has left its range: the sideband does not answer (R541, R549). -/
  ioLost    : Bool
  /-- RESET_n has been low since power-on, which is no fault (R468). -/
  pinAtPower : Bool
  /-- From the image: HOST_WAIT_MS, PEER_RESET_EN, REPAIR_REC, COMMIT_SVN, the integrator digest (R479, R487). -/
  hostWait  : Nat
  peerReset : Bool
  repairRec : Bool
  commitSvn : Bool
  intDigest : BitVec 384
  /-- Channels that step 6 still waits for. -/
  waitingCh : BitVec 32
  /-- Milliseconds of the start so far. -/
  startMs   : Nat
  /-- Slots that this start retired (R476). -/
  retiredNow : List Nat
  /-- Valid conversions in a row of a sensor that has been invalid; sensors 0 to 15 DRAM dies, 16 to 24 base die (R514). -/
  validRun  : Tab Nat
  /-- Adjustments in a row with s_P at 8/64 and the average over the limit (R519). -/
  overRun   : Nat
  /-- Energy below 1 mJ, in units of 0.1 W times 100 us. -/
  energyRem : Nat
  sb        : Sideband
  tap       : Tap
deriving DecidableEq, Repr

def Sideband.init : Sideband := { addr := 0, offset := 0, count := 1, status := 0, answer := [] }

def Tap.init : Tap :=
  { ir := 1, captured := 0, width := 0, boundary := 0, driving := false, nonce := none, csDone := false, csDenied := false,
    csData := 0, stack := 0, wir := List.replicate 17 0, cells := [] }

def Sys.init : Sys :=
  { phase := .waiting, attn := 0, tripAttn := 0, cooling := none, saved := none, retaining := false, ioLost := false, pinAtPower := false,
    hostWait := 1000, peerReset := false, repairRec := false, commitSvn := false, intDigest := 0, waitingCh := 0, startMs := 0,
    retiredNow := [], validRun := [], overRun := 0, energyRem := 0, sb := Sideband.init, tap := Tap.init }

end Sys2Proof.Machine
end

