-- ==== Sys2Proof/Machine/State.lean ====
section
/-! DEFINITION. The whole state of the device: plain data. -/

namespace Sys2Proof.Machine

/-- The device, but for the queue of commands that wait. -/
structure Dev where
  /-- Control-space registers by offset: an unlisted register holds its reset value (R9 to R12, R35). -/
  cs       : Tab Reg
  /-- Read latches of 64-bit quantities, by path × 2^24 + offset of the high half (R47). -/
  latR     : Tab Reg
  /-- Write latches: the low half held for the high half (R48). -/
  latW     : Tab (Option Reg)
  /-- Command slots of 0.5 ns since power-on (R129, R146, R171). -/
  clock    : Nat
  /-- PLL-D has locked: the timebase counts (R46). -/
  timeRun  : Bool
  /-- The timebase in ns (R46). -/
  time     : BitVec 64
  /-- Nanoseconds for which the timebase still counts at half rate (R419). -/
  halfRate : Nat
  /-- Hundredths of a millionth of a nanosecond that the rate trim has gathered (R419, R439). -/
  trimAcc  : Int
  /-- DRAM by physical byte: ((channel × 64 + bank) × 32768 + row) × 1024 + byte (R126). -/
  dram     : EccMem
  /-- Local stores: slot × 2 MiB + offset (R233). -/
  ls       : EccMem
  chans    : Tab Chan
  hosts    : Tab HostPort
  /-- Moraine entries by slot (R373, R374), and slots that read uncorrectable (R362). -/
  mor      : Tab (BitVec 256)
  morUe    : Tab Bool
  wins     : List MorWindow
  /-- Region-table entries that read uncorrectable (R372, R449). -/
  regionUe : Tab Bool
  /-- Standing errors of the base-die SRAMs, by row of R362 × 2^24 + unit: 1 correctable, not yet met; 2 an uncorrectable region
  entry that has been reported (R362, R375). -/
  sram     : Tab Nat
  /-- Regions being zeroed by FIELD_CFG LEASE: accesses to them are held (R454). -/
  zeroing  : List Nat
  fuses    : Fuses
  flash    : List Host.Cell
  rings    : Tab Ring
  cmds     : List Cmd
  nbos     : List Nbo
  nextNbo  : Nat
  /-- Near-bank slots by global bank number (R203). -/
  near     : Tab BankNear
  bookings : List Booking
  floes    : Tab Floe
  logical  : Tab Logical
  /-- Fabric semaphores, and the poisoned ones (R337, R368). -/
  sems     : Tab (BitVec 64)
  semPoison : Tab Bool
  /-- SEMTAKE queues: for each semaphore, logical floe and command number, head first (R342). -/
  semQ     : Tab (List (BitVec 7 × Nat))
  /-- Peer links 0 to 3 and the twin link 4 (R394). -/
  links    : Tab Link
  /-- Requests to other devices that are not answered (R415). -/
  remotes  : List Remote
  group    : Group
  colls    : List Coll
  /-- COLL and STAGED packets held for a collective not yet issued, with the link each came on (R423). -/
  collHeld : List (Nat × Packet)
  twin     : Twin
  /-- Items of the partner's mirror stream, accepted, that wait for an earlier item, in order (R432). -/
  twinHeld : List Packet
  /-- Host frames to control space that wait, by channel, in order: behind relayed writes of their source, or for a tag of a
  relayed request (R415, R417). -/
  csHeld   : List (Nat × FrameIn)
  /-- Floes released by start-up step 7 (R469). -/
  released : Bool
  /-- Reset, start-up, sideband, TAP, sensors and pins. -/
  sys      : Sys
  /-- The model's own: uses of free values so far. -/
  freeUses : Nat
deriving DecidableEq, Repr

/-! ## The machine -/

/-- The machine: the device, and the commands that wait, first in, first out. -/
structure State where
  dev     : Dev
  pending : List Instr
deriving DecidableEq, Repr

/-- Reasons for which the block stops with a fault: there are none. Every command of the table has an effect, be it none. -/
inductive Fault where
deriving DecidableEq, Repr

/-- Reasons for which a command is refused. -/
inductive Refusal where
  /-- Raised by an arm of `exec` that has no meaning yet; safe: the run stops and nothing is claimed. No arm raises it. -/
  | notModelled (mnemonic : String)
deriving DecidableEq, Repr

/-- The device right after a power-on reset (R464): blank fuses but for a GLB_UID, blank flash, memories with nothing listed,
RST_CAUSE.POWER and RST_STAT.IN_RESET set (R502), every rail good and RESET_n high, so that start-up may begin (R469). -/
def Dev.init : Dev :=
  { cs := [(rRstCause, 1), (rRstStat, 0x20000000)]
    latR := []
    latW := []
    clock := 0
    timeRun := false
    time := 0
    halfRate := 0
    trimAcc := 0
    dram := { bytes := [], synd := [] }
    ls := { bytes := [], synd := [] }
    chans := []
    hosts := []
    mor := []
    morUe := []
    wins := []
    regionUe := []
    sram := []
    zeroing := []
    fuses := Fuses.start
    flash := []
    rings := []
    cmds := []
    nbos := []
    nextNbo := 0
    near := []
    bookings := []
    floes := []
    logical := []
    sems := []
    semPoison := []
    semQ := []
    links := []
    remotes := []
    group := Group.init
    colls := []
    collHeld := []
    twin := Twin.init
    twinHeld := []
    csHeld := []
    released := false
    sys := Sys.init
    freeUses := 0 }

/-- The machine right after reset: no command waits. -/
def State.reset : State := { dev := Dev.init, pending := [] }

end Sys2Proof.Machine
end

