-- ==== Sys2Proof/Machine/Ops.lean ====
section
/-! DEFINITION. Named operations on the device: registers, the event log, access checks, time and memory words. -/

namespace Sys2Proof.Machine

/-! ## Registers -/

/-- The stored value of a register. -/
def Dev.reg (d : Dev) (o : Nat) : Reg := tabGet regReset d.cs o

def Dev.setReg (d : Dev) (o : Nat) (v : Reg) : Dev := { d with cs := tabSet regReset d.cs o v }

/-- Set bits `hi` down to `lo` of a register. -/
def Dev.setRegFld (d : Dev) (o hi lo v : Nat) : Dev := d.setReg o (setFld (d.reg o) hi lo v)

def Dev.setRegBit (d : Dev) (o n : Nat) (b : Bool) : Dev := d.setRegFld o n n b.toNat

/-- A 64-bit quantity, low half at the lower offset (R9). -/
def Dev.reg64 (d : Dev) (o : Nat) : BitVec 64 :=
  BitVec.ofNat 64 ((d.reg o).toNat + 2 ^ 32 * (d.reg (o + 4)).toNat)

def Dev.setReg64 (d : Dev) (o : Nat) (v : BitVec 64) : Dev :=
  (d.setReg o (v.truncate 32)).setReg (o + 4) ((v >>> 32).truncate 32)

/-- Add to a 64-bit counter, which wraps. -/
def Dev.count (d : Dev) (o n : Nat) : Dev := d.setReg64 o (d.reg64 o + BitVec.ofNat 64 n)

/-! ## Components by number -/

def Dev.chan (d : Dev) (c : Nat) : Chan := tabGet (fun _ => Chan.init) d.chans c
def Dev.setChan (d : Dev) (c : Nat) (x : Chan) : Dev := { d with chans := tabSet (fun _ => Chan.init) d.chans c x }
def Dev.updChan (d : Dev) (c : Nat) (f : Chan → Chan) : Dev := d.setChan c (f (d.chan c))

def Dev.host (d : Dev) (c : Nat) : HostPort := tabGet (fun _ => HostPort.init) d.hosts c
def Dev.setHost (d : Dev) (c : Nat) (x : HostPort) : Dev :=
  { d with hosts := tabSet (fun _ => HostPort.init) d.hosts c x }
def Dev.updHost (d : Dev) (c : Nat) (f : HostPort → HostPort) : Dev := d.setHost c (f (d.host c))

def Chan.bank (c : Chan) (b : Nat) : Bank := tabGet (fun _ => Bank.init) c.banks b
def Chan.setBank (c : Chan) (b : Nat) (x : Bank) : Chan := { c with banks := tabSet (fun _ => Bank.init) c.banks b x }
def Chan.updBank (c : Chan) (b : Nat) (f : Bank → Bank) : Chan := c.setBank b (f (c.bank b))

def Dev.ring (d : Dev) (n : Nat) : Ring := tabGet (fun _ => Ring.init) d.rings n
def Dev.setRing (d : Dev) (n : Nat) (x : Ring) : Dev := { d with rings := tabSet (fun _ => Ring.init) d.rings n x }
def Dev.updRing (d : Dev) (n : Nat) (f : Ring → Ring) : Dev := d.setRing n (f (d.ring n))

/-- A slot at power-on with an empty repair record: slot n below 128 holds logical floe n (R22, R268). -/
def floeDflt (n : Nat) : Floe :=
  if n < 128 then { Floe.init with st := .idle, ident := some (BitVec.ofNat 7 n) } else Floe.init

def Dev.floe (d : Dev) (n : Nat) : Floe := tabGet floeDflt d.floes n
def Dev.setFloe (d : Dev) (n : Nat) (x : Floe) : Dev := { d with floes := tabSet floeDflt d.floes n x }
def Dev.updFloe (d : Dev) (n : Nat) (f : Floe → Floe) : Dev := d.setFloe n (f (d.floe n))

def Dev.logi (d : Dev) (f : Nat) : Logical := tabGet (fun _ => Logical.init) d.logical f
def Dev.setLogi (d : Dev) (f : Nat) (x : Logical) : Dev :=
  { d with logical := tabSet (fun _ => Logical.init) d.logical f x }
def Dev.updLogi (d : Dev) (f : Nat) (g : Logical → Logical) : Dev := d.setLogi f (g (d.logi f))

def Dev.bankNear (d : Dev) (ch b : Nat) : BankNear := tabGet (fun _ => BankNear.init) d.near (64 * ch + b)
def Dev.setBankNear (d : Dev) (ch b : Nat) (x : BankNear) : Dev :=
  { d with near := tabSet (fun _ => BankNear.init) d.near (64 * ch + b) x }
def Dev.updBankNear (d : Dev) (ch b : Nat) (f : BankNear → BankNear) : Dev :=
  d.setBankNear ch b (f (d.bankNear ch b))

/-- The physical slot that holds logical floe `f` (R269). -/
def Dev.slotOf (d : Dev) (f : Nat) : Option Nat :=
  let cand := [f, 128 + f / 16]
  cand.find? fun n => (d.floe n).ident == some (BitVec.ofNat 7 f)

/-! ## Time -/

/-- What `n` ns of the clock add to the timebase: at half rate while a hold runs, and with the rate trim in hundredths of a
ppm; never less than nothing (R46, R50, R419). The second part is what the trim has gathered after it. -/
def timeGain (n half : Nat) (acc trim : Int) : Nat × Int :=
  let plain : Int := (n - ((half + 1) / 2 - (half - n + 1) / 2) : Nat)
  let raw := acc + n * trim
  let gain := max (raw / 100000000) (-plain)
  ((plain + gain).toNat, raw - gain * 100000000)

/-- Bring the clock to slot `t`, if it lies ahead; the timebase counts one for every two slots (R46, R171, R419). -/
def Dev.advanceTo (d : Dev) (t : Nat) : Dev :=
  if t ≤ d.clock then d
  else if !d.timeRun then { d with clock := t }
  else
    let n := t / 2 - d.clock / 2
    let g := timeGain n d.halfRate d.trimAcc (sextInt 16 (fld (d.reg rGrpTrim) 15 0))
    { d with clock := t
             halfRate := d.halfRate - n
             trimAcc := g.2
             time := d.time + BitVec.ofNat 64 g.1 }

/-! ## The moraine -/

/-- Codes that coalesce (R375 and the chapters it names). -/
def coalesces (code : Nat) : Bool :=
  [0x0001, 0x0007, 0x0009, 0x000B, 0x0800, 0x0801, 0x0B00, 0x0B01].contains code
    || (decide (0x100 ≤ code) && decide (code < 0x200)) || (decide (0x400 ≤ code) && decide (code < 0x500))

/-- The 32 bytes of an entry (R374). -/
def morBytes (seq : Nat) (e : MorEvent) : BitVec 256 :=
  BitVec.ofNat 256 (e.time.toNat + seq * 2 ^ 64 + e.code.toNat * 2 ^ 96
    + (e.sev.toNat + (if e.rept then 4 else 0)) * 2 ^ 112
    + (match e.field with
       | some f => f.toNat
       | none => 0x80) * 2 ^ 120
    + e.unit.toNat * 2 ^ 128 + e.ukind.toNat * 2 ^ 144 + e.addr.toNat * 2 ^ 160 + e.info.toNat * 2 ^ 224)

/-- Write one entry (R373, R377, R378). -/
def Dev.morWrite (d : Dev) (e : MorEvent) : Dev :=
  let seq := d.reg rMorSeq
  let d := { d with mor := tabSet (fun _ => 0) d.mor (seq.toNat % 4096) (morBytes seq.toNat e)
                    morUe := tabSet (fun _ => false) d.morUe (seq.toNat % 4096) false }
  let d := d.setReg rMorSeq (seq + 1)
  let d := if fld (d.reg rMorCfg) 25 24 ≤ e.sev.toNat then d.setRegBit rCpDevsrc 29 true else d
  if e.sev = 3 && !rbit (d.reg rMorStat) 29 then
    (d.setReg rMorFatal seq).setRegBit rMorStat 29 true
  else d

/-- Report an event: a coalescing code joins its open window or opens one (R376). -/
def Dev.event (d : Dev) (e : MorEvent) : Dev :=
  if coalesces e.code.toNat && fld (d.reg rMorCfg) 15 0 != 0 then
    match findPos (fun w : MorWindow => w.code == e.code && w.ukind == e.ukind && w.unit == e.unit) d.wins 0 with
    | some (i, w) => { d with wins := putAt d.wins i { w with count := w.count + 1, last := e } }
    | none =>
      (d.morWrite e) |> fun d =>
        { d with wins := d.wins ++ [{ code := e.code, ukind := e.ukind, unit := e.unit, opened := d.clock,
                                      count := 0, last := e }] }
  else d.morWrite e

/-- Report an event now. -/
def Dev.report (d : Dev) (code sev ukind unit addr info : Nat) (field : Option (BitVec 4) := none) : Dev :=
  d.event { time := d.time, code := BitVec.ofNat 16 code, sev := BitVec.ofNat 2 sev, rept := false, field := field,
            unit := BitVec.ofNat 16 unit, ukind := BitVec.ofNat 8 ukind, addr := BitVec.ofNat 64 addr,
            info := BitVec.ofNat 32 info }

/-- Put the entries written from SEQ `seq` on, which one event has caused, in ascending CODE order where they carry one TIME
(R373). -/
def Dev.morOrder (d : Dev) (seq : Reg) : Dev :=
  let n := (d.reg rMorSeq - seq).toNat
  if n < 2 ∨ 4096 < n then d
  else
    let es := sortBy (fun a b : BitVec 256 =>
      fieldAt a.toNat 0 8 == fieldAt b.toNat 0 8 && decide (fieldAt a.toNat 12 2 < fieldAt b.toNat 12 2))
      ((List.range n).map fun i => tabGet (fun _ => 0) d.mor ((seq.toNat + i) % 4096))
    let d : Dev := { d with mor := (es.zipIdx).foldl (fun t p =>
      tabSet (fun _ => 0) t ((seq.toNat + p.2) % 4096)
        (BitVec.ofNat 256 (p.1.toNat - fieldAt p.1.toNat 8 4 * 2 ^ 64 + (seq.toNat + p.2) % 2 ^ 32 * 2 ^ 64))) d.mor }
    if (d.reg rMorFatal - seq).toNat < n ∧ rbit (d.reg rMorStat) 29 then
      match findPos (fun e : BitVec 256 => fieldAt e.toNat 14 1 % 4 == 3) es 0 with
      | some (i, _) => d.setReg rMorFatal (seq + BitVec.ofNat 32 i)
      | none => d
    else d

/-- The events of one cause, in ascending CODE order (R373). -/
def Dev.inCodeOrder (d : Dev) (f : Dev → Dev) : Dev := (f d).morOrder (d.reg rMorSeq)

/-- An item of a base-die SRAM is read: `store` is its row of R362, `unit` the channel, slot, drift, ring, region or entry. A
corrected error is reported, and stands no more (R362, R375). -/
def Dev.sramRead (d : Dev) (store unit : Nat) : Dev :=
  let k := store * 2 ^ 24 + unit
  if tabGet (fun _ => 0) d.sram k = 1 then ({ d with sram := tabErase d.sram k } : Dev).report 0x0009 1 8 0 0 store else d

/-! ## Fields, regions and access checks -/

/-- An agent of a memory access (R444). -/
structure Access where
  field  : Option (BitVec 4)
  secure : Bool
  /-- A host source (R447). -/
  host   : Bool
deriving DecidableEq, Repr

/-- The entry of the region of a device address (R445). -/
def Dev.region (d : Dev) (a : Nat) : Reg := d.reg (rRegion (a / 2 ^ 21))

def Dev.regionRefused (d : Dev) (a : Nat) : Bool := tabGet (fun _ => false) d.regionUe (a / 2 ^ 21)

/-- `world_ok` of R447. -/
def Dev.worldOk (d : Dev) (x : Access) (a : Nat) (write : Bool) : Bool :=
  let e := d.region a
  d.regionRefused a || !rbit e 31 || ((!rbit e 23 || x.secure) && (if write then rbit e 21 else rbit e 22))

/-- The entry of a region whose access has been refused turns out to be uncorrectable: UE_SRAM, once (R372, R375, R390). -/
def Dev.regionLost (d : Dev) (a : Nat) : Dev :=
  let k := 9 * 2 ^ 24 + a / 2 ^ 21
  if d.regionRefused a && tabGet (fun _ => 0) d.sram k != 2 then
    ({ d with sram := tabSet (fun _ => 0) d.sram k 2 } : Dev).report 0x000A 3 8 0 0 9
  else d

/-- `lease_ok` of R447; an uncorrectable entry refuses every access (R372, R449). -/
def Dev.leaseOk (d : Dev) (x : Access) (a : Nat) : Bool :=
  let e := d.region a
  if d.regionRefused a then false
  else if rbit e 17 then x.host && x.secure
  else if rbit e 18 || !rbit e 31 then false
  else x.field == some (BitVec.ofNat 4 (fld e 27 24))

/-- Both checks. -/
def Dev.mayAccess (d : Dev) (x : Access) (a : Nat) (write : Bool) : Bool := d.worldOk x a write && d.leaseOk x a

/-- The first addresses of the regions that a range of bytes touches. -/
def regionsOf (a n : Nat) : List Nat :=
  if n = 0 then [] else (List.range ((a + n - 1) / 2 ^ 21 - a / 2 ^ 21 + 1)).map fun i => (a / 2 ^ 21 + i) * 2 ^ 21

/-- A range refused: 0 allowed, 0x04 WORLD, 0x03 NO_LEASE, the world check of every region first (R104). -/
def Dev.rangeStatus (d : Dev) (x : Access) (a n : Nat) (write : Bool) : Nat :=
  let rs := regionsOf a n
  if 2 ^ 36 < a + n then 0x03
  else if rs.any fun r => !d.worldOk x r write then 0x04
  else if rs.any fun r => !d.leaseOk x r then 0x03
  else 0

/-- The field and world of a drift's floes (R444, R461). -/
def Dev.driftAccess (d : Dev) (dr : Nat) : Access :=
  let r := d.reg (rDriftField dr)
  { field := if rbit r 31 then some (BitVec.ofNat 4 (fld r 3 0)) else none, secure := rbit r 30, host := false }

/-- The field and world of a logical floe. -/
def Dev.floeAccess (d : Dev) (f : Nat) : Access := d.driftAccess (f / 4)

/-- The field of a host source by its HST entry (R450, R460). -/
def Dev.hstField (d : Dev) (ch srcid : Nat) : Option (BitVec 4) :=
  let b := fld (d.reg (rHst ch (srcid / 4))) (8 * (srcid % 4) + 7) (8 * (srcid % 4))
  if b.testBit 7 then some (BitVec.ofNat 4 b) else none

/-- Is the region of an access being zeroed (R454)? -/
def Dev.regionHeld (d : Dev) (a : Nat) : Bool := d.zeroing.contains (a / 2 ^ 21)

/-! ## DRAM words -/

/-- The order in force; none in interleave mode (R131, R170). -/
def Dev.order (d : Dev) : Option Nat :=
  let r := d.reg (rChCfg 0)
  if rbit r 31 then none else some (fld r 25 24)

def Dev.intlvG (d : Dev) : Nat := fld (d.reg (rChCfg 0)) 20 16

def Dev.place (d : Dev) (a : Nat) : Place := decodeAddr d.order d.intlvG a

/-- The DRAM word that a device address lies in. -/
def Dev.wordOf (d : Dev) (a : Nat) : Nat := (d.place a).word

/-- The device address of a DRAM word (R185). -/
def Dev.addrOf (d : Dev) (n : Nat) : Nat := encodeAddr d.order d.intlvG (wordPlace n)

/-- The buffered word, if the word is in its channel's write buffer (R149). -/
def Dev.buffered (d : Dev) (n : Nat) : Option BufWord :=
  (d.chan (wordPlace n).ch).wbuf.find? fun b => b.word == n

/-- Does a buffered word hold the whole word? -/
def BufWord.whole (b : BufWord) : Bool := b.mask == BitVec.allOnes 64 && b.keep == 0

/-- A buffered word as it will reach the array, with its marks: what it does not hold is the array's (R83, R209, R328). -/
def BufWord.onto (b : BufWord) (m : EccMem) : Line × BitVec 8 :=
  if b.ue then (if b.whole then b.data else mergeLine (m.readWord b.word).data b.data b.mask, 0xFF)
  else if b.whole then (b.data, b.marks)
  else
    let old := m.readWord b.word
    (mergeLine old.data (keepBits old.data b.data b.keep) b.mask, if old.poison then 0xFF else b.marks)

/-- What any agent's read of a DRAM word sees (R149). -/
def Dev.seen (d : Dev) (n : Nat) : WordRead :=
  match d.buffered n with
  | some b =>
    let x := b.onto d.dram
    { data := x.1, poison := x.2 != 0, corrected := 0, uncorr := 0, marks := x.2 }
  | none => d.dram.readWord n

/-- Does the bank of a word run an atom (R127, R207)? -/
def Dev.inAtom (d : Dev) (n : Nat) : Bool := (d.bankNear (wordPlace n).ch (wordPlace n).bank).atom.isSome

/-- Is the channel of a word down (R371)? -/
def Dev.wordDown (d : Dev) (n : Nat) : Bool := (d.chan (wordPlace n).ch).down

/-- Is the word's region mirrored (R430)? -/
def Dev.mirrored (d : Dev) (n : Nat) : Bool := rbit (d.region (d.addrOf n)) 19

/-- Take the next request number of a channel. -/
def Dev.freshId (d : Dev) (c : Nat) : Nat × Dev :=
  let x := d.chan c
  (x.nextId, d.setChan c { x with nextId := x.nextId + 1 })

/-- Schedule a repair write (R363): class 3, no field, never promoted. -/
def Dev.repairLater (d : Dev) (n : Nat) : Dev :=
  let c := (wordPlace n).ch
  if (d.chan c).reqs.any fun r => r.origin == .repair && r.word == n then d
  else
    let (id, d) := d.freshId c
    d.updChan c fun x => { x with reqs := x.reqs ++
      [{ id := id, origin := .repair, port := 4, cls := 3, promoted := none, word := n, index := 0, field := none,
         since := d.clock, arr := id }] }

/-- A region goes out of sync (R432, R433). -/
def Dev.markOutSync (d : Dev) (r : Nat) : Dev :=
  if d.twin.outSync.contains r then d else { d with twin := { d.twin with outSync := d.twin.outSync ++ [r] } }

/-- An uncorrectable word of a region that is a mirror copy (ATTR[18], R446) puts the region out of sync (R432). -/
def Dev.copyBroken (d : Dev) (a : Nat) : Dev := if rbit (d.region a) 18 then d.markOutSync (a / 2 ^ 21) else d

/-- The reports of a TSV-path read of a word (R363, R370): counters, moraine and the repair it calls for. -/
def Dev.noteRead (d : Dev) (n : Nat) (w : WordRead) (scrub : Bool) : Dev :=
  let c := (wordPlace n).ch
  let bank := n / 16 / 32768
  let a := d.addrOf n
  let d := if w.corrected = 0 then d
    else ((d.count (rErrCe c) w.corrected).report 0x0001 1 2 bank a 0).repairLater n
  if w.uncorr = 0 then d
  else
    let d := (d.count (rErrUe c) w.uncorr).report (if scrub then 0x0004 else 0x0002) 2 2 bank a 0
    if d.mirrored n then d else (d.copyBroken a).repairLater n

end Sys2Proof.Machine
end

