-- ==== Sys2Proof/Machine/FloeOps.lean ====
section
/-! DEFINITION. Operations on floes: local store (R233, R362), tile queues (R256 to R261), halts (R262 to R264) and
freezes (R265, R379, R380). -/

namespace Sys2Proof.Machine

/-- The field that a slot's logical floe belongs to. -/
def Dev.floeField (d : Dev) (n : Nat) : Option (BitVec 4) := (d.floe n).ident.bind fun f => (d.floeAccess f.toNat).field

/-- The logical floe of a slot, 0 when it holds none. -/
def Dev.logicalOf (d : Dev) (n : Nat) : Nat := (((d.floe n).ident).getD 0).toNat

/-! ## Local store -/

/-- Word number of a slot's local store. -/
def lsIndex (n off : Nat) : Nat := (n * 2 ^ 21 + off) / 64

/-- Read a 64-byte word of a local store with its reports: corrected words are counted, uncorrectable ones poison
(R233, R362, R375). -/
def Dev.lsRead (d : Dev) (n off : Nat) : WordRead × Dev :=
  let w := d.ls.readWord (lsIndex n off)
  let d := if w.corrected = 0 then d else (d.count (rLsCe n) w.corrected).report 0x0007 1 4 n (off / 64 * 64) 0
  let d := if w.uncorr = 0 then d else (d.count (rLsUe n) w.uncorr).report 0x0008 2 4 n (off / 64 * 64) 0
  (w, d)

/-- A masked write of a local-store word (R366), with the reports of the read that a part of a word needs (R233, R362): a poisoned
word stays marked on all eight code words. The Bool: the word has been written with the mark. -/
def Dev.lsMerge (d : Dev) (n off : Nat) (data : Line) (mask : BitVec 64) (keep : Line) (poison : Bool) : Bool × Dev :=
  if mask = 0 then (false, d)
  else
    let (old, d) := if mask = BitVec.allOnes 64 ∧ keep = 0 then (d.ls.readWord (lsIndex n off), d) else d.lsRead n off
    let (x, marks, _) := mergeWord old data mask poison keep
    (marks != 0, { d with ls := d.ls.writeWord (lsIndex n off) x marks })

def Dev.lsWrite (d : Dev) (n off : Nat) (data : Line) (mask : BitVec 64) (poison : Bool) : Dev :=
  (d.lsMerge n off data mask 0 poison).2

/-- Write a list of bytes inside one word. -/
def Dev.lsBytes (d : Dev) (n off : Nat) (bs : List (BitVec 8)) : Dev :=
  let k := off % 64
  d.lsWrite n off (BitVec.ofNat 512 (leNat bs * 2 ^ (8 * k))) (BitVec.ofNat 64 ((2 ^ bs.length - 1) * 2 ^ k)) false

/-! ## Tile queues -/

def Floe.queue (f : Floe) (q : Nat) : Option TileQ := tabGet (fun _ => none) f.queues q
def Floe.setQueue (f : Floe) (q : Nat) (x : Option TileQ) : Floe := { f with queues := tabSet (fun _ => none) f.queues q x }
def TileQ.slot (q : TileQ) (i : Nat) : SlotSt := tabGet (fun _ => .free) q.slots i
def TileQ.setSlot (q : TileQ) (i : Nat) (s : SlotSt) : TileQ := { q with slots := tabSet (fun _ => .free) q.slots i s }

/-- Does a range of local store touch the storage of a configured queue, but for queue `skip` (R233)? -/
def Floe.inQueue (f : Floe) (off n : Nat) : Bool :=
  f.queues.any fun e => match e.2 with
    | some q => decide (off < q.base + q.depth * q.tile) && decide (q.base < off + n)
    | none => false

/-- Number of slots in a state. -/
def TileQ.countSt (q : TileQ) (s : SlotSt) : Nat :=
  if s = .free then q.depth - q.slots.length else (q.slots.filter fun e => e.2 == s).length

/-- The tile that words make (R261): data and the poison of each word. -/
def wordsTile (ws : List WordRead) : Tile :=
  { size := 64 * ws.length, data := ws.foldr (fun w x => w.data.toNat + 2 ^ 512 * x) 0,
    poison := ws.foldr (fun w x => w.poison.toNat + 2 * x) 0 }

/-- A tile in a local store, as it stands. -/
def Dev.tileSeen (d : Dev) (n base size : Nat) : Tile :=
  wordsTile ((List.range (size / 64)).map fun i => d.ls.readWord (lsIndex n (base + 64 * i)))

/-- Read the tile of a queue slot, with its reports (R233, R261). -/
def Dev.tileRead (d : Dev) (n base size : Nat) : Tile × Dev :=
  let (ws, d) := (List.range (size / 64)).foldl (fun (s : List WordRead × Dev) i =>
    let (w, d) := s.2.lsRead n (base + 64 * i)
    (s.1 ++ [w], d)) ([], d)
  (wordsTile ws, d)

/-- Write a tile whole: its words and their poison (R261, R366). -/
def Dev.tileWrite (d : Dev) (n base : Nat) (t : Tile) : Dev :=
  forNat (t.size / 64) d fun d i =>
    { d with ls := d.ls.writeWord (lsIndex n (base + 64 * i)) (BitVec.ofNat 512 (t.data >>> (512 * i)))
                     (if t.poison.testBit i then 0xFF else 0) }

/-! ## Poison -/

/-- A command moved or stored poison (R367, R393). -/
def Dev.poisonMoved (d : Dev) (n engine addr : Nat) : Dev :=
  let d := d.report 0x000B 1 4 n addr 0 (d.floeField n)
  if rbit (d.reg (rPoisonStat n)) 31 then d
  else (d.setReg (rPoisonStat n) (BitVec.ofNat 32 (2 ^ 31 + engine))).setReg64 (rPoisonAddr n) (BitVec.ofNat 64 addr)

/-- A store of a floe has written a word with the mark (R393). -/
def Dev.poisonStored (d : Dev) (f : BitVec 7) : Dev :=
  match d.slotOf f.toNat with
  | some s => d.count (rPoisonStored s) 1
  | none => d

/-! ## Launches -/

/-- Slot n's part of its LAUNCH ends (R105, R236): the first halt and the first freeze are kept for the record. -/
def Dev.leaveLaunch (d : Dev) (n : Nat) (halted : Option (BitVec 8 × BitVec 64)) (frozen : Bool) : Dev :=
  let f := d.floe n
  match f.launch, f.ident with
  | some (r, i), some lf =>
    let d := d.setFloe n { f with launch := none }
    { d with cmds := d.cmds.map fun c =>
        if c.ring == r && c.idx == i then
          { c with floes := c.floes.filter (· != lf)
                   halted := match c.halted, halted with
                     | none, some h => some (lf, h.1, h.2)
                     | x, _ => x
                   frozen := if frozen && c.frozen.isNone then some lf else c.frozen }
        else c }
  | _, _ => d

/-! ## Halts -/

/-- FLOE_HALT_ADDR: the bundle address with the slot in bits [40:36] (R264, R268). -/
def haltAddr (pc : DevAddr) (slot : Nat) : BitVec 64 := BitVec.ofNat 64 (pc.toNat / 32 * 32 + slot * 2 ^ 36)

/-- Record a halt of a RUNNING or ENDING floe, or set MORE (R262 to R264, R304); `disp` when at dispatch. A halt during
execution discards every command not yet issued. -/
def Dev.haltFloe (d : Dev) (n code : Nat) (pc : DevAddr) (slot : Nat) (disp : Bool) : Dev :=
  let f := d.floe n
  match f.st with
  | .halting =>
    let f := if disp then f else { f with engines := f.engines.map fun es => es.filter (·.issued) }
    d.setFloe n { f with more := true, haltAtDispatch := f.haltAtDispatch && disp }
  | .running | .ending =>
    let f := { f with st := .halting, halt := some (BitVec.ofNat 8 code, pc, Fin.ofNat 8 slot), more := false
                      haltAtDispatch := disp }
    let f := if disp then f else { f with engines := f.engines.map fun es => es.filter (·.issued) }
    (d.setFloe n f).report (0x500 + code) (if code = 7 ∨ code = 8 then 2 else 0) 4 n pc.toNat 0 (d.floeField n)
  | _ => d

/-- Mark a command of an engine as faulted and halt its floe (R263). -/
def Dev.faultCmd (d : Dev) (n e : Nat) (c : ECmd) (code : Nat) : Dev :=
  let d := d.updFloe n fun f => { f with engines := setAt 6 [] f.engines e (((f.engines[e]?).getD []).map fun x =>
    if x.number == c.number then { x with faulted := true } else x) }
  d.haltFloe n code c.pc e false

/-! ## Freezes -/

/-- Is the cause a fault (R379)? -/
def freezeFault (cause : Nat) : Bool := decide (3 ≤ cause)

/-- Time zero of a freeze (R265, R379): the front end and every engine stop, the floe waits to be fenced, and its status
messages are dropped (R123). A freeze of a FROZEN or UNASSIGNED slot has no effect. -/
def Dev.freezeFloe (d : Dev) (n cause : Nat) : Dev :=
  let f := d.floe n
  match f.st, f.ident with
  | .frozen, _ => d
  | .unassigned, _ => d
  | _, none => d
  | _, some lf =>
    let stores := (((f.engines[4]?).getD []).filter (·.issued)).length
    let ue := if cause = 3 then sat 3 (fld (d.reg (rFreeze n)) 1 0 + 1) else fld (d.reg (rFreeze n)) 1 0
    let d := d.leaveLaunch n none true
    let d := d.updFloe n fun f => { f with st := .frozen, fencing := true, openStores := stores }
    let d := d.updLogi lf.toNat fun l => { l with statuses := [] }
    let d := d.setReg (rFreeze n)
      (BitVec.ofNat 32 (2 ^ 31 + (if freezeFault cause then 2 ^ 30 else 0) + cause * 2 ^ 24 + ue))
    let d := d.setReg64 (rFreezeTime n) d.time
    d.report (0x540 + cause) (if freezeFault cause then 2 else 0) 3 lf.toNat 0 n (d.floeField n)

/-- Has a freeze discarded everything of the floe (R380)? -/
def Floe.emptied (f : Floe) : Bool :=
  f.engines.all (·.isEmpty) && f.waitList.isEmpty && f.waitHere.isNone && f.bundles.isEmpty && f.fetching.isEmpty

/-- Steps 1 and 2 of a freeze (R380): every command, wait-list entry, synchronisation wait, queued SEMTAKE and request
inside the floe is discarded. -/
def Dev.freezeDiscard (d : Dev) (n : Nat) : Dev :=
  let f := d.floe n
  if !f.fencing then d
  else
    let d := d.setFloe n { f with engines := List.replicate 6 [], waitList := [], waitHere := none, bundles := [], fetching := [] }
    match f.ident with
    | none => d
    | some lf =>
      let q := (d.semQ.map fun e => (e.1, e.2.filter fun x => x.1 != lf)).filter fun e => !e.2.isEmpty
      { d with semQ := q }

/-- Freeze a logical floe, wherever it is held. -/
def Dev.freezeLogical (d : Dev) (f cause : Nat) : Dev :=
  match d.slotOf f with
  | some n => d.freezeFloe n cause
  | none => d

end Sys2Proof.Machine
end

