-- ==== Sys2Proof/Machine/LinkCore.lean ====
section
/-! DEFINITION. Links: packets and their CRC (R399 to R401), sending under sequence numbers and credits (R403 to R405),
LINK packets (R404), replay and link failure (R406), and requests to other devices (R402, R408, R415). -/

namespace Sys2Proof.Machine

def Dev.link (d : Dev) (l : Nat) : Link := tabGet (fun _ => Link.init) d.links l

/-- The clock of the pauses of R406: it runs while the link stands in replay or training. -/
def Link.clocked (k : Link) (clock : Nat) : Link :=
  if k.training.isSome || k.replay || k.inError then { k with pauseFrom := some (k.pauseFrom.getD clock) }
  else match k.pauseFrom with
    | none => k
    | some t => { k with pauseFrom := none, pauses := k.pauses ++ [(t, clock)] }

def Dev.setLink (d : Dev) (l : Nat) (x : Link) : Dev :=
  { d with links := tabSet (fun _ => Link.init) d.links l (x.clocked d.clock) }

/-- Pauses until now: those that have ended, and the one under way. -/
def pausesTo (clock : Nat) (past : List (Nat × Nat)) (since : Option Nat) : List (Nat × Nat) :=
  past ++ (since.map fun t => (t, clock)).toList

/-- When a link has stood in replay or training (R406). -/
def Dev.linkPauses (d : Dev) (l : Nat) : List (Nat × Nat) := pausesTo d.clock (d.link l).pauses (d.link l).pauseFrom

def Dev.updLink (d : Dev) (l : Nat) (f : Link → Link) : Dev := d.setLink l (f (d.link l))

/-! ## Packets -/

/-- One bit of the reflected CRC-32C. -/
def crc32cStep (c : BitVec 32) : BitVec 32 := if c.getLsbD 0 then (c >>> 1) ^^^ 0x82F63B78 else c >>> 1

def crc32cByte (c : BitVec 32) (x : BitVec 8) : BitVec 32 :=
  (List.range 8).foldl (fun c _ => crc32cStep c) (c ^^^ x.zeroExtend 32)

/-- CRC-32C of R401. -/
def crc32c (xs : List (BitVec 8)) : BitVec 32 := ~~~(xs.foldl crc32cByte 0xFFFFFFFF)

/-- Does the type carry 64 bytes of data (R400)? -/
def packetData (t : Nat) : Bool := [2, 3, 4, 5, 8, 9].contains t

/-- The virtual channel of a type: 0 request, 1 response, 2 collective (R400). -/
def packetVc (t : Nat) : Nat := if t ≤ 4 then 0 else if t ≤ 6 then 1 else 2

/-- Credits of a virtual channel (R405). -/
def vcCredits (v : Nat) : Nat := if v = 2 then 64 else 128

/-- Bytes 0 to 27 of the header flit with a SEQ (R399). -/
def Packet.header (p : Packet) (seq : BitVec 10) : Nat :=
  p.typ + p.cls.toNat * 2 ^ 4 + p.world.toNat * 2 ^ 6 + p.poison.toNat * 2 ^ 7 + p.field.toNat * 2 ^ 8
    + seq.toNat * 2 ^ 16 + p.dst.toNat * 2 ^ 32 + p.dev.toNat * 2 ^ 40 + p.orig.toNat * 2 ^ 48 + p.tag.toNat * 2 ^ 64
    + p.epoch.toNat * 2 ^ 80 + p.addr * 2 ^ 96 + p.status * 2 ^ 136 + p.arg.toNat * 2 ^ 160

/-- The CRC of a packet (R401). -/
def packetCrc (hdr : Nat) (typ : Nat) (data : Line) : BitVec 32 :=
  crc32c (toLe 28 hdr ++ (if packetData typ then lineBytes data else []))

/-- Read a header flit; the SEQ and whether its CRC and its type hold (R399 to R401). -/
def parsePacket (hdr : BitVec 256) (data : Line) : Packet × BitVec 10 × Bool :=
  let h := hdr.toNat
  let t := bits h 3 0
  let reserved := bits h 15 12 != 0 || bits h 31 26 != 0 || bits h 39 38 != 0 || bits h 47 46 != 0
    || bits h 79 76 != 0 || bits h 135 133 != 0 || bits h 159 144 != 0
  ({ typ := t, cls := BitVec.ofNat 2 (bits h 5 4), world := bit h 6, poison := bit h 7, field := BitVec.ofNat 4 (bits h 11 8),
     dst := BitVec.ofNat 6 (bits h 37 32), dev := BitVec.ofNat 6 (bits h 45 40), orig := BitVec.ofNat 16 (bits h 63 48),
     tag := BitVec.ofNat 12 (bits h 75 64), epoch := BitVec.ofNat 16 (bits h 95 80), addr := bits h 132 96,
     status := bits h 143 136, arg := BitVec.ofNat 64 (bits h 223 160), data := if packetData t then data else 0 },
   BitVec.ofNat 10 (bits h 25 16),
   BitVec.ofNat 32 (bits h 255 224) == packetCrc (bits h 223 0) t data && [1, 2, 3, 4, 5, 6, 8, 9, 14].contains t
     && (t == 14 || !reserved))

/-! ## Sending -/

/-- The first packet of the queue whose virtual channel has credit (R405): a channel without credit stalls only its own. -/
def Link.ready (k : Link) : Option (Nat × Packet) :=
  findPos (fun p : Packet =>
    let v := packetVc p.typ
    (k.given[v]?.getD 0) != (k.used[v]?.getD 0)) k.outq 0

/-- Send what credit and the window of 512 allow (R403, R405). -/
def Link.drain : Nat → Link → Link
  | 0, k => k
  | n + 1, k =>
    if !k.up || decide (512 ≤ k.held.length) then k
    else match k.ready with
      | none => k
      | some (i, p) =>
        let v := packetVc p.typ
        Link.drain n { k with outq := dropAt k.outq i, held := k.held ++ [(k.nextSeq, p)], nextSeq := k.nextSeq + 1
                              used := setAt 3 0 k.used v ((k.used[v]?.getD 0) + 1) }

def Dev.gdev (d : Dev) : Nat := fld (d.reg rGrpStat) 5 0

/-- A link sends what it may; the clocks of this device's own requests among the packets start (R415). -/
def Dev.linkDrain (d : Dev) (l : Nat) : Dev :=
  let k := d.link l
  let k' := k.drain k.outq.length
  let out := (k'.held.drop k.held.length).filter fun e => decide (e.2.typ ≤ 4) && e.2.dev.toNat == d.gdev
  let d := d.setLink l k'
  if out.isEmpty then d
  else { d with remotes := d.remotes.map fun r =>
           if r.since.isNone && out.any fun e => e.2.tag == r.tag then { r with since := some d.clock } else r }

/-- Put a packet on a link. -/
def Dev.linkSend (d : Dev) (l : Nat) (p : Packet) : Dev :=
  if (d.link l).down then d else (d.updLink l fun k => { k with outq := k.outq ++ [p] }).linkDrain l

/-- Send a LINK packet: the last SEQ accepted, NAK, RETRAIN and the credits (R404). The newest 16 are kept. -/
def Link.linkPkt (k : Link) (nak : Bool) (now : Nat) : Link :=
  { k with links := (k.links ++ [(k.expSeq - 1, nak, k.askTrain, k.granted)]).drop (k.links.length - 15), unacked := 0
           linkSent := now }

/-! ## Requests to other devices -/

/-- The peer link of the route table to a device (R408, R439). -/
def Dev.route (d : Dev) (dev : Nat) : Option Nat :=
  let l := fld (d.reg (rGrpRoute (dev / 8))) (4 * (dev % 8) + 2) (4 * (dev % 8))
  if l < 4 then some l else none

/-- A route whose link works (R412, R415). -/
def Dev.workingRoute (d : Dev) (dev : Nat) : Option Nat :=
  match d.route dev with
  | some l => if (d.link l).down then none else some l
  | none => none

/-- A packet of this device with everything 0 but its destination and epoch. -/
def Dev.packet (d : Dev) (typ dst : Nat) : Packet :=
  { typ := typ, cls := 0, world := false, poison := false, field := 0, dst := BitVec.ofNat 6 dst,
    dev := BitVec.ofNat 6 d.gdev, orig := 0, tag := 0, epoch := d.group.epoch, addr := 0, status := 0, arg := 0, data := 0 }

/-- Send to a device by its route (R408); on the twin link by `l = 4`. False when there is no working route. -/
def Dev.sendTo (d : Dev) (p : Packet) : Bool × Dev :=
  match d.workingRoute p.dst.toNat with
  | some l => (true, d.linkSend l p)
  | none => (false, d)

/-- The lowest tag that no request holds. -/
def Dev.freeTag (d : Dev) : Option (BitVec 12) :=
  ((List.range 4096).find? fun t => !(d.remotes.any fun r => r.tag.toNat == t)).map (BitVec.ofNat 12)

/-- Send a request and remember it (R415). No route, or no free tag: none. -/
def Dev.remoteRequest (d : Dev) (l : Nat) (p : Packet) (who : RemoteWho) : Option (BitVec 12 × Dev) :=
  match d.freeTag with
  | none => none
  | some t =>
    let d : Dev := { d with remotes := d.remotes ++ [{ tag := t, dst := p.dst, write := p.typ != 1, who := who, since := none }] }
    some (t, d.linkSend l { p with tag := t })

/-- Send an answer on the link it belongs on: TL for the twin, the route for a member; one that cannot go is dropped (R415). -/
def Dev.answer (d : Dev) (link : Nat) (p : Packet) : Dev := if link = 4 then d.linkSend 4 p else (d.sendTo p).2

/-- RSP_DATA to a request of a device (R414). -/
def Dev.answerData (d : Dev) (link : Nat) (dev : BitVec 6) (tag : BitVec 12) (data : Line) (poison : Bool) : Dev :=
  d.answer link { d.packet 5 dev.toNat with tag := tag, data := data, poison := poison }

/-- RSP_STATUS to a request of a device (R414). -/
def Dev.answerStatus (d : Dev) (link : Nat) (dev : BitVec 6) (tag : BitVec 12) (status : Nat) : Dev :=
  d.answer link { d.packet 6 dev.toNat with tag := tag, status := status }

/-! ## The mirror stream -/

/-- The twin is paired and reachable (R433, R440): its link is up, or is being retrained in service, while what is sent waits
(R406, R407). -/
def Dev.twinReachable (d : Dev) : Bool :=
  d.twin.paired && d.twin.partnerHolds && ((d.link 4).up || (d.link 4).training.any (· != .start))

/-- Does the stream to the twin lack credit (R430)? -/
def Dev.mirrorStalls (d : Dev) : Bool := d.twinReachable && (!(d.link 4).outq.isEmpty || d.freeTag.isNone)

/-- Send a mirror item of a channel: a write of a word, or an NBO (R430). -/
def Dev.mirrorSend (d : Dev) (typ ch addr : Nat) (data : Line) (mask : BitVec 64) (poison : Bool) : Dev :=
  if !d.twinReachable then d
  else
    let p := { d.packet typ 0 with orig := BitVec.ofNat 16 (3 * 2 ^ 14 + ch), addr := addr, data := data, arg := mask
                                   poison := poison }
    match d.remoteRequest 4 p (.mirror (addr / 2 ^ 21)) with
    | some (_, d) => d
    | none => d

/-- A mirrored write of a word, if its region is mirrored (R430). -/
def Dev.mirrorWrite (d : Dev) (n : Nat) (data : Line) (mask : BitVec 64) (poison : Bool) : Dev :=
  if d.mirrored n then
    d.mirrorSend (if mask = BitVec.allOnes 64 then 2 else 3) (wordPlace n).ch (d.addrOf n) data
      (if mask = BitVec.allOnes 64 then 0 else mask) poison
  else d

/-! ## Reads over the TSV path, and recovery from the twin -/

/-- Begin recovery of a word from the twin (R387); `r` is the read that found it, if it waits. Every read of the word that the
channel has accepted waits with it, in arrival order; its scrub reads and repair writes are done with. -/
def Dev.recover (d : Dev) (n : Nat) (r : Option SchedReq) : Dev :=
  let c := (wordPlace n).ch
  match findPos (fun v : Recovery => v.word == n) (d.chan c).recovery 0 with
  | some (i, v) => d.updChan c fun x =>
      { x with recovery := putAt x.recovery i { v with waiting := v.waiting ++ r.toList } }
  | none =>
    let p := { d.packet 1 0 with orig := BitVec.ofNat 16 (3 * 2 ^ 14 + c), addr := d.addrOf n }
    -- a twin read goes out only to a reachable twin whose copy of the region is in sync (R387, R433)
    let go := d.twinReachable && !d.twin.outSync.contains (d.addrOf n / 2 ^ 21)
    let (sent, d) := match (if go then d.remoteRequest 4 p (.twin n) else none) with
      | some (_, d) => (true, d)
      | none => (false, d)
    d.updChan c fun x =>
      let same := x.reqs.filter fun q => q.word == n && q.port != 4
      let at_ := (r.map (·.arr)).getD 0
      { x with reqs := x.reqs.filter (fun q => q.word != n),
               recovery := x.recovery ++ [{ word := n, since := d.clock, sent := sent,
                                            waiting := (same.filter fun q => decide (q.arr < at_)) ++ r.toList
                                              ++ same.filter fun q => !decide (q.arr < at_) }] }

/-- The sender of a memory access that is no host's or peer's, and its port, class and field (R26, R98, R137, R188). -/
structure Mover where
  origin : Origin
  port   : Fin 5
  cls    : BitVec 2
  field  : Option (BitVec 4)
deriving DecidableEq, Repr

/-- Reads of a port that its channel holds. -/
def Dev.portLoad (d : Dev) (c : Nat) (port : Fin 5) : Nat := ((d.chan c).reqs.filter fun r => r.port == port).length

/-- Has the sender's read of a word been accepted and not yet answered? -/
def Chan.asked (ch : Chan) (o : Origin) (n : Nat) : Bool :=
  (ch.reqs.any fun r => r.origin == o && r.word == n)
    || ch.recovery.any fun v => v.word == n && v.waiting.any fun r => r.origin == o

/-- The channel of a word accepts a read of it, if its port has an entry free (R137, R138); a word in recovery, or of a mirrored
region of a down channel, is read from the twin (R371, R387). -/
def Dev.askWord (d : Dev) (m : Mover) (n : Nat) : Dev :=
  let c := (wordPlace n).ch
  let ch := d.chan c
  if ch.asked m.origin n || (m.port == 1 && decide (256 ≤ d.portLoad c 1)) then d
  else
    let (id, d) := d.freshId c
    let q : SchedReq := { id := id, origin := m.origin, port := m.port, cls := m.cls, promoted := none, word := n, index := 0,
                          field := m.field, since := d.clock, arr := id }
    if ch.down || ch.recovery.any (fun v => v.word == n) then d.recover n (some q)
    else d.updChan c fun x => { x with reqs := x.reqs ++ [q], idleFrom := none }

/-- The place in its channel's queue of a word that a sender's read has produced. -/
def Dev.readyAt (d : Dev) (m : Mover) (n : Nat) : Option (Nat × ReadyWord) :=
  findPos (fun e : ReadyWord => e.origin == m.origin && e.word == n) (d.chan (wordPlace n).ch).readyQ 0

/-- Can the sender have the word now: its read has been answered, the word is in the write buffer (R149), or its channel is
down without a copy (R371)? -/
def Dev.wordThere (d : Dev) (m : Mover) (n : Nat) : Bool :=
  (d.readyAt m n).isSome || (d.buffered n).isSome || (d.wordDown n && !d.mirrored n)

/-- Read a word over the TSV path (R127, R137): the word once the sender's read has been answered; before that the read is put
to the channel, if it has not been, and the answer is none. A buffered word is served at once (R143, R149). -/
def Dev.tsvRead (d : Dev) (m : Mover) (n : Nat) : Option WordRead × Dev :=
  let c := (wordPlace n).ch
  match d.readyAt m n with
  | some (i, e) =>
    (some { data := e.data, poison := e.poison, corrected := 0, uncorr := 0, marks := if e.poison then 0xFF else 0 },
     d.updChan c fun x => { x with readyQ := dropAt x.readyQ i })
  | none =>
    match d.buffered n with
    | some _ => (some (d.seen n), d)
    | none =>
      if d.wordDown n && !d.mirrored n then
        (some { data := Config.freeLine d.freeUses, poison := true, corrected := 0, uncorr := 0, marks := 0xFF },
         { d with freeUses := d.freeUses + 1 })
      else (none, d.askWord m n)

/-- Take the words of a list of device addresses, each of which is there. -/
def Dev.takeWords (d : Dev) (m : Mover) : List Nat → Option (List WordRead) × Dev
  | [] => (some [], d)
  | a :: as =>
    match d.tsvRead m (d.wordOf a) with
    | (none, d) => (none, d)
    | (some w, d) =>
      match d.takeWords m as with
      | (none, d) => (none, d)
      | (some ws, d) => (some (w :: ws), d)

/-- Read the words of a list of device addresses, no two in one word, each over the TSV path: none, with every missing one asked
for, until all are there. -/
def Dev.tsvReads (d : Dev) (m : Mover) (as : List Nat) : Option (List WordRead) × Dev :=
  if as.all fun a => d.wordThere m (d.wordOf a) then d.takeWords m as
  else (none, as.foldl (fun d a => if d.wordThere m (d.wordOf a) then d else d.askWord m (d.wordOf a)) d)

/-- Words read for a sender that has ended are dropped. -/
def Dev.forget (d : Dev) (p : Origin → Bool) : Dev :=
  let cs := d.chans.map fun e => (e.1, { e.2 with readyQ := e.2.readyQ.filter fun w => !p w.origin })
  { d with chans := cs.filter fun e => e.2 != Chan.init }

/-- Reads of a sender that are still open, and words read for it, are withdrawn. -/
def Dev.withdraw (d : Dev) (p : Origin → Bool) : Dev :=
  let cs := d.chans.map fun e => (e.1, { e.2 with
    reqs := e.2.reqs.filter fun r => !p r.origin
    recovery := e.2.recovery.map fun v => { v with waiting := v.waiting.filter fun r => !p r.origin }
    readyQ := e.2.readyQ.filter fun w => !p w.origin })
  { d with chans := cs.filter fun e => e.2 != Chan.init }

/-! ## Training -/

/-- A link begins to train, unless LNK_CTRL.DISABLE keeps it untrained (R407). -/
def Dev.linkTrain (d : Dev) (l : Nat) (cause : LinkCause) : Dev :=
  if rbit (d.reg (rLnkCtrl l)) 29 then d
  else d.updLink l fun k => { k with up := false, training := some cause, attempts := 0, down := false, askTrain := false }

/-- Return the link credit of a packet of a virtual channel (R405, R423); a link trained afresh since has had it back. -/
def Dev.giveCredit (d : Dev) (l v : Nat) : Dev :=
  d.updLink l fun k =>
    let g := k.granted[v]?.getD 0
    if (g - k.consumed[v]?.getD 0).toNat < vcCredits v then { k with granted := setAt 3 0 k.granted v (g + 1) } else k

/-! ## Failure -/

/-- Set CP_ATTN_DEVSRC.PEER or another source bit (R437, R524). -/
def Dev.devsrc (d : Dev) (bit : Nat) : Dev := d.setRegBit rCpDevsrc bit true

/-- Report a code of this chapter, with the source bit that R437 sets. -/
def Dev.peerReport (d : Dev) (code sev ukind unit addr info : Nat) : Dev :=
  let d := d.report code sev ukind unit addr info
  if [0x900, 0x901, 0x902, 0x903, 0x906, 0x908].contains code then d.devsrc 28 else d

/-- Mirrored regions of the device (R433). -/
def Dev.mirroredRegions (d : Dev) : List Nat :=
  (d.cs.filter fun e => decide (rRegion 0 ≤ e.1) && decide (e.1 < rRegion 0 + 4 * 32768) && rbit e.2 31 && rbit e.2 19).map
    fun e => (e.1 - rRegion 0) / 4

/-- Twin loss (R433). -/
def Dev.twinLost (d : Dev) : Dev :=
  if !d.twin.paired then d
  else
    let d := { d with twin := { d.twin with outSync := d.mirroredRegions, partnerHolds := false }
                      remotes := d.remotes.filter fun r => match r.who with
                        | .mirror _ => false
                        | _ => true }
    d.peerReport 0x906 3 7 4 0 0

end Sys2Proof.Machine
end

