-- ==== Sys2Proof/Machine/Near.lean ====
section
/-! DEFINITION. Near-bank operations: acceptance (R186, R204, R225), phases and atoms (R188 to R193), the chain (R197,
R198), tokens (R200, R201), check bits and poison (R217 to R223), and writes held behind them (R210). -/

namespace Sys2Proof.Machine

def Dev.nbo (d : Dev) (id : Nat) : Option Nbo := d.nbos.find? fun x => x.id == id

def Dev.updNbo (d : Dev) (id : Nat) (f : Nbo → Nbo) : Dev :=
  { d with nbos := d.nbos.map fun x => if x.id == id then f x else x }

def Dev.dropNbo (d : Dev) (id : Nat) : Dev := { d with nbos := d.nbos.filter fun y => y.id != id }

def Nbo.d (x : Nbo) : NboDesc := nboDesc x.desc

/-- The banks of an NBO, from the start bank toward the end bank (R197). -/
def NboDesc.banks (n : NboDesc) : List Nat :=
  let bs := (List.range (n.bankEnd + 1 - n.bank)).map fun i => n.bank + i
  if n.dir then bs.reverse else bs

def NboDesc.startBank (n : NboDesc) : Nat := if n.dir then n.bankEnd else n.bank
def NboDesc.endBank (n : NboDesc) : Nat := if n.dir then n.bank else n.bankEnd

/-- The next bank of the chain. -/
def NboDesc.nextBank (n : NboDesc) (b : Nat) : Nat := if n.dir then b - 1 else b + 1

/-- The banks that write DEST or receive a shift (R183, R198). -/
def NboDesc.destBanks (n : NboDesc) : List Nat :=
  if n.reduces then [n.endBank] else if n.op = 6 then n.banks.filter fun b => b != n.startBank else []

/-- Does its result atom take the Update form (R193)? -/
def NboDesc.resultUpdates (n : NboDesc) : Bool := n.accum || n.hred || (n.perRow && n.rowCount < 16)

/-- Device address of a row (R185). -/
def Dev.rowAddr (d : Dev) (ch bank row : Nat) : Nat :=
  encodeAddr d.order d.intlvG { ch := ch, bank := bank, row := row, w := 0, byte := 0 }

/-- The rows an NBO touches, with the kinds of access checked (R186, R448): bank, row, read, write. -/
def NboDesc.touches (n : NboDesc) : List (Nat × Nat × Bool × Bool) :=
  let compute := (n.banks.filter fun b => !(n.op == 6 && b == n.endBank)).flatMap fun b =>
    (List.range n.rowCount).map fun k =>
      (b, n.rowFirst + k, n.op != 5 || !n.fullMask, n.op == 4 || n.op == 5)
  let dest := n.destBanks.map fun b => (b, n.drow, n.reduces && n.resultUpdates, true)
  let firn := if n.firnSrc = 2 then [(n.fbank, n.frow, true, false)] else []
  compute ++ dest ++ firn

/-- Do the writes of an NBO fall in a mirrored region (R430, R431)? -/
def Dev.nboMirrored (d : Dev) (x : Nbo) : Bool :=
  x.d.touches.any fun t => t.2.2.2 && rbit (d.region (d.rowAddr x.d.ch t.1 t.2.1)) 19

/-- Is one of the regions that an NBO touches being resynced (R434)? -/
def Dev.nboResyncs (d : Dev) (x : Nbo) : Bool :=
  x.d.touches.any (fun t => d.regionHeld (d.rowAddr x.d.ch t.1 t.2.1)) ||
  match d.twin.resync with
  | none => false
  | some (_, _, region, _, _) => x.d.touches.any fun t => d.rowAddr x.d.ch t.1 t.2.1 / 2 ^ 21 == region

/-- Send an accepted NBO to the twin when its writes fall in a mirrored region (R430). -/
def Dev.nboMirror (d : Dev) (x : Nbo) : Dev :=
  if d.nboMirrored x && !x.poster.isMirror then
    d.mirrorSend 4 x.d.ch (d.rowAddr x.d.ch x.d.bank x.d.rowFirst) x.desc 0 x.w0Poison
  else d

/-- The status of the checks of R186 and R222; 0 when it is acceptable. -/
def Dev.nboStatus (d : Dev) (x : Nbo) : Nat :=
  let n := x.d
  let acc : Access := { field := x.field, secure := x.secure, host := false }
  let ts := n.touches.map fun t => (d.rowAddr n.ch t.1 t.2.1, t.2.2)
  let mirrored := (n.banks.any fun b => (List.range n.rowCount).any fun k =>
    rbit (d.region (d.rowAddr n.ch b (n.rowFirst + k))) 19)
  if x.descPoison then 0x0B
  else if !n.valid || (d.chan n.ch).down || (n.op == 4 && n.float && mirrored && !n.ordered) then 0x02
  else if d.nboMirrored x && !x.poster.isMirror && !(ts.all fun t => rbit (d.region t.1) 19) then 0x02
  else if x.poster.isMirror then 0
  else if ts.any fun t => (t.2.1 && !d.worldOk acc t.1 false) || (t.2.2 && !d.worldOk acc t.1 true) then 0x04
  else if ts.any fun t => !d.leaseOk acc t.1 then 0x03
  else 0

/-- Slots of a bank that are occupied or reserved (R203, R204). -/
def BankNear.used (b : BankNear) : Nat := b.exec.toList.length + b.staged.toList.length + b.reserved.length

/-- Occupied and reserved slots of the device (R203). -/
def Dev.nearUsed (d : Dev) : Nat := (d.near.map fun e => e.2.used).foldl (· + ·) 0

/-- Is the region touched by an accepted, unfinished NBO (R212)? -/
def Dev.regionBusy (d : Dev) (a : Nat) : Bool :=
  d.nbos.any fun x => x.accepted && x.d.touches.any fun t => d.rowAddr x.d.ch t.1 t.2.1 / 2 ^ 21 == a / 2 ^ 21

/-! ## Posting and finishing -/

/-- Post an NBO: it waits at its channel's near-bank port (R186, R204). -/
def Dev.postNbo (d : Dev) (desc : Line) (w0Poison descPoison : Bool) (p : Poster) (x : Access) (cls : BitVec 2) :
    Nat × Dev :=
  let id := d.nextNbo
  let c := (nboDesc desc).ch
  let (arr, d) := d.freshId c
  -- the near-bank port carries classes 1 to 3 (R137)
  let cls := if cls = 0 then 1 else cls
  let y : Nbo := { id := id, desc := desc, w0Poison := w0Poison, descPoison := descPoison, poster := p,
                   field := x.field, secure := x.secure, cls := cls, since := d.clock, arr := arr,
                   accepted := false, vec := 0, folds := [], units := [], poison := false }
  let d : Dev := { d with nextNbo := id + 1, nbos := d.nbos ++ [y] }
  (id, d.updChan c fun ch => { ch with nearWait := ch.nearWait ++ [id] })

/-- Tell a poster that its NBO has finished or been rejected with a status (R106, R190, R298, R327). A rejection of a
floe's NBO halts the floe; NBOP records a finish in its status word, and STS counts a poisoned one. -/
def Dev.nboReport (d : Dev) (p : Poster) (id : Nat) (status : Nat) : Dev :=
  match p with
  | .ring n idx pos =>
    { d with cmds := d.cmds.map fun c =>
        if c.ring == n && c.idx == idx then
          { c with count := c.count + 1
                   firstErr := if status = 0 then c.firstErr
                     else match c.firstErr with
                       | some (q, s) => if pos < q then some (pos, BitVec.ofNat 8 status) else some (q, s)
                       | none => some (pos, BitVec.ofNat 8 status) }
        else c }
  | .floe f cmd =>
    match d.slotOf f.toNat with
    | none => d
    | some s =>
      let fl := d.floe s
      let es := (fl.engines[4]?).getD []
      match es.find? fun e => e.number == cmd with
      | none => d
      | some e =>
        match e.nbos.find? fun p => p.1 == id with
        | none => d
        | some (_, i) =>
          let e' := { e with nbos := e.nbos.filter fun p => p.1 != id }
          let d := d.setFloe s { fl with engines := setAt 6 [] fl.engines 4 (es.map fun x => if x.number == cmd then e' else x) }
          let nbop := e.word.toNat >>> 27 == 4
          if status = 0 ∨ status = 0x0B then
            if nbop then d.lsBytes s ((bits e.word.toNat 20 6) * 64 + 4 * i) (toLe 4 status)
            else if status = 0x0B then d.count (rScatPoison s) 1 else d
          else d.faultCmd s 4 e (if status = 2 then 4 else 5)
  | .mirror _ => d

/-- An item of the partner's stream has been accepted or refused: it is acknowledged with a status, and its link credit returns
(R138, R229, R432). -/
def Dev.nboAck (d : Dev) (p : Poster) (status : Nat) : Dev :=
  match p with
  | .mirror tag => (d.giveCredit 4 0).answerStatus 4 0 tag status
  | _ => d

/-- Reject an NBO (R186, R222). -/
def Dev.nboReject (d : Dev) (x : Nbo) (status : Nat) : Dev :=
  let c := x.d.ch
  let d := if status = 3 then x.d.touches.foldl (fun d t => d.regionLost (d.rowAddr c t.1 t.2.1)) d else d
  let d := (d.dropNbo x.id).updChan c fun ch => { ch with nearWait := ch.nearWait.filter (· != x.id) }
  let d := (d.count (rNbRej c) 1).report (0x400 + status) (if status = 0x0B then 2 else 0) 1 c 0 x.d.tag x.field
  (d.nboAck x.poster 3).nboReport x.poster x.id status

/-- The state of a unit when its NBO begins (R175). -/
def BankUnit.start (x : Nbo) (bank clock : Nat) : BankUnit :=
  let n := x.d
  { bank := bank, w := if n.firnSrc = 1 then n.payload :: List.replicate 15 0 else List.replicate 16 0,
    wPoison := if n.firnSrc = 1 && x.w0Poison then 1 else 0,
    ac0 := identityVec n, ac1 := identityVec n, vPoison := false, loaded := 0, atoms := 0,
    received := none, sent := false, arrived := none, written := false, shift := [], nextSince := clock,
    promo := none }

/-- May `n` fold into the staged NBO `s` (R225)? -/
def mayFold (n s : Nbo) : Bool :=
  let a := n.d
  let b := s.d
  a.op == 4 && b.op == 4 && !a.ordered && !b.ordered && !a.sat && !b.sat && a.firnSrc == 1 && b.firnSrc == 1
    && n.desc.toNat % 2 ^ 160 == s.desc.toNat % 2 ^ 160
    && fieldAt n.desc.toNat 24 8 == fieldAt s.desc.toNat 24 8
    && n.field == s.field && decide (s.folds.length < 15)

/-- Place an accepted NBO in the slots of its banks (R192, R196, R203). -/
def Dev.nboPlace (d : Dev) (x : Nbo) : Dev :=
  let n := x.d
  let d := n.banks.foldl (fun d b => d.updBankNear n.ch b fun s =>
    let s := { s with reserved := s.reserved.filter (· != x.id) }
    if s.exec.isNone then { s with exec := some x.id } else { s with staged := some x.id }) d
  (d.updNbo x.id fun y => { y with accepted := true, vec := stageVec n,
                                   units := n.banks.map fun b => BankUnit.start x b d.clock })
    |>.updChan n.ch fun ch => { ch with nearWait := ch.nearWait.filter (· != x.id) }

/-- Is the poster the source of a request, as R79, R98, R234 and R346 name sources? -/
def Poster.isSource (p : Poster) (o : Origin) : Bool :=
  match p, o with
  | .ring m _ _, .ring n _ => m == n
  | .ring m _ _, .fetch n => m == n
  | .floe g _, .floe f e _ => g == f && e == 4
  | _, _ => false

/-- Accept, fold, reject, or let wait the NBO at a position of a channel's near-bank port (R186, R187, R204, R225). -/
def Dev.nboTry (d : Dev) (c pos : Nat) : Dev :=
  let ch := d.chan c
  match ch.nearWait[pos]? with
  | none => d
  | some id =>
    match d.nbo id with
    | none => d
    | some x =>
      -- a request that its source issued before it is accepted before it (R352)
      if d.order.isNone || ch.driftIn.any (fun r => x.poster.isSource r.origin && decide (r.arr < x.arr)) then d
      else
        let st := d.nboStatus x
        if st ≠ 0 then d.nboReject x st
        else
          let n := x.d
          if (d.nboMirrored x && d.mirrorStalls) || d.nboResyncs x then d else
          let staged := (d.bankNear c n.bank).staged.bind d.nbo
          -- an NBO that waits longer for one of the banks goes first
          let earlier := (ch.nearWait.take pos).filterMap d.nbo
          let blocked := fun b => earlier.any fun (e : Nbo) => e.d.banks.contains b
          -- the mirror stream's NBOs keep the primary's order of acceptance (R228, R431)
          if x.poster.isMirror && earlier.any (·.poster.isMirror) then d else
          let fold := match staged with
            | some s => mayFold x s
            | none => false
          if fold then
            match staged with
            | some s =>
              ((((d.nboMirror x).nboAck x.poster 0).dropNbo x.id).updChan c fun ch => { ch with nearWait := ch.nearWait.filter (· != x.id) })
                |>.updNbo s.id fun y =>
                  { y with vec := foldVec s.d y.vec n, folds := y.folds ++ [(x.poster, x.id, BitVec.ofNat 32 n.tag)],
                           w0Poison := y.w0Poison || x.w0Poison,
                           units := y.units.map fun u => { u with wPoison := u.wPoison ||| (if x.w0Poison then 1 else 0) } }
            | none => d
          else
            let has := fun b =>
              let s := d.bankNear c b
              s.reserved.contains id || (decide (s.used < 2) && !blocked b)
            if n.banks.all has then ((d.nboMirror x).nboAck x.poster 0).nboPlace x
            else
              n.banks.foldl (fun d b =>
                let s := d.bankNear c b
                if !s.reserved.contains id && decide (s.used < 2) && !blocked b then
                  d.setBankNear c b { s with reserved := s.reserved ++ [id] } else d) d

/-! ## The phases -/

def Nbo.unit (x : Nbo) (bank : Nat) : Option BankUnit := x.units.find? fun u => u.bank == bank

def Dev.updUnit (d : Dev) (id bank : Nat) (f : BankUnit → BankUnit) : Dev :=
  d.updNbo id fun x => { x with units := x.units.map fun u => if u.bank == bank then f u else u }

/-- Is the NBO executing in every bank of its range (R196)? -/
def Dev.nboRuns (d : Dev) (x : Nbo) : Bool :=
  x.accepted && x.d.banks.all fun b => (d.bankNear x.d.ch b).exec == some x.id

/-- Has the firn load of a unit been made (R188)? -/
def BankUnit.firnDone (u : BankUnit) (n : NboDesc) : Bool := n.firnSrc != 2 || n.firnN + 1 ≤ u.loaded

/-- Compute atoms that a unit has to run. -/
def NboDesc.computeCount (n : NboDesc) (bank : Nat) : Nat :=
  if n.op = 6 then (if bank = n.endBank then 0 else 1) else n.rowCount

/-- Slots of the horizontal reduction that precedes the result atom (R197). -/
def NboDesc.hredSlots (n : NboDesc) : Nat := if !n.hred then 0 else if n.wide then 12 else 8

/-- The slot from which an atom is its NBO's next in a bank: its age begins then (R189, R197, R198). -/
def BankUnit.since (u : BankUnit) (n : NboDesc) : AtomKind → Nat
  | .result => max u.nextSince (u.received.getD 0) + n.hredSlots
  | .shiftRecv => max u.nextSince (u.arrived.getD 0)
  | _ => u.nextSince

/-- The next atom of a bank's executing NBO: its kind and row (R188, R197, R198). -/
def Dev.nextAtom (d : Dev) (c bank : Nat) : Option (Nbo × AtomKind × Nat) :=
  let s := d.bankNear c bank
  if s.atom.isSome then none
  else
    match s.exec.bind d.nbo with
    | none => none
    | some x =>
      let n := x.d
      match x.unit bank with
      | none => none
      | some u =>
        if !d.nboRuns x || !u.firnDone n then none
        else if u.atoms < n.computeCount bank then
          if n.op = 6 then some (x, .shiftSend, n.rowFirst) else some (x, .compute u.atoms, n.rowFirst + u.atoms)
        else if n.reduces then
          if bank = n.endBank && !u.written && (!n.chain || u.received.isSome) && decide (u.since n .result ≤ d.clock) then
            some (x, .result, n.drow) else none
        else if n.op = 6 then
          if bank ≠ n.startBank && u.arrived.isSome && !u.written && decide (u.since n .shiftRecv ≤ d.clock) then
            some (x, .shiftRecv, n.drow) else none
        else none

/-- Column words of an atom (R193). -/
def atomCols (n : NboDesc) : AtomKind → Nat
  | .result => n.resultCols
  | _ => n.colCount

/-- First column word of an atom's window. -/
def atomFirst (n : NboDesc) : AtomKind → Nat
  | .result => n.dcol
  | _ => n.colFirst

/-- The form of an atom (R193): 0 Read, 1 Update, 2 Write. -/
def atomForm (n : NboDesc) : AtomKind → Nat
  | .compute _ => if n.op = 4 then 1 else if n.op = 5 then (if n.fullMask then 2 else 1) else 0
  | .result => if n.resultUpdates then 1 else 2
  | .shiftSend => 0
  | .shiftRecv => 2

/-- Cycle of the precharge (R193). -/
def atomPrecharge (form c : Nat) : Nat :=
  match form with
  | 0 => max (c + 8) 14
  | 1 => max (max (c + 8) 10 + c + 11) 14
  | _ => c + 18

/-- Cycle in which an atom ends (R193). -/
def atomEnd (form c : Nat) : Nat := atomPrecharge form c + 7

/-- Last cycle of the token, from cycle 7 (R195). -/
def tokenLast (form c : Nat) (perRow : Bool) : Nat :=
  match form with
  | 0 => if perRow then c + 10 else c + 8
  | 1 => max (c + 8) 10 + c - 1
  | _ => c + 6

/-- The issue-rate factor of the device in sixty-fourths: the s of R200 (R517, R518). -/
def Dev.sDev (d : Dev) : Nat := fld (d.reg rThmStat) 22 16

/-- The three caps in force (R200, R443): die, device, field share. -/
def Dev.dieCap (d : Dev) (die : Nat) : Nat := max 1 (fld (d.reg (rNbToken (2 * die))) 29 24 * d.sDev / 64)
def Dev.devCap (d : Dev) : Nat := max 16 (fld (d.reg (rNbToken 0)) 9 0 * d.sDev / 64)
def Dev.fieldCap (d : Dev) (f : Nat) : Nat := max 1 (fld (d.reg (rFldQos f)) 25 16 * d.sDev / 64)

/-- Tokens held in a bank cycle by the bookings that satisfy a predicate. -/
def Dev.tokens (d : Dev) (cycle : Nat) (p : Booking → Bool) : Nat :=
  (d.bookings.filter fun b => decide (b.first ≤ cycle) && decide (cycle ≤ b.last) && p b).length

/-- Would each cap hold with one more token in every cycle (R201)? -/
def Dev.canBook (d : Dev) (b : Booking) : Bool :=
  (List.range (b.last + 1 - b.first)).all fun i =>
    let t := b.first + i
    decide (d.tokens t (fun x => x.die == b.die) < d.dieCap b.die) && decide (d.tokens t (fun _ => true) < d.devCap)
      && (match b.field with
          | none => true
          | some f => decide (d.tokens t (fun x => x.field == some f) < d.fieldCap f.toNat))

/-- The booking of an atom whose activate issues in a slot. -/
def atomBooking (x : Nbo) (k : AtomKind) (slot : Nat) : Booking :=
  let n := x.d
  let form := atomForm n k
  let c := atomCols n k
  let perRow := n.perRow && (match k with
    | .compute _ => true
    | _ => false)
  { first := slot / 4 + 7, last := slot / 4 + tokenLast form c perRow, die := n.ch / 2, field := x.field }

/-- Start an atom: it books its tokens and its bank runs it (R189, R201). -/
def Dev.startAtom (d : Dev) (c bank slot : Nat) (x : Nbo) (k : AtomKind) (row : Nat) : Dev :=
  let n := x.d
  let e := slot + 4 * atomEnd (atomForm n k) (atomCols n k)
  let d : Dev := { d with bookings := (d.bookings.filter fun b => decide (slot / 4 ≤ b.last)) ++ [atomBooking x k slot] }
  d.updBankNear c bank fun s =>
      { s with atom := some { nbo := x.id, kind := k, row := row, start := slot, ends := e, worked := false,
                              abandon := false, out := [] }
               lastRow := row, tokenWait := false }

/-! ## Column words -/

/-- Number of the first code word of a column word of a row. -/
def colCode (ch bank row col : Nat) : Nat := ((((ch * 64 + bank) * 32768 + row) * 1024) + 32 * col) / 8

/-- What the near path reads of a column word: data, poisoned code words, corrected count, uncorrectable count. -/
def Dev.nearRead (d : Dev) (ch bank row col : Nat) : BitVec 256 × BitVec 4 × Nat × Nat :=
  let cs := (List.range 4).map fun i => d.dram.read64 (colCode ch bank row col + i)
  (BitVec.ofNat 256 (cs.foldr (fun c x => c.1 % 2 ^ 64 + 2 ^ 64 * x) 0),
   BitVec.ofNat 4 (cs.foldr (fun c x => (if c.2.poisoned then 1 else 0) + 2 * x) 0),
   (cs.filter fun c => match c.2 with
      | .corrected _ => true
      | .correctedCheck => true
      | _ => false).length,
   (cs.filter fun c => c.2 == .uncorrectable).length)

/-- Write a column word with marks (R205, R219). -/
def Dev.nearWrite (d : Dev) (ch bank row col : Nat) (x : BitVec 256) (marks : BitVec 4) : Dev :=
  let w := colCode ch bank row col
  let m := d.dram.putBytes (8 * w) (toLe 32 x.toNat)
  { d with dram := forNat 4 m fun m i => m.putSynd (w + i) (if marks.getLsbD i then 0xFF else 0) }

/-- W register for column word k of the window and its poison flag (R182). -/
def BankUnit.wOf (u : BankUnit) (n : NboDesc) (k : Nat) : BitVec 256 × Bool :=
  let nw := if n.firnSrc = 2 then 2 * (n.firnN + 1) else 1
  ((u.w[k % nw]?).getD 0, u.wPoison.getLsbD (k % nw))

/-- Code words that hold the result bits of the `k`-th column word of a result atom (R219). -/
def resultMarks (n : NboDesc) (k : Nat) (poison : Bool) : BitVec 4 :=
  if !poison then 0 else if n.hred then BitVec.ofNat 4 (2 ^ (n.dslot / 2))
  else if n.perRow then
    BitVec.ofNat 4 ((List.range 4).foldl (fun m i => if 8 * k + 2 * i < n.rowCount then m + 2 ^ i else m) 0)
  else 0xF

/-- The result vector of the end unit as column words: k-th column word of DEST (R183). -/
def resultCol (n : NboDesc) (u : BankUnit) (k : Nat) (old : BitVec 256) : BitVec 256 :=
  let half := fun (v : BitVec 512) (h : Nat) => BitVec.ofNat 256 (v.toNat >>> (256 * h))
  let lanesOf := fun (x : BitVec 256) => (List.range 8).map fun i => (x.toNat >>> (32 * i)) % 2 ^ 32
  let combine := fun (o r : Nat) => if n.accum then comb n o r else r
  let pack := fun (ls : List Nat) => BitVec.ofNat 256 (ls.foldr (fun x y => x % 2 ^ 32 + 2 ^ 32 * y) 0)
  if n.hred then
    let r := hred n u.ac0 u.ac1
    pack ((lanesOf old).zipIdx.map fun p => if p.2 = n.dslot then combine p.1 r else p.1)
  else
    let src := if n.perRow then half u.ac1 k else if k < 2 then half u.ac0 k else half u.ac1 (k - 2)
    pack (((lanesOf old).zip (lanesOf src)).zipIdx.map fun p =>
      if n.perRow && n.rowCount ≤ 8 * k + p.2 then p.1.1 else combine p.1.1 p.1.2)

/-- The reads and lane work of a bank's running atom (R182, R193, R219, R223). -/
def Dev.atomWork (d : Dev) (c bank : Nat) : Dev :=
  match (d.bankNear c bank).atom with
  | none => d
  | some a =>
    match d.nbo a.nbo with
    | none => d
    | some x =>
      match x.unit bank with
      | none => d
      | some u =>
        if a.worked then d
        else
          let n := x.d
          let cols := (List.range (atomCols n a.kind)).map fun k => (k, atomFirst n a.kind + k)
          let reads := if atomForm n a.kind = 2 then cols.map fun p => (p.1, p.2, (0 : BitVec 256), (0 : BitVec 4), 0, 0)
            else cols.map fun p => (p.1, p.2, d.nearRead c bank a.row p.2)
          let corr := (reads.map fun r => r.2.2.2.2.1).foldl (· + ·) 0
          let unc := (reads.map fun r => r.2.2.2.2.2).foldl (· + ·) 0
          -- an event for each word corrected, and for each found uncorrectable, with its own address (R218, R375)
          let wordsOf := fun (p : Nat × Nat × BitVec 256 × BitVec 4 × Nat × Nat → Bool) =>
            ((reads.filter p).map fun r => colCode c bank a.row r.2.1 / 8).foldl
              (fun ws w => if ws.contains w then ws else ws ++ [w]) []
          let bad := wordsOf fun r => r.2.2.2.2.2 != 0
          let d := (wordsOf fun r => r.2.2.2.2.1 != 0).foldl (fun d w => d.report 0x0001 1 2 (64 * c + bank) (d.addrOf w) 0)
            (d.count (rNbCorr c) corr)
          if unc ≠ 0 ∧ rbit (d.region (d.rowAddr c bank a.row)) 19 then
            -- the run is abandoned; the words are fetched from the twin (R223)
            let d := bad.foldl (fun d w => d.recover w none) d
            d.updBankNear c bank fun s =>
              { s with atom := some { a with worked := true, abandon := true, ends := a.start + 4 * atomEnd 0 (atomCols n a.kind) } }
          else
            let d := bad.foldl (fun d w => (d.report 0x0002 2 2 (64 * c + bank) (d.addrOf w) 0).copyBroken (d.addrOf w)) d
            let readPoison := reads.any fun r => r.2.2.2.1 != 0
            match a.kind with
            | .compute i =>
              if n.reduces then
                let usedW := reads.any fun r => n.op == 3 && (u.wOf n r.1).2
                let (ac0, ac1) := reads.foldl (fun acc r =>
                  reduceCol n acc.1 acc.2 r.2.2.1 (u.wOf n r.1).1) (u.ac0, u.ac1)
                let p := readPoison || usedW
                -- PERROW folds the row into lane i of AC1 and restores AC0 (R183)
                let u' := if n.perRow then
                    { u with ac0 := identityVec n
                             ac1 := vecOfLanes ((List.range 16).map fun l => if l = i then hred n ac0 ac1 else lane u.ac1 l) }
                  else { u with ac0 := ac0, ac1 := ac1 }
                (d.updUnit x.id bank fun _ => { u' with vPoison := u.vPoison || p })
                  |>.updNbo x.id (fun y => { y with poison := y.poison || p })
                  |>.updBankNear c bank fun s => { s with atom := some { a with worked := true } }
              else
                let contrib := if n.op = 4 && n.firnSrc = 1 && !n.ordered && !n.sat && !x.folds.isEmpty then some x.vec else none
                let out := reads.map fun r =>
                  let (w, wp) := u.wOf n r.1
                  let marks : BitVec 4 :=
                    if n.op = 5 && n.fullMask then (if wp then 0xF else 0)
                    else r.2.2.2.1 ||| (if wp then enabledWords n else 0)
                  (r.2.1, updateCol n r.2.2.1 w contrib, marks)
                let p := readPoison || reads.any fun r => (u.wOf n r.1).2
                (d.updNbo x.id fun y => { y with poison := y.poison || p })
                  |>.updBankNear c bank fun s => { s with atom := some { a with worked := true, out := out } }
            | .result =>
              let p := u.vPoison || readPoison
              let out := reads.map fun r =>
                (r.2.1, resultCol n u r.1 r.2.2.1, r.2.2.2.1 ||| resultMarks n r.1 p)
              (d.updNbo x.id fun y => { y with poison := y.poison || readPoison || u.vPoison })
                |>.updBankNear c bank fun s => { s with atom := some { a with worked := true, out := out } }
            | .shiftSend =>
              -- each word travels to the next unit's W[k]: the last arrives in cycle C + 9 (R198)
              let nb := n.nextBank bank
              (d.updUnit x.id nb fun v =>
                { v with w := ((List.range 16).map fun k => match reads[k]? with
                    | some r => r.2.2.1
                    | none => (v.w[k]?).getD 0)
                         shift := reads.map fun r => r.2.2.2.1
                         arrived := some (a.start + 4 * (n.colCount + 10)) })
                |>.updNbo x.id (fun y => { y with poison := y.poison || readPoison })
                |>.updBankNear c bank fun s =>
                  { s with atom := some { a with worked := true, out := reads.map fun r => (r.2.1, r.2.2.1, r.2.2.2.1) } }
            | .shiftRecv =>
              let out := cols.map fun p => (p.2, (u.w[p.1]?).getD 0, (u.shift[p.1]?).getD 0)
              d.updBankNear c bank fun s => { s with atom := some { a with worked := true, out := out } }

/-- A write is no longer held behind an NBO that has finished (R210). -/
def Dev.releaseHeld (d : Dev) (c id : Nat) : Dev :=
  d.updChan c fun ch => { ch with wbuf := ch.wbuf.map fun b => { b with held := b.held.filter (· != id) } }

/-- An NBO finishes (R190, R203, R226): reports, slots, held writes. -/
def Dev.nboFinish (d : Dev) (x : Nbo) : Dev :=
  let n := x.d
  let st := if x.poison then 0x0B else 0
  let d := d.dropNbo x.id
  let d := n.banks.foldl (fun d b => d.updBankNear n.ch b fun s =>
    { s with exec := s.staged, staged := none }) d
  -- the staged NBO becomes executing: its first atom ages from now (R189)
  let d := n.banks.foldl (fun d b => match (d.bankNear n.ch b).exec with
    | some id => d.updUnit id b fun u => { u with nextSince := d.clock }
    | none => d) d
  let d := d.releaseHeld n.ch x.id
  let d := d.count (rNbFin n.ch) 1
  let d := if st = 0 then d else d.report (0x400 + st) 2 1 n.ch 0 n.tag x.field
  let d := d.nboReport x.poster x.id st
  x.folds.foldl (fun d f =>
    let d := if st = 0 then d else d.report (0x400 + st) 2 1 n.ch 0 f.2.2.toNat x.field
    d.nboReport f.1 f.2.1 st) d

/-- Has the unit nothing left to do? -/
def Nbo.complete (x : Nbo) : Bool :=
  let n := x.d
  x.units.all fun u =>
    decide (n.computeCount u.bank ≤ u.atoms) && (!n.destBanks.contains u.bank || u.written)

/-- Arrival numbers of the host-port and peer-port requests that wait for a bank: at their ports, in the scheduler, and in
the write buffer unless they are held (R145). -/
def Chan.waitsFor (ch : Chan) (bank : Nat) : List Nat :=
  let here := fun w : Nat => (wordPlace w).bank == bank
  ((ch.hostIn ++ ch.peerIn).filter fun r => r.words.any here).map (·.arr)
    ++ ((ch.reqs.filter fun r => (r.port == 0 || r.port == 3) && here r.word).map (·.arr))
    ++ (ch.wbuf.filter fun w => w.held.isEmpty && here w.word).flatMap (·.arrs)

/-- An atom reaches its end: its writes are performed and the NBO goes on (R190, R198, R223). -/
def Dev.atomDone (d : Dev) (c bank : Nat) : Dev :=
  match (d.bankNear c bank).atom with
  | none => d
  | some _ =>
    let d := d.atomWork c bank
    match (d.bankNear c bank).atom with
    | none => d
    | some a =>
      let d := d.advanceTo a.ends
      match d.nbo a.nbo with
      | none => d.updBankNear c bank fun s => { s with atom := none }
      | some x =>
        let d := d.updBankNear c bank fun s => { s with atom := none }
        -- requests of the host and peer ports that wait for the bank go before its next atom (R145)
        let d := d.updChan c fun ch =>
          let ch := ch.updBank bank fun b => { b with row := none, lastPre := some (a.ends - 28) }
          { ch with atBoundary := ch.atBoundary.filter (fun x => x.1 != bank) ++ (ch.waitsFor bank).map fun r => (bank, r) }
        if a.abandon then d
        else
          let d := if a.kind == .shiftSend then d
            else a.out.foldl (fun d o => d.nearWrite c bank a.row o.1 o.2.1 o.2.2) d
          let d := d.count (rNbAtom c) 1
          let d := match a.kind with
            | .compute _ => d.updUnit x.id bank fun u => { u with atoms := u.atoms + 1, nextSince := a.ends }
            | .result => d.updUnit x.id bank fun u => { u with written := true }
            | .shiftSend =>
              d.updUnit x.id bank fun u => { u with atoms := u.atoms + 1, nextSince := a.ends }
            | .shiftRecv => d.updUnit x.id bank fun u => { u with written := true }
          match d.nbo x.id with
          | none => d
          | some x => if x.complete then d.nboFinish x else d

/-- One word of a unit's firn load (R188): a read of the near-bank port, of the NBO's class; the load takes the word once the
channel has answered. -/
def Dev.firnWord (d : Dev) (c bank : Nat) : Dev :=
  match (d.bankNear c bank).exec.bind d.nbo with
  | none => d
  | some x =>
    let n := x.d
    match x.unit bank with
    | none => d
    | some u =>
      if !d.nboRuns x || u.firnDone n then d
      else
        let w := (((c * 64 + n.fbank) * 32768 + n.frow) * 16) + n.fword + u.loaded
        match d.tsvRead { origin := .firn x.id bank, port := 2, cls := x.cls, field := x.field } w with
        | (none, d) => d
        | (some r, d) =>
          d.updUnit x.id bank fun u =>
            let lo := BitVec.ofNat 256 r.data.toNat
            let hi := BitVec.ofNat 256 (r.data.toNat / 2 ^ 256)
            { u with w := putAt (putAt u.w (2 * u.loaded) lo) (2 * u.loaded + 1) hi
                     wPoison := if r.poison then u.wPoison ||| BitVec.ofNat 16 (3 * 2 ^ (2 * u.loaded)) else u.wPoison
                     loaded := u.loaded + 1 }

/-- One hop of a chain reduction from a bank to the next (R197): it leaves when the unit is ready and has its upstream vector,
takes 2 cycles, or 4 for 1,024 bits, and is combined 1 cycle after it has arrived and the next unit is ready (log 143). -/
def Dev.chainStep (d : Dev) (c bank : Nat) : Dev :=
  match (d.bankNear c bank).exec.bind d.nbo with
  | none => d
  | some x =>
    let n := x.d
    let nb := n.nextBank bank
    match x.unit bank, x.unit nb with
    | some u, some v =>
      let ready := fun (y : BankUnit) => decide (n.rowCount ≤ y.atoms)
      if !n.reduces || !n.chain || bank == n.endBank || u.sent || !d.nboRuns x || !ready u || !ready v
          || (bank != n.startBank && u.received.isNone) || (d.chan c).stallFrom.isSome then d
      else
        let leaves := max (max u.nextSince (u.received.getD 0)) (d.chan c).stallEnd
        let comes := max (leaves + (if n.wide && !n.perRow then 16 else 8)) v.nextSince + 4
        (d.updUnit x.id bank fun u => { u with sent := true })
          |>.updUnit x.id nb fun v =>
            { v with ac0 := if n.perRow then v.ac0 else combVec n u.ac0 v.ac0
                     ac1 := if n.perRow || n.wide then combVec n u.ac1 v.ac1 else v.ac1
                     vPoison := u.vPoison || v.vPoison, received := some comes }
    | _, _ => d

/-! ## Writes held behind NBOs -/

/-- A refresh or a full retrain begins: chain transfers stall (R199). -/
def Chan.stall (ch : Chan) (t : Nat) : Chan := { ch with stallFrom := some (ch.stallFrom.getD t) }

/-- Both have ended: transfers under way resume where they stood (R199). -/
def Dev.chainResume (d : Dev) (c : Nat) : Dev :=
  let ch := d.chan c
  match ch.stallFrom with
  | none => d
  | some s =>
    if ch.refUntil.isSome || ch.retrain then d
    else
      let late := fun (r : Option Nat) => r.map fun t => if s < t then t + (d.clock - s) else t
      let d : Dev := { d with nbos := d.nbos.map fun x => if x.d.ch = c ∧ x.d.chain = true ∧ x.d.reduces = true then
        { x with units := x.units.map fun u => { u with received := late u.received } } else x }
      d.setChan c { ch with stallFrom := none, stallEnd := d.clock }

/-- Has the NBO still to read or write the row of a bank (R210)? -/
def Nbo.awaits (x : Nbo) (bank row : Nat) : Bool :=
  let n := x.d
  match x.unit bank with
  | none => false
  | some u =>
    let k := row - n.rowFirst
    (decide (n.rowFirst ≤ row) && decide (k < n.computeCount bank) && decide (u.atoms ≤ k))
      || (n.destBanks.contains bank && row == n.drow && !u.written)

/-- The NBOs behind which a write is held: accepted ones of its source, folded ones included, that have still to read or write
the row (R210, R225, R430). -/
def Dev.holders (d : Dev) (src : Origin) (n : Nat) : List Nat :=
  let p := wordPlace n
  let m := d.mirrored n
  (d.nbos.filter fun x => x.accepted && x.d.ch == p.ch
    && (m || x.poster.isMirror || x.poster.isSource src || x.folds.any fun f => f.1.isSource src)
    && x.awaits p.bank p.row).map (·.id)

/-- Does an NBO of the source that was issued before the request still wait for acceptance at the channel (R352)? -/
def Dev.nboFirst (d : Dev) (src : Origin) (c arr : Nat) : Bool :=
  (d.chan c).nearWait.any fun id => match d.nbo id with
    | some x => x.poster.isSource src && decide (x.arr < arr)
    | none => false

end Sys2Proof.Machine
end

