-- ==== Sys2Proof/Machine/Channel.lean ====
section
/-! DEFINITION. The channel controller: the write buffer (R149, R210), ports (R137, R138), timing (R129), ranking and
the scheduler (R140 to R147), pages and power-down (R151 to R153), refresh (R154 to R157), activate counting and
targeted refresh (R159 to R162), and TSV training (R163 to R167). All times are 0.5 ns command slots. -/

namespace Sys2Proof.Machine

/-! ## The write buffer -/

def Dev.permafrost (d : Dev) : Bool := rbit (d.reg rCfgStat) 30

/-- The host channel that a channel's host-port requests came in by: its own, and channel 0 in permafrost (R73, R139). -/
def Dev.creditPort (d : Dev) (c : Nat) : Nat := if d.permafrost then 0 else c

/-- Are two requests of one source (R26, R79, R98, R346)? -/
def Origin.same (a b : Origin) : Bool :=
  match a, b with
  | .host x, .host y => x.ch == y.ch && x.srcid == y.srcid
  | .floe f e _, .floe g k _ => f == g && e == k
  | .ring n _, .ring m _ => n == m
  | .ring n _, .fetch m => n == m
  | .fetch n, .ring m _ => n == m
  | .fetch n, .fetch m => n == m
  | .peer x, .peer y => x.link == y.link && x.dev == y.dev
  | .twinRead l _, .twinRead k _ => l == k
  | _, _ => a == b

/-- Does a read of a word by the same source wait in the channel (R148)? -/
def Chan.readPending (ch : Chan) (o : Origin) (n : Nat) : Bool :=
  (ch.reqs.any fun q => q.word == n && q.origin.same o)
    || ch.recovery.any fun v => v.word == n && v.waiting.any fun q => q.origin.same o

/-- Must a write of a word with an arrival number wait (R148, R149, R210, R352, R387, R430)? The twin's stream lacks credit; the
word is in recovery; an NBO or a read of its source that was issued first still waits; the buffer is full; it would be held, and
its word is buffered but not held; or it would be a 65th held word. -/
def Dev.storeWaitsAt (d : Dev) (src : Origin) (arr n : Nat) : Bool :=
  let c := (wordPlace n).ch
  let ch := d.chan c
  (d.mirrored n && d.mirrorStalls) || (ch.recovery.any fun v => v.word == n) || d.nboFirst src c arr || ch.readPending src n
    || decide (256 ≤ ch.wbuf.length)
    || !(d.holders src n).isEmpty && (match d.buffered n with
        | some b => b.held.isEmpty
        | none => decide (64 ≤ (ch.wbuf.filter fun b => !b.held.isEmpty).length))

/-- Would storing the word now have to wait? -/
def Dev.storeWaits (d : Dev) (src : Origin) (n : Nat) : Bool := d.storeWaitsAt src (d.chan (wordPlace n).ch).nextId n

/-- A repair write that waits is skipped once the channel has accepted a write of its word (R363). -/
def Dev.dropRepair (d : Dev) (n : Nat) : Dev :=
  d.updChan (wordPlace n).ch fun ch => { ch with reqs := ch.reqs.filter fun r => !(r.origin == .repair && r.word == n) }

/-- The earlier of two moments, if there are any. -/
def earlier : Option Nat → Option Nat → Option Nat
  | some i, some j => some (min i j)
  | some i, none => some i
  | none, o => o

/-- A write `b` of a buffered word merges into it (R149): the class is the most urgent, a native class 0 before a promoted one;
age, port and field are those of the oldest write. -/
def BufWord.merge (a b : BufWord) : BufWord :=
  let full := b.whole
  let old := if b.since < a.since then b else a
  { a with
    data := if full then b.data else mergeLine a.data (keepBits a.data b.data b.keep) b.mask, mask := a.mask ||| b.mask,
    keep := (a.keep &&& ~~~(maskBits b.mask)) ||| (b.keep &&& (a.keep ||| ~~~(maskBits a.mask))),
    marks := if !full && a.marks != 0 then 0xFF else b.marks,
    cls := if b.cls < a.cls then b.cls else a.cls, promoted := earlier a.promoted b.promoted, native := earlier a.native b.native,
    field := old.field, port := old.port, since := old.since, arr := old.arr,
    ue := !full && a.ue, held := a.held ++ b.held.filter (fun h => !a.held.contains h), hostWords := a.hostWords + b.hostWords,
    arrs := a.arrs ++ b.arrs, srcs := a.srcs ++ b.srcs }

/-- Put a word into the write buffer, merging it with a buffered write of the word (R149). -/
def Dev.bufferWord (d : Dev) (b : BufWord) : Dev :=
  (d.dropRepair b.word).updChan (wordPlace b.word).ch fun ch =>
    match findPos (fun x : BufWord => x.word == b.word) ch.wbuf 0 with
    | some (i, a) => { ch with wbuf := putAt ch.wbuf i (a.merge b), idleFrom := none }
    | none => { ch with wbuf := ch.wbuf ++ [b], idleFrom := none }

/-- A write of one word, as a port or the command processor performs it (R82, R83, R149). -/
structure WordWrite where
  origin : Origin
  word   : Nat
  data   : Line
  mask   : BitVec 64
  keep   : Line
  poison : Bool
  port   : Fin 5
  cls    : BitVec 2
  promoted : Option Nat
  field  : Option (BitVec 4)
  since  : Nat
  arr    : Nat
  /-- Host write words whose credits it holds (R73). -/
  hostWords : Nat
deriving DecidableEq, Repr

/-- The buffered word of a write, with the bytes and marks that it stores (R149, R371). -/
def WordWrite.buf (x : WordWrite) (id : Nat) (data : Line) (mask : BitVec 64) (keep : Line) (marks : BitVec 8) (held : List Nat) :
    BufWord :=
  { id := id, word := x.word, data := data, mask := mask, keep := keep, marks := marks, cls := x.cls, promoted := x.promoted
    field := x.field,
    port := x.port, since := x.since, arr := x.arr
    native := if x.cls = 0 ∧ x.promoted = none then some x.since else none
    held := held, hostWords := x.hostWords
    arrs := if x.port = 0 ∨ x.port = 3 then [x.arr] else []
    srcs := match x.origin with
      | .floe f e c => [.floe f e c]
      | .ring n i => [.ring n i]
      | _ => [] }

/-- Does a write of part of a word keep its own bytes apart in the buffer, since an atom may still change the others
(R209, R210)? -/
def Dev.keepsApart (d : Dev) (src : Origin) (n : Nat) : Bool :=
  d.inAtom n || !(d.holders src n).isEmpty || (match d.buffered n with
    | some b => !b.held.isEmpty
    | none => false)

/-- The reports of the read of a masked write's word (R83, R362, R363, R375): what it stores mends or marks the word. -/
def Dev.noteMerge (d : Dev) (n : Nat) (w : WordRead) : Dev :=
  let c := (wordPlace n).ch
  let d := if w.corrected = 0 then d
    else (d.count (rErrCe c) w.corrected).report 0x0001 1 2 (n / 16 / 32768) (d.addrOf n) 0
  if w.uncorr = 0 then d
  else ((d.count (rErrUe c) w.uncorr).report 0x0002 2 2 (n / 16 / 32768) (d.addrOf n) 0).copyBroken (d.addrOf n)

/-- Perform a write of a word: it enters the write buffer (R82, R83, R149, R209, R366). The Bool: a masked write met poison. A
write that enables no byte changes nothing. -/
def Dev.writeWord (d : Dev) (x : WordWrite) : Dev × Bool :=
  let n := x.word
  let c := (wordPlace n).ch
  if x.mask = 0 then (d.updHost (d.creditPort c) fun h => { h with wdFreed := h.wdFreed + x.hostWords }, false)
  else
    let full := x.mask == BitVec.allOnes 64 && x.keep == 0
    let old := d.seen n
    let (y, marks, bad) := mergeWord old x.data x.mask x.poison x.keep
    let apart := !full && d.keepsApart x.origin n
    let held := d.holders x.origin n
    let d := d.mirrorWrite n (keepBits old.data x.data x.keep) x.mask x.poison
    let d := if full || apart || (d.buffered n).isSome then d else d.noteMerge n old
    let (id, d) := d.freshId c
    (d.bufferWord (if apart then x.buf id x.data x.mask x.keep (if x.poison then maskWords x.mask else 0) held
      else x.buf id y (BitVec.allOnes 64) 0 marks held), bad)

/-- A write by the command processor or another mover, accepted now (R98, R149). -/
def Mover.write (m : Mover) (d : Dev) (n : Nat) (data : Line) (mask : BitVec 64) (poison : Bool) : WordWrite :=
  { origin := m.origin, word := n, data := data, mask := mask, keep := 0, poison := poison, port := m.port, cls := m.cls, promoted := none,
    field := m.field, since := d.clock, arr := (d.chan (wordPlace n).ch).nextId, hostWords := 0 }

/-- Would a masked write first need its word from the twin: the array's word is uncorrectable, in a mirrored region, and not in
the write buffer (R369)? -/
def Dev.mergeRecovers (d : Dev) (n : Nat) (mask : BitVec 64) (keep : Line := 0) : Bool :=
  (mask != BitVec.allOnes 64 || keep != 0) && mask != 0 && d.mirrored n && (d.buffered n).isNone && (d.dram.readWord n).uncorr != 0

/-- Begin the recovery that a masked write waits for, with the reports of the read that found the word (R369, R387). -/
def Dev.mergeRecover (d : Dev) (n : Nat) : Dev :=
  if (d.chan (wordPlace n).ch).recovery.any fun v => v.word == n then d
  else (d.noteMerge n (d.dram.readWord n)).recover n none

/-- A masked or whole write by a mover; the Bool says the stored word was poisoned. -/
def Dev.storeMasked (d : Dev) (m : Mover) (n : Nat) (data : Line) (mask : BitVec 64) (poison : Bool) : Dev × Bool :=
  d.writeWord (m.write d n data mask poison)

/-! ## Entries of the scheduler -/

inductive EntKind where
  | rd (id : Nat)
  | wr (id : Nat)
  | repair (id : Nat)
  | atom
deriving DecidableEq, Repr

/-- A request in the scheduler's view (R142, R144). -/
structure Ent where
  kind     : EntKind
  cls      : BitVec 2
  /-- Slot of its promotion, if it is class 0 by one (R141). -/
  promoted : Option Nat
  port     : Fin 5
  /-- Acceptance, from which its age runs (R140), and acceptance as a native class-0 entry (R142, R149). -/
  since    : Nat
  rank     : Nat
  field    : Option (BitVec 4)
  bank     : Nat
  row      : Nat
  order    : Nat
deriving DecidableEq, Repr

/-- Class-0 entries are the native ones and the promoted ones (R137, R141). -/
def Ent.class0 (e : Ent) : Bool := e.cls == 0

/-- Every request waiting in a channel (R146): reads, unheld buffered words, and the next atoms of its banks. -/
def Dev.entries (d : Dev) (c : Nat) : List Ent :=
  let ch := d.chan c
  -- of the reads of one source of one word, the first accepted alone (R148)
  let rds := (ch.reqs.filter fun r => !ch.reqs.any fun q =>
      q.word == r.word && decide (q.arr < r.arr) && q.origin.same r.origin).map fun r =>
    let p := wordPlace r.word
    ({ kind := if r.origin == .repair then .repair r.id else .rd r.id, cls := r.cls, promoted := r.promoted, port := r.port,
       since := r.since, rank := r.since, field := r.field, bank := p.bank, row := p.row
       order := 4 * r.arr + r.index.toNat } : Ent)
  let wrs := (ch.wbuf.filter fun b => b.held.isEmpty && !ch.recovery.any fun v => v.word == b.word).map fun b =>
    let p := wordPlace b.word
    ({ kind := .wr b.id, cls := b.cls, promoted := if b.native.isSome then none else b.promoted, port := b.port, since := b.since
       rank := b.native.getD b.since, field := b.field, bank := p.bank, row := p.row, order := 4 * b.arr + b.word % 4 } : Ent)
  let ats := ((List.range 64).filter fun b => (d.bankNear c b).exec.isSome).filterMap fun b =>
    (d.nextAtom c b).map fun (x, k, row) =>
      let since := ((x.unit b).map fun u => u.since x.d k).getD 0
      let promo := match (x.unit b).bind (·.promo) with
        | some (t, p) => if t = since then some p else none
        | none => none
      ({ kind := .atom, cls := if promo.isSome then 0 else x.cls, promoted := promo, port := 2, since := since, rank := since
         field := x.field, bank := b, row := row, order := 4 * x.arr } : Ent)
  rds ++ wrs ++ ats

/-- Earlier in class-0 rank (R142): native entries by acceptance before promoted ones by promotion; ties by port, then by order
of acceptance. -/
def Ent.rankBefore (a b : Ent) : Bool :=
  let tie := decide (a.port < b.port) || (a.port == b.port && decide (a.order < b.order))
  match a.promoted, b.promoted with
  | none, some _ => true
  | some _, none => false
  | some i, some j => decide (i < j) || (i == j && tie)
  | none, none => decide (a.rank < b.rank) || (a.rank == b.rank && tie)

/-- Urgency of an entry of class 1 to 3 (R140). -/
def Dev.urgency (d : Dev) (c t : Nat) (e : Ent) : Nat :=
  if e.port = 4 then 0
  else
    let target := fld (d.reg (rChTarget c e.port.val)) 15 0 * 2
    let age := t - e.since
    if target ≤ age then 3 else if 3 * target ≤ 4 * age then 2 else if target ≤ 2 * age then 1 else 0

/-- Better by the keys of R144. -/
def Dev.keyBefore (d : Dev) (c t : Nat) (a b : Ent) : Bool :=
  let ch := d.chan c
  let hit := fun (e : Ent) => (ch.bank e.bank).row == some e.row && e.kind != .atom
  let shares := if ch.window = t / 4096 then ch.shares else []
  let used : Ent → Nat × Nat := fun e => match e.field with
    | none => (0, 1)
    | some f => (tabGet (fun _ => 0) shares f.toNat, max 1 (fld (d.reg (rFldQos f.toNat)) 7 0))
  let ua := d.urgency c t a
  let ub := d.urgency c t b
  let sa := (used a).1 * (used b).2
  let sb := (used b).1 * (used a).2
  if a.cls ≠ b.cls then decide (a.cls < b.cls)
  else if ua ≠ ub then decide (ub < ua)
  else if hit a ≠ hit b then hit a
  else if sa ≠ sb then decide (sa < sb)
  else if a.since ≠ b.since then decide (a.since < b.since)
  else if a.port ≠ b.port then decide (a.port < b.port)
  else decide (a.order < b.order)

/-! ## Commands and timing -/

inductive ChCmd where
  | activate (bank row : Nat)
  | precharge (bank : Nat)
  | column (bank : Nat) (write : Bool)
deriving DecidableEq, Repr

def ChCmd.bank : ChCmd → Nat
  | .activate b _ => b
  | .precharge b => b
  | .column b _ => b

/-- At least `gap` slots since an event. -/
def since? (t : Nat) (last : Option Nat) (gap : Nat) : Bool :=
  match last with
  | none => true
  | some l => decide (l + gap ≤ t)

/-- The most recent event of a list of slot and bank group that satisfies a predicate. -/
def lastOf (xs : List (Nat × Nat)) (p : Nat → Bool) : Option Nat := (xs.find? fun x => p x.2).map (·.1)

/-- Does a bank take commands: no atom, no targeted refresh (R127, R161)? -/
def Dev.bankFree (d : Dev) (c b t : Nat) : Bool :=
  (d.bankNear c b).atom.isNone && (match ((d.chan c).bank b).trrUntil with
    | none => true
    | some u => decide (u ≤ t))

/-- May a row be activated, or a targeted refresh start, in a bank (R129, R161)? -/
def Dev.actOk (d : Dev) (c b t : Nat) : Bool :=
  let ch := d.chan c
  let k := ch.bank b
  let g := b / 8
  k.row.isNone && d.bankFree c b t && since? t k.lastPre 28 && since? t k.lastAct 84
    && since? t (lastOf ch.lastActs fun x => x / 8 == g) 8 && since? t (lastOf ch.lastActs fun _ => true) 4
    && (match ch.lastActs[3]? with
        | none => true
        | some x => decide (x.1 + 32 ≤ t))

/-- Every constant of R129 that binds a command in slot `t`. -/
def Dev.timingOk (d : Dev) (c t : Nat) (cmd : ChCmd) : Bool :=
  let ch := d.chan c
  match cmd with
  | .activate b _ => d.actOk c b t
  | .precharge b =>
    let k := ch.bank b
    d.bankFree c b t && since? t k.lastAct 56 && since? t k.lastRd 8 && since? t k.lastWr 48
  | .column b w =>
    let k := ch.bank b
    let g := b / 8
    let same := fun x : Nat => x == g
    let anyG := fun _ : Nat => true
    k.row.isSome && d.bankFree c b t && since? t k.lastAct 28
      && since? t (lastOf ch.lastRds same) 4 && since? t (lastOf ch.lastWrs same) 4
      && since? t (lastOf ch.lastRds anyG) 1 && since? t (lastOf ch.lastWrs anyG) 1
      && (if w then
            -- write data 16 slots on, at least 2 idle slots after read data 33 slots after its column
            since? t (lastOf ch.lastRds anyG) 19
          else since? t (lastOf ch.lastWrs anyG) 5 && since? t (lastOf ch.lastWrs same) 15)

/-- `next_command` of R146. -/
def Dev.nextCmd (d : Dev) (c : Nat) (e : Ent) : ChCmd :=
  match ((d.chan c).bank e.bank).row with
  | none => .activate e.bank e.row
  | some r =>
    if r = e.row ∧ e.kind ≠ .atom then .column e.bank (match e.kind with
      | .rd _ => false
      | _ => true)
    else .precharge e.bank

/-- The slot from which the bank's row may be precharged (R129). -/
def Bank.preTime (k : Bank) : Nat :=
  max ((k.lastAct.map (· + 56)).getD 0) (max ((k.lastRd.map (· + 8)).getD 0) ((k.lastWr.map (· + 48)).getD 0))

/-! ## Effects of commands -/

/-- `on_activate` of R159, R160. -/
def Dev.onActivate (d : Dev) (c b row : Nat) : Dev :=
  let ch := d.chan c
  let k := ch.bank b
  let thr := fld (d.reg (rChActThr c)) 13 0
  let (i, e0) : Nat × ActEntry :=
    match findPos (fun e : ActEntry => e.row == row) k.acts 0 with
    | some (i, e) => (i, e)
    | none =>
      if k.acts.length < 16 then (k.acts.length, { row := row, count := 0, flag := false })
      else
        let least := (k.acts.map (·.count)).foldl min 16383
        match findPos (fun e : ActEntry => e.count == least) k.acts 0 with
        | some (i, e) => (i, { row := row, count := e.count, flag := false })
        | none => (0, { row := row, count := 0, flag := false })
  let e1 := { e0 with count := min 16383 (e0.count + 1) }
  let posts := decide (thr ≤ e1.count) && !e1.flag
  let e2 := if posts then { e1 with flag := true } else e1
  let acts := if i < k.acts.length then putAt k.acts i e2 else k.acts ++ [e2]
  -- a bank holds at most 4 pending events: a fifth forces a refresh (R160; log 140)
  let full := decide (4 ≤ k.events.length)
  let events := if posts && !full then k.events ++ [row] else k.events
  let force := (posts && full) || (e2.flag && decide (thr + thr / 4 ≤ e2.count) && events.contains row)
  d.setChan c { (ch.setBank b { k with acts := acts, events := events }) with forced := ch.forced || force }

/-- Count words and atom column operations for a field in the current window of 4,096 slots (R144). DESIGN CHOICE (log 160): S_f is
counted in each channel by itself. -/
def Dev.share (d : Dev) (c t : Nat) (f : Option (BitVec 4)) (n : Nat) : Dev :=
  d.updChan c fun ch =>
    let ch := if ch.window == t / 4096 then ch else { ch with window := t / 4096, shares := [] }
    match f with
    | none => ch
    | some f => { ch with shares := tabSet (fun _ => 0) ch.shares f.toNat (tabGet (fun _ => 0) ch.shares f.toNat + n) }

/-- A row is activated. -/
def Dev.issueAct (d : Dev) (c b row t : Nat) : Dev :=
  let d := d.updChan c fun ch =>
    { (ch.updBank b fun k => { k with row := some row, lastAct := some t, idleFrom := some t, idleDue := false }) with
      lastActs := ((t, b) :: ch.lastActs).take 4 }
  (d.count (rChAct c) 1).onActivate c b row

def Dev.issuePre (d : Dev) (c b t : Nat) : Dev :=
  d.updChan c fun ch => ch.updBank b fun k => { k with row := none, lastPre := some t, idleFrom := none, idleDue := false }

/-- The bank after a column command (R151): its idle timer restarts; with IDLE_NS = 0 the command precharges the row, at the
first moment that tRAS, tRTP and tWR allow (R129). -/
def Dev.afterColumn (d : Dev) (c b t : Nat) (w : Bool) : Dev :=
  let zero := fld (d.reg (rChPage c)) 10 0 == 0
  d.updChan c fun ch =>
    let ch := ch.updBank b fun k =>
      let k := { k with lastRd := if w then k.lastRd else some t, lastWr := if w then some t else k.lastWr,
                        idleFrom := some t, idleDue := false }
      if zero then { k with row := none, lastPre := some k.preTime, idleFrom := none } else k
    if w then { ch with lastWrs := ((t, b / 8) :: ch.lastWrs).take 64 }
    else { ch with lastRds := ((t, b / 8) :: ch.lastRds).take 64 }

/-- A request of a floe's engine to a channel has been answered (R149, R250, R333): a read brings its word, and the tracker
entry is free. An answer that no command waits for is dropped. -/
def Dev.engineAnswer (d : Dev) (f : BitVec 7) (e cmd addr : Nat) (word : Option (Line × Bool)) : Dev :=
  match d.slotOf f.toNat with
  | none => d
  | some s => d.updFloe s fun fl =>
      { fl with engines := setAt 6 [] fl.engines e (((fl.engines[e]?).getD []).map fun x =>
          if x.number == cmd then
            { x with words := x.words.erase addr
                     got := x.got ++ (word.map fun w => (addr, w.1, w.2)).toList }
          else x) }

/-- The word of a read goes to its source: a peer or the twin is answered at once (R414, R432), an engine of a floe has it
(R27), the others take it from their port; a command that has ended takes none. -/
def Dev.deliver (d : Dev) (c : Nat) (r : SchedReq) (data : Line) (poison : Bool) : Dev :=
  let wait := d.updChan c fun ch =>
    { ch with readyQ := ch.readyQ ++ [{ origin := r.origin, word := r.word, cls := r.cls, index := r.index, data := data,
                                        poison := poison, since := r.since }] }
  match r.origin with
  | .peer p => d.answerData p.link.val p.dev p.tag data poison
  | .twinRead l t => d.answerData l.val 0 t data poison
  | .floe f e cmd => if e = 0 then wait else d.engineAnswer f e cmd (d.addrOf r.word) (some (data, poison))
  | .ring n i => if d.cmds.any fun x => x.ring == n && x.idx == i && x.done.isNone then wait else d
  | _ => wait

/-- A read has produced its word: the port takes it, or scrub and repairs follow (R363, R370, R387). -/
def Dev.readDone (d : Dev) (c : Nat) (r : SchedReq) : Dev :=
  let d := d.updChan c fun ch => { ch with reqs := ch.reqs.filter fun x => x.id != r.id }
  let w := d.seen r.word
  -- a word already in recovery is not reported again: the read waits for it (R387, R390)
  if (d.chan c).recovery.any fun v => v.word == r.word then (if r.origin = .scrub then d else d.recover r.word (some r)) else
  let d := d.noteRead r.word w (r.origin == .scrub)
  -- the twin asked for a word that is uncorrectable here: its region is out of sync (R432)
  let d := match r.origin with
    | .twinRead _ _ => if w.uncorr ≠ 0 then d.markOutSync (d.addrOf r.word / 2 ^ 21) else d
    | _ => d
  if r.origin = .scrub then (if w.uncorr ≠ 0 ∧ d.mirrored r.word then d.recover r.word none else d)
  else if w.uncorr ≠ 0 ∧ d.mirrored r.word then d.recover r.word (some r)
  else d.deliver c r w.data w.poison

/-- A repair write (R363, R387): one read-modify-write, skipped after a newer write or when the word decodes as good or
marked; an uncorrectable word of a mirrored region is recovered instead. -/
def Dev.repairDo (d : Dev) (c : Nat) (r : SchedReq) : Dev :=
  let d := d.updChan c fun ch => { ch with reqs := ch.reqs.filter fun x => x.id != r.id }
  let now := d.dram.readWord r.word
  if (d.buffered r.word).isSome || (now.corrected == 0 && now.uncorr == 0) then d
  else if now.uncorr ≠ 0 ∧ d.mirrored r.word then d.recover r.word none
  else { d with dram := d.dram.writeWord r.word now.data now.marks }

/-- Issue a column command for an entry (R146): a read, the write of a buffered word, or a repair write (R363). -/
def Dev.issueColumn (d : Dev) (c t : Nat) (e : Ent) : Dev :=
  let ch := d.chan c
  match e.kind with
  | .rd id =>
    match ch.reqs.find? fun r => r.id == id with
    | none => d
    | some r => ((d.afterColumn c e.bank t false).share c t e.field 1).readDone c r
  | .wr id =>
    match ch.wbuf.find? fun b => b.id == id with
    | none => d
    | some b =>
      -- a word that holds some bytes only is merged into the array's (R83, R209); an uncorrectable mirrored one is recovered first
      if b.whole = false ∧ d.mirrored b.word ∧ (d.dram.readWord b.word).uncorr ≠ 0 then
        (d.mergeRecover b.word).afterColumn c e.bank t true
      else
        let d := if b.whole then d else d.noteMerge b.word (d.dram.readWord b.word)
        let d := d.sramRead 2 c
        let d := if b.ue then d.report 0x000A 2 8 0 0 2 else d
        let x := b.onto d.dram
        let d := { d with dram := d.dram.writeWord b.word x.1 x.2 }
        let d := d.updChan c fun ch => { ch with wbuf := ch.wbuf.filter fun x => x.id != id }
        let d := d.updHost (d.creditPort c) fun h => { h with wdFreed := h.wdFreed + b.hostWords }
        (d.afterColumn c e.bank t true).share c t e.field 1
  | .repair id =>
    match ch.reqs.find? fun r => r.id == id with
    | none => d
    | some r =>
      let d := d.repairDo c r
      d.afterColumn c e.bank t true
  | .atom => d

/-- Caps on which a booking fails: die, device, field (R201). -/
def Dev.bookFails (d : Dev) (b : Booking) : Bool × Bool × Bool :=
  let ts := (List.range (b.last + 1 - b.first)).map fun i => b.first + i
  (ts.any fun t => decide (d.dieCap b.die ≤ d.tokens t (fun x => x.die == b.die)),
   ts.any fun t => decide (d.devCap ≤ d.tokens t (fun _ => true)),
   match b.field with
   | none => false
   | some f => ts.any fun t => decide (d.fieldCap f.toNat ≤ d.tokens t (fun x => x.field == some f)))

/-! ## When a refresh may start -/

/-- Channels that run an all-bank refresh, and the limit (R157). -/
def Dev.refreshing (d : Dev) : Nat := (d.chans.filter fun e => e.2.refUntil.isSome).length

/-- The band of a DRAM die (R154, R515). -/
def Dev.band (d : Dev) (die : Nat) : Nat := fld (d.reg (rThmDram die)) 29 28

def Dev.staggerLimit (d : Dev) : Nat := if (List.range 16).any fun i => d.band i == 3 then 16 else 8

/-- Is an atom running in the channel? -/
def Dev.atomRuns (d : Dev) (c : Nat) : Bool :=
  (List.range 64).any fun b => (d.bankNear c b).atom.isSome

/-- What R155 and R156 ask of a channel's own refresh but for its atoms and the stagger slot: it is forced, or OWED is 1 or more
and no class-0 entry waits; and refresh spacing has passed. -/
def Dev.refreshDue (d : Dev) (c : Nat) : Bool :=
  let ch := d.chan c
  ch.ready && !ch.down && !ch.selfRef && ch.refUntil.isNone && since? d.clock ch.lastRef 1600
    && (ch.forced || (decide (1 ≤ ch.owed) && !(d.entries c).any Ent.class0))

/-- Is a stagger slot free for the channel: fewer than the limit refresh, and no channel that could start now has asked before it,
forced refreshes first (R157)? -/
def Dev.staggerFree (d : Dev) (c : Nat) : Bool :=
  let ch := d.chan c
  let asked := ch.refAsked.getD d.clock
  decide (d.refreshing < d.staggerLimit) && !d.chans.any fun e => e.1 != c && e.2.refAsked.isSome
    && ((e.2.forced && !ch.forced) || (e.2.forced == ch.forced && decide (e.2.refAsked.getD 0 < asked)))
    && d.refreshDue e.1 && !d.atomRuns e.1

/-- Is a request of the host or the peer port that waited for the bank at its boundary still to be served (R145)? One that waits
at its port behind a write which only a finish of an NBO lets in (R210), or whose region is being zeroed (R454), does not count
(log 141). -/
def Dev.boundaryWaits (d : Dev) (c b : Nat) : Bool :=
  let ch := d.chan c
  let waits := ch.waitsFor b
  let stuck := fun (q : List PortReq) => match q with
    | [] => false
    | r :: _ => (r.write && r.words.any fun w => !(d.holders r.origin w).isEmpty) || (d.regionHeld r.addr.toNat && !r.old)
  let idle := (if stuck ch.hostIn then ch.hostIn.map (·.arr) else []) ++ (if stuck ch.peerIn then ch.peerIn.map (·.arr) else [])
  ch.atBoundary.any fun x => x.1 == b && waits.contains x.2 && !idle.contains x.2

/-- `atom_blocked` of R146, with the refresh of R155 that only waits for running atoms, and the words of R223 still awaited from
the twin. -/
def Dev.atomBlocked (d : Dev) (c b row : Nat) : Bool :=
  let ch := d.chan c
  ch.forced || d.boundaryWaits c b || !(ch.bank b).events.isEmpty
    || ch.wbuf.any (fun w => w.held.isEmpty && (wordPlace w.word).bank == b && (wordPlace w.word).row == row)
    || ch.recovery.any (fun v => (wordPlace v.word).bank == b && (wordPlace v.word).row == row)
    || (ch.refAsked.isSome && d.refreshDue c && d.staggerFree c)

/-- Issue the activate of an atom, which books its tokens (R189, R201). -/
def Dev.issueAtom (d : Dev) (c t : Nat) (e : Ent) : Dev :=
  match d.nextAtom c e.bank with
  | none => d
  | some (x, k, row) =>
    let d := d.startAtom c e.bank t x k row
    let d := d.updChan c fun ch =>
      { (ch.updBank e.bank fun b => { b with lastAct := some t, idleFrom := none }) with
        lastActs := ((t, e.bank) :: ch.lastActs).take 4
        atBoundary := ch.atBoundary.filter fun y => y.1 != e.bank }
    ((d.count (rChAct c) 1).onActivate c e.bank row).share c t e.field (atomCols x.d k)

/-! ## Idleness -/

/-- Nothing to do: no request, atom, near-bank slot, open-row timer or maintenance (R153, R215). -/
def Dev.channelIdle (d : Dev) (c : Nat) : Bool :=
  let ch := d.chan c
  ch.reqs.isEmpty && ch.wbuf.isEmpty && ch.hostIn.isEmpty && ch.driftIn.isEmpty && ch.peerIn.isEmpty
    && ch.nearWait.isEmpty && ch.recovery.isEmpty && ch.refUntil.isNone && ch.refAsked.isNone && !ch.forced && !ch.retrain
    && ch.pauseUntil.isNone
    && (List.range 64).all fun b =>
      let s := d.bankNear c b
      let k := ch.bank b
      s.exec.isNone && s.staged.isNone && s.reserved.isEmpty && k.events.isEmpty && (k.row.isNone || k.idleDue)

/-! ## The slot -/

/-- Reads whose word is in the write buffer are served from it (R143, R149). -/
def Dev.serveBuffered (d : Dev) (c : Nat) : Dev :=
  ((d.chan c).reqs.filter fun r => r.origin != .repair && r.origin != .scrub && (d.buffered r.word).isSome).foldl
    (fun d r => d.readDone c r) d

/-- Is a class-0 column command of a bank group issuable within 4 slots (R143)? -/
def Dev.columnDue (d : Dev) (c t : Nat) (c0 : List Ent) (g : Nat) : Bool :=
  c0.any fun e => e.bank / 8 == g && (match d.nextCmd c e with
    | .column b w => (List.range 5).any fun i => d.timingOk c (t + i) (.column b w)
    | _ => false)

/-- Issue an entry's command. -/
def Dev.issueCmd (d : Dev) (c t : Nat) (e : Ent) (cmd : ChCmd) : Dev :=
  match cmd with
  | .activate b row =>
    let d := if e.kind = .atom then d.issueAtom c t e else d.issueAct c b row t
    if e.class0 then d else d.updChan c fun ch => { ch with lastThr := (t :: ch.lastThr).take 4 }
  | .precharge b => d.issuePre c b t
  | .column _ _ => d.issueColumn c t e

/-- Does the throttling factor of the channel's die admit one more activate in the 16 ns window (R518)? -/
def Dev.throttleOk (d : Dev) (c t : Nat) : Bool :=
  let most := max 1 (4 * fld (d.reg (rThmDram (c / 2))) 22 16 / 64)
  decide (((d.chan c).lastThr.filter fun x => decide (t < x + 32)).length < most)

/-- Can the command issue in the slot? Atoms start only where a bank cycle begins (R189). -/
def Dev.canIssue (d : Dev) (c t : Nat) (e : Ent) (cmd : ChCmd) : Bool :=
  d.timingOk c t cmd && (match cmd with
    | .activate _ _ => (e.kind != .atom || t % 4 == 0) && (e.class0 || d.throttleOk c t)
    | _ => true)

/-- The class-0 part of the slot (R142, R146): issued, or nothing could issue. DESIGN CHOICE (log 161): a promoted atom that
`atom_blocked` holds back is not issued, and row commands of lower rank wait behind it. -/
def Dev.class0Go (d : Dev) (c t : Nat) : List Ent → List Ent → Bool → Option Dev
  | [], _, _ => none
  | e :: es, above, rowWaiting =>
    let cmd := d.nextCmd c e
    let hitAbove := above.any fun h => h.bank == e.bank && (d.chan c |>.bank e.bank).row == some h.row
    match cmd with
    | .column _ _ =>
      if d.canIssue c t e cmd then some (d.issueCmd c t e cmd) else d.class0Go c t es (e :: above) rowWaiting
    | _ =>
      if (match cmd with
          | .precharge _ => hitAbove
          | _ => false) then d.class0Go c t es (e :: above) rowWaiting
      else if !rowWaiting && d.canIssue c t e cmd && !(e.kind == .atom && d.atomBlocked c e.bank e.row) then
        some (d.issueCmd c t e cmd)
      else d.class0Go c t es (e :: above) true

/-- The lowest-numbered bank with a pending event that a targeted refresh can serve (R161). -/
def Dev.trrBank (d : Dev) (c t : Nat) (c0 : List Ent) : Option Nat :=
  (((d.chan c).banks.map (·.1)).filter fun b =>
    !((d.chan c).bank b).events.isEmpty && d.bankFree c b t && !c0.any (fun e => e.bank == b)).find? fun b =>
      d.actOk c b t || (((d.chan c).bank b).row.isSome && d.timingOk c t (.precharge b))

/-- Service one event, or precharge its bank first (R160, R161). -/
def Dev.issueTrr (d : Dev) (c b t : Nat) : Dev :=
  let k := (d.chan c).bank b
  if k.row.isSome then d.issuePre c b t
  else
    match k.events with
    | [] => d
    | r :: rest =>
      (d.updChan c fun ch =>
        { (ch.setBank b { k with events := rest, trrUntil := some (t + 120), lastAct := some t
                                 acts := k.acts.map fun e => if e.row == r then { e with count := 0, flag := false } else e })
          with lastActs := ((t, b) :: ch.lastActs).take 4 }).count (rChTrr c) 1

/-- The lowest-numbered bank whose idle row may be closed (R146, R151). -/
def Dev.idleBank (d : Dev) (c t : Nat) (es : List Ent) : Option Nat :=
  ((d.chan c).banks.map (·.1)).find? fun b =>
    let k := (d.chan c).bank b
    k.row.isSome && k.idleDue && !es.any (fun e => e.bank == b && k.row == some e.row && e.kind != .atom)
      && d.timingOk c t (.precharge b)

/-- `permitted` of R146. -/
def Dev.permitted (d : Dev) (c t : Nat) (c0 : List Ent) (e : Ent) (cmd : ChCmd) : Bool :=
  if c0.isEmpty then match cmd with
    | .activate _ _ => !(e.kind == .atom && d.atomBlocked c e.bank e.row)
    | _ => true
  else match cmd with
    | .column _ w => !w && !d.columnDue c t c0 (e.bank / 8)
    | _ => false

/-- The atoms of a channel whose activate could issue in slot `t` if tokens were free (R201): start of age, bank, booking. -/
def Dev.atomCands (d : Dev) (c t : Nat) (es : List Ent) : List (Nat × Nat × Booking) :=
  let ch := d.chan c
  let none0 := !es.any Ent.class0
  if !ch.ready || ch.down || ch.selfRef || ch.refUntil.isSome || ch.pauseUntil.any (fun u => decide (t < u)) || ch.retrain
      || ch.powerDown || decide (t < ch.wakeAt) then []
  else (es.filter fun e => e.kind == .atom && (match d.nextCmd c e with
    | .activate b r => d.canIssue c t e (.activate b r) && !d.atomBlocked c e.bank e.row && (e.class0 || none0)
    | _ => false)).filterMap fun e => (d.nextAtom c e.bank).map fun (x, k, _) => (e.since, e.bank, atomBooking x k t)

/-- Channels with an executing NBO. -/
def Dev.nearChans (d : Dev) : List Nat :=
  (d.near.filter fun e => e.2.exec.isSome).foldl (fun cs e => if cs.contains (e.1 / 64) then cs else cs ++ [e.1 / 64]) []

/-- The booking tests of bank cycle `t` (R201), over the whole device: the oldest atom first, then the lower channel, then the
lower bank. Answers the channel and bank of every atom that cannot book. An atom fails when a cap would be exceeded, and when it
draws on a cap that an atom tested before it has failed on. Of a channel whose slot is still to come, the first atom that can book
holds its tokens for it (log 142). -/
def Dev.tokenTests (d : Dev) (t : Nat) : List (Nat × Nat) :=
  let all := d.nearChans.flatMap fun c => (d.atomCands c t (d.entries c)).map fun x => (x.1, c, x.2.1, x.2.2)
  let sorted := sortBy (fun (a b : Nat × Nat × Nat × Booking) =>
    decide (a.1 < b.1) || (a.1 == b.1 && (decide (a.2.1 < b.2.1) || (a.2.1 == b.2.1 && decide (a.2.2.1 < b.2.2.1))))) all
  -- bookings of the cycle, channels that hold one, caps failed on, atoms refused
  (sorted.foldl (fun (s : Dev × List Nat × List (Booking × Bool × Bool × Bool) × List (Nat × Nat)) x =>
    let (v, held, fails, no) := s
    let (_, c, b, k) := x
    let barred := fails.any fun f => (f.2.1 && f.1.die == k.die) || f.2.2.1 || (f.2.2.2 && f.1.field == k.field)
    if !v.canBook k then (v, held, fails ++ [(k, v.bookFails k)], no ++ [(c, b)])
    else if barred then (v, held, fails, no ++ [(c, b)])
    else if held.contains c || ((d.chan c).lastSlot.any fun l => decide (t ≤ l)) then (v, held, fails, no)
    else ({ v with bookings := v.bookings ++ [k] }, held ++ [c], fails, no)) (d, [], [], [])).2.2.2

/-- The booking tests of a channel's slot, where it begins a bank cycle (R189, R201): each of its banks shows whether its next atom
waits for a token, and a cycle in which one waits is counted. Answers the entries that remain. -/
def Dev.testTokens (d : Dev) (c t : Nat) (es : List Ent) : Dev × List Ent :=
  if t % 4 ≠ 0 ∨ !es.any (fun e => e.kind == .atom) then (d, es)
  else
    let no := (d.tokenTests t).filterMap fun x => if x.1 = c then some x.2 else none
    let d := forNat 64 d fun d b =>
      if (d.bankNear c b).tokenWait == no.contains b then d else d.updBankNear c b fun n => { n with tokenWait := no.contains b }
    (if no.isEmpty then d else d.count (rNbTokwait c) 1, es.filter fun y => !(y.kind == .atom && no.contains y.bank))

/-- One decision of the scheduler (R146), or of the fallback scheduler in permafrost (R147). -/
def Dev.slotDecision (d : Dev) (c t : Nat) : Dev :=
  let (d, es) := d.testTokens c t (d.entries c)
  let c0 := sortBy Ent.rankBefore (es.filter Ent.class0)
  if d.permafrost then
    -- targeted refresh keeps its rules (R147, R161)
    match d.trrBank c t c0 with
    | some b => d.issueTrr c b t
    | none =>
    let byAge := sortBy (fun a b : Ent => decide (a.since < b.since) || (a.since == b.since && decide (a.order < b.order))) es
    match byAge.find? fun e => (match d.nextCmd c e with
      | .column _ _ => d.canIssue c t e (d.nextCmd c e)
      | _ => false) with
    | some e => d.issueCmd c t e (d.nextCmd c e)
    | none =>
      match byAge with
      | [] => match d.idleBank c t es with
        | some b => d.issuePre c b t
        | none => d
      | e :: _ => if d.canIssue c t e (d.nextCmd c e) then d.issueCmd c t e (d.nextCmd c e) else d
  else
    match d.class0Go c t c0 [] false with
    | some d => d
    | none =>
      match d.trrBank c t c0 with
      | some b => d.issueTrr c b t
      | none =>
        match d.idleBank c t es with
        | some b => d.issuePre c b t
        | none =>
          let rest := es.filter fun e => !e.class0
          let cands := rest.filter fun e =>
            let cmd := d.nextCmd c e
            d.canIssue c t e cmd && d.permitted c t c0 e cmd && (match cmd with
              | .precharge b => !rest.any fun h =>
                  h.bank == b && ((d.chan c).bank b).row == some h.row && h.kind != .atom && d.keyBefore c t h e
              | _ => true)
          match sortBy (d.keyBefore c t) cands with
          | [] => d
          | e :: _ => d.issueCmd c t e (d.nextCmd c e)

/-- One command slot of a channel (R146): the slot after the channel's last, or now. -/
def Dev.slot (d : Dev) (c : Nat) : Dev :=
  let ch := d.chan c
  let t := match ch.lastSlot with
    | none => d.clock
    | some l => max d.clock (l + 1)
  let d := d.advanceTo t
  let idle := d.channelIdle c
  let d := d.updChan c fun ch => { ch with lastSlot := some t, idleFrom := if idle then some (ch.idleFrom.getD t) else none }
  if !ch.ready || ch.down || ch.selfRef then d
  else
    let d := d.serveBuffered c
    if ch.refUntil.isSome || ch.pauseUntil.any (fun u => decide (t < u)) || ch.retrain || ch.powerDown || decide (t < ch.wakeAt) then d
    else d.slotDecision c t

/-! ## Ports -/

/-- A request of a port, accepted now (R134, R140): its words are placed by the address order in force, and it takes the channel's
next arrival number. The words of one request lie in one channel (R58). -/
def Dev.portReq (d : Dev) (r : PortReq) : PortReq × Dev :=
  let ws := (List.range (r.len.toNat + 1)).map fun i => d.wordOf (r.addr.toNat + 64 * i)
  let (arr, d) := d.freshId (d.place r.addr.toNat).ch
  ({ r with words := ws, since := d.clock, arr := arr }, d)

/-- Words of a request of a port (R142): each becomes an entry with consecutive rank. -/
def Dev.enqueueReads (d : Dev) (c : Nat) (r : PortReq) (port : Fin 5) : Dev :=
  r.words.zipIdx.foldl (fun d p =>
    let (id, d) := d.freshId c
    let q : SchedReq := { id := id, origin := r.origin, port := port, cls := r.cls, promoted := r.promoted, word := p.1,
                          index := BitVec.ofNat 2 p.2, field := r.field, since := r.since, arr := r.arr }
    if (d.chan c).recovery.any fun v => v.word == p.1 then d.recover p.1 (some q)
    else if (d.buffered p.1).isSome then
      (d.updChan c fun ch => { ch with reqs := ch.reqs ++ [q] }).readDone c q
    else d.updChan c fun ch => { ch with reqs := ch.reqs ++ [q] }) d

/-- The words of a read that a down channel has accepted: the twin's copy of a mirrored region, poison otherwise (R371). -/
def Dev.downReads (d : Dev) (c : Nat) (r : PortReq) (port : Fin 5) : Dev :=
  r.words.zipIdx.foldl (fun d p =>
    let (id, d) := d.freshId c
    let q : SchedReq := { id := id, origin := r.origin, port := port, cls := r.cls, promoted := r.promoted, word := p.1,
                          index := BitVec.ofNat 2 p.2, field := r.field, since := r.since, arr := r.arr }
    if d.mirrored p.1 then d.recover p.1 (some q)
    else ({ d with freeUses := d.freeUses + 1 } : Dev).deliver c q (Config.freeLine d.freeUses) true) d

/-- The writes of a request's words (R82, R83). -/
def PortReq.writes (r : PortReq) (port : Fin 5) : List WordWrite :=
  (r.words.zip r.data).map fun p =>
    { origin := r.origin, word := p.1, data := p.2, mask := if r.masked then r.mask else BitVec.allOnes 64, keep := r.keep
      poison := r.poison
      port := port, cls := r.cls, promoted := r.promoted, field := r.field, since := r.since, arr := r.arr
      hostWords := match r.origin with
        | .host _ => 1
        | _ => 0 }

/-- Perform a write: every word enters the write buffer (R82, R83, R149). The Bool: a masked write met poison. -/
def Dev.performWrite (d : Dev) (r : PortReq) (port : Fin 5) : Dev × Bool :=
  (r.writes port).foldl (fun s x => let (d, bad) := s.1.writeWord x; (d, s.2 || bad)) (d, false)

/-- The words of a masked write that must first come from the twin (R369). -/
def Dev.writeRecovers (d : Dev) (r : PortReq) : List Nat :=
  if r.masked then r.words.filter fun w => d.mergeRecovers w r.mask r.keep else []

/-- Must a write wait for room, for its source's earlier requests, or for the recovery of a word it merges into (R148, R149, R352,
R369)? Every word of the request finds room, and room among the held words. -/
def Dev.writeWaits (d : Dev) (r : PortReq) : Bool :=
  let ch := d.chan (d.place r.addr.toNat).ch
  let fresh := r.words.filter fun w => !ch.wbuf.any fun b => b.word == w
  let holds := fresh.filter fun w => !(d.holders r.origin w).isEmpty
  decide (256 < ch.wbuf.length + fresh.length)
    || (!holds.isEmpty && decide (64 < (ch.wbuf.filter fun b => !b.held.isEmpty).length + holds.length))
    || r.words.any (d.storeWaitsAt r.origin r.arr) || !(d.writeRecovers r).isEmpty
    -- the stream to the twin carries whole bytes (R328, R430)
    || (r.keep != 0 && r.words.any fun w => d.mirrored w && d.keepsApart r.origin w)

/-- The port's next request is a write that waits: a recovery that it waits for begins (R369). -/
def Dev.writeStalls (d : Dev) (r : PortReq) : Dev := (d.writeRecovers r).foldl Dev.mergeRecover d

/-! ## Timers, pages, power -/

/-- A bank's idle timer reaches CH_PAGE.IDLE_NS (R151). -/
def Dev.pageIdle (d : Dev) (c b : Nat) : Dev :=
  let k := (d.chan c).bank b
  match k.row, k.idleFrom with
  | some _, some f =>
    (d.advanceTo (f + 2 * fld (d.reg (rChPage c)) 10 0)).updChan c fun ch => ch.updBank b fun k => { k with idleDue := true }
  | _, _ => d

/-! ## Refresh -/

/-- tREFI of a band: L, N, W, H (R129). -/
def refiSlots : Nat → Nat
  | 0 => 15600
  | 1 => 7800
  | 2 => 3900
  | _ => 1950

/-- At the end of a tREFI, OWED gains 1; at 5 the refresh becomes forced (R155, R156). -/
def Dev.refiEnd (d : Dev) (c : Nat) : Dev :=
  let ch := d.chan c
  if !ch.ready || ch.down || ch.selfRef then d
  else
    let d := d.advanceTo ch.nextRefi
    d.updChan c fun ch =>
      let owed := ch.owed + 1
      { ch with owed := owed, nextRefi := d.clock + refiSlots (d.band (c / 2)), forced := ch.forced || decide (5 ≤ owed) }

/-- The first slot, from now, in which a due refresh can start: the die-slice is awake for tXP, targeted refreshes have run to
their end, and every open row may be precharged (R129, R153, R161). -/
def Dev.refreshSlot (d : Dev) (c : Nat) : Nat :=
  let ch := d.chan c
  let wake := if ch.powerDown then d.clock + 24 else ch.wakeAt
  ch.banks.foldl (fun t e => max t (max (e.2.trrUntil.getD 0)
    (if e.2.row.isSome then e.2.preTime else e.2.lastPre.getD 0))) (max d.clock wake)

/-- Start a refresh when the rules of R155 to R157 let it, or ask for a stagger slot. A retraining visit that has fallen due
shares it: the pause of R166 is 800 slots, its longest (DESIGN CHOICE, log 162). A pause that ended with no measurement is made up for. -/
def Dev.refreshStart (d : Dev) (c : Nat) : Dev :=
  let ch := d.chan c
  let wanted := ch.forced || (decide (1 ≤ ch.owed) && !(d.entries c).any Ent.class0)
  if !ch.ready || ch.down || ch.selfRef || ch.refUntil.isSome then d
  else if !wanted then d.setChan c { ch with refAsked := none }
  else if d.atomRuns c || !d.refreshDue c || !d.staggerFree c then
    d.setChan c { ch with refAsked := some (ch.refAsked.getD d.clock) }
  else
    let d := d.advanceTo (d.refreshSlot c)
    let t := d.clock
    let visit := ch.visitDue || ch.pauseUntil.isSome || (decide (ch.nextVisit ≤ t) && !ch.retrain)
    let d := d.setChan c
      { ch.stall t with
        owed := max (-4) (ch.owed - 1), lastRef := some t, refUntil := some (t + 760), refForced := ch.forced
        forced := false, refAsked := none, powerDown := false, wakeAt := if ch.powerDown then t else ch.wakeAt
        pauseUntil := if visit then some (t + 800) else none, visitDue := false
        nextVisit := if ch.nextVisit ≤ t then ch.nextVisit + 100000000 else ch.nextVisit
        banks := ch.banks.map fun e => (e.1, { e.2 with
          row := none, lastPre := if e.2.row.isSome then some t else e.2.lastPre, idleFrom := none, idleDue := false }) }
    let d := d.count (rChRef c) 1
    if ch.forced then d.count (rChRefForced c) 1 else d

/-- A refresh ends: every bank closed; a forced one has served every pending event, and a fifth event of a bank, which was not
held (R156, R160, R162). -/
def Dev.refreshEnd (d : Dev) (c : Nat) : Dev :=
  match (d.chan c).refUntil with
  | none => d
  | some t =>
    let d := d.advanceTo t
    let ch := d.chan c
    let n := (ch.banks.map fun e => e.2.events.length).foldl (· + ·) 0
    let banks := if ch.refForced then ch.banks.map fun e =>
        (e.1, { e.2 with events := [], acts := e.2.acts.map fun a => if a.flag then { a with count := 0, flag := false } else a })
      else ch.banks
    let banks := (banks.filter fun e => e.2 != Bank.init)
    let d := (d.setChan c { ch with refUntil := none, refForced := false, banks := banks, refCount := ch.refCount + 1 }).chainResume c
    if ch.refForced then d.count (rChTrr c) n else d

/-- Every table returns to empty after 8,192 refreshes (R160). -/
def Dev.trrReset (d : Dev) (c : Nat) : Dev :=
  let ch := d.chan c
  if 8192 ≤ ch.refCount then
    let banks := (ch.banks.map fun e => (e.1, { e.2 with acts := [] })).filter fun e => e.2 != Bank.init
    d.setChan c { ch with refCount := 0, banks := banks }
  else d

end Sys2Proof.Machine
end

