-- ==== Sys2Proof/Machine/HostPort.lean ====
section
/-! DEFINITION. The host port: CRC (R65), beats and credits (R60 to R64, R67, R73), go-back-N (R68 to R72), training
(R75, R76), the checks of R78, reads and writes of memory. -/

namespace Sys2Proof.Machine

/-! ## CRC -/

def crc16Bit (c : BitVec 16) (b : Bool) : BitVec 16 :=
  let top := c.getLsbD 15
  let s := c <<< 1
  if top != b then s ^^^ 0x1021 else s

/-- One byte, most significant bit first. -/
def crc16Byte (c : BitVec 16) (x : BitVec 8) : BitVec 16 :=
  (List.range 8).foldl (fun c i => crc16Bit c (x.getLsbD (7 - i))) c

/-- The CRC-16 of R65 over a list of bytes. -/
def crc16 (xs : List (BitVec 8)) : BitVec 16 := xs.foldl crc16Byte 0xFFFF

/-! ## Fields of a frame (R55) -/

structure FrameF where
  op    : Nat
  seq   : BitVec 8
  len   : BitVec 2
  cls   : BitVec 2
  world : Bool
  srcid : BitVec 6
  tag   : BitVec 9
  waddr : BitVec 31
  top   : Bool
deriving DecidableEq, Repr

def frameF (b : BitVec 64) : FrameF :=
  let x := b.toNat
  { op := bits x 3 0, seq := BitVec.ofNat 8 (bits x 11 4), len := BitVec.ofNat 2 (bits x 13 12),
    cls := BitVec.ofNat 2 (bits x 15 14), world := bit x 16, srcid := BitVec.ofNat 6 (bits x 22 17),
    tag := BitVec.ofNat 9 (bits x 31 23), waddr := BitVec.ofNat 31 (bits x 62 32), top := bit x 63 }

/-- The aperture address of the first word. -/
def FrameF.addr (f : FrameF) : Nat := f.waddr.toNat * 64

def FrameF.isWrite (f : FrameF) : Bool := f.op == 2 || f.op == 3

/-- Sequenced: every OP but IDLE, LINK and TRAIN (R56). -/
def FrameF.sequenced (f : FrameF) : Bool := f.op != 0 && f.op != 0xE && f.op != 0xF

/-- Words of write data that the frame brings: its window lasts LEN + 1 beats (R66); a reserved OP brings none (R56). -/
def FrameF.words (f : FrameF) : Nat := if f.op = 2 ∨ f.op = 3 then f.len.toNat + 1 else 0

/-! ## Beats -/

/-- The CRC of a device beat: over RSEQ, META and its data (R65). -/
def beatCrc (rseq : BitVec 8) (info : BitVec 16) (x : Line) : BitVec 16 := crc16 (rseq :: toLe 2 info.toNat ++ lineBytes x)

/-- The read tags after a beat has been sent: that of a data beat is free with the last beat of its read (R80). -/
def tagsAfter (info : BitVec 16) (tags : List (BitVec 9 × Nat)) : List (BitVec 9 × Nat) :=
  if bits info.toNat 1 0 ≠ 0 then tags
  else tags.filterMap fun p =>
    if p.1.toNat == bits info.toNat 10 2 then (if p.2 ≤ 1 then none else some (p.1, p.2 - 1)) else some p

/-- Drive beats from the queue while fewer than 128 are unacknowledged (R67). -/
def HostPort.drain : Nat → HostPort → HostPort
  | 0, h => h
  | n + 1, h =>
    match h.outq with
    | [] => h
    | b :: rest =>
      if 128 ≤ h.held.length then h
      else
        let sent : DevBeat := { rseq := h.nextRseq, info := b.info, data := b.data, crc := beatCrc h.nextRseq b.info b.data }
        HostPort.drain n { h with outq := rest, nextRseq := h.nextRseq + 1, held := h.held ++ [sent]
                                  tags := tagsAfter b.info h.tags }

/-- Queue a beat; a channel that is down sends none (R371). A data beat of a class-0 read goes before the others that wait
(R143). -/
def HostPort.send (h : HostPort) (i : BitVec 16) (x : Line) (c0 : Bool := false) : HostPort :=
  if h.down then h
  else
    let b : OutBeat := { c0 := c0, info := i, data := x }
    let first := fun (o : OutBeat) => o.c0
    let h := { h with outq := if c0 then h.outq.takeWhile first ++ b :: h.outq.dropWhile first else h.outq ++ [b] }
    if h.up then h.drain h.outq.length else h

/-- Return every credit that has been freed (R73). -/
def HostPort.grant (h : HostPort) : HostPort :=
  { h with rqGiven := h.rqGiven + BitVec.ofNat 16 h.rqFreed, wdGiven := h.wdGiven + BitVec.ofNat 16 h.wdFreed
           rqFreed := 0, wdFreed := 0 }

/-- The data of a link beat (R64). -/
def linkData (ack : BitVec 8) (nak retrain trained : Bool) (rq wd : BitVec 16) (laneOk : BitVec 72) : Line :=
  BitVec.ofNat 512 (ack.toNat + (nak.toNat + 2 * retrain.toNat + 4 * trained.toNat) * 2 ^ 8
    + rq.toNat * 2 ^ 16 + wd.toNat * 2 ^ 32 + laneOk.toNat * 2 ^ 48)

/-- Send a link beat: it acknowledges every accepted frame and carries the credits (R64, R68). -/
def HostPort.linkBeat (h : HostPort) (nak : Bool) : HostPort :=
  let h := h.grant
  let retrain := h.askTrain
  ({ h with unacked := 0 }).send 2 (linkData (h.expSeq - 1) nak retrain false h.rqGiven h.wdGiven 0)

/-- `begin_error` of R68: at most one NAK in 200 ns. The round that it opens is one more in a row for the expected frame; when the
eighth has failed, link failure is declared in place of a ninth NAK (R72). DESIGN CHOICE (log 158): rounds of NAK and of RNAK are
counted apart, and a count ends with the success in its own direction. -/
def Dev.beginError (d : Dev) (c : Nat) : Dev :=
  let h := d.host c
  let due := match h.nakTime with
    | none => true
    | some t => decide (t + 400 ≤ d.clock)
  if (!h.inError || due) && decide (8 ≤ h.rounds) then d.setHost c { h with rounds := 9 }
  else if !h.inError || due then
    let h' := (h.linkBeat true)
    (d.setHost c { h' with nakTime := some d.clock, inError := true, rounds := h.rounds + 1
                           pauseFrom := some (h.pauseFrom.getD d.clock) }).count (rHpReplay c) 1
  else d

/-- A frame that fails its CRC or is treated as one (R65, R66, R73, R561). -/
def Dev.badFrame (d : Dev) (c : Nat) : Dev := (d.count (rHpCrc c) 1).beginError c

/-- Close the replay of a channel: its command clock runs on (R72, R116). -/
def HostPort.resume (h : HostPort) (clock : Nat) : HostPort :=
  if h.inError || h.replay || h.training.isSome then h
  else match h.pauseFrom with
    | none => h
    | some t => { h with pauseFrom := none, pauses := h.pauses ++ [(t, clock)] }

/-- The status record of R62 in a status beat. -/
def statusData (t : HostTag) (code : Nat) : Line :=
  BitVec.ofNat 512 (t.waddr.toNat * 64 + t.seq.toNat * 2 ^ 64 + code * 2 ^ 72 + t.tag.toNat * 2 ^ 80
    + t.srcid.toNat * 2 ^ 96 + t.op.toNat * 2 ^ 104)

/-- End a request in a status beat, with its moraine entry and HP_ERR bit (R61 to R63, R375). -/
def Dev.hostStatus (d : Dev) (t : HostTag) (code : Nat) (field : Option (BitVec 4)) : Dev :=
  let c := t.ch.val
  let d := d.updHost c fun h => h.send (BitVec.ofNat 16 (1 + t.tag.toNat * 4)) (statusData t code)
  let d := d.report (0x100 + code) (if code = 1 then 2 else 0) 6 c (t.waddr.toNat * 64) t.srcid.toNat field
  if code = 2 then d.setRegBit (rHpErr c) 27 true
  else if code = 6 then d.setRegBit (rHpErr c) 26 true
  else d

/-! ## Unsequenced frames -/

/-- Does an IDLE, LINK or TRAIN frame keep the layout of R56 (R561)? -/
def unseqOk (b : BitVec 64) : Bool :=
  let x := b.toNat
  match bits x 3 0 with
  | 0 => x == 0
  | 0xE => bits x 63 13 == 0
  | _ =>
    let phase := bits x 7 4
    bits x 63 16 == 0xA5C35AA53C96 && (phase == 1 || phase == 2 || phase == 3) && (phase == 3 || bits x 15 8 == 0)

/-- Acknowledge beats up to RACK (R67). -/
def HostPort.acked (h : HostPort) (rack : BitVec 8) : HostPort :=
  let held := h.held.filter fun b => !decide ((rack - b.rseq).toNat < 128)
  ({ h with held := held, lastRack := rack }).drain h.outq.length

/-- A LINK frame (R70): RACK acknowledges; RNAK opens a replay of the beats from RACK + 1, one more round in a row while it asks
for the same beat (R72). -/
def Dev.linkFrame (d : Dev) (c : Nat) (b : BitVec 64) : Dev :=
  let rack := BitVec.ofNat 8 (bits b.toNat 11 4)
  let h := (d.host c).acked rack
  if bit b.toNat 12 then
    let n := if h.replay && h.rnakAt == rack then h.rnaks + 1 else 1
    if 8 < n then d.setHost c { h with rnaks := 9 }
    else (d.setHost c { h with replay := true, rnaks := n, rnakAt := rack, pauseFrom := some (h.pauseFrom.getD d.clock) }).count
      (rHpReplay c) 1
  else d.setHost c (({ h with replay := false, rnaks := 0 }).resume d.clock)

/-- Begin training for a cause (R72, R75, R76). -/
def Dev.beginTraining (d : Dev) (c : Nat) (cause : TrainCause) : Dev :=
  d.updHost c fun h => { h with up := false, training := some cause, attempts := 0, askTrain := false, down := false
                                pauseFrom := some (h.pauseFrom.getD d.clock) }

/-- An IDLE, LINK or TRAIN frame that checks (R56, R561). -/
def Dev.unsequenced (d : Dev) (c : Nat) (b : BitVec 64) : Dev :=
  match bits b.toNat 3 0 with
  | 0xE => d.linkFrame c b
  | 0xF => if bits b.toNat 7 4 = 1 then d.beginTraining c .service else d.badFrame c
  | _ => d

/-! ## Write data -/

/-- Does beat `k` of a write check: META, index and CRC (R60, R65)? -/
def beatOk (seq : BitVec 8) (k : Nat) (b : HostBeat) : Bool :=
  b.info == BitVec.ofNat 16 (seq.toNat + 256 * k) && b.crc == crc16 (toLe 2 b.info.toNat ++ lineBytes b.data)

/-- Are the parts of a sequenced frame there: none while data are missing (R68). -/
def FrameIn.partsOk (f : FrameIn) : Option Bool :=
  let h := frameF f.body
  if !h.isWrite then some true
  else if h.op = 3 ∧ f.maskCrc ≠ crc16 (h.seq.toNat |> toLe 1 |> (· ++ toLe 8 f.mask.toNat)) then some false
  else if !((f.beats.take h.words).zipIdx.all fun p => beatOk h.seq p.2 p.1) then some false
  else if f.beats.length < h.words then none
  else some true

/-! ## Acceptance -/

/-- Accept a frame in SEQ order (R68, R73), and execute it. -/
def Dev.acceptFrame (exec : Dev → Nat → FrameIn → Dev) (d : Dev) (c : Nat) (f : FrameIn) : Dev :=
  let h := d.host c
  let w := (frameF f.body).words
  let d := d.setHost c (({ h with
    expSeq := h.expSeq + 1, unacked := h.unacked + 1
    unackedSince := if h.unacked = 0 then d.clock else h.unackedSince
    rqUsed := h.rqUsed + 1, wdUsed := h.wdUsed + BitVec.ofNat 16 w, rounds := 0 }).resume d.clock)
  exec d c f

/-- A sequenced frame whose CRC checks (R68). -/
def Dev.sequencedFrame (exec : Dev → Nat → FrameIn → Dev) (d : Dev) (c : Nat) (f : FrameIn) : Dev :=
  let h := d.host c
  let x := frameF f.body
  let k := (x.seq - h.expSeq).toNat
  -- a new frame sent without credit is treated as one that failed its CRC; resending consumes none (R73)
  if k < 128 ∧ ((h.rqGiven - h.rqUsed).toNat ≤ k ∨ (h.wdGiven - h.wdUsed).toNat < x.words) then
    (d.setRegBit (rHpErr c) 29 true).badFrame c
  else if k = 0 then
    -- `d == 0 and in_error` clears the error and takes the frame again
    let d := d.setHost c { h with inError := false }
    match f.partsOk with
      | some true => d.acceptFrame exec c f
      | some false => d.badFrame c
      | none => d.setHost c { d.host c with waiting := some f }
  else if 128 ≤ k then
    -- a duplicate: discarded, counted, and a link beat requested
    (d.count (rHpDup c) 1).updHost c fun h => h.linkBeat false
  else d

/-- `on_frame` of R68. -/
def Dev.onFrame (exec : Dev → Nat → FrameIn → Dev) (d : Dev) (c : Nat) (f : FrameIn) : Dev :=
  let h := d.host c
  let x := frameF f.body
  if !h.up then d
  else if f.crc ≠ crc16 (toLe 8 f.body.toNat) then d.badFrame c
  else if !x.sequenced then (if unseqOk f.body then d.unsequenced c f.body else d.badFrame c)
  else if h.waiting.isSome then d.setHost c { h with behind := h.behind ++ [f] }
  else d.sequencedFrame exec c f

/-- A write-data beat for the frame that waits (R68); then the frames behind it. -/
def Dev.onBeat (exec : Dev → Nat → FrameIn → Dev) (d : Dev) (c : Nat) (b : HostBeat) : Dev :=
  let h := d.host c
  match h.waiting with
  | none => d
  | some f =>
    if !h.up then d
    else
      let f := { f with beats := f.beats ++ [b] }
      match f.partsOk with
      | none => d.setHost c { h with waiting := some f }
      | some ok =>
        let d := d.setHost c { h with waiting := none, behind := [] }
        let d := if ok then d.acceptFrame exec c f else d.badFrame c
        h.behind.foldl (fun d g => d.onFrame exec c g) d

/-! ## Checks and memory requests -/

/-- The rules of R58. -/
def badRequest (x : FrameF) : Bool :=
  let a := x.addr
  !(x.op == 1 || x.op == 2 || x.op == 3) || x.top || (x.op == 3 && x.len != 0)
    || (x.len != 0 && decide (2 ^ 36 ≤ a ∧ a < 2 ^ 36 + 2 ^ 24 ∨ 0x1800000000 ≤ a ∧ a < 0x1802000000))
    || a / 256 != (a + 64 * x.len.toNat) / 256

/-- The tag of a frame's answer. -/
def hostTag (c : Nat) (x : FrameF) : HostTag :=
  { ch := Fin.ofNat 32 c, srcid := x.srcid, tag := x.tag, seq := x.seq, op := BitVec.ofNat 4 x.op, len := x.len,
    waddr := x.waddr }

/-- Is the read tag in use (R80)? -/
def Dev.tagBusy (d : Dev) (c : Nat) (x : FrameF) : Bool :=
  x.op == 1 && (d.host c).tags.any fun t => t.1 == x.tag

/-- The checks of R78 on a memory frame; 0 when all pass. -/
def Dev.memStatus (d : Dev) (c : Nat) (x : FrameF) : Nat :=
  let a := x.addr
  let p := d.place a
  let acc : Access := { field := d.hstField c x.srcid.toNat, secure := x.world, host := true }
  let write := x.isWrite
  if (d.chan p.ch).down then 3
  else if p.ch ≠ c ∧ !(d.permafrost && c == 0) then 2
  else if d.tagBusy c x then 8
  else if d.permafrost then (if x.world then 0 else 5)
  else if !d.worldOk acc a write then 5
  else if !d.leaseOk acc a then 4
  else if rbit (d.region a) 20 && d.regionBusy a then 7
  else 0

/-- The data beats a frame brought, as words. -/
def FrameIn.words (f : FrameIn) : List Line := (f.beats.take (frameF f.body).words).map (·.data)

/-- A memory frame that passed its checks enters its channel's ingress (R68, R134, R139, R140). -/
def Dev.memIngress (d : Dev) (c : Nat) (f : FrameIn) : Dev :=
  let x := frameF f.body
  let r : PortReq := { origin := .host (hostTag c x), write := x.isWrite, masked := x.op == 3, addr := BitVec.ofNat 36 x.addr,
                       len := x.len, cls := x.cls, field := d.hstField c x.srcid.toNat, secure := x.world,
                       mask := f.mask, data := f.words, poison := false, since := d.clock, words := [], arr := 0 }
  let (r, d) := d.portReq r
  let d := if x.op = 1 then d.updHost c fun h => { h with tags := h.tags ++ [(x.tag, x.len.toNat + 1)] } else d
  d.updChan (d.place x.addr).ch fun ch => { ch with hostIn := ch.hostIn ++ [r], idleFrom := none }

/-- A frame that is not executed, or has been, leaves the ingress queue: its credits are free (R73). -/
def Dev.freeCredits (d : Dev) (c rq wd : Nat) : Dev :=
  d.updHost c fun h => { h with rqFreed := h.rqFreed + rq, wdFreed := h.wdFreed + wd }

/-- Take the next request of the host ingress of a channel (R137, R138, R149): its ingress entry is free (R73). -/
def Dev.takeHost (d : Dev) (c : Nat) : Dev :=
  let ch := d.chan c
  match ch.hostIn with
  | [] => d
  | r :: rest =>
    if d.regionHeld r.addr.toNat && !r.old then d
    else if r.write && d.writeWaits r then d.writeStalls r
    else
      let d := (d.setChan c { ch with hostIn := rest }).freeCredits (d.creditPort c) 1 0
      if r.write then
        let (d, merged) := d.performWrite r 0
        match r.origin with
        | .host t => if merged then d.hostStatus t 1 r.field else d
        | _ => d
      else if ch.down then d.downReads c r 0
      else d.enqueueReads c r 0

/-- The best ready word of a channel for the host port: class 0 before any other (R143), then the oldest. -/
def nextReady (q : List ReadyWord) : Option (Nat × ReadyWord) :=
  let host := fun (r : ReadyWord) => match r.origin with
    | .host _ => true
    | _ => false
  match findPos (fun r => host r && r.cls == 0) q 0 with
  | some x => some x
  | none => findPos host q 0

/-- A read's word is ready: its data beat is sent (R60, R61, R80, R85). -/
def Dev.readReturn (d : Dev) (c : Nat) : Dev :=
  match nextReady (d.chan c).readyQ with
  | none => d
  | some (i, r) =>
    let d := d.updChan c fun ch => { ch with readyQ := dropAt ch.readyQ i }
    match r.origin with
    | .host t =>
      let info := BitVec.ofNat 16 (t.tag.toNat * 4 + r.index.toNat * 2 ^ 11 + (if r.poison then 2 ^ 13 else 0))
      let hc := t.ch.val
      let d := d.updHost hc fun h => h.send info r.data (r.cls == 0)
      -- CH_LAT_MAX follows the latency of class-0 reads (R170)
      let ns := sat 65535 ((d.clock - r.since) / 2)
      if r.cls = 0 && decide (fld (d.reg (rChLatMax c)) 15 0 < ns) then d.setReg (rChLatMax c) (BitVec.ofNat 32 ns) else d
    | _ => d

/-! ## Training -/

/-- HP_LANE of the four strobe groups from the 68 lanes (R86). -/
def Dev.setLanes (d : Dev) (c : Nat) (ok : BitVec 68) : Dev :=
  (List.range 4).foldl (fun d k =>
    d.setReg (rHpLane c k) (BitVec.ofNat 32 (bits ok.toNat (16 * k + 15) (16 * k) + (if ok.getLsbD (64 + k) then 2 ^ 16 else 0)))) d

/-- A host channel becomes down (R72, R75, R371). -/
def Dev.hostDown (d : Dev) (c : Nat) (service : Bool) : Dev :=
  let d := d.updHost c fun h => ({ h with up := false, training := none, down := true, held := [], outq := [], waiting := none,
                                          behind := [], inError := false, replay := false }).resume d.clock
  let d := d.setRegBit (rHpErr c) 30 true
  if service then d.report 0x0701 3 6 c 0 0 else d

/-- The device's beats after step 4 of a retraining in service (R76): those after RACK are resent under their RSEQ, and the first
new beat is a link beat that carries ACKSEQ, before every beat that waits. -/
def HostPort.resumeBeats (h : HostPort) (rack : BitVec 8) : HostPort :=
  let h := h.grant
  let b : OutBeat := { c0 := false, info := 2, data := linkData (h.expSeq - 1) false h.askTrain false h.rqGiven h.wdGiven 0 }
  ({ h with outq := b :: h.outq, unacked := 0 }).acked rack

/-- Normal operation after a successful attempt: fresh state after initial training, kept state after retraining
(R67, R73, R75, R76). DESIGN CHOICE (log 159): the beats from RACK + 1 are resent first and the link beat follows them. -/
def HostPort.trainedUp (h : HostPort) (cause : TrainCause) (rack : BitVec 8) (clock : Nat) : HostPort :=
  match cause with
  | .start =>
    let h' := { HostPort.init with up := true, slow := h.slow, rqGiven := 128, wdGiven := 512, trained := h.trained
                                   pauses := h.pauses, pauseFrom := h.pauseFrom, tags := h.tags }
    h'.resume clock
  | _ =>
    let h' := { h with up := true, training := none, inError := false, replay := false, rounds := 0, attempts := 0
                       rnaks := 0, waiting := none, behind := [] }
    h'.resumeBeats rack |>.resume clock

/-- One attempt of R75. -/
def Dev.trainAttempt (d : Dev) (c : Nat) (ok : BitVec 68) (completed : Bool) (rack : BitVec 8) : Dev :=
  let h := d.host c
  match h.training with
  | none => d
  | some cause =>
    if d.permafrost ∧ c ≠ 0 then d
    else
      let d := if completed then
          (d.setLanes c ok).updHost c fun h =>
            { h with trained := some (if cause = .start then linkData 0xFF false false true 128 512 (ok.zeroExtend 72)
                                      else linkData (h.expSeq - 1) false false true h.rqGiven h.wdGiven (ok.zeroExtend 72)) }
        else d
      if completed && ok == BitVec.allOnes 68 then d.updHost c fun h => h.trainedUp cause rack d.clock
      else
        let n := h.attempts + 1
        let d := d.updHost c fun h => { h with attempts := n }
        if cause = .linkFail ∨ 3 ≤ n then d.hostDown c true else d

end Sys2Proof.Machine
end

