-- ==== Sys2Proof/Machine/Mirror.lean ====
section
/-! DEFINITION. The twin's side of a mirror stream (R387, R429, R432): its items are applied in order. -/

namespace Sys2Proof.Machine

/-- May the partner's stream touch the region of an address: has its entry the form of a mirror copy, and is the pairing in
force (R429, R432, R446)? -/
def Dev.mirrorCopy (d : Dev) (a : Nat) : Bool :=
  let e := d.region a
  d.twin.paired && decide (a < 2 ^ 36) && !d.regionRefused a && !rbit e 31 && rbit e 18

/-- Does an NBO of the stream touch the row of a word? -/
def mirrorTouches (x : Nbo) (n : Nat) : Bool :=
  let p := wordPlace n
  x.poster.isMirror && x.d.ch == p.ch && x.d.touches.any fun t => t.1 == p.bank && t.2.1 == p.row

/-- Must an item wait for an earlier one: an NBO for writes at the port, a write for an NBO not yet accepted, a twin read
for an NBO not yet finished (R387, R432)? -/
def Dev.mirrorBehind (d : Dev) (p : Packet) : Bool :=
  if p.typ = 4 then
    (d.chan (nboDesc p.data).ch).peerIn.any fun r => match r.origin with
      | .twinRead _ _ => true
      | _ => false
  else
    let n := d.wordOf p.addr
    d.nbos.any fun x => mirrorTouches x n && (p.typ == 1 || !x.accepted)

/-- A request enters the peer port of its channel (R137). -/
def Dev.peerEnter (d : Dev) (r : PortReq) : Dev :=
  let (r, d) := d.portReq r
  d.updChan (d.place r.addr.toNat).ch fun ch => { ch with peerIn := ch.peerIn ++ [r], idleFrom := none }

/-- An item that fails the check of R432. -/
def Dev.mirrorMismatch (d : Dev) (p : Packet) : Dev :=
  ((d.markOutSync (p.addr / 2 ^ 21)).peerReport 0x0907 2 1 (p.orig.toNat % 32) p.addr 0).answerStatus 4 0 p.tag 4

/-- Apply an item of the stream or a twin read (R432): a write or a read goes to the peer port of its channel, an NBO to the
near-bank port. The Bool: it waits there, and its link credit with it (R138, R229). -/
def Dev.mirrorApply (d : Dev) (p : Packet) : Dev × Bool :=
  if p.typ = 4 then
    let n := nboDesc p.data
    let rows := n.touches.map fun t => d.rowAddr n.ch t.1 t.2.1
    if !d.mirrorCopy p.addr || !rows.all d.mirrorCopy then (d.mirrorMismatch p, false)
    else ((d.postNbo p.data p.poison false (.mirror p.tag) { field := none, secure := false, host := false } 1).2, true)
  else if !d.mirrorCopy p.addr then (if p.typ = 1 then d.answerStatus 4 0 p.tag 4 else d.mirrorMismatch p, false)
  else if d.wordDown (d.wordOf p.addr) then (d.answerStatus 4 0 p.tag 3, false)
  else
    (d.peerEnter { origin := .twinRead 4 p.tag, write := p.typ != 1, masked := p.typ == 3, addr := BitVec.ofNat 36 p.addr
                   len := 0, cls := 1, field := none, secure := false, mask := p.arg
                   data := if p.typ = 1 then [] else [p.data], poison := p.poison, since := d.clock, words := [], arr := 0 }, true)

/-- The channel of an item. -/
def Dev.mirrorChannel (d : Dev) (p : Packet) : Nat :=
  if p.typ = 4 then (nboDesc p.data).ch else (d.place p.addr).ch

/-- An item arrives; the Bool: it waits, and its link credit with it. -/
def Dev.mirrorArrive (d : Dev) (p : Packet) : Dev × Bool :=
  let c := d.mirrorChannel p
  if (d.twinHeld.any fun q => d.mirrorChannel q == c) || d.mirrorBehind p then ({ d with twinHeld := d.twinHeld ++ [p] }, true)
  else d.mirrorApply p

/-- The first waiting item of a channel goes on, if nothing earlier is in its way. -/
def Dev.twinNext (d : Dev) (c : Nat) : Dev :=
  match findPos (fun p : Packet => d.mirrorChannel p == c) d.twinHeld 0 with
  | none => d
  | some (i, p) =>
    if d.mirrorBehind p then d
    else
      let (d, waits) := ({ d with twinHeld := dropAt d.twinHeld i } : Dev).mirrorApply p
      if waits then d else d.giveCredit 4 0

end Sys2Proof.Machine
end

