-- ==== Sys2Proof/Machine/ChannelRows.lean ====
section
/-! DEFINITION. Ports of a channel (R137 to R139), promotion (R141), power-down (R153), retraining (R166, R167), channels
that go down (R371) and the interleave granularity (R134). -/

namespace Sys2Proof.Machine

/-! ## Ports -/

/-- Can the drift port accept a request of the fabric now (R137, R138, R148, R149, R454)? -/
def Dev.driftTakes (d : Dev) (c : Nat) (r : PortReq) : Bool :=
  (!d.regionHeld r.addr.toNat || r.old) && ((d.chan c).down || (if r.write then !d.writeWaits r else decide (d.portLoad c 1 < 256)))

/-- A floe's write has been accepted by its channel: it is performed and acknowledged, and counted when it leaves a mark (R149, R366,
R369, R393). To a down channel it is lost, and the floe is frozen (R371). -/
def Dev.driftWrite (d : Dev) (c : Nat) (r : PortReq) : Dev :=
  match r.origin with
  | .floe f e cmd =>
    if (d.chan c).down then d.freezeLogical f.toNat 7
    else
      let (d, merged) := d.performWrite r 1
      let d := if merged then d.report 0x0003 2 3 f.toNat r.addr.toNat 0 r.field else d
      (if merged || r.poison then d.poisonStored f else d).engineAnswer f e cmd r.addr.toNat none
  | _ => (d.performWrite r 1).1

/-- The drift port takes the first request of the fabric that it can: the fabric keeps the order of the requests of each source
(R26, R27, R137, R138, R148). When none can go, recoveries that their masked writes wait for begin (R369). -/
def Dev.takeDrift (d : Dev) (c : Nat) : Dev :=
  if d.permafrost then d
  else
    let q := (d.chan c).driftIn
    let first := fun (r : PortReq) => !q.any fun x => x.origin.same r.origin && decide (x.arr < r.arr)
    match findPos (fun r => first r && d.driftTakes c r) q 0 with
    | none => (q.filter fun r => first r && r.write && !(d.chan c).down).foldl Dev.writeStalls d
    | some (i, r) =>
      let d := d.updChan c fun ch => { ch with driftIn := dropAt ch.driftIn i, idleFrom := none }
      let r := { r with since := d.clock }
      if r.write then d.driftWrite c r
      else if (d.chan c).down then d.downReads c r 1
      else d.enqueueReads c r 1

/-- The link of a peer port's request, whose credit returns when the port has accepted it (R138). -/
def Origin.link : Origin → Option Nat
  | .peer p => some p.link.val
  | .twinRead l _ => some l.val
  | _ => none

/-- The peer port takes its next request (R137, R138, R387, R414, R432): a write is answered when it is performed. Until then the
link's credit for the request is withheld. -/
def Dev.takePeer (d : Dev) (c : Nat) : Dev :=
  let d := d.twinNext c
  let ch := d.chan c
  match ch.peerIn with
  | [] => d
  | r :: rest =>
    if d.regionHeld r.addr.toNat && !r.old then d
    else if r.write && !ch.down && d.writeWaits r then d.writeStalls r
    else if !r.write && !ch.down && decide (64 ≤ d.portLoad c 3) then d
    else
      let d := d.setChan c { ch with peerIn := rest, idleFrom := none }
      let d := match r.origin.link with
        | some l => d.giveCredit l 0
        | none => d
      let r := { r with since := d.clock }
      if r.write then
        if ch.down then match r.origin with
          | .peer p => d.answerStatus p.link.val p.dev p.tag 3
          | .twinRead l t => d.answerStatus l.val 0 t 3
          | _ => d
        else
        let (d, merged) := d.performWrite r 3
        match r.origin with
        | .peer p =>
          let d := if merged then d.report 0x0003 2 7 p.link.val r.addr.toNat 0 r.field else d
          d.answerStatus p.link.val p.dev p.tag (if merged then 1 else 0)
        | .twinRead l t => d.answerStatus l.val 0 t 0
        | _ => d
      else if ch.down then d.downReads c r 3
      else d.enqueueReads c r 3

/-- CHANNEL_REQUEST_ACCEPT (R137): port 0 host, 1 drift, 2 near-bank, 3 peer. -/
def Dev.portAccept (d : Dev) (c port : Nat) : Dev :=
  match port with
  | 0 => d.takeHost c
  | 1 => d.takeDrift c
  | 2 => d.nboTry c 0
  | _ => d.takePeer c

/-! ## Promotion -/

/-- A promotion in a slot (R141). -/
def PortReq.promote (r : PortReq) (t : Nat) : PortReq := { r with cls := 0, promoted := some t }

/-- A request of class 1 to 3 whose age reaches 2,000 ns becomes class 0 (R141): the entry or buffered word of this number, or the
request of this arrival number that waits at the host port; of an atom, the bank is given (R189). -/
def Dev.promote (d : Dev) (c : Nat) (bank : Option Nat) (id : Nat) : Dev :=
  let ch := d.chan c
  match bank with
  | some b =>
    match d.nextAtom c b with
    | none => d
    | some (x, k, _) =>
      match x.unit b with
      | none => d
      | some u =>
        let since := u.since x.d k
        if u.promo.any fun p => p.1 == since then d
        else
          let d := d.advanceTo (since + 4000)
          (d.updUnit x.id b fun u => { u with promo := some (since, d.clock) }).count (rChPromote c) 1
  | none =>
    match findPos (fun r : SchedReq => r.id == id && r.cls != 0 && r.port != 4) ch.reqs 0 with
    | some (i, r) =>
      let d := d.advanceTo (r.since + 4000)
      (d.updChan c fun ch => { ch with reqs := putAt ch.reqs i { r with cls := 0, promoted := some d.clock } }).count (rChPromote c) 1
    | none =>
      match findPos (fun w : BufWord => w.id == id && w.cls != 0) ch.wbuf 0 with
      | some (i, w) =>
        let d := d.advanceTo (w.since + 4000)
        (d.updChan c fun ch => { ch with wbuf := putAt ch.wbuf i { w with cls := 0, promoted := some d.clock } }).count (rChPromote c) 1
      | none =>
        match findPos (fun r : PortReq => r.arr == id && r.cls != 0) ch.hostIn 0 with
        | some (i, r) =>
          let d := d.advanceTo (r.since + 4000)
          (d.updChan c fun ch => { ch with hostIn := putAt ch.hostIn i (r.promote d.clock) }).count (rChPromote c) 1
        | none => d

/-! ## Power-down -/

/-- A die-slice enters power-down after tPD of idleness (R153). -/
def Dev.powerDownIn (d : Dev) (c : Nat) : Dev :=
  let ch := d.chan c
  if !ch.ready || ch.down || ch.selfRef || ch.powerDown || !rbit (d.reg (rChCtrl c)) 0 || !d.channelIdle c then d
  else (d.advanceTo (ch.idleFrom.getD d.clock + 400)).updChan c fun ch => { ch with powerDown := true }

/-- A request, a due refresh or a training step wakes it; the first command follows tXP later (R153). -/
def Dev.powerDownOut (d : Dev) (c : Nat) : Dev :=
  let ch := d.chan c
  if !ch.powerDown then d
  else if d.channelIdle c && !decide (1 ≤ ch.owed) && !ch.visitDue then d
  else d.setChan c { ch with powerDown := false, wakeAt := d.clock + 24, idleFrom := none }

/-! ## Retraining -/

/-- A full retrain is called for (R167): it is counted and reported. -/
def Dev.callRetrain (d : Dev) (c : Nat) : Dev :=
  let ch := d.chan c
  if !ch.ready || ch.down || ch.selfRef || ch.retrain then d
  else
    let ch := ch.stall d.clock
    ((d.setChan c { ch with retrain := true, training := true, retrainFails := 0 }).count (rChRetrain c) 1).report 0x0600 1 1 c 0 0

/-- A setting moves toward the measured centre by at most 2 steps (R166). -/
def moveTo (cur centre : Nat) : Nat := if cur < centre then min centre (cur + 2) else max centre (cur - 2)

/-- A window of 16 steps or more passes (R163). -/
def lanePasses (m : LaneMeas) : Bool := decide (16 ≤ m.eye.toNat)

/-- PERIODIC_RETRAIN (R166, R167): the visit falls due, every 50 ms; once its shared refresh has begun, the pause measures the 39
lanes and groups. -/
def Dev.retrainVisit (d : Dev) (c : Nat) (ls : List LaneMeas) : Dev :=
  let ch := d.chan c
  if !ch.ready || ch.down || ch.selfRef || ls.length ≠ 39 then d
  else match ch.pauseUntil with
    | none => (d.advanceTo ch.nextVisit).setChan c { ch with visitDue := true, nextVisit := ch.nextVisit + 100000000 }
    | some t =>
      let d := (d.advanceTo t).setChan c { ch with pauseUntil := none }
      let ms := ls.zipIdx
      let far := ms.any fun p =>
        let cur := fld (d.reg (rChTsvLane c p.2)) 21 16
        decide (cur + 8 < p.1.centre.toNat) || decide (p.1.centre.toNat + 8 < cur) || !lanePasses p.1
      let d := ms.foldl (fun d p =>
        let o := rChTsvLane c p.2
        (d.setRegFld o 21 16 (moveTo (fld (d.reg o) 21 16) p.1.centre.toNat)).setRegFld o 13 8 p.1.eye.toNat) d
      if far then d.callRetrain c else d

/-- A DRAM channel becomes down in service (R371). The entries of the instant are written in ascending CODE order (R373). -/
def Dev.channelDown (d : Dev) (c : Nat) : Dev := d.inCodeOrder fun d =>
  let ch := d.chan c
  let lostWords := ((ch.hostIn ++ ch.peerIn).filter (·.write)).map (·.data.length)
  let lost := lostWords.foldl (· + ·) ch.wbuf.length
  let d := if lost = 0 then d else d.report 0x000D 3 1 c 0 lost
  -- host credits of the writes that are discarded
  let hw := (ch.wbuf.map (·.hostWords)).foldl (· + ·) 0 + ((ch.hostIn.filter (·.write)).map (·.data.length)).foldl (· + ·) 0
  let d := d.updHost (d.creditPort c) fun h =>
    { h with wdFreed := h.wdFreed + hw, rqFreed := h.rqFreed + (ch.hostIn.filter (·.write)).length }
  let d := d.setChan c
    { ch with down := true, ready := false, training := false, retrain := false, wbuf := [], reqs := [], recovery := []
              hostIn := ch.hostIn.filter fun r => !r.write
              banks := [], refUntil := none, refAsked := none, forced := false, pauseUntil := none, visitDue := false
              powerDown := false, stallFrom := none }
  -- NBOs in its slots finish with POISON and write nothing more
  let ns := d.nbos.filter fun x => x.accepted && x.d.ch == c
  let kept := (d.near.map fun e => if e.1 / 64 = c then (e.1, { BankNear.init with lastRow := e.2.lastRow }) else e).filter
    fun e => e.2 != BankNear.init
  let d : Dev := { d with near := kept }
  let d := ns.foldl (fun d x => d.nboFinish { x with poison := true }) d
  -- the floes and the COPY and FILL commands whose writes are lost
  let srcs := ch.wbuf.flatMap (·.srcs)
  let d := srcs.foldl (fun d o => match o with
    | .floe f _ _ => d.freezeLogical f.toNat 7
    | .ring n i => { d with cmds := d.cmds.map fun x =>
        if x.ring = n ∧ x.idx = i ∧ (bits x.packet.toNat 39 32 = 3 ∨ bits x.packet.toNat 39 32 = 4) then { x with count := x.count + 1 }
        else x }
    | _ => d) d
  -- reads: the twin's copy for a mirrored region, poison otherwise
  let rs := ch.reqs ++ ch.recovery.flatMap (·.waiting)
  let d := (rs.filter fun r => r.port != 4).foldl (fun d r =>
    if d.mirrored r.word then d.recover r.word (some r)
    else ({ d with freeUses := d.freeUses + 1 } : Dev).deliver c r (Config.freeLine d.freeUses) true) d
  d.report 0x0601 3 1 c 0 0

/-- One attempt of a full retrain, of 39 lanes and groups, between refreshes and with no atom running (R163, R164, R167, R214): a
window narrower than 16 steps fails it. -/
def Dev.retrainAttempt (d : Dev) (c : Nat) (ok : Bool) (ls : List LaneMeas) : Dev :=
  let ch := d.chan c
  if !ch.retrain || ls.length ≠ 39 || ch.refUntil.isSome || d.atomRuns c then d
  else if ok && ls.all lanePasses then
    let d := (ls.zipIdx).foldl (fun d p =>
      d.setReg (rChTsvLane c p.2)
        (BitVec.ofNat 32 (p.1.centre.toNat * 2 ^ 24 + p.1.centre.toNat * 2 ^ 16 + p.1.eye.toNat * 2 ^ 8))) d
    (d.setChan c { ch with retrain := false, training := false, retrainFails := 0 }).chainResume c
  else if 2 ≤ ch.retrainFails then d.channelDown c
  else d.setChan c { ch with retrainFails := ch.retrainFails + 1 }

/-! ## Granularity -/

/-- A VENDOR-level TAP write of INTLV_LOG2 while INTLV is 1 (R134, R170): the nearer limit is stored, in every channel. -/
def Dev.setIntlv (d : Dev) (g : Nat) : Dev :=
  if rbit (d.reg (rChCfg 0)) 31 then forNat 32 d fun d c => d.setRegFld (rChCfg c) 20 16 (clampNat 8 21 g) else d

end Sys2Proof.Machine
end

