-- ==== Sys2Proof/Machine/Sync.lean ====
section
/-! DEFINITION. Synchronisation: flags, counters, semaphores (R337 to R342), waits and signals (R241 to R243, R248), the
inbox (R119 to R123), the sync slot (R299 to R301), commit marks (R353, R354), the watchdog (R345), retirement (R251)
and the end of a halt (R262, R263). -/

namespace Sys2Proof.Machine

/-! ## Objects -/

def Logical.counter (l : Logical) (i : Nat) : BitVec 32 := tabGet (fun _ => 0) l.counters i
def Logical.limit (l : Logical) (i : Nat) : BitVec 32 := tabGet (fun _ => 0) l.limits i
def Logical.setCounter (l : Logical) (i : Nat) (v : BitVec 32) : Logical :=
  { l with counters := tabSet (fun _ => 0) l.counters i v }
def Logical.setLimit (l : Logical) (i : Nat) (v : BitVec 32) : Logical :=
  { l with limits := tabSet (fun _ => 0) l.limits i v }
def Logical.setFlag (l : Logical) (i : Nat) (b : Bool) : Logical :=
  { l with flags := if b then l.flags ||| BitVec.ofNat 64 (2 ^ i) else l.flags &&& ~~~(BitVec.ofNat 64 (2 ^ i)) }

/-- A signal operation (R242). -/
def Logical.signal (l : Logical) (counter : Bool) (i op : Nat) : Logical :=
  if counter then
    match op with
    | 1 => l.setCounter i (l.counter i + 1)
    | 2 => l.setCounter i (l.counter i - 1)
    | 3 => l.setCounter i 0
    | _ => l
  else
    match op with
    | 1 => l.setFlag i true
    | 2 => l.setFlag i false
    | 3 => l.setFlag i (!l.flags.getLsbD i)
    | _ => l

/-- A wait condition (R241): none while it does not hold, else the objects after its consuming update. -/
def Logical.test (l : Logical) (counter : Bool) (i cond : Nat) : Option Logical :=
  if counter then
    let t := l.counter i
    let tl := l.limit i
    match cond with
    | 1 => if t != 0 then some l else none
    | 2 => if t == 0 then some l else none
    | 3 => if t != 0 then some (l.setCounter i (t - 1)) else none
    | 4 => if tl ≤ t then some l else none
    | 5 => if t < tl then some l else none
    | 6 => if tl ≤ t then some (l.setCounter i (t - tl)) else none
    | _ => some l
  else
    let f := l.flags.getLsbD i
    match cond with
    | 1 => if f then some l else none
    | 2 => if f then none else some l
    | 3 => if f then some (l.setFlag i false) else none
    | _ => some l

/-- Is the condition a consuming one (R341)? -/
def consuming (cond : Nat) : Bool := cond == 3 || cond == 6

def Dev.sem (d : Dev) (s : Nat) : BitVec 64 := tabGet (fun _ => 0) d.sems s
def Dev.setSem (d : Dev) (s : Nat) (v : BitVec 64) : Dev := { d with sems := tabSet (fun _ => 0) d.sems s v }
def Dev.semPoisoned (d : Dev) (s : Nat) : Bool := tabGet (fun _ => false) d.semPoison s

/-- Does a field own a semaphore (R339, R460)? -/
def Dev.semOwned (d : Dev) (field : Option (BitVec 4)) (s : Nat) : Bool :=
  let b := fld (d.reg (rSemOwn (s / 4))) (8 * (s % 4) + 7) (8 * (s % 4))
  b.testBit 7 && field == some (BitVec.ofNat 4 b)

/-! ## Messages -/

def Msg.sender (m : Msg) : Nat := fieldAt m.bytes.toNat 0 2
def Msg.kind (m : Msg) : Nat := fieldAt m.bytes.toNat 6 1

/-- The 32 bytes of a message (R119). -/
def msgBytes (sender sepoch mseq kind payload : Nat) : BitVec 256 :=
  BitVec.ofNat 256 (sender % 2 ^ 16 + sepoch % 2 ^ 16 * 2 ^ 16 + mseq % 2 ^ 16 * 2 ^ 32 + kind * 2 ^ 48 + payload * 2 ^ 64)

/-- End the MSG command that posted a message (R122, R123). -/
def Dev.endMsg (d : Dev) (m : Msg) (status : Nat) : Dev :=
  match m.cmd with
  | none => d
  | some (r, i) =>
    { d with cmds := d.cmds.map fun c => if c.ring == r && c.idx == i && c.done.isNone then
        { c with done := some { status := BitVec.ofNat 8 status, r0 := 0, r1 := 0 } } else c }

/-- Return a floe sender's allowance (R120, R123). -/
def Dev.returnAllowance (d : Dev) (m : Msg) : Dev :=
  if m.kind = 0 ∧ m.sender < 128 then d.updLogi m.sender fun l => { l with allowance := l.allowance - 1 } else d

/-- Discard a message of receiver `f` (R123): a ring sender's MSG ends, a floe sender receives a status. R119 gives a status its
payload only: SENDER is the receiver, SEPOCH its epoch, MSEQ 0 (log 149). A status that finds all 64 reserved slots taken waits
behind them for one: none is dropped (R121; log 150). -/
def Dev.discardMsg (d : Dev) (f : Nat) (m : Msg) : Dev :=
  if m.kind = 1 then d
  else
    let d := (d.endMsg m 0x0C).returnAllowance m
    if m.sender < 128 then
      let pl := fieldAt m.bytes.toNat 4 2 + f * 2 ^ 16 + fieldAt m.bytes.toNat 2 2 * 2 ^ 32
      let s : Msg := { bytes := msgBytes f (d.logi f).epoch.toNat 0 1 pl, cmd := none }
      d.updLogi m.sender fun l => { l with statuses := l.statuses ++ [s] }
    else d

/-- Is a logical floe frozen, or held by no slot (R123, R340)? -/
def Dev.frozenFloe (d : Dev) (f : Nat) : Bool :=
  match d.slotOf f with
  | none => true
  | some n => (d.floe n).st == .frozen

/-- A data message reaches an inbox that has room (R120, R123). -/
def Dev.deliverMsg (d : Dev) (f : Nat) (m : Msg) : Dev :=
  if d.frozenFloe f then d.discardMsg f m else d.updLogi f fun l => { l with data := l.data ++ [m] }

/-- Are two floes of one field (R121, R300)? -/
def Dev.sameField (d : Dev) (a b : Nat) : Bool :=
  let x := (d.floeAccess a).field
  x.isSome && x == (d.floeAccess b).field

/-! ## Bundles -/

def Floe.bundle (f : Floe) (k : Nat) : Option BundleRec := f.bundles.find? fun b => b.number == k
def Floe.updBundle (f : Floe) (k : Nat) (g : BundleRec → BundleRec) : Floe :=
  { f with bundles := f.bundles.map fun b => if b.number == k then g b else b }

/-- Header fields (R239). -/
def hdrGuard (h : BitVec 32) : Nat := fld h 3 0
def hdrWaitCond (h : BitVec 32) : Nat := fld h 6 4
def hdrWaitIndex (h : BitVec 32) : Nat := fld h 12 7
def hdrWaitCounter (h : BitVec 32) : Bool := rbit h 13
def hdrSigOp (h : BitVec 32) : Nat := fld h 16 14
def hdrSigIndex (h : BitVec 32) : Nat := fld h 22 17
def hdrSigCounter (h : BitVec 32) : Bool := rbit h 23
def hdrMask (h : BitVec 32) : Nat := fld h 29 24

/-- Release the oldest wait-list entry of a slot (R248). -/
def Dev.releaseOldest (d : Dev) (n : Nat) (l : Logical) : Dev :=
  match (d.floe n).waitList with
  | [] => d
  | w :: rest => (d.setLogi (d.logicalOf n) l).updFloe n fun f =>
      ({ f with waitList := rest } : Floe).updBundle w.number fun b => { b with released := true }

/-- Is the floe in service: dispatching, finishing or draining (R236)? -/
def Floe.active (f : Floe) : Bool := f.st == .running || f.st == .ending || f.st == .halting

/-- Wait-list entries are released while the floe is in service, and not after a halt during execution (R263). -/
def Floe.waits (f : Floe) : Bool := f.st == .running || f.st == .ending || (f.st == .halting && f.haltAtDispatch)

/-- The wait unit tests the oldest entry only (R248). -/
def Dev.waitRelease (d : Dev) (n : Nat) : Dev :=
  let f := d.floe n
  match f.waits, f.waitList with
  | true, w :: _ =>
    match (d.logi (d.logicalOf n)).test (hdrWaitCounter w.header) (hdrWaitIndex w.header) (hdrWaitCond w.header) with
    | some l => d.releaseOldest n l
    | none => d
  | _, _ => d

/-- Is the signal of a bundle due (R243)? -/
def BundleRec.due (b : BundleRec) : Bool :=
  !b.signalled && !b.skipped && b.released && (hdrMask b.header &&& b.open_.toNat) == 0

/-- The signal of a bundle is applied once (R243). -/
def Dev.headerSignal (d : Dev) (n k : Nat) : Dev :=
  match (d.floe n).bundle k with
  | none => d
  | some b =>
    if !b.due || !(d.floe n).active then d
    else
      (d.updLogi (d.logicalOf n) fun l => l.signal (hdrSigCounter b.header) (hdrSigIndex b.header) (hdrSigOp b.header)).updFloe n
        fun f => f.updBundle k fun b => { b with signalled := true }

/-- Bundles retire in program order; after END the floe becomes IDLE when all have (R246, R251). -/
def Dev.bundleRetire (d : Dev) (n : Nat) : Dev :=
  let f := d.floe n
  let d := match f.bundles with
    | b :: rest =>
      if f.active && b.released && b.open_ == 0 && (b.signalled || b.skipped) then
        (d.setFloe n { f with bundles := rest }).count (rFloeBundles n) 1
      else d
    | [] => d
  let f := d.floe n
  if f.st = .ending ∧ f.bundles = [] then
    (d.setFloe n { f with st := .idle }).leaveLaunch n none false
  else d

/-- A HALTING floe enters HALTED when it has drained (R262, R263): after a halt during execution every issued command has completed
or, at fault, has no write or NBO outstanding, and every signal that is due has been applied. -/
def Dev.floeHalted (d : Dev) (n : Nat) : Dev :=
  let f := d.floe n
  match f.st, f.halt with
  | .halting, some (code, pc, slot) =>
    let drained := if f.haltAtDispatch then f.bundles.isEmpty
      else (f.engines.all fun es => es.all fun c => c.faulted && c.nbos.isEmpty && c.tags.isEmpty && c.words.isEmpty)
        && !f.bundles.any (·.due)
    if drained then
      (d.setFloe n { f with st := .halted, engines := List.replicate 6 [] }).leaveLaunch n (some (code, haltAddr pc slot.val)) false
    else d
  | _, _ => d

/-! ## The sync slot -/

/-- What an issued sync command does now. -/
inductive SyncOut where
  | done (d : Dev)
  /-- It waits: a synchronisation wait of this kind (R301). -/
  | wait (kind : Nat) (d : Dev)
  | fault (code : Nat) (d : Dev)
  /-- The floe was frozen (R368). -/
  | gone (d : Dev)

def Floe.engine (f : Floe) (e : Nat) : List ECmd := (f.engines[e]?).getD []
def Floe.setEngine (f : Floe) (e : Nat) (es : List ECmd) : Floe := { f with engines := setAt 6 [] f.engines e es }
def Dev.updCmd (d : Dev) (n e k : Nat) (g : ECmd → ECmd) : Dev :=
  d.updFloe n fun f => f.setEngine e ((f.engine e).map fun c => if c.number == k then g c else c)

/-- The command of an engine to be performed: issued, not performed and not faulted. -/
def Floe.current (f : Floe) (e : Nat) : Option ECmd := (f.engine e).find? fun c => c.issued && !c.performed && !c.faulted

/-- Counter X of a command (R272). -/
def ECmd.nx (c : ECmd) (x : Nat) : BitVec 48 := (c.nregs[x]?).getD 0

/-- Opcode of a sync slot word (R299). -/
def syncOp (w : BitVec 48) : Nat := bits w.toNat 23 19

/-- The semaphore a word names. -/
def syncSem (w : BitVec 48) : Nat := bits w.toNat 18 7

/-- An operation on a semaphore: ownership (R300), poison (R368). -/
def Dev.semGuard (d : Dev) (n s : Nat) (go : Dev → SyncOut) : SyncOut :=
  if !d.semOwned (d.floeField n) s then .fault 5 d
  else if d.semPoisoned s then .gone (d.freezeFloe n 6)
  else go d

/-- SEMTAKE: enter the queue; only its head is tested (R342). -/
def Dev.semTake (d : Dev) (n s : Nat) (c : ECmd) : SyncOut :=
  let me := (BitVec.ofNat 7 (d.logicalOf n), c.number)
  let q := tabGet (fun _ => []) d.semQ s
  let q := if q.contains me then q else q ++ [me]
  let v := d.sem s
  let need := (c.nx (bits c.word.toNat 6 4)).zeroExtend 64
  if q.head? = some me ∧ need ≤ v then
    .done ({ d with semQ := tabSet (fun _ => []) d.semQ s q.tail }.setSem s (v - need))
  else .wait 4 { d with semQ := tabSet (fun _ => []) d.semQ s q }

/-- SEND (R119 to R123, R300). -/
def Dev.syncSend (d : Dev) (n : Nat) (c : ECmd) : SyncOut :=
  let me := d.logicalOf n
  let f := bits c.word.toNat 18 12
  let h := bits c.word.toNat 11 11
  let l := d.logi me
  if !d.sameField me f then .fault 5 d
  else if 64 ≤ l.allowance || (!d.frozenFloe f && decide (64 ≤ (d.logi f).data.length)) then .wait 6 d
  else
    let pl := (List.range 4).foldr (fun k x => (c.nx (4 * h + k)).toNat + 2 ^ 48 * x) 0
    let m : Msg := { bytes := msgBytes me l.epoch.toNat l.sent.toNat 0 pl, cmd := none }
    let d := d.setLogi me { l with sent := l.sent + 1, allowance := l.allowance + 1 }
    .done (d.deliverMsg f m)

/-- RECV: the oldest message, statuses first (R120, R300). -/
def Dev.syncRecv (d : Dev) (n : Nat) (c : ECmd) : SyncOut :=
  let me := d.logicalOf n
  let l := d.logi me
  let m := bits c.word.toNat 18 16
  let put := fun (l : Logical) (x : Msg) => forNat 8 l fun l j =>
    l.setCounter (8 * m + j) (BitVec.ofNat 32 (fieldAt x.bytes.toNat (4 * j) 4))
  match l.statuses, l.data with
  | x :: rest, _ => .done (d.setLogi me (put { l with statuses := rest } x))
  | [], x :: rest => .done (((d.setLogi me (put { l with data := rest } x)).endMsg x 0).returnAllowance x)
  | [], [] => .wait 5 d

/-- Have the store-engine commands of every bundle up to `k` completed (R353)? -/
def Floe.storesDoneTo (f : Floe) (k : Nat) : Bool := (f.engine 4).all fun c => decide (k < c.bundle)

/-- The commit mark of R354. -/
def Dev.writeMark (d : Dev) (n : Nat) (c : ECmd) : Dev :=
  let me := d.logicalOf n
  let l := d.logi me
  let seq : BitVec 32 := match l.mark with
    | some m => m.seq + 1
    | none => 1
  (d.setLogi me { l with mark := some { seq := seq, epoch := l.epoch, resume := c.next, n := c.nafter, time := d.time } }).updFloe n
    fun f => { f with storesDone := 0 }

/-- Perform an issued sync command (R300). COMMIT only begins its wait here. -/
def Dev.syncExec (d : Dev) (n : Nat) (c : ECmd) : SyncOut :=
  let w := c.word.toNat
  let me := d.logicalOf n
  match syncOp c.word with
  | 0x01 =>
    let f := bits w 18 12
    if !d.sameField me f then .fault 5 d
    else .done (d.updLogi f fun l => l.signal (w.testBit 11) (bits w 10 5) (bits w 4 2))
  | 0x02 => .done (d.updLogi me fun l => l.setLimit (bits w 18 13) ((c.nx (bits w 12 10)).truncate 32))
  | 0x03 => .done (d.updLogi me fun l =>
      l.setCounter (bits w 18 13) (l.counter (bits w 18 13) + (c.nx (bits w 12 10)).truncate 32))
  | 0x04 => d.semGuard n (syncSem c.word) fun d =>
      .done (d.setSem (syncSem c.word) (d.sem (syncSem c.word) + (c.nx (bits w 6 4)).zeroExtend 64))
  | 0x05 => d.semGuard n (syncSem c.word) fun d => .done (d.setSem (syncSem c.word) (d.sem (syncSem c.word) + 1))
  | 0x06 => d.semGuard n (syncSem c.word) fun d => .done (d.setSem (syncSem c.word) ((c.nx (bits w 6 4)).zeroExtend 64))
  | 0x07 => d.semGuard n (syncSem c.word) fun d =>
      if (c.nx (bits w 6 4)).zeroExtend 64 ≤ d.sem (syncSem c.word) then .done d else .wait 4 d
  | 0x08 => d.semGuard n (syncSem c.word) fun d => d.semTake n (syncSem c.word) c
  | 0x09 => d.syncSend n c
  | 0x0A => d.syncRecv n c
  | _ => .wait 8 (d.updCmd n 5 c.number fun x => { x with sent := true })

/-- Watchdog period of a slot (R345). -/
def Dev.wdog (d : Dev) (n : Nat) : Nat := fld (d.reg (rSyncWdog n)) 15 0

/-- Mark a command as waiting from now, if it does not wait already (R252, R301). -/
def Dev.noteWait (d : Dev) (n e k kind : Nat) : Dev :=
  let p := d.wdog n
  let t := d.clock
  d.updCmd n e k fun c => if c.waiting.isSome then c else { c with waiting := some (kind, t, p) }

/-- The current sync command of a slot, if it is of opcode `op`, is performed, waits or faults. COMMIT's wait is no
synchronisation wait (R345). -/
def Dev.syncRow (d : Dev) (n op : Nat) : Dev :=
  match (d.floe n).current 5 with
  | none => d
  | some c =>
    if !(d.floe n).active || syncOp c.word != op then d
    else match d.syncExec n c with
      | .done d => d.updCmd n 5 c.number fun x => { x with performed := true, waiting := none }
      | .wait k d => if k = 8 then d else d.noteWait n 5 c.number k
      | .fault code d => d.faultCmd n 5 c code
      | .gone d => d

/-- COMMIT completes: the mark is written as one update (R353, R354). A COMMIT whose floe halts during execution ends and
writes no mark (R263, R353). -/
def Dev.commitMark (d : Dev) (n : Nat) : Dev :=
  let f := d.floe n
  match f.current 5 with
  | none => d
  | some c =>
    if syncOp c.word != 0x0B || !f.active then d
    else if f.st = .halting ∧ !f.haltAtDispatch then d.updCmd n 5 c.number fun x => { x with performed := true }
    else if c.sent ∧ f.storesDoneTo c.bundle then
      (d.writeMark n c).updCmd n 5 c.number fun x => { x with performed := true }
    else d

/-! ## Parts of a hub cycle -/

/-- The drift whose hub holds the object of an issued sync command (R338); COMMIT and messages have none here. -/
def Dev.syncHub (d : Dev) (n : Nat) (c : ECmd) : Option Nat :=
  match syncOp c.word with
  | 0x01 => some (bits c.word.toNat 18 12 / 4)
  | 0x02 => some (d.logicalOf n / 4)
  | 0x03 => some (d.logicalOf n / 4)
  | 0x09 => none
  | 0x0A => none
  | 0x0B => none
  | _ => some (syncSem c.word / 128)

/-- The slots that hold a logical floe, in ascending logical order (R341). -/
def Dev.slotsByFloe (d : Dev) : List Nat := (List.range 128).filterMap d.slotOf

/-- Perform the current sync command of a slot when its object lies in the hub and its opcode is among `ops`. -/
def Dev.hubOps (d : Dev) (drift : Nat) (ops : List Nat) (n : Nat) : Dev :=
  match (d.floe n).current 5 with
  | none => d
  | some c => if ops.contains (syncOp c.word) && d.syncHub n c == some drift then d.syncRow n (syncOp c.word) else d

/-- Test the oldest wait-list entry of a slot when it is of the kind. -/
def Dev.hubWait (d : Dev) (drift : Nat) (cons : Bool) (n : Nat) : Dev :=
  match (d.floe n).waitList with
  | [] => d
  | w :: _ => if d.logicalOf n / 4 == drift && consuming (hdrWaitCond w.header) == cons then d.waitRelease n else d

/-! ## The watchdog -/

/-- The synchronisation waits of a slot: since, period, bundle address, slot code (R252, R301). A wait-list entry that a halt keeps
unreleased (R263) no longer waits, and a command that has faulted does not either. -/
def Floe.syncWaits (f : Floe) : List (Nat × Nat × DevAddr × Nat) :=
  (if f.waits then f.waitList.map fun w => (w.since, w.period, w.pc, 6) else []) ++
  ((f.engines.zipIdx).flatMap fun e => (e.1.filter fun c => !c.faulted).filterMap fun c =>
    c.waiting.map fun w => (w.2.1, w.2.2, c.pc, e.2))

/-- The oldest wait. -/
def Floe.oldestWait (f : Floe) : Option (Nat × Nat × DevAddr × Nat) :=
  f.syncWaits.foldl (fun o w => match o with
    | none => some w
    | some x => if w.1 < x.1 then some w else some x) none

/-- The oldest wait outlasts its period: halt 0x06 of the command that holds it (R252, R345); issued commands of other engines run
on (R263). -/
def Dev.watchdog (d : Dev) (n : Nat) : Dev :=
  let f := d.floe n
  if !f.active then d
  else match f.oldestWait with
    | none => d
    | some (t, p, pc, s) => if p = 0 then d else
      let d := d.advanceTo (t + 2000 * p)
      let d := d.updFloe n fun f => { f with engines := (f.engines.zipIdx).map fun es => es.1.map fun c =>
        if es.2 = s ∧ c.waiting.isSome then { c with faulted := true } else c }
      let lf := BitVec.ofNat 7 (d.logicalOf n)
      let d : Dev := if s = 5 then
        { d with semQ := (d.semQ.map fun e => (e.1, e.2.filter fun x => x.1 != lf)).filter fun e => !e.2.isEmpty } else d
      d.haltFloe n 6 pc s false

end Sys2Proof.Machine
end

