-- ==== Sys2Proof/Machine/Front.lean ====
section
/-! DEFINITION. The front end of a floe: the bundle and its checks (R238 to R240, R260, R270, R273), the scalar slot
(R244, R245, R277 to R279), the instruction cache (R253 to R255) and dispatch (R247). -/

namespace Sys2Proof.Machine

/-! ## Encoding checks: 0 legal, else the halt code; reserved or unlisted values (0x01) before reserved bits (0x02) -/

/-- Header rules (R239). -/
def headerLegal (h : BitVec 32) : Nat :=
  let cond := hdrWaitCond h
  if cond = 7 ∨ (!hdrWaitCounter h ∧ 4 ≤ cond) ∨ 4 ≤ hdrSigOp h then 1
  else if fld h 31 30 ≠ 0 ∨ (cond = 0 ∧ fld h 13 7 ≠ 0)
      ∨ (hdrSigOp h = 0 ∧ (fld h 23 17 ≠ 0 ∨ hdrMask h ≠ 0)) then 2
  else 0

/-- Bits of a scalar word that its opcode uses, beside OP (R277, R278). -/
def scalarUses (w : Nat) : Option Nat :=
  let a := 0x3800000
  let b := 0x700000
  let imm := 0xFFFF
  match bits w 31 26 with
  | 0x01 => some (a + imm)
  | 0x02 => some (a + 0x30000 + imm)
  | 0x03 => some (a + b)
  | 0x04 => some (a + imm)
  | 0x05 => some (a + b)
  | 0x06 => some (a + b)
  | 0x07 => some (a + 0x3F)
  | 0x08 => some (a + 0x3F)
  | 0x09 => some (a + imm)
  | 0x10 => some (a + 0xC0000 + 0x20000 + if w.testBit 17 then b else imm)
  | 0x11 => some 0xC0000
  | 0x18 => some 0x3FFFFFF
  | 0x19 => some 0
  | 0x1A => some 0
  | 0x20 => some (0x3E00000 + 0x3FFFF)
  | 0x21 => some 0x3E00000
  | 0x28 => some (a + 0x3FFFF)
  | 0x29 => some (a + b)
  | 0x2A => some a
  | _ => none

/-- Legality of a word by the bits its opcode uses. -/
def usesLegal (w low : Nat) (uses : Option Nat) : Nat :=
  match uses with
  | none => 1
  | some u => if w % 2 ^ low &&& u = w % 2 ^ low then 0 else 2

def scalarLegal (w : Nat) : Nat :=
  if bits w 31 26 = 0 then 2
  else if bits w 31 26 = 2 ∧ bits w 17 16 = 3 then 1
  else usesLegal w 26 (scalarUses w)

/-- The load slot (R294, R295, R317). -/
def loadLegal (w : Nat) : Nat :=
  let ne := w.testBit 20
  let ni := if ne then 0xE00000 else 0
  let op := bits w 47 43
  if op = 0 then 2
  else if (op = 1 ∨ op = 2 ∨ op = 3) ∧ 3 ≤ bits w 19 16 then 1
  else usesLegal w 43 (match op with
    | 1 => some (0x1F00000000 + 0xFF000000 + ni + 0x1FFFFF)
    | 2 => some (0x7FF00000000 + 0xFF000000 + 0xF0000)
    | 3 => some (0xFF000000 + ni + 0x100000 + 0xF0000 + 0x7FFF)
    | 4 => some (0x1F00000000 + 0x7FFF)
    | _ => none)

/-- The store slot (R296, R297). -/
def storeLegal (w : Nat) : Nat :=
  let op := bits w 31 27
  if op = 0 then 2
  else usesLegal w 27 (match op with
    | 1 => some (0x7FFE000 + (if w.testBit 9 then 0x1C00 else 0) + 0x200 + 0x1FF)
    | 2 => some (0x7FFE000 + 0x1F80 + 0x40 + (if w.testBit 6 then 0x20 else 0))
    | 3 => some (0x7E00000 + 0x1FFFC0)
    | 4 => some (0x7E00000 + 0x1FFFC0)
    | _ => none)

/-- The sync slot (R299). -/
def syncLegal (w : Nat) : Nat :=
  let op := bits w 23 19
  if op = 0 then 2
  else if op = 1 ∧ (bits w 4 2 = 0 ∨ 3 < bits w 4 2) then 1
  else usesLegal w 19 (match op with
    | 0x01 => some 0x7FFFC
    | 0x02 => some 0x7FC00
    | 0x03 => some 0x7FC00
    | 0x04 => some 0x7FFF0
    | 0x05 => some 0x7FF80
    | 0x06 => some 0x7FFF0
    | 0x07 => some 0x7FFF0
    | 0x08 => some 0x7FFF0
    | 0x09 => some 0x7F800
    | 0x0A => some 0x70000
    | 0x0B => some 0
    | _ => none)

/-- The slot fields of a bundle, in slot order (R238). -/
def bundleSlot (b : Nat) : Nat → Nat
  | 0 => bits b 63 32
  | 1 => bits b 111 64
  | 2 => bits b 151 112
  | 3 => bits b 199 152
  | 4 => bits b 231 200
  | _ => bits b 255 232

def bundleHeader (b : Nat) : BitVec 32 := BitVec.ofNat 32 b

def slotLegal (s w : Nat) : Nat :=
  if w = 0 then 0
  else match s with
    | 0 => scalarLegal w
    | 1 => vecLegal w
    | 2 => matLegal w
    | 3 => loadLegal w
    | 4 => storeLegal w
    | _ => syncLegal w

/-- `encoding_legal`: the first failing part and its code; the header is 6 (R264, R270). -/
def bundleLegal (b : Nat) : Option (Nat × Nat) :=
  let h := headerLegal (bundleHeader b)
  if h ≠ 0 then some (6, h)
  else (List.range 6).findSome? fun s =>
    let c := slotLegal s (bundleSlot b s)
    if c = 0 then none else some (s, c)

/-! ## Queue operands (R260, R271) -/

/-- A queue operand: queue, whether it is a push, and whether it keeps. -/
structure QOp where
  q    : Nat
  push : Bool
  keep : Bool
deriving DecidableEq, Repr

def srcOp (x : Nat) : QOp := { q := x % 32, push := false, keep := x.testBit 5 }
def dstOp (x : Nat) : QOp := { q := x % 32, push := true, keep := false }

/-- The queue operands of an engine slot, sources first. -/
def slotQueues (s w : Nat) : List QOp :=
  if w = 0 then []
  else match s with
    | 1 =>
      let v := vslot w
      [srcOp v.a] ++ (if vecUsesB v.op && v.bmode != 1 then [srcOp v.b] else [])
        ++ (if vecUsesC v.op then [srcOp v.c] else []) ++ [dstOp v.d]
    | 2 =>
      let m := mslot w
      match m.op with
      | 1 => [srcOp m.a, srcOp m.b]
      | 2 => [dstOp m.d]
      | 3 => [srcOp m.a]
      | _ => []
    | 3 =>
      match bits w 47 43 with
      | 1 => [dstOp (bits w 36 32)]
      | 2 => [srcOp (bits w 42 37), dstOp (bits w 36 32)]
      | 4 => [dstOp (bits w 36 32)]
      | _ => []
    | 4 =>
      if bits w 31 27 = 2 then [srcOp (bits w 26 21), srcOp (bits w 12 7)] else [srcOp (bits w 26 21)]
    | _ => []

/-- TILE of a queue, 0 when it is unconfigured. -/
def Floe.tileOfQ (f : Floe) (q : Nat) : Nat := ((f.queue q).map (·.tile)).getD 0

/-- Are the ends and tile sizes of one slot legal (R260, R273, R281, R289)? -/
def Floe.endsOk (f : Floe) (s w : Nat) : Bool :=
  let qs := slotQueues s w
  let names := qs.map (·.q)
  let sz := fun (o : Option QOp) => (o.map fun x => f.tileOfQ x.q).getD 0
  (qs.all fun x => match f.queue x.q with
    | none => false
    | some q => (if x.push then q.producer else q.consumer) == s)
  && names.Nodup
  && (match s with
      | 1 =>
        let v := vslot w
        vecSizesOk w (f.tileOfQ (v.a % 32)) (f.tileOfQ (v.b % 32)) (f.tileOfQ (v.c % 32)) (f.tileOfQ v.d)
      | 2 => match (mslot w).op with
        | 1 => matSizesOk w (sz qs[0]?) (sz qs[1]?) 0
        | 2 => matSizesOk w 0 0 (sz qs[0]?)
        | 3 => matSizesOk w (sz qs[0]?) 0 0
        | _ => true
      | _ => true)

/-- `queue_ends_legal`: the first failing slot. A QCFG or QFREE whose queue another slot names fails too (R260). -/
def Floe.badEnds (f : Floe) (b : Nat) : Option Nat :=
  let sw := bundleSlot b 0
  let op := bits sw 31 26
  let clash := (op == 0x20 || op == 0x21)
    && (List.range 6).any fun s => s != 0 && (slotQueues s (bundleSlot b s)).any fun x => x.q == bits sw 25 21
  if clash then some 0
  else (List.range 6).find? fun s => s != 0 && bundleSlot b s != 0 && !f.endsOk s (bundleSlot b s)

/-! ## Guards (R244) -/

def Floe.nreg (f : Floe) (i : Nat) : BitVec 48 := (f.n[i]?).getD 0
def Floe.setN (f : Floe) (i : Nat) (v : BitVec 48) : Floe := { f with n := setAt 8 0 f.n i v }

/-- Guard output Gi. -/
def Floe.guard (f : Floe) (i : Nat) : Bool :=
  match (f.cmps[i / 2]?).getD none with
  | none => false
  | some (a, b) =>
    let x := f.nreg a.val
    let y : BitVec 48 := match b with
      | .imm v => v.zeroExtend 48
      | .reg r => f.nreg r.val
    if i % 2 = 0 then x == y else decide (x < y)

/-- Does the guard of a header hold (R239)? -/
def Floe.guardTrue (f : Floe) (h : BitVec 32) : Bool :=
  let g := hdrGuard h
  if g = 0 then true else if g ≤ 8 then f.guard (g - 1) else !f.guard (g - 9)

/-! ## The scalar slot -/

/-- What a scalar command does (R245, R278): it halts with a code, or goes on, to a branch target when one is taken. -/
inductive ScalarOut where
  | halt (code : Nat) (d : Dev)
  | next (d : Dev) (target : Option DevAddr)

/-- The slot's queue is idle: no dispatched command that has not completed names it and all its slots are free (R256). -/
def Floe.queueIdle (f : Floe) (q : Nat) : Bool :=
  (match f.queue q with
   | none => true
   | some x => x.slots.isEmpty)
  && (f.engines.zipIdx).all fun e => e.1.all fun c => !((slotQueues e.2 c.word.toNat).any fun x => x.q == q)

/-- Read an 8-byte record of local store (R279): halt 0x04 inside a queue's storage, 0x07 when poisoned. -/
def Dev.recordRead (d : Dev) (n rec : Nat) : Except Nat Nat × Dev :=
  if (d.floe n).inQueue (8 * rec) 8 then (.error 4, d)
  else
    let (w, d) := d.lsRead n (8 * rec)
    if w.poison then (.error 7, d) else (.ok (fieldAt w.data.toNat (8 * rec % 64) 8), d)

/-- QCFG (R256, R257). -/
def Dev.qcfg (d : Dev) (n q rec : Nat) : ScalarOut :=
  match d.recordRead n rec with
  | (.error c, d) => .halt c d
  | (.ok x, d) =>
    let f := d.floe n
    let base := bits x 14 0 * 64
    let tile := (bits x 22 16 + 1) * 64
    let prod := bits x 26 24
    let cons := bits x 30 28
    let depth := bits x 41 32 + 1
    let reserved := x.testBit 15 || x.testBit 23 || x.testBit 27 || x.testBit 31 || bits x 47 42 != 0 || bits x 63 48 != 0
    if reserved ∨ prod < 1 ∨ 3 < prod ∨ cons < 1 ∨ 4 < cons then .halt 2 d
    else if 2 ^ 21 < base + depth * tile ∨ ({ f with queues := tabErase f.queues q } : Floe).inQueue base (depth * tile) then .halt 4 d
    else
      let c : TileQ := { base := base, tile := tile, producer := prod, consumer := cons, depth := depth
                         head := 0, fill := 0, slots := [] }
      .next (d.setFloe n (f.setQueue q (some c))) none

/-- Perform a scalar command (R278). -/
def Dev.scalarExec (d : Dev) (n : Nat) (w : Nat) (pc : DevAddr) : ScalarOut :=
  let f := d.floe n
  let a := bits w 25 23
  let b := bits w 22 20
  let imm := bits w 15 0
  let sh := bits w 5 0
  let put := fun (v : BitVec 48) => ScalarOut.next (d.setFloe n (f.setN a v)) none
  let k := bits w 19 18
  match bits w 31 26 with
  | 0x01 => put (BitVec.ofNat 48 imm)
  | 0x02 =>
    let p := 16 * bits w 17 16
    put ((f.nreg a &&& ~~~(BitVec.ofNat 48 (0xFFFF * 2 ^ p))) ||| BitVec.ofNat 48 (imm * 2 ^ p))
  | 0x03 => put (f.nreg b)
  | 0x04 => put (f.nreg a + BitVec.ofInt 48 (sextInt 16 imm))
  | 0x05 => put (f.nreg a + f.nreg b)
  | 0x06 => put (f.nreg a - f.nreg b)
  | 0x07 => put (f.nreg a <<< sh)
  | 0x08 => put (f.nreg a >>> sh)
  | 0x09 => put (f.nreg a &&& BitVec.ofNat 48 imm)
  | 0x10 =>
    let o : CmpB := if w.testBit 17 then .reg (Fin.ofNat 8 b) else .imm (BitVec.ofNat 16 imm)
    .next (d.setFloe n { f with cmps := setAt 4 none f.cmps k (some (Fin.ofNat 8 a, o)) }) none
  | 0x11 => .next (d.setFloe n { f with cmps := setAt 4 none f.cmps k none }) none
  | 0x18 => .next d (some (pc + BitVec.ofInt 36 (32 * sextInt 26 w)))
  | 0x19 => .next (d.setFloe n { f with st := .ending }) none
  | 0x1A => .next (d.setFloe n { f with icache := [] }) none
  | 0x20 => d.qcfg n (bits w 25 21) (bits w 17 0)
  | 0x21 => .next (d.setFloe n (f.setQueue (bits w 25 21) none)) none
  | 0x28 =>
    match d.recordRead n (bits w 17 0) with
    | (.error c, d) => .halt c d
    | (.ok x, d) => .next (d.updFloe n fun f => f.setN a (BitVec.ofNat 48 x)) none
  | 0x29 => .next (d.setFloe n ((f.setN a (d.time.truncate 48)).setN b ((d.time >>> 48).truncate 48))) none
  | _ => put (((d.logi (d.logicalOf n)).epoch).zeroExtend 48)

/-- Does the command wait for an idle queue (R247)? -/
def Floe.scalarWaits (f : Floe) (w : Nat) : Bool :=
  (bits w 31 26 == 0x20 || bits w 31 26 == 0x21) && !f.queueIdle (bits w 25 21)

/-- A scalar row: the command runs in the front end of a RUNNING floe, at its pc. -/
def Dev.scalarRow (d : Dev) (n w : Nat) : Dev :=
  let f := d.floe n
  if f.st ≠ .running then d
  else
    let c := scalarLegal w
    if c ≠ 0 then d.haltFloe n c f.pc 0 true
    else if f.scalarWaits w then d.count (rStallQcfg n) 1
    else match d.scalarExec n w f.pc with
      | .halt c d => d.haltFloe n c f.pc 0 true
      | .next d t => match t with
        | some p => d.updFloe n fun f => { f with pc := p }
        | none => d

/-! ## The instruction cache -/

def icSet (l : BitVec 29) : Nat := l.toNat % 128

/-- Request a line that is neither cached nor under way (R253). -/
def Floe.fetch (f : Floe) (l : BitVec 29) : Floe :=
  if f.fetching.contains l || f.icache.any (fun x => x.line == l) then f else { f with fetching := f.fetching ++ [l] }

/-- A line arrives whole (R253): refused or poisoned it is kept only when the front end needs it. Four ways to a set,
least recently used first out. -/
def Dev.icFill (d : Dev) (n : Nat) (l : BitVec 29) : Dev :=
  let f := d.floe n
  if !f.fetching.contains l then d
  else
    let a := l.toNat * 128
    let acc := d.floeAccess (d.logicalOf n)
    let need := BitVec.ofNat 29 (f.pc.toNat / 128) == l
    let put := fun (d : Dev) (data : BitVec 1024) (bad : BitVec 2) =>
      d.updFloe n fun f =>
        let f := { f with fetching := f.fetching.filter (· != l) }
        if bad != 0 && !need then f
        else
          let same := f.icache.filter fun x => icSet x.line == icSet l
          let oldest := same.foldl (fun o x => match o with
            | none => some x
            | some y => if x.used < y.used then some x else some y) (none : Option ICLine)
          let keep := if same.length < 4 then f.icache else match oldest with
            | some o => f.icache.filter fun x => x.line != o.line
            | none => f.icache
          { f with icache := keep ++ [{ line := l, data := data, bad := bad, used := f.icUse, parity := false }]
                   icUse := f.icUse + 1 }
    if !d.mayAccess acc a false then put (d.regionLost a) 0 1
    else if d.regionHeld a then d
    else
      let m : Mover := { origin := .floe (BitVec.ofNat 7 (d.logicalOf n)) 0 l.toNat, port := 1, cls := 1, field := acc.field }
      match d.tsvReads m [a, a + 64] with
      | (some [x, y], d) =>
        put d (BitVec.ofNat 1024 (x.data.toNat + 2 ^ 512 * y.data.toNat)) (if x.poison || y.poison then 2 else 0)
      | (_, d) => d

/-! ## Dispatch -/

/-- Enter a bundle that the front end has passed (R247, R251). -/
def Floe.enter (f : Floe) (pc : DevAddr) (h : BitVec 32) (k : Nat) (opens : Nat) (released skipped : Bool) : Floe :=
  { f with bundles := f.bundles ++ [{ number := k, pc := pc, header := h, skipped := skipped, released := released,
                                      open_ := BitVec.ofNat 6 opens, signalled := hdrSigOp h == 0 }] }

/-- Append the commands of a bundle to their engines (R247, R272). -/
def Floe.append (f : Floe) (pc : DevAddr) (b k : Nat) (before : List (BitVec 48)) (next : DevAddr) : Floe :=
  [1, 2, 3, 4, 5].foldl (fun f s =>
    let w := bundleSlot b s
    if w = 0 then f
    else
      let f := f.setEngine s (f.engine s ++
        [{ bundle := k, pc := pc, word := BitVec.ofNat 48 w, nregs := before, issued := false, performed := false,
           faulted := false, srcs := [], dst := none, pos := 0, nbos := [], tags := [], got := [], words := [], sent := false
           counted := false, entry := none, waiting := none, nafter := f.n, next := next, number := f.nextCmd }])
      { f with nextCmd := f.nextCmd + 1 }) f

/-- Further cycles for which a scalar command holds the front end (R245): a read of local store takes 4 cycles; after a taken branch
to a cached line the next bundle dispatches 3 cycles later. -/
def Floe.holdAfter (f : Floe) (w : Nat) (target : Option DevAddr) : Nat :=
  match target with
  | some p => if f.icache.any fun x => x.line == BitVec.ofNat 29 (p.toNat / 128) then 2 else 0
  | none => if bits w 31 26 = 0x20 ∨ bits w 31 26 = 0x28 then 3 else 0

/-- `dispatch_cycle` of R247 on the bundle at pc, which is in the cache. -/
def Dev.dispatchBundle (d : Dev) (n b : Nat) : Dev :=
  let f := d.floe n
  let pc := f.pc
  let h := bundleHeader b
  if 512 ≤ f.bundles.length then d.count (rStallRunahead n) 1
  else match bundleLegal b with
    | some (s, c) => d.haltFloe n c pc s true
    | none =>
      if !f.guardTrue h then
        (d.setFloe n { f.enter pc h f.nextBundle 0 true true with pc := pc + 32, nextBundle := f.nextBundle + 1 }).count
          (rFloeSkipped n) 1
      else match f.badEnds b with
        | some s => d.haltFloe n 3 pc s true
        | none =>
          if [1, 2, 3, 4, 5].any fun s => bundleSlot b s != 0 && decide (256 ≤ (f.engine s).length) then
            d.count (rStallCmdq n) 1
          else
            let waits := hdrWaitCond h != 0
            let k := f.waitHere.getD f.nextBundle
            let f := if waits && f.waitHere.isNone then
                { f with waitList := f.waitList ++ [{ number := k, pc := pc, header := h, since := d.clock, period := d.wdog n }]
                         waitHere := some k, nextBundle := k + 1 } else f
            let d := d.setFloe n f
            let released := !waits || !(f.waitList.any fun w => w.number == k)
            let w := bundleSlot b 0
            if w ≠ 0 ∧ !released then d.count (rStallWait n) 1
            else if w ≠ 0 ∧ f.scalarWaits w then d.count (rStallQcfg n) 1
            else
              let out : ScalarOut := if w = 0 then .next d none else d.scalarExec n w pc
              match out with
              | .halt c d => d.haltFloe n c pc 0 true
              | .next d t =>
                let target := t.getD (pc + 32)
                let before := f.n
                let f := d.floe n
                let opens := (List.range 6).foldr (fun s x => (if s != 0 && bundleSlot b s != 0 then 1 else 0) + 2 * x) 0
                let g := (f.append pc b k before target).enter pc h k opens released false
                let g := { g with pc := target, waitHere := none, nextBundle := if waits then g.nextBundle else k + 1
                                  hold := g.holdAfter w t }
                d.setFloe n g

/-- Tracker entries that a command of an engine holds: its requests not yet answered and, of an accumulating scatter, its NBOs not
yet finished (R333). A request to a local store holds one only within its own step. -/
def ECmd.entries (c : ECmd) (e : Nat) : Nat :=
  c.tags.length + c.words.length + (if e = 4 ∧ bits c.word.toNat 31 27 = 2 then c.nbos.length else 0)

/-- Tracker entries that an engine holds (R334). -/
def Floe.trkHeld (f : Floe) (e : Nat) : Nat := ((f.engine e).map (·.entries e)).foldl (· + ·) 0

/-- Tracker entries open to an engine (R334): 2,048 for the floe, no more than 1,792 for one engine. -/
def Floe.trkOpen (f : Floe) (e : Nat) : Nat := min (1792 - f.trkHeld e) (2048 - (f.trkHeld 3 + f.trkHeld 4))

/-- Has the engine stopped because no tracker entry is open to it (R334)? -/
def Floe.trkStopped (f : Floe) (e : Nat) : Bool :=
  f.trkOpen e == 0 && match f.current e with
    | some c => c.issued && c.counted && !c.performed && !c.sent && !(e == 4 && bits c.word.toNat 31 27 == 4)
    | none => false

/-- A cycle in which an engine stands still for tracker entries is counted (R334). -/
def Dev.trkCycle (d : Dev) (n : Nat) : Dev :=
  let d := if (d.floe n).trkStopped 3 then d.count (rTrkWaitLoad n) 1 else d
  if (d.floe n).trkStopped 4 then d.count (rTrkWaitStore n) 1 else d

/-- One floe cycle (R247): cycles are counted in RUNNING and ENDING; while the front end is held nothing else is (R245); a line that
fails its parity is fetched again, as on a miss (R255; log 144); a line that arrived refused or poisoned halts when it is needed
(R253). -/
def Dev.dispatchCycle (d : Dev) (n : Nat) : Dev :=
  let f := d.floe n
  let d := d.trkCycle n
  if f.st ≠ .running ∧ f.st ≠ .ending then d
  else
    let d := d.count (rFloeCycles n) 1
    if f.st = .ending then d
    else if f.hold ≠ 0 then d.setFloe n { f with hold := f.hold - 1 }
    else
      let l := BitVec.ofNat 29 (f.pc.toNat / 128)
      let miss := fun (d : Dev) =>
        let d := d.count (rStallIcache n) 1
        let d := if (d.floe n).fetching.contains l then d else d.count (rIcMiss n) 1
        d.updFloe n fun f => ((f.fetch l).fetch (l + 1)).fetch (l + 2)
      match f.icache.find? fun x => x.line == l with
      | none => miss d
      | some x =>
        if x.parity then
          miss ((d.count (rIcErr n) 1).updFloe n fun f => { f with icache := f.icache.filter fun y => y.line != l })
        else if x.bad = 1 then d.haltFloe n 5 f.pc 7 true
        else if x.bad = 2 then d.haltFloe n 8 f.pc 7 true
        else
          let d := d.updFloe n fun f =>
            { f with icache := f.icache.map fun y => if y.line == l then { y with used := f.icUse } else y
                     icUse := f.icUse + 1 }
          d.dispatchBundle n (bits x.data.toNat (256 * (f.pc.toNat / 32 % 4) + 255) (256 * (f.pc.toNat / 32 % 4)))

end Sys2Proof.Machine
end

