-- ==== Sys2Proof/Machine/Desc.lean ====
section
/-! DEFINITION. Tensor descriptors: their rules and extent (R305 to R313), tiles (R314, R315), layout changes (R317) and
index tiles (R320 to R323). -/

namespace Sys2Proof.Machine

/-! ## Fields (R305) -/

structure TDesc where
  base   : Nat
  fmt    : Nat
  ndim   : Nat
  space  : Nat
  read   : Bool
  write  : Bool
  idx    : Nat
  gdim   : Nat
  remote : Nat
  perm   : Nat
  size   : List Nat
  stride : List Int
  tile   : List Nat
deriving DecidableEq, Repr

/-- SIZE, STRIDE and TILE as stored, without the defaults of R307. -/
def TDesc.raw (x : Nat) : List (Nat × Int × Nat) :=
  (List.range 6).map fun i =>
    (fieldAt x (24 + 4 * i) 4, sextInt 64 (fieldAt x (48 + 8 * i) 8), fieldAt x (96 + 2 * i) 2)

def tdesc (e : BitVec 1024) : TDesc :=
  let x := e.toNat
  let nd := fieldAt x 9 1 % 8
  let mode := fieldAt x 10 1
  let raw := (TDesc.raw x).zipIdx
  { base := fieldAt x 0 8, fmt := fieldAt x 8 1 % 16, ndim := nd, space := mode % 4, read := mode.testBit 2,
    write := mode.testBit 3, idx := bits mode 5 4, gdim := fieldAt x 11 1 % 8, remote := fieldAt x 12 2,
    perm := fieldAt x 14 3
    size := raw.map fun p => if p.2 < nd then p.1.1 else 1
    stride := raw.map fun p => if p.2 < nd then p.1.2.1 else 0
    tile := raw.map fun p => if p.2 < nd then p.1.2.2 else 1 }

def TDesc.sz (t : TDesc) (i : Nat) : Nat := (t.size[i]?).getD 1
def TDesc.tl (t : TDesc) (i : Nat) : Nat := (t.tile[i]?).getD 1
def TDesc.st (t : TDesc) (i : Nat) : Int := (t.stride[i]?).getD 0

/-- Element width in bits (R307). -/
def TDesc.eb (t : TDesc) : Nat := fmtBits t.fmt

/-- Elements of a tile and TB (R307). -/
def TDesc.tileElems (t : TDesc) : Nat := t.tile.foldl (· * ·) 1
def TDesc.tb (t : TDesc) : Nat := t.tileElems * t.eb / 8

/-- Input dimension of output dimension `j` under PERM (R305, R317). -/
def TDesc.permOf (t : TDesc) (j : Nat) : Nat := if t.perm = 0 then j else bits t.perm (3 * j + 2) (3 * j)

/-- Every rule of R307 but those of SPACE 2 that name the field. -/
def descOk (e : BitVec 1024) : Bool :=
  let x := e.toNat
  let t := tdesc e
  let raw := (TDesc.raw x).zipIdx
  let eb := t.eb
  let reserved := fieldAt x 8 1 / 16 != 0 || fieldAt x 9 1 / 8 != 0 || fieldAt x 10 1 / 64 != 0 || fieldAt x 11 1 / 8 != 0
    || fieldAt x 17 7 != 0 || fieldAt x 108 4 != 0
  let perm := t.perm == 0 ||
    (((List.range t.ndim).map t.permOf).Nodup && ((List.range t.ndim).all fun j => decide (t.permOf j < t.ndim))
      && (List.range 8).all fun j => decide (j < t.ndim) || t.permOf j == j)
  !reserved && (decide (t.fmt < 8) || t.fmt == 11) && decide (1 ≤ t.ndim) && decide (t.ndim ≤ 6)
  && (raw.all fun p =>
      if p.2 < t.ndim then
        decide (1 ≤ p.1.1) && decide (-(2 ^ 40 : Int) ≤ p.1.2.1) && decide (p.1.2.1 ≤ 2 ^ 40) && decide (1 ≤ p.1.2.2)
      else p.1.1 == 0 && p.1.2.1 == 0 && p.1.2.2 == 0)
  && (t.tileElems * eb) % 8 == 0 && decide (1 ≤ t.tb) && decide (t.tb ≤ 8192)
  && (t.read || t.write) && decide (t.idx ≤ 2) && decide (t.gdim < t.ndim) && (eb != 4 || t.gdim != 0) && perm
  && (eb != 4 || (t.st 0 == 1 && t.tl 0 % 2 == 0 && (List.range 6).all fun i =>
        i == 0 || decide (t.ndim ≤ i) || t.st i % 2 == 0))
  && (decide (eb < 8) || t.base % (eb / 8) == 0)
  && (decide (2 ≤ t.space) || t.remote == 0) && (t.space != 2 || decide (t.remote < 128)) && (t.space != 3 || decide (t.remote ≤ 63))
  && fieldAt x 112 8 == 0 && fieldAt x 120 8 == 0

/-- The extent in bytes, none below 0 (R309). -/
def TDesc.extent (t : TDesc) : Option (Nat × Nat) :=
  let lohi := (List.range t.ndim).foldl (fun (p : Int × Int) k =>
    let span : Int := ((t.sz k : Int) - 1) * t.st k * t.eb
    if span < 0 then (p.1 + span, p.2) else (p.1, p.2 + span)) ((8 * t.base : Nat), ((8 * t.base + t.eb - 1 : Nat) : Int))
  if lohi.1 < 0 then none else some ((lohi.1 / 8).toNat, (lohi.2 / 8).toNat)

/-- Bytes of a space (R309). -/
def spaceLimit (s : Nat) : Nat := if s = 0 ∨ s = 3 then 2 ^ 36 else 2 ^ 21

/-! ## The table -/

def Floe.entry (f : Floe) (i : Nat) : Option DescEntry := tabGet (fun _ => none) f.desc i
def Floe.setEntry (f : Floe) (i : Nat) (e : Option DescEntry) : Floe := { f with desc := tabSet (fun _ => none) f.desc i e }

/-- The staged descriptor. -/
def Dev.dtStage (d : Dev) (n : Nat) : BitVec 1024 :=
  BitVec.ofNat 1024 ((List.range 32).foldr (fun k x => (d.reg (rDtStage n k)).toNat + 2 ^ 32 * x) 0)

/-- Check the staged descriptor of a slot (R307, R309, R310): the code of R312 and the extent. -/
def Dev.dtCheck (d : Dev) (n : Nat) : Nat × Nat × Nat :=
  let e := d.dtStage n
  let t := tdesc e
  let me := d.logicalOf n
  if !descOk e then (1, 0, 0)
  else if t.space = 2 ∧ (!d.sameField me t.remote ∨ t.remote = me) then (5, 0, 0)
  else match t.extent with
    | none => (2, 0, 0)
    | some (a, b) =>
      if spaceLimit t.space ≤ b then (2, 0, 0)
      else if t.space = 0 then
        let acc := d.floeAccess me
        let rs := (List.range (b / 2 ^ 21 + 1 - a / 2 ^ 21)).map fun i => (a / 2 ^ 21 + i) * 2 ^ 21
        -- the world check comes before the lease check (R447)
        if rs.any fun r => (t.read && !d.worldOk acc r false) || (t.write && !d.worldOk acc r true) then (4, a, b)
        else if rs.any fun r => !d.leaseOk acc r then (3, a, b)
        else (0, a, b)
      else (0, a, b)

/-- DT_STATUS after an operation (R311, R312): BUSY is clear again. -/
def Dev.dtStatus (d : Dev) (n entry code : Nat) : Dev :=
  d.setReg (rDtStatus n) (BitVec.ofNat 32 (entry * 2 ^ 8 + code))

/-- OP 0: create (R311). -/
def Dev.dtCreate (d : Dev) (n entry : Nat) : Dev :=
  let f := d.floe n
  if f.st ≠ .idle ∧ f.st ≠ .halted then d.dtStatus n entry 6
  else
    let (code, a, b) := d.dtCheck n
    if code ≠ 0 then
      (if code = 3 then (regionsOf a (b + 1 - a)).foldl (fun d r => d.regionLost r) d else d).dtStatus n entry code
    else
      let e := d.dtStage n ||| BitVec.ofNat 1024 (a * 2 ^ 896 + b * 2 ^ 960)
      (((d.setFloe n (f.setEntry entry (some { bytes := e, poison := false }))).setReg64 (rDtFirst n) (BitVec.ofNat 64 a)).setReg64
        (rDtLast n) (BitVec.ofNat 64 b)).dtStatus n entry 0

/-- OP 1: invalidate one entry. -/
def Dev.dtInvalidate (d : Dev) (n entry : Nat) : Dev :=
  let f := d.floe n
  if f.st ≠ .idle ∧ f.st ≠ .halted then d.dtStatus n entry 6
  else (d.setFloe n (f.setEntry entry none)).dtStatus n entry 0

/-- OP 2: invalidate all entries. -/
def Dev.dtInvalidateAll (d : Dev) (n entry : Nat) : Dev :=
  let f := d.floe n
  if f.st ≠ .idle ∧ f.st ≠ .halted ∧ f.st ≠ .frozen then d.dtStatus n entry 6
  else (d.setFloe n { f with desc := [] }).dtStatus n entry 0

/-- OP 3: copy a valid entry into DT_STAGE and its extent into DT_FIRST and DT_LAST. -/
def Dev.dtReadBack (d : Dev) (n entry : Nat) : Dev :=
  match (d.floe n).entry entry with
  | none => d.dtStatus n entry 7
  | some e =>
    let x := e.bytes.toNat
    let d := forNat 32 d fun d k => d.setReg (rDtStage n k) (BitVec.ofNat 32 (fieldAt x (4 * k) 4))
    ((d.setReg64 (rDtFirst n) (BitVec.ofNat 64 (fieldAt x 112 8))).setReg64 (rDtLast n) (BitVec.ofNat 64 (fieldAt x 120 8))).dtStatus
      n entry 0

/-- A write of DT_CMD (R311). -/
def Dev.dtCmd (d : Dev) (n : Nat) (v : Reg) : Dev :=
  if !rbit v 31 then d
  else match fld v 29 28 with
    | 0 => d.dtCreate n (fld v 7 0)
    | 1 => d.dtInvalidate n (fld v 7 0)
    | 2 => d.dtInvalidateAll n (fld v 7 0)
    | _ => d.dtReadBack n (fld v 7 0)

/-- Invalidate the entries of floes that satisfy a predicate (R313). -/
def Dev.dtDrop (d : Dev) (p : Nat → DescEntry → Bool) : Dev :=
  forNat 136 d fun d n =>
    let f := d.floe n
    if f.desc.isEmpty then d
    else d.setFloe n { f with desc := f.desc.filter fun e => match e.2 with
      | some x => !p n x
      | none => false }

/-! ## Tiles -/

/-- Tiles in each dimension. -/
def TDesc.grid (t : TDesc) (i : Nat) : Nat := ceilDiv (t.sz i) (t.tl i)

/-- The origin of tile `k`; none beyond the tensor (R314). -/
def TDesc.box (t : TDesc) (k : Nat) : Option (List Nat) :=
  if (List.range 6).foldl (fun p i => p * t.grid i) 1 ≤ k then none
  else some (((List.range 6).foldl (fun (s : List Nat × Nat) i =>
    (s.1 ++ [s.2 % t.grid i * t.tl i], s.2 / t.grid i)) ([], k)).1)

/-- Coordinates of a position in a box of extents `ext`, dimension 0 fastest. -/
def unpos (ext : List Nat) (p : Nat) : List Nat :=
  (ext.foldl (fun (s : List Nat × Nat) e => (s.1 ++ [s.2 % e], s.2 / e)) ([], p)).1

/-- Bit address of the element at coordinates, none outside the tensor (R308, R314). -/
def TDesc.elemBit (t : TDesc) (x : List Nat) : Option Nat :=
  if (x.zipIdx).any fun p => decide (t.sz p.2 ≤ p.1) then none
  else some (((8 * t.base : Nat) : Int) + (t.eb : Int) * ((x.zipIdx).foldl (fun s p => s + (p.1 : Int) * t.st p.2) 0)).toNat

/-- Add two lists of coordinates. -/
def addCoords (a b : List Nat) : List Nat := (a.zip b).map fun p => p.1 + p.2

/-- The permutation of an XFORM (R317): input dimension of output dimension j. -/
def TDesc.xform (t : TDesc) (x j : Nat) : Nat :=
  match x with
  | 1 => if j = 0 then 1 else if j = 1 then 0 else j
  | 2 => t.permOf j
  | _ => j

/-- Does the XFORM pass the transpose tile and is the width one that it takes (R317, R318)? -/
def TDesc.xformOk (t : TDesc) (x : Nat) : Bool := t.xform x 0 == 0 || [8, 16, 32].contains t.eb

/-- The elements of a box of extents `ext` in output order under an XFORM: their coordinates in the box (R317). -/
def TDesc.outOrder (t : TDesc) (ext : List Nat) (x : Nat) : List (List Nat) :=
  let outExt := (List.range 6).map fun j => (ext[t.xform x j]?).getD 1
  (List.range (ext.foldl (· * ·) 1)).map fun p =>
    let v := unpos outExt p
    -- output coordinate j is input coordinate π(j)
    (List.range 6).map fun i =>
      (((List.range 6).find? fun j => t.xform x j == i).bind fun j => v[j]?).getD 0

/-- Bit addresses of the elements of tile `k` in tile order, none outside the tensor; none when there is no such tile. -/
def TDesc.tileBits (t : TDesc) (k x : Nat) : Option (List (Option Nat)) :=
  (t.box k).map fun org => (t.outOrder t.tile x).map fun u => t.elemBit (addCoords org u)

/-! ## Index tiles -/

/-- Index j of an index tile (R320). -/
def Tile.index (t : Tile) (j : Nat) : Nat := t.elem 32 j

/-- What an index does: none halts, some true is used, some false is skipped (R320). -/
def TDesc.indexUse (t : TDesc) (v : Nat) : Option Bool :=
  if v < t.sz t.gdim then some true
  else match t.idx with
    | 1 => some false
    | 2 => if v = 2 ^ 32 - 1 then some false else none
    | _ => none

/-- Extents of a gather tile of `count` indices (R323). -/
def TDesc.gatherExt (t : TDesc) (count : Nat) : List Nat := (t.tile.zipIdx).map fun p => if p.2 = t.gdim then count else p.1

/-- Bytes of a gather tile (R323). -/
def TDesc.gatherBytes (t : TDesc) (count : Nat) : Nat := count * t.tb / t.tl t.gdim

/-- Bit addresses of a gather tile's elements in tile order: outside the tensor and skipped ones none (R322, R323). -/
def TDesc.gatherBits (t : TDesc) (idx : List (Option Nat)) (x : Nat) : List (Option Nat) :=
  (t.outOrder (t.gatherExt idx.length) x).map fun u =>
    match (idx[(u[t.gdim]?).getD 0]?).getD none with
    | none => none
    | some v => t.elemBit ((u.zipIdx).map fun p => if p.2 = t.gdim then v else p.1)

/-- The slice of index position j in element order: tile position and bit address of each element (R322, R324). -/
def TDesc.sliceElems (t : TDesc) (count j v : Nat) : List (Nat × Nat) :=
  let ext := t.gatherExt count
  let one := t.gatherExt 1
  (List.range (one.foldl (· * ·) 1)).filterMap fun p =>
    let u := unpos one p
    let x := (u.zipIdx).map fun q => if q.2 = t.gdim then v else q.1
    let place := (u.zipIdx).map fun q => if q.2 = t.gdim then j else q.1
    let pos := ((place.zip ext).foldr (fun q s => q.1 + q.2 * s) 0)
    (t.elemBit x).map fun b => (pos, b)

end Sys2Proof.Machine
end

