-- ==== Sys2Proof/Machine/Engine.lean ====
section
/-! DEFINITION. The engines of a floe: issue and completion (R249, R250, R258), the vector and matrix slots (R280 to
R293), loads (R294, R295, R314 to R323), stores and scatters (R296 to R298, R324 to R328), accesses to other local
stores and other devices (R329 to R331), tracker entries (R333, R334), and the poison they carry (R365, R366). -/

namespace Sys2Proof.Machine

/-! ## Issue and completion -/

/-- Can a queue operand be taken now? The kind of wait if not (R252, R258). -/
def Floe.operandWait (f : Floe) (o : QOp) : Option Nat :=
  match f.queue o.q with
  | none => some 1
  | some q =>
    if o.push then (if q.slot q.fill = .free then none else some 2)
    else match q.slot q.head with
      | .ready => none
      | .reading => some 3
      | _ => some 1

/-- Take a queue operand: the queue slot and the floe after (R258). -/
def Floe.takeOperand (f : Floe) (o : QOp) : Nat × Floe :=
  match f.queue o.q with
  | none => (0, f)
  | some q =>
    if o.push then
      let q' := q.setSlot q.fill .filling
      (q.fill, f.setQueue o.q (some { q' with fill := (q.fill + 1) % q.depth }))
    else (q.head, f.setQueue o.q (some (q.setSlot q.head .reading)))

/-- May the engines of a floe issue (R249, R262, R263)? -/
def Floe.mayIssue (f : Floe) : Bool := f.st == .running || f.st == .ending || (f.st == .halting && f.haltAtDispatch)

/-- The descriptor entry that an engine's command word names, if it names one (R294, R296). -/
def wordEntry (engine : Nat) (w : BitVec 48) : Option Nat :=
  let x := w.toNat
  if engine = 3 then (if bits x 47 43 = 4 then none else some (bits x 31 24))
  else if engine = 4 ∧ (bits x 31 27 = 1 ∨ bits x 31 27 = 2) then some (bits x 20 13)
  else none

/-- An engine issues its next command: its slot, the descriptor that it names and the accumulators are read, with what errors stand
in them (R362). -/
def Dev.issueReads (d : Dev) (n e : Nat) (c : ECmd) : Dev :=
  let d := d.sramRead 6 n
  let d := if e = 2 then d.sramRead 4 n else d
  if (wordEntry e c.word).isSome then d.sramRead 5 n else d

/-- An engine issues its next command (R249), with the descriptor that it names as it stands (R313). -/
def Dev.engineIssue (d : Dev) (n e : Nat) : Dev :=
  let f := d.floe n
  if e = 0 ∨ !f.mayIssue then d
  else match (f.engine e).find? fun c => !c.issued with
    | none => d
    | some c =>
      let busy := (f.engine e).any fun x => x.issued && !x.performed
      let released := ((f.bundle c.bundle).map (·.released)).getD true
      if busy || !released then d
      else
        let ops := slotQueues e c.word.toNat
        match ops.findSome? f.operandWait with
        | some k => d.noteWait n e c.number k
        | none =>
          let (f, srcs, dst) := ops.foldl (fun (s : Floe × List (Nat × Nat × Bool) × Option (Nat × Nat)) o =>
            let (i, g) := s.1.takeOperand o
            if o.push then (g, s.2.1, some (o.q, i)) else (g, s.2.1 ++ [(o.q, i, o.keep)], s.2.2)) (f, [], none)
          ((d.setFloe n f).issueReads n e c).updCmd n e c.number fun x =>
            { x with issued := true, srcs := srcs, dst := dst, waiting := none
                     entry := (wordEntry e c.word).bind (d.floe n).entry }

/-- Release a source operand: a pop frees its slot and advances the head, a keep returns it to ready (R258). -/
def Floe.releaseSrc (f : Floe) (s : Nat × Nat × Bool) : Floe :=
  match f.queue s.1 with
  | none => f
  | some q =>
    if s.2.2 then f.setQueue s.1 (some (q.setSlot s.2.1 .ready))
    else
      let q' := q.setSlot s.2.1 .free
      f.setQueue s.1 (some { q' with head := (s.2.1 + 1) % q.depth })

/-- The command has read its sources, filled its destination and made its effect. -/
def Dev.performed (d : Dev) (n e : Nat) (c : ECmd) : Dev :=
  let d := d.updFloe n fun f =>
    let f := c.srcs.foldl Floe.releaseSrc f
    match c.dst with
    | none => f
    | some (q, i) => match f.queue q with
      | none => f
      | some x => f.setQueue q (some (x.setSlot i .ready))
  d.updCmd n e c.number fun x => { x with performed := true, waiting := none, srcs := [], dst := none }

/-- The oldest command of an engine completes (R250): the store engine's when its NBOs have finished and its stores are performed
and acknowledged. -/
def Dev.engineComplete (d : Dev) (n e : Nat) : Dev :=
  let f := d.floe n
  match f.engine e with
  | [] => d
  | c :: rest =>
    if !f.active || !c.performed || c.faulted || !c.nbos.isEmpty || !c.tags.isEmpty || !c.words.isEmpty then d
    else
      let f := f.setEngine e rest
      let f := f.updBundle c.bundle fun b => { b with open_ := b.open_ &&& ~~~(BitVec.ofNat 6 (2 ^ e)) }
      d.setFloe n (if e = 4 then { f with storesDone := f.storesDone + 1 } else f)

/-! ## Tiles of a command -/

/-- Offset and size of a queue slot. -/
def Floe.slotPlace (f : Floe) (q i : Nat) : Nat × Nat :=
  match f.queue q with
  | some x => (x.base + i * x.tile, x.tile)
  | none => (0, 0)

/-- Read the k-th source tile of a command; what a command that goes on step by step has read before is reported once. -/
def Dev.srcTile (d : Dev) (n : Nat) (c : ECmd) (k : Nat) : Tile × Dev :=
  match c.srcs[k]? with
  | none => ({ size := 0, data := 0, poison := 0 }, d)
  | some (q, i, _) =>
    let (a, s) := (d.floe n).slotPlace q i
    if c.counted then (d.tileSeen n a s, d) else d.tileRead n a s

/-- The sources of a command have been read. -/
def Dev.sourcesRead (d : Dev) (n e : Nat) (c : ECmd) : Dev := d.updCmd n e c.number fun x => { x with counted := true }

/-- Local-store offset of the first poisoned word of the sources (R393). -/
def Dev.srcPoisonAddr (d : Dev) (n : Nat) (c : ECmd) (ts : List Tile) : Nat :=
  ((ts.zip c.srcs).findSome? fun p =>
    match (List.range (p.1.size / 64)).find? p.1.poison.testBit with
    | some i => some (((d.floe n).slotPlace p.2.1 p.2.2.1).1 + 64 * i)
    | none => none).getD 0

def Dev.dstSize (d : Dev) (n : Nat) (c : ECmd) : Nat :=
  match c.dst with
  | some (q, i) => ((d.floe n).slotPlace q i).2
  | none => 0

/-- Write the destination tile. -/
def Dev.pushTile (d : Dev) (n : Nat) (c : ECmd) (t : Tile) : Dev :=
  match c.dst with
  | some (q, i) => d.tileWrite n ((d.floe n).slotPlace q i).1 t
  | none => d

/-! ## Vector and matrix -/

/-- Perform a vector command (R281 to R287, R365). -/
def Dev.vecPerform (d : Dev) (n : Nat) (c : ECmd) : Dev :=
  let v := vslot c.word.toNat
  let useB := vecUsesB v.op && v.bmode != 1
  let none' : Tile := { size := 0, data := 0, poison := 0 }
  let (ta, d) := d.srcTile n c 0
  let (tb, d) := if useB then d.srcTile n c 1 else (none', d)
  let (tc, d) := if vecUsesC v.op then d.srcTile n c (if useB then 2 else 1) else (none', d)
  let t := vecTile v ta tb tc (d.dstSize n c)
  let at_ := d.srcPoisonAddr n c ([ta] ++ (if useB then [tb] else []) ++ (if vecUsesC v.op then [tc] else []))
  let d := d.pushTile n c t
  let d := if t.poison = 0 then d else d.poisonMoved n 1 at_
  d.performed n 1 c

/-- Perform a matrix command (R289 to R293, R365). -/
def Dev.matPerform (d : Dev) (n : Nat) (c : ECmd) : Dev :=
  let m := mslot c.word.toNat
  let acc := ((d.floe n).acc[m.acc]?).getD 0
  let flag := (d.floe n).accPoison.getLsbD m.acc
  let put := fun (d : Dev) (a : BitVec 32768) (p : Bool) =>
    d.updFloe n fun f => { f with acc := setAt 4 0 f.acc m.acc a
                                  accPoison := (f.accPoison &&& ~~~(BitVec.ofNat 4 (2 ^ m.acc))) ||| (if p then BitVec.ofNat 4 (2 ^ m.acc) else 0) }
  match m.op with
  | 1 =>
    let (ta, d) := d.srcTile n c 0
    let (tb, d) := d.srcTile n c 1
    let p := ta.anyPoison || tb.anyPoison
    let d := put d (mma m acc ta tb) ((flag && !m.z) || p)
    (if p then d.poisonMoved n 2 (d.srcPoisonAddr n c [ta, tb]) else d).performed n 2 c
  | 2 =>
    let t : Tile := { size := 4096, data := acc.toNat, poison := if flag then 2 ^ 64 - 1 else 0 }
    let d := d.pushTile n c t
    let d := if flag then d.poisonMoved n 2 0 else d
    (if m.z then put d 0 false else d).performed n 2 c
  | 3 =>
    let (ta, d) := d.srcTile n c 0
    let d := put d (BitVec.ofNat 32768 ta.data) (flag || ta.anyPoison)
    (if ta.anyPoison then d.poisonMoved n 2 (d.srcPoisonAddr n c [ta]) else d).performed n 2 c
  | _ => (put d 0 false).performed n 2 c

/-! ## Words of a space -/

/-- What the accesses of a command to the words of a space come to. -/
inductive Fetched where
  /-- Not all done yet; the kind when it is a synchronisation wait. -/
  | wait (kind : Option Nat) (d : Dev)
  | fault (code : Nat) (d : Dev)
  | ok (ws : List (Nat × Line × Bool)) (d : Dev)

/-- A request for a word: its address and, of a store, its data, the bytes and the bits of them that it writes, and poison. -/
structure StoreW where
  addr   : Nat
  data   : Line
  mask   : BitVec 64
  keep   : Line
  poison : Bool
deriving DecidableEq, Repr

/-- The request of a load. -/
def readOf (a : Nat) : StoreW := { addr := a, data := 0, mask := 0, keep := 0, poison := false }

/-- Does it write the whole word? -/
def StoreW.whole (w : StoreW) : Bool := w.mask == BitVec.allOnes 64 && w.keep == 0

/-- The device of a SPACE 2 access: the slot that holds the floe, unless it is frozen (R329). -/
def Dev.remoteSlot (d : Dev) (f : Nat) : Option Nat :=
  (d.slotOf f).bind fun m => if (d.floe m).st == .frozen then none else some m

/-- Read words of a local store in order (R333): inside a configured queue the access faults. -/
def Dev.lsWords (d : Dev) (m : Nat) : List Nat → List (Nat × Line × Bool) → Fetched
  | [], xs => .ok xs d
  | a :: as, xs =>
    if (d.floe m).inQueue a 64 then .fault 4 d
    else
      let (w, d) := d.lsRead m a
      d.lsWords m as (xs ++ [(a, w.data, w.poison)])

/-- The request of an engine in the fabric, on its way to the channel of its word (R26, R306, R346). -/
def Dev.driftSend (d : Dev) (n e : Nat) (c : ECmd) (w : StoreW) : Dev :=
  let lf := d.logicalOf n
  let acc := d.floeAccess lf
  let (r, d) := d.portReq
    { origin := .floe (BitVec.ofNat 7 lf) e c.number, write := e == 4, masked := !w.whole, addr := BitVec.ofNat 36 w.addr
      len := 0, cls := 1, field := acc.field, secure := acc.secure, mask := w.mask, keep := w.keep
      data := if e = 4 then [w.data] else [], poison := w.poison, since := d.clock, words := [], arr := 0 }
  (d.updChan (d.place w.addr).ch fun ch => { ch with driftIn := ch.driftIn ++ [r], idleFrom := none }).updCmd n e c.number fun x =>
    { x with words := x.words ++ [w.addr], pos := x.pos + 1 }

/-- The packet of a SPACE 3 request (R331, R402). -/
def Dev.remotePacket (d : Dev) (n e dst : Nat) (w : StoreW) : Packet :=
  let lf := d.logicalOf n
  let acc := d.floeAccess lf
  let full := w.mask == BitVec.allOnes 64
  { d.packet (if e = 3 then 1 else if full then 2 else 3) dst with
      cls := 1, world := acc.secure, field := acc.field.getD 0, dev := BitVec.ofNat 6 d.gdev
      orig := BitVec.ofNat 16 (2 ^ 14 + lf * 4 + (if e = 3 then 1 else 2)), addr := w.addr, data := w.data
      arg := if e = 3 || full then 0 else w.mask, poison := w.poison }

/-- Send the requests of a SPACE 0 or SPACE 3 command that are still to go, as far as tracker entries and tags are open
(R232, R306, R331, R334, R415). -/
def Dev.sendWords (d : Dev) (n e : Nat) (c : ECmd) (t : TDesc) (ws : List StoreW) : Fetched :=
  let open_ := (d.floe n).trkOpen e
  let rest := ws.drop c.pos
  let out := fun (d : Dev) (k : Nat) =>
    Fetched.wait none (if c.pos + k = ws.length then d.updCmd n e c.number fun x => { x with sent := true } else d)
  if t.space = 3 then
    match d.workingRoute t.remote with
    | none => .fault 5 d
    | some l =>
      let now := rest.take (min open_ (4096 - d.remotes.length))
      out (now.foldl (fun d w =>
        match d.remoteRequest l (d.remotePacket n e t.remote w) (.floe (BitVec.ofNat 7 (d.logicalOf n)) e c.number w.addr) with
        | some (g, d) => d.updCmd n e c.number fun x => { x with tags := x.tags ++ [g.toNat], pos := x.pos + 1 }
        | none => d) d) now.length
  else
    let acc := d.floeAccess (d.logicalOf n)
    if rest.any fun w => !d.mayAccess acc w.addr (e == 4) then .fault 5 (rest.foldl (fun d w => d.regionLost w.addr) d)
    else
      let now := rest.take open_
      out (now.foldl (fun d w => d.driftSend n e c w) d) now.length

/-- The words that a load needs, in the order of its requests (R306, R329, R331, R333). -/
def Dev.loadWords (d : Dev) (n : Nat) (c : ECmd) (t : TDesc) (ws : List Nat) : Fetched :=
  let here := fun (m : Option Nat) => match m with
    | none => Fetched.wait (some 7) d
    | some m => if (d.floe n).trkOpen 3 = 0 then .wait none d else d.lsWords m ws []
  match t.space with
  | 1 => here (some n)
  | 2 => here (d.remoteSlot t.remote)
  | _ =>
    if ws.isEmpty then .ok [] d
    else if !c.sent then d.sendWords n 3 c t (ws.map readOf)
    else if !c.tags.isEmpty || !c.words.isEmpty then .wait none d
    else .ok c.got d

/-- The distinct words of a list of bit addresses, in order of first use (R333). -/
def bitWords (bs : List (Option Nat)) : List Nat :=
  bs.foldl (fun ws b => match b with
    | some x => if ws.contains (x / 512 * 64) then ws else ws ++ [x / 512 * 64]
    | none => ws) []

/-- Value and poison of the element of `eb` bits at a bit address among words read. -/
def elemAt (ws : List (Nat × Line × Bool)) (eb : Nat) (b : Option Nat) : Nat × Bool :=
  match b with
  | none => (0, false)
  | some x => match ws.find? fun w => w.1 == x / 512 * 64 with
    | some w => ((w.2.1.toNat >>> (x % 512)) % 2 ^ eb, w.2.2)
    | none => (0, false)

/-! ## Loads -/

/-- A poisoned descriptor was read (R362, R375). -/
def Dev.descPoisoned (d : Dev) (code : Nat) : Dev := if code = 7 then d.report 0x000A 2 8 0 0 5 else d

/-- The descriptor of a command, or the code that its use halts with (R304, R313, R316, R362). -/
def ECmd.descOf (c : ECmd) (store : Bool) : Except Nat TDesc :=
  match c.entry with
  | none => .error 4
  | some e =>
    if e.poison then .error 7
    else
      let t := tdesc e.bytes
      if (if store then t.write else t.read) then .ok t else .error 4

/-- End a load: put the tile where it goes, report poison. -/
def Dev.loadDone (d : Dev) (n : Nat) (c : ECmd) (t : Tile) (src : Nat) (own : Option (Nat × Nat)) : Dev :=
  let d := match own with
    | none => d.pushTile n c t
    | some (off, len) => forNat (ceilDiv len 64) d fun d i =>
        let k := min 64 (len - 64 * i)
        d.lsWrite n (off + 64 * i) (BitVec.ofNat 512 (t.data >>> (512 * i))) (BitVec.ofNat 64 (2 ^ k - 1)) (t.poison.testBit i)
  let d := if t.poison = 0 then d else d.poisonMoved n 3 src
  d.performed n 3 c

/-- The first poisoned word of a load, in the order of its requests. -/
def poisonSrc (order : List Nat) (ws : List (Nat × Line × Bool)) : Nat :=
  (order.find? fun a => ws.any fun w => w.1 == a && w.2.2).getD 0

/-- Read the elements and finish, or wait or fault: `bs` are the elements of the tile, `order` the words in the order of the
requests. -/
def Dev.loadElems (d : Dev) (n : Nat) (c : ECmd) (t : TDesc) (size : Nat) (bs : List (Option Nat)) (order : List Nat)
    (own : Option (Nat × Nat)) : Dev :=
  match d.loadWords n c t order with
  | .wait k d => match k with
    | some k => d.noteWait n 3 c.number k
    | none => d
  | .fault code d => d.faultCmd n 3 c code
  | .ok ws d =>
    let c := ((d.floe n).current 3).getD c
    d.loadDone n c (tileOf size t.eb (bs.map (elemAt ws t.eb))) (poisonSrc order ws) own

/-- Is a range of the floe's own local store addressable: within 2 MiB and clear of the queues (R233, R295)? -/
def Dev.ownRange (d : Dev) (n off len : Nat) : Bool := decide (off + len ≤ 2 ^ 21) && !(d.floe n).inQueue off len

/-- Perform a load command (R295, R323). -/
def Dev.loadPerform (d : Dev) (n : Nat) (c : ECmd) : Dev :=
  let w := c.word.toNat
  let op := bits w 47 43
  let x := bits w 19 16
  let nx := if w.testBit 20 then (c.nx (bits w 23 21)).toNat else 0
  let off := 64 * bits w 14 0
  let fault := fun (d : Dev) (code : Nat) => d.faultCmd n 3 c code
  if op = 4 then
    let len := d.dstSize n c
    if !d.ownRange n off len then fault d 4
    else
      let (t, d) := d.tileRead n off len
      let src := off + 64 * (((List.range (len / 64)).find? t.poison.testBit).getD 0)
      d.loadDone n c t src none
  else match c.descOf false with
    | .error code => fault (d.descPoisoned code) code
    | .ok t =>
      if !t.xformOk x then fault d 4
      else if op = 2 then
        let (it, d) := d.srcTile n c 0
        let count := it.size / 4
        let idx := (List.range count).map it.index
        let pop := fun (d : Dev) => d.updFloe n fun f => c.srcs.foldl Floe.releaseSrc f
        if it.anyPoison then fault (pop d) 7
        else if d.dstSize n c < t.gatherBytes count ∨ idx.any (fun v => (t.indexUse v).isNone) then fault (pop d) 4
        else
          let live := idx.map fun v => if t.indexUse v = some true then some v else none
          let d := if c.counted then d else
            ((d.count (rIdxUsed n) (live.filter Option.isSome).length).count (rIdxSkipped n)
              (live.filter Option.isNone).length).sourcesRead n 3 c
          -- slice by slice in index order, each in element order (R323)
          let order := (live.zipIdx).flatMap fun p => match p.1 with
            | some v => (t.sliceElems count p.2 v).map fun q => some q.2
            | none => []
          d.loadElems n c t (d.dstSize n c) (t.gatherBits live x) (bitWords order) none
      else
        let own := if op = 3 then some (off, t.tb) else none
        let size := if op = 3 then ceilDiv t.tb 64 * 64 else d.dstSize n c
        let k := if op = 3 then nx else (nx + bits w 15 0) % 2 ^ 48
        if op = 1 ∧ size < t.tb then fault d 4
        else if op = 3 ∧ !d.ownRange n off t.tb then fault d 4
        else match t.tileBits k x with
          | none => fault d 4
          | some bs => (d.sourcesRead n 3 c).loadElems n c t size bs (bitWords ((t.tileBits k 0).getD [])) own

/-! ## Stores -/

/-- Put elements into words, later ones over earlier ones, in the order in which their words are first met (R324, R328, R366): bit
address, value, poison. Of a byte in which one 4-bit element is stored, the other half is kept. -/
def storeGroup (eb : Nat) (es : List (Nat × Nat × Bool)) : List StoreW :=
  es.foldl (fun ws e =>
    let a := e.1 / 512 * 64
    let b := e.1 % 512
    let m : BitVec 64 := BitVec.ofNat 64 ((2 ^ ceilDiv eb 8 - 1) * 2 ^ (b / 8))
    let own : Line := BitVec.ofNat 512 ((2 ^ eb - 1) * 2 ^ b)
    let put := fun (x : Line) => (x &&& ~~~own) ||| BitVec.ofNat 512 (e.2.1 % 2 ^ eb * 2 ^ b)
    match findPos (fun w : StoreW => w.addr == a) ws 0 with
    | some (i, w) => putAt ws i { w with data := put w.data, mask := w.mask ||| m, poison := w.poison || e.2.2
                                         keep := (w.keep ||| (maskBits m &&& ~~~(maskBits w.mask))) &&& ~~~own }
    | none => ws ++ [{ addr := a, data := put 0, mask := m, keep := maskBits m &&& ~~~own, poison := e.2.2 }]) []

/-- Store words into a local store in order (R333, R366), counting for slot `n` those written with the mark (R393). -/
def Dev.lsStore (d : Dev) (n m : Nat) : List StoreW → Fetched
  | [] => .ok [] d
  | w :: ws =>
    if (d.floe m).inQueue w.addr 64 then .fault 4 d
    else
      let (marked, d) := d.lsMerge m w.addr w.data w.mask w.keep w.poison
      (if marked then d.count (rPoisonStored n) 1 else d).lsStore n m ws

/-- Store words into a space (R306, R329, R331, R366). No packet carries half a byte: in another device's memory the other half of a
byte in which one 4-bit element is stored is left open (log 14). -/
def Dev.storeWords (d : Dev) (n : Nat) (c : ECmd) (t : TDesc) (ws : List StoreW) : Fetched :=
  let here := fun (m : Option Nat) => match m with
    | none => Fetched.wait (some 7) d
    | some m => if (d.floe n).trkOpen 4 = 0 then .wait none d else d.lsStore n m ws
  match t.space with
  | 1 => here (some n)
  | 2 => here (d.remoteSlot t.remote)
  | _ =>
    let ws := if t.space = 3 then
        ws.map fun w => { w with data := keepBits (Config.freeLine d.freeUses) w.data w.keep, keep := 0 } else ws
    if ws.isEmpty || c.sent then .ok [] d
    else match d.sendWords n 4 c t ws with
      | .wait k d => if (((d.floe n).current 4).map (·.sent)).getD false then .ok [] d else .wait k d
      | o => o

/-- Finish a store with the report of the poison that it moved (R366, R367). -/
def Dev.storeDone (d : Dev) (n : Nat) (c : ECmd) (src : Nat) (poisoned : Bool) : Dev :=
  let d := if poisoned then d.poisonMoved n 4 src else d
  d.performed n 4 (((d.floe n).current 4).getD c)

/-- Store the words of a command and finish, or wait or fault. Words for another device that go out poisoned are counted as
written with the mark (R393). -/
def Dev.storeFinish (d : Dev) (n : Nat) (c : ECmd) (t : TDesc) (ws : List StoreW) (src : Nat) : Dev :=
  match d.storeWords n c t ws with
  | .wait k d => match k with
    | some k => d.noteWait n 4 c.number k
    | none => d
  | .fault code d => d.faultCmd n 4 c code
  | .ok _ d =>
    let bad := (ws.filter (·.poison)).length
    let d : Dev := if t.space = 3 ∧ t.eb = 4 then { d with freeUses := d.freeUses + 1 } else d
    (if t.space = 3 ∧ bad ≠ 0 then d.count (rPoisonStored n) bad else d).storeDone n c src (bad != 0)

/-- Bank-unit format of an accumulating scatter (R327); none for a format it does not take (R325). -/
def scatFmt : Nat → Option Nat
  | 0 => some 5 | 1 => some 2 | 2 => some 1 | 5 => some 6 | 6 => some 3 | 7 => some 4
  | _ => none

/-- The ACCW descriptor of R327 without its place: format, ORDERED. -/
def scatCtrl (fmt : Nat) (ordered : Bool) : Nat := 4 + fmt * 2 ^ 6 + (if ordered then 2 ^ 17 else 0) + 2 ^ 18

/-- An accumulating scatter into a local store: each element is read, added and written as one step, in order (R326, R333, R366).
`marked` are the words written with the mark so far, which are counted once (R393). -/
def Dev.accumLs (d : Dev) (n m fmt eb : Nat) (marked : List Nat) : List (Nat × Nat × Bool) → Fetched
  | [] => .ok [] (if marked.isEmpty then d else d.count (rPoisonStored n) marked.length)
  | e :: es =>
    let a := e.1 / 512 * 64
    if (d.floe m).inQueue a 64 then .fault 4 (if marked.isEmpty then d else d.count (rPoisonStored n) marked.length)
    else
      let nd := nboDesc (BitVec.ofNat 512 (scatCtrl fmt false))
      let (old, d) := d.lsRead m a
      let x := accwElem nd ((old.data.toNat >>> (e.1 % 512)) % 2 ^ eb) (bankVal nd e.2.1)
      match storeGroup eb [(e.1, x, e.2.2)] with
      | w :: _ =>
        let (y, marks, _) := mergeWord old w.data w.mask w.poison w.keep
        let d : Dev := { d with ls := d.ls.writeWord (lsIndex m a) y marks }
        d.accumLs n m fmt eb (if marks != 0 && !marked.contains a then marked ++ [a] else marked) es
      | [] => d.accumLs n m fmt eb marked es

/-- The elements of a column word in groups none of which names a stored element twice, each element in the first group that has
none of its place: two elements of a slice that fall on one stored element are both added (R308, R325; log 145). -/
def apartGroups (es : List (Nat × Nat × Bool)) : List (List (Nat × Nat × Bool)) :=
  es.foldl (fun gs e =>
    match findPos (fun g : List (Nat × Nat × Bool) => !g.any fun x => x.1 == e.1) gs 0 with
    | some (i, g) => putAt gs i (g ++ [e])
    | none => gs ++ [[e]]) []

/-- The NBOs of an accumulating scatter into device memory, in posting order (R327): descriptor and poison of W0. -/
def Dev.scatNbos (d : Dev) (t : TDesc) (fmt : Nat) (ordered : Bool) (slices : List (Nat × List (Nat × Nat × Bool))) :
    List (Line × Bool) :=
  slices.flatMap fun s =>
    let cols := s.2.foldl (fun cs e => insertBy (fun a b : Nat => decide (a < b)) (e.1 / 256) (cs.filter (· != e.1 / 256))) []
    cols.flatMap fun c =>
    (apartGroups (s.2.filter fun e => e.1 / 256 == c)).map fun es =>
      let p := d.place (32 * c)
      let lane := if 5 ≤ fmt then 32 else 16
      let mask := es.foldl (fun m e => m ||| 2 ^ (e.1 % 256 / lane)) 0
      let pay := es.foldl (fun x e => x + e.2.1 % 2 ^ t.eb * 2 ^ (e.1 % 256)) 0
      let words := scatCtrl fmt ordered + (p.ch + p.bank * 2 ^ 5 + p.bank * 2 ^ 11) * 2 ^ 32 + p.row * 2 ^ 64
        + (2 * p.w + p.byte / 32 + mask * 2 ^ 16) * 2 ^ 96 + s.1 * 2 ^ 160
      (BitVec.ofNat 512 (words + pay * 2 ^ 256), es.any fun e => e.2.2)

/-- Post the next NBO of a command once the earlier ones of its floe have been accepted: poison and rejection are met in posting
order (R204, R298, R327); finish when all have been accepted. `bad` counts the words that a scatter's poison reaches. -/
def Dev.postNext (d : Dev) (n : Nat) (c : ECmd) (xs : List (Line × Bool × Bool)) (scat : Bool) (src bad : Nat) : Dev :=
  let lf := d.logicalOf n
  if d.nbos.any fun x => !x.accepted && (match x.poster with
      | .floe f _ => f.toNat == lf
      | _ => false) then d
  else match xs[c.pos]? with
  | none => (if bad = 0 then d else d.count (rPoisonStored n) bad).storeDone n c src (bad != 0)
  | some (desc, w0p, ctrlp) =>
    if ctrlp then d.faultCmd n 4 c 7
    else if scat ∧ (d.floe n).trkOpen 4 = 0 then d
    else
      let (id, d) := d.postNbo desc w0p false (.floe (BitVec.ofNat 7 lf) c.number) (d.floeAccess lf) 1
      let d := d.updCmd n 4 c.number fun x => { x with pos := x.pos + 1, nbos := x.nbos ++ [(id, c.pos)] }
      if scat then d.count (rScatNbo n) 1 else d

/-- STS (R320, R321, R324 to R328, R366). -/
def Dev.scatter (d : Dev) (n : Nat) (c : ECmd) (t : TDesc) (acc ordered : Bool) : Dev :=
  let (s, d) := d.srcTile n c 0
  let (it, d) := d.srcTile n c 1
  let count := it.size / 4
  let idx := (List.range count).map it.index
  let popIdx := fun (d : Dev) => match c.srcs[1]? with
    | some x => d.updFloe n fun f => f.releaseSrc x
    | none => d
  if (acc && ((scatFmt t.fmt).isNone || t.space == 3)) || decide (s.size < t.gatherBytes count) then d.faultCmd n 4 c 4
  else if it.anyPoison then (popIdx d).faultCmd n 4 c 7
  else if idx.any fun v => (t.indexUse v).isNone then (popIdx d).faultCmd n 4 c 4
  else
    let live := (idx.zipIdx).filter fun p => t.indexUse p.1 = some true
    let d := if c.counted then d else
      ((d.count (rIdxUsed n) live.length).count (rIdxSkipped n) (count - live.length)).sourcesRead n 4 c
    let slices := live.map fun p =>
      (p.2, (t.sliceElems count p.2 p.1).map fun q => (q.2, s.elem t.eb q.1, s.elemPoison t.eb q.1))
    let es := slices.flatMap (·.2)
    let src := d.srcPoisonAddr n c [s]
    if !acc then d.storeFinish n c t (storeGroup t.eb es) src
    else
      let fmt := (scatFmt t.fmt).getD 0
      let bad := es.filter fun e => e.2.2
      let here := fun (m : Nat) =>
        if (d.floe n).trkOpen 4 = 0 then d
        else match d.accumLs n m fmt t.eb [] es with
          | .ok _ d => d.storeDone n c src (!bad.isEmpty)
          | .fault code d => d.faultCmd n 4 c code
          | .wait _ d => d
      match t.space with
      | 0 => d.postNext n c ((d.scatNbos t fmt ordered slices).map fun x => (x.1, x.2, false)) true src
          (bitWords (bad.map fun e => some e.1)).length
      | 1 => here n
      | _ => match d.remoteSlot t.remote with
        | none => d.noteWait n 4 c.number 7
        | some m => here m

/-- Perform a store command (R297). -/
def Dev.storePerform (d : Dev) (n : Nat) (c : ECmd) : Dev :=
  let w := c.word.toNat
  let off := 64 * bits w 20 6
  let fault := fun (d : Dev) (code : Nat) => d.faultCmd n 4 c code
  match bits w 31 27 with
  | 3 =>
    let (s, d) := d.srcTile n c 0
    if !d.ownRange n off s.size then fault d 4
    else
      let d := d.tileWrite n off s
      let bad := popCount (s.size / 64) s.poison
      (if bad = 0 then d else d.count (rPoisonStored n) bad).storeDone n c (d.srcPoisonAddr n c [s]) (bad != 0)
  | 4 =>
    let (s, d) := d.srcTile n c 0
    if !d.ownRange n off (s.size / 16) then fault d 4
    else (d.sourcesRead n 4 c).postNext n c ((List.range (s.size / 64)).map fun i =>
      (BitVec.ofNat 512 (s.data >>> (512 * i)), false, s.poison.testBit i)) false 0 0
  | op =>
    match c.descOf true with
    | .error code => fault (d.descPoisoned code) code
    | .ok t =>
      if op = 2 then d.scatter n c t (w.testBit 6) (w.testBit 5)
      else
        let nx := if w.testBit 9 then (c.nx (bits w 12 10)).toNat else 0
        let (s, d) := d.srcTile n c 0
        if s.size < t.tb then fault d 4
        else match t.tileBits ((nx + bits w 8 0) % 2 ^ 48) 0 with
          | none => fault d 4
          | some bs =>
            let es := (bs.zipIdx).filterMap fun p => p.1.map fun b => (b, s.elem t.eb p.2, s.elemPoison t.eb p.2)
            (d.sourcesRead n 4 c).storeFinish n c t (storeGroup t.eb es) (d.srcPoisonAddr n c [s])

/-! ## Rows -/

/-- Opcode of an engine word. -/
def engineOp (e : Nat) (w : BitVec 48) : Nat :=
  match e with
  | 1 => bits w.toNat 47 43
  | 2 => bits w.toNat 39 35
  | 3 => bits w.toNat 47 43
  | _ => bits w.toNat 31 27

/-- The engine performs its issued command, when that is of opcode `op` (R249). -/
def Dev.engineRow (d : Dev) (n e op : Nat) : Dev :=
  let f := d.floe n
  match f.current e with
  | none => d
  | some c =>
    if !f.active || engineOp e c.word != op then d
    else match e with
      | 1 => d.vecPerform n c
      | 2 => d.matPerform n c
      | 3 => d.loadPerform n c
      | _ => d.storePerform n c

end Sys2Proof.Machine
end

