-- ==== Sys2Proof/Machine/Views.lean ====
section
/-! DEFINITION. Registers that report the device's state: what a read of them returns (R41, R46, R86, R118, R125, R170,
R206, R268, R269, R336, R359, R392, R438 to R440, R445, R460). -/

namespace Sys2Proof.Machine

/-- The half of a 64-bit quantity at `base` that an offset reads (R9). -/
def half64 (v : Nat) (o base : Nat) : Reg := BitVec.ofNat 32 (if o = base then v else v / 2 ^ 32)

/-- A register value from its fields: low bit and value. -/
def regOf (fs : List (Nat × Nat)) : Reg := BitVec.ofNat 32 (fs.foldl (fun x f => x + f.2 * 2 ^ f.1) 0)

/-! ## Fields -/

/-- FLD_DRIFTS (R460). -/
def Dev.fldDrifts (d : Dev) (f : Nat) : Nat :=
  (List.range 32).foldl (fun x k =>
    let r := d.reg (rDriftField k)
    if rbit r 31 && fld r 3 0 == f then x + 2 ^ k else x) 0

/-- Regions leased to a field (R460). -/
def Dev.fldRegions (d : Dev) (f : Nat) : Nat :=
  (d.cs.filter fun e => decide (rRegion 0 ≤ e.1) && decide (e.1 < rRegion 0 + 4 * 32768) && rbit e.2 31
    && fld e.2 27 24 == f).length

/-- Semaphores that a field owns (R460). -/
def Dev.fldSems (d : Dev) (f : Nat) : Nat :=
  ((d.cs.filter fun e => decide (rSemOwn 0 ≤ e.1) && decide (e.1 < rSemOwn 0 + 4 * 1024)).map fun e =>
    ((List.range 4).filter fun j => rbit e.2 (8 * j + 7) && fld e.2 (8 * j + 3) (8 * j) == f).length).foldl (· + ·) 0

/-- Tokens held now by atoms that satisfy a predicate (R201). -/
def Dev.tokensNow (d : Dev) (p : Booking → Bool) : Nat := d.tokens (d.clock / 4) p

def Dev.fldTokens (d : Dev) (f : Nat) : Nat := d.tokensNow fun b => b.field == some (BitVec.ofNat 4 f)

/-! ## Attention (R118) -/

/-- A record with NOATTN = 0 lies from CHEAD up to CTAIL, or the ring is in error; an unconfigured ring holds no condition. -/
def Ring.pending (r : Ring) : Bool :=
  r.state == 2 || (r.state != 0 && r.attnEn && r.attnRecs.any fun i => decide ((i - r.chead).toNat < (r.ctail - r.chead).toNat))

/-- The pins to which a condition that holds is routed (R118): bit j for ATTN_n[j]. -/
def Dev.attnRouted (d : Dev) : BitVec 4 :=
  let route := (d.reg rCpAttnRoute).toNat
  let rings := (List.range 4).foldl (fun x j =>
    if d.rings.any fun e => e.2.pending && bits route (2 * e.2.field.toNat + 1) (2 * e.2.field.toNat) == j then x + 2 ^ j
    else x) 0
  let dev := d.reg rCpAttnDev
  let ds := if rbit dev 31 && fld (d.reg rCpDevsrc) 31 28 != 0 then 2 ^ fld dev 1 0 else 0
  BitVec.ofNat 4 (rings ||| ds)

/-- The ATTN_n pins that the device drives low (R118, R496, R520, R551). -/
def Dev.attnLevel (d : Dev) : BitVec 4 :=
  match d.sys.phase with
  | .running => d.attnRouted
  | .tripped => d.sys.tripAttn
  | .dead => d.sys.tripAttn
  | _ => 0

/-- CP_FIELD_PEND (R125). -/
def Dev.fieldPend (d : Dev) : Nat :=
  (List.range 16).foldl (fun x f => if d.rings.any fun e => e.2.pending && e.2.field.toNat == f then x + 2 ^ f else x) 0

/-- CP_RING_PEND of a channel (R125). -/
def Dev.ringPend (d : Dev) (ch : Nat) : Nat :=
  d.rings.foldl (fun x e => if e.1 / 32 == ch && e.2.pending then x + 2 ^ (e.1 % 32) else x) 0

/-- Rings that are not unconfigured. -/
def Dev.ringsUsed (d : Dev) : Nat := (d.rings.filter fun e => e.2.state != 0).length

/-- Commands of a ring whose record waits to be written: they have started and not ended (R94, R114). -/
def Ring.heldCmds (r : Ring) : Nat := (r.heldRecs.filter fun h => h.hist.isSome).length

/-- Commands active on the device (R95, R125): started, and their records not yet written. -/
def Dev.activeCmds (d : Dev) : Nat := (d.rings.map fun e => e.2.heldCmds).foldl (· + ·) d.cmds.length

/-! ## Floe blocks -/

/-- STATE codes of R235. -/
def FloeSt.code : FloeSt → Nat
  | .idle => 0
  | .running => 1
  | .ending => 2
  | .halting => 3
  | .halted => 4
  | .frozen => 5
  | .unassigned => 6

/-- FLOE_HALT_REASON (R268). -/
def Floe.haltReason (f : Floe) : Reg :=
  match f.halt with
  | none => 0
  | some h => regOf [(31, 1), (30, f.more.toNat), (0, h.1.toNat)]

/-- The 64-bit FLOE_HALT_ADDR. -/
def Floe.haltAt (f : Floe) : Nat :=
  match f.halt with
  | none => 0
  | some h => (haltAddr h.2.1 h.2.2.val).toNat

/-- FLOE_RETIRE: the oldest bundle not retired, or pc. -/
def Floe.retireAt (f : Floe) : Nat :=
  match f.bundles with
  | b :: _ => b.pc.toNat
  | [] => f.pc.toNat

/-- The kind of the oldest synchronisation wait and the slot it began in (R359). -/
def Floe.waitKind (f : Floe) : Option (Nat × Nat) :=
  let ws := (if f.waits then f.waitList.map fun w => (0, w.since) else []) ++ (f.engines.flatMap fun es =>
    (es.filter fun c => !c.faulted).filterMap fun c => c.waiting.map fun w => (w.1, w.2.1))
  ws.foldl (fun o w => match o with
    | none => some w
    | some x => if w.2 < x.2 then some w else some x) none

/-- A floe-block register at offset `k` of slot n that reports state (R268, R336, R359). -/
def Dev.floeView (d : Dev) (n k : Nat) : Option Reg :=
  let f := d.floe n
  let l := (f.ident.map fun i => d.logi i.toNat).getD Logical.init
  if k = 0 then
    some (regOf [(31, f.ident.isSome.toNat), (30, (decide (128 ≤ n)).toNat), (29, f.retired.toNat), (0, d.logicalOf n)])
  else if k = 4 then
    let busy := (List.range 6).foldl (fun x s => if (f.engine s).isEmpty then x else x + 2 ^ s) 0
    some (regOf [(29, f.st.code), (16, busy), (0, f.bundles.length)])
  else if k = 8 then some f.haltReason
  else if k = 0x10 ∨ k = 0x14 then some (half64 f.haltAt k 0x10)
  else if k = 0x18 ∨ k = 0x1C then some (half64 f.retireAt k 0x18)
  else if k = 0x20 then some (regOf [(0, l.epoch.toNat)])
  else if 0x44 ≤ k ∧ k < 0x58 then
    let es := f.engine ((k - 0x40) / 4)
    some (regOf [(31, (es.any fun c => c.issued && !c.performed).toNat), (0, es.length)])
  else if 0x80 ≤ k ∧ k < 0x100 then
    match f.queue ((k - 0x80) / 4) with
    | none => some 0
    | some q => some (regOf [(31, 1), (28, q.producer), (25, q.consumer), (13, q.countSt .ready), (0, q.countSt .free)])
  else if 0x4A0 ≤ k ∧ k < 0x4C0 then
    let i := (k - 0x4A0) / 4
    some (BitVec.ofNat 32 ((List.range 32).foldl (fun x j => if (f.entry (32 * i + j)).isSome then x + 2 ^ j else x) 0))
  else if k = 0x500 then
    let loads := f.trkHeld 3
    some (regOf [(16, loads), (0, f.trkHeld 4)])
  else if k = 0x800 ∨ k = 0x804 then some (half64 l.flags.toNat k 0x800)
  else if k = 0x808 then (if f.ident.isSome then none else some 0)
  else if k = 0x80C then
    match f.waitKind with
    | none => some 0
    | some (kind, t) => some (regOf [(31, 1), (28, kind), (0, sat 65535 ((d.clock - t) / 2000))])
  else if k = 0x810 then
    let r := d.reg (rSemSel n)
    -- DENIED is 0 while the slot's floe belongs to no field, as after reset (R11, R359; log 152)
    some (if f.ident.isSome then setBit r 31 ((d.floeField n).isSome && !d.semOwned (d.floeField n) (fld r 11 0)) else 0)
  else if k = 0x818 ∨ k = 0x81C then
    let s := fld (d.reg (rSemSel n)) 11 0
    let v := if f.ident.isNone || !d.semOwned (d.floeField n) s || d.semPoisoned s then 0 else (d.sem s).toNat
    some (half64 v k 0x818)
  else if 0x840 ≤ k ∧ k < 0x8C0 then
    match l.mark with
    | none => some 0
    | some m =>
      if k = 0x840 then some (regOf [(31, 1), (0, m.epoch.toNat)])
      else if k = 0x844 then some m.seq
      else if k = 0x848 ∨ k = 0x84C then some (half64 m.resume.toNat k 0x848)
      else if k = 0x850 ∨ k = 0x854 then some (half64 m.time.toNat k 0x850)
      else if 0x880 ≤ k then
        let v := ((m.n[(k - 0x880) / 8]?).getD 0).toNat
        some (half64 v (k % 8) 0)
      else some 0
  else if 0x900 ≤ k ∧ k < 0xA00 then some (l.counter ((k - 0x900) / 4))
  else if 0xA00 ≤ k ∧ k < 0xB00 then some (l.limit ((k - 0xA00) / 4))
  else none

/-- A logical floe that holds a slot and is not frozen. -/
def Dev.serves (d : Dev) (f : Nat) : Bool :=
  match d.slotOf f with
  | none => false
  | some n => (d.floe n).st != .frozen

/-- A logical floe that is frozen; one without a slot stays so (R383). -/
def Dev.isFrozen (d : Dev) (f : Nat) : Bool :=
  match d.slotOf f with
  | none => true
  | some n => (d.floe n).st == .frozen

/-- DRIFT_MAP, DRIFT_SPARE and DRIFT_FLOES (R269). -/
def Dev.driftView (d : Dev) (dr k : Nat) : Option Reg :=
  if k = 0 then
    some (regOf ((List.range 4).map fun p => (8 * p, (d.slotOf (4 * dr + p)).getD 0xFF)))
  else if k = 4 then
    let n := 128 + dr / 4
    let f := d.floe n
    some (regOf [(31, (!f.retired).toNat), (30, f.ident.isSome.toNat), (8, n), (0, d.logicalOf n)])
  else if k = 8 then
    some (regOf ((List.range 4).flatMap fun p =>
      [(4 + p, (d.isFrozen (4 * dr + p)).toNat), (p, (d.released && d.serves (4 * dr + p)).toNat)]))
  else none

/-! ## Channel blocks -/

/-- Registers of a channel block at offset `k` that report state (R86, R170, R206). -/
def Dev.chanView (d : Dev) (c k : Nat) : Option Reg :=
  let ch := d.chan c
  let h := d.host c
  let die := c / 2
  if k = 0 then
    let waiting := ch.reqs ++ ch.recovery.flatMap (·.waiting)
    let native := (waiting.filter fun r => r.cls == 0 && r.promoted.isNone && r.origin != .repair).length
      + (ch.wbuf.filter fun b => b.native.isSome).length
    let atoms := ((List.range 64).filter fun b => (d.bankNear c b).atom.isSome).length
    let trr := (ch.banks.map fun e => e.2.events.length).foldl (· + ·) 0
    some (regOf [(31, ch.ready.toNat), (30, ch.training.toNat), (29, ch.down.toNat), (28, ch.selfRef.toNat),
      (27, ch.powerDown.toNat), (25, d.band die), (24, (ch.forced || (ch.refUntil.isSome && ch.refForced)).toNat),
      (20, patInt 4 ch.owed), (16, sat 15 native), (8, atoms), (0, sat 255 trr)])
  else if k = 0x2000 then
    let bs := (List.range 64).map fun b => d.bankNear c b
    let slots := (bs.map (·.used)).foldl (· + ·) 0
    some (regOf [(24, slots), (16, (bs.filter fun b => b.exec.isSome).length), (0, d.tokensNow fun b => b.die == die)])
  else if k = 0x2008 then
    -- no cap is in force until DEV_CAP is loaded (R11; log 152)
    some (regOf [(16, if fld (d.reg (rNbToken 0)) 9 0 = 0 then 0 else d.devCap), (0, d.tokensNow fun _ => true)])
  else if 0x2400 ≤ k ∧ k < 0x2500 then
    let b := (k - 0x2400) / 4
    let s := d.bankNear c b
    let gang := match s.exec.bind d.nbo with
      | some x => x.d.chain && !d.nboRuns x
      | none => false
    some (regOf [(30, s.used), (29, s.exec.isSome.toNat), (28, gang.toNat),
      (27, s.tokenWait.toNat), (26, s.atom.isSome.toNat),
      (0, match s.atom with
          | some a => a.row
          | none => s.lastRow)])
  else if k = 0x3000 then
    some (regOf [(31, h.up.toNat), (30, (h.replay || h.inError).toNat), (29, h.training.isSome.toNat), (28, h.down.toNat),
      (26, h.slow.toNat), (16, h.expSeq.toNat), (8, h.nextRseq.toNat), (0, h.lastRack.toNat)])
  else none

/-! ## The other blocks -/

/-- Registers of the peer block that report state (R438 to R440). -/
def Dev.peerView (d : Dev) (o : Nat) : Option Reg :=
  let g := d.group
  let t := d.twin
  if o < 0x400500 then
    let k := d.link ((o - 0x400000) / 0x100)
    let e := o % 0x100
    if e = 0 then
      some (regOf [(31, k.up.toNat), (30, (k.replay || k.inError).toNat), (29, k.training.isSome.toNat), (28, k.down.toNat),
        (16, k.expSeq.toNat), (8, k.laneOk.toNat), (7, k.reversed.toNat), (0, (k.peer.map fun p => p.dev.toNat).getD 0)])
    else if e = 0x10 ∨ e = 0x14 then some (half64 ((k.peer.map fun p => p.uid.toNat).getD 0) e 0x10)
    else none
  else if o = rGrpStat then
    -- FENCING reads 0: the fence of R426 is applied at once
    some (regOf [(31, g.member.toNat), (30, (g.member && g.founder.toNat == d.gdev).toNat),
      (16, if g.member then g.founder.toNat else 0), (0, d.gdev)])
  else if o = rGrpEpoch then some (regOf [(0, g.epoch.toNat)])
  else if o = rGrpMembers ∨ o = rGrpMembers + 4 then some (half64 g.set.toNat o rGrpMembers)
  else if o = rTwinStat then
    -- SYNCED is 0 while the device has no twin, as after reset (R11, R440; log 152)
    some (regOf [(31, t.paired.toNat), (30, (t.paired && t.partnerHolds && (d.link 4).up).toNat),
                 (29, (t.paired && t.outSync.isEmpty).toNat),
      (28, t.resync.isSome.toNat), (0, sat 65535 t.outSync.length)])
  else if o = rTwinUid ∨ o = rTwinUid + 4 then some (half64 t.partner.toNat o rTwinUid)
  else if o = rTwinLag then
    some (regOf [(0, sat 65535 (d.remotes.filter fun r => match r.who with
      | .mirror _ => true
      | _ => false).length)])
  else none

/-- Registers of the moraine block that report state (R373, R392). -/
def Dev.morView (d : Dev) (o : Nat) : Option Reg :=
  if o < rMorStat then
    let i := (o - rMorEntry 0 0) / 32
    let e := tabGet (fun _ => 0) d.mor i
    -- an entry that reads uncorrectable stands as ENTRY_LOST (R362, R375)
    let e : BitVec 256 := if tabGet (fun _ => false) d.morUe i then BitVec.ofNat 256 (0x00FF * 2 ^ 96 + 2 * 2 ^ 112) else e
    some (BitVec.ofNat 32 (fieldAt e.toNat (o % 32) 4))
  else if o = rMorStat then
    let cfg := d.reg rMorCfg
    let ahead := (d.reg rMorTail - d.reg rMorHead).toNat
    let full := rbit cfg 31 && decide (2 ^ fld cfg 20 16 ≤ ahead)
    let copying := rbit cfg 31 && !full && d.reg rMorTail != d.reg rMorSeq
    some (setBit (setBit (d.reg rMorStat) 31 copying) 30 full)
  else none

/-- Registers of the thermal block that report state (R512, R517, R519, R521, R523). -/
def Dev.thmView (d : Dev) (o : Nat) : Option Reg :=
  let degraded := [32, 33].any fun p => fld (d.reg (rPwrPhase p)) 31 30 != 0
  if o = rThmStat then
    let s := fld (d.reg rThmStat) 22 16
    let dies := (List.range 16).map fun i => d.reg (rThmDram i)
    let bases := (List.range 9).map fun k => d.reg (rThmBase k)
    let slow := (List.range 34).any fun p => decide (fld (d.reg (rPwrPhase p)) 29 23 < 64)
    let hot := (dies ++ bases).foldl (fun x r => max x (sextInt 12 (fld r 11 0))) (-2048)
    some (regOf [(31, (decide (s < 64) || slow).toNat), (30, ((dies ++ bases).any fun r => rbit r 31).toNat),
      (29, (dies.any fun r => rbit r 30).toNat), (28, (dies.any fun r => fld r 29 28 == 3).toNat), (16, s), (0, patInt 12 hot)])
  else if o = rThmTrip then
    match d.sys.cooling with
    | some t => some (setFld (d.reg o) 10 0 (1000 - min 1000 ((d.clock - t) / 2000000)))
    | none => none
  else if o = rPwrLimit then
    let w := fld (d.reg o) 7 0
    some (setFld (d.reg o) 31 24 (if degraded then min w 120 else w))
  else if o = rPwrStat then some (setBit (d.reg o) 30 degraded)
  else if o = rClkStat then
    some (setFld (d.reg o) 10 0 (if rbit (d.reg o) 31 then 1200 * fld (d.reg rThmStat) 22 16 / 64 else 0))
  else if rPwrPhase 0 ≤ o ∧ o < rPwrPhase 34 ∧ rbit (d.reg o) 30 then some (setFld (d.reg o) 9 0 1000)
  else none

/-- What a read of a register that reports state returns; none for a register that holds its own value. -/
def Dev.view (d : Dev) (o : Nat) : Option Reg :=
  if o < 0x10000 then
    if o = rUidLo ∨ o = rUidHi then some (half64 d.fuses.uid.toNat o rUidLo)
    else if o = rTimeLo ∨ o = rTimeHi then some (half64 d.time.toNat o rTimeLo)
    else if o = rTimeStat then some (setBit (d.reg rTimeStat) 31 d.timeRun)
    else if o = rCpStat then
      some (regOf [(31, (rbit (d.reg rCpStat) 31).toNat), (16, d.activeCmds), (0, d.ringsUsed)])
    else if o = rCpAttnLevel then some (regOf [(0, d.sys.attn.toNat)])
    else if o = rCpFieldPend then some (BitVec.ofNat 32 d.fieldPend)
    else if rCpRingPend 0 ≤ o ∧ o < rCpRingPend 32 then some (BitVec.ofNat 32 (d.ringPend ((o - rCpRingPend 0) / 4)))
    else none
  else if o < 0x20000 then d.thmView o
  else if o < 0x21000 then
    let f := (o - 0x20000) / 0x100
    match o % 0x100 with
    | 0 => some (BitVec.ofNat 32 (d.fldDrifts f))
    | 4 => some (regOf [(16, d.fldSems f), (0, sat 65535 (d.fldRegions f))])
    | 0xC => some (regOf [(0, d.fldTokens f)])
    | _ => none
  else if rRegion 0 ≤ o ∧ o < rRegion 32768 then
    let r := (o - rRegion 0) / 4
    if tabGet (fun _ => false) d.regionUe r then some 0 else some (setBit (d.reg o) 16 (d.twin.outSync.contains r))
  else if o < 0x100000 then none
  else if o < 0x180000 then d.chanView ((o - 0x100000) / 0x4000) (o % 0x4000)
  else if o < 0x200000 then none
  else if o < 0x288000 then d.floeView ((o - 0x200000) / 0x1000) (o % 0x1000)
  else if o < 0x300000 then none
  else if o < 0x320000 then d.driftView ((o - 0x300000) / 0x1000) (o % 0x1000)
  else if o < 0x400000 then none
  else if o < 0x500000 then d.peerView o
  else d.morView o

/-- The value of a register (R12): 0 at an offset that holds none. -/
def Dev.regValue (d : Dev) (o : Nat) : Reg :=
  match regRow o with
  | none => 0
  | some _ => (d.view o).getD (d.reg o)

end Sys2Proof.Machine
end

