-- ==== Sys2Proof/Machine/Rings.lean ====
section
/-! DEFINITION. Command rings: doorbells (R87 to R96), fetching and tickets (R97 to R102), the order of argument checks
(R103, R104), completion records (R111 to R114), ring errors (R115) and timeouts (R116, R117). -/

namespace Sys2Proof.Machine

/-! ## Packets -/

def Cmd.pk (c : Cmd) : Nat := c.packet.toNat
def Cmd.ticket (c : Cmd) : BitVec 32 := BitVec.ofNat 32 c.pk
def Cmd.opcode (c : Cmd) : Nat := fieldAt c.pk 4 1
def Cmd.flags (c : Cmd) : Nat := fieldAt c.pk 5 1
def Cmd.sem (c : Cmd) : Nat := fieldAt c.pk 8 2
/-- Argument of `n` bytes at byte `k` (R104). -/
def Cmd.arg (c : Cmd) (k n : Nat) : Nat := fieldAt c.pk k n

/-- The field and world that a command acts with (R98, R444). -/
def Cmd.access (c : Cmd) : Access := { field := some c.field, secure := c.secure, host := false }
def Ring.access (r : Ring) : Access := { field := some r.field, secure := r.secure, host := false }

def Dev.cmd (d : Dev) (n : Nat) (i : BitVec 32) : Option Cmd := d.cmds.find? fun c => c.ring.val == n && c.idx == i
def Dev.updCp (d : Dev) (n : Nat) (i : BitVec 32) (f : Cmd → Cmd) : Dev :=
  { d with cmds := d.cmds.map fun c => if c.ring.val == n && c.idx == i then f c else c }

/-- End a command's own work with a status and results (R111); words read for it are dropped. -/
def Dev.endCmd (d : Dev) (c : Cmd) (status : Nat) (r0 : Nat := 0) (r1 : Nat := 0) : Dev :=
  let e : CmdEnd := { status := BitVec.ofNat 8 status, r0 := BitVec.ofNat 64 r0, r1 := BitVec.ofNat 64 r1 }
  (d.forget fun o => o == .ring c.ring c.idx).updCp c.ring.val c.idx fun c => { c with begun := true, done := some e }

/-! ## Memory accesses of the command processor -/

/-- The accesses that a command issues (R98): of class FLAGS.CLASS, which at the drift port is 1 where it asks for 0 (R137; log 138). -/
def Cmd.mover (c : Cmd) : Mover :=
  let k := c.flags / 4 % 4
  { origin := .ring c.ring c.idx, port := 1, cls := if k = 0 then 1 else BitVec.ofNat 2 k, field := some c.field }

/-- The accesses that the command processor makes of its own for ring n: fetches, records and history, of class 1 (R98). -/
def Ring.mover (r : Ring) (n : Nat) : Mover := { origin := .fetch (Fin.ofNat 1024 n), port := 1, cls := 1, field := some r.field }

/-- The bytes of a word that a store of `k` bytes at an address enables. -/
def bytesMask (a k : Nat) : BitVec 64 := BitVec.ofNat 64 ((2 ^ k - 1) * 2 ^ (a % 64))

/-- Store bytes of one 64-byte word (R98); a write to a down channel is lost (R371). -/
def Dev.cpBytes (d : Dev) (m : Mover) (a : Nat) (bs : List (BitVec 8)) : Dev :=
  if d.wordDown (d.wordOf a) then d
  else (d.storeMasked m (d.wordOf a) (BitVec.ofNat 512 (leNat bs * 2 ^ (8 * (a % 64)))) (bytesMask a bs.length) false).1

/-- Store a whole word, perhaps poisoned. -/
def Dev.cpWord (d : Dev) (m : Mover) (a : Nat) (x : Line) (poison : Bool) : Dev :=
  if d.wordDown (d.wordOf a) then d else (d.storeMasked m (d.wordOf a) x (BitVec.allOnes 64) poison).1

/-- Must a store of some bytes of a word wait: its region is being zeroed, it finds no room, or the word must first come from the
twin (R149, R369, R454)? -/
def Dev.cpWaits (d : Dev) (m : Mover) (a : Nat) (mask : BitVec 64 := BitVec.allOnes 64) : Bool :=
  let n := d.wordOf a
  d.regionHeld a || (!d.wordDown n && (d.storeWaits m.origin n || d.mergeRecovers n mask))

/-- A store that waits for a recovery begins it (R369). -/
def Dev.cpStall (d : Dev) (a : Nat) (mask : BitVec 64) : Dev :=
  if d.mergeRecovers (d.wordOf a) mask then d.mergeRecover (d.wordOf a) else d

/-! ## Errors, attention and semaphores -/

/-- A ring enters error with its first code (R115). -/
def Dev.ringError (d : Dev) (n code : Nat) : Dev :=
  let r := d.ring n
  if r.state = 2 then d
  else (d.setRing n { r with state := 2, error := BitVec.ofNat 8 code }).report (0x300 + code) 2 5 n 0 0 (some r.field)

/-- The SEM increment of R114: only by the owner's field and never on a poisoned semaphore (R339, R368). -/
def Dev.semIncrement (d : Dev) (field : BitVec 4) (sem : Option Nat) : Dev :=
  match sem with
  | none => d
  | some s => if s < 4096 && d.semOwned (some field) s && !d.semPoisoned s then d.setSem s (d.sem s + 1) else d

/-! ## Records -/

/-- The 32 bytes of a record without TIME and PHASE (R111). -/
def recordBytes (ticket opcode status : Nat) (dup : Bool) (r0 r1 : Nat) : BitVec 256 :=
  BitVec.ofNat 256 (ticket % 2 ^ 32 + opcode % 256 * 2 ^ 32 + status % 256 * 2 ^ 40 + dup.toNat * 2 ^ 48
    + r0 % 2 ^ 64 * 2 ^ 128 + r1 % 2 ^ 64 * 2 ^ 192)

/-- PHASE of record i (R111). -/
def Ring.phase (r : Ring) (i : BitVec 32) : Nat := if i.toNat / 2 ^ r.log2 % 2 = 0 then 1 else 0

def Ring.cplAddr (r : Ring) (i : BitVec 32) : Nat := r.cpl.toNat + 32 * (i.toNat % 2 ^ r.log2)
def Ring.pktAddr (r : Ring) (i : BitVec 32) : Nat := r.base.toNat + 64 * (i.toNat % 2 ^ r.log2)
def Ring.histAddr (r : Ring) (t : Nat) : Nat := r.hist.toNat + 32 * (t % 4096)

/-- The moraine entry of a record whose status is not OK (R112, R375). -/
def Dev.recordReport (d : Dev) (n status ticket : Nat) : Dev :=
  if status = 0 then d
  else d.report (0x200 + status) (if status = 7 ∨ status = 0xB ∨ status = 0xE then 2 else 0) 5 n ticket 0
    (some (d.ring n).field)

/-- A record or history write is refused: no record of the ring is written any more, and the SEM increments of the
records that wait are made (R114, R115). -/
def Dev.cplWrite (d : Dev) (n : Nat) : Dev :=
  let r := d.ring n
  let d := d.setRing n { r with cplDead := true, heldRecs := [] }
  let d := r.heldRecs.foldl (fun d h => d.semIncrement r.field h.sem) d
  d.ringError n 5

/-- The original's record for a duplicate (R102): none until its word has been read. -/
def Dev.historyCopy (d : Dev) (n : Nat) (h : HeldRec) (t : BitVec 32) : Option (BitVec 256) × Dev :=
  let r := d.ring n
  let a := r.histAddr t.toNat
  let lost := fun (d : Dev) =>
    let x := recordBytes t.toNat (fieldAt h.bytes.toNat 4 1) 0xE true 0 0
    (some x, (d.regionLost a).recordReport n 0xE t.toNat)
  if !d.mayAccess r.access a false then lost d
  else if d.regionHeld a then (none, d)
  else match d.tsvRead (r.mover n) (d.wordOf a) with
    | (none, d) => (none, d)
    | (some w, d) =>
      if w.poison then lost d
      else
        let x := (w.data.toNat >>> (8 * (a % 64))) % 2 ^ 256
        (some (recordBytes (fieldAt x 0 4) (fieldAt x 4 1) (fieldAt x 5 1) true (fieldAt x 16 8) (fieldAt x 24 8)), d)

/-- Must the write of a record, or of its history, wait (R111, R114)? A write that its check refuses does not. -/
def Dev.recordWaits (d : Dev) (n : Nat) (h : HeldRec) : Bool :=
  let r := d.ring n
  let busy := fun (a : Nat) => d.mayAccess r.access a true && d.cpWaits (r.mover n) a (bytesMask a 32)
  busy (r.cplAddr h.idx) || (match h.hist with
    | some t => busy (r.histAddr t)
    | none => false)

/-- The record of these bytes is written at CTAIL, then its history, then the SEM increment is made (R111, R114). -/
def Dev.recordWrite (d : Dev) (n : Nat) (h : HeldRec) (x : BitVec 256) : Dev :=
  let r := d.ring n
  let a := r.cplAddr h.idx
  if !d.mayAccess r.access a true then ((d.regionLost a).cplWrite n).semIncrement r.field h.sem
  else
    let y := x ||| BitVec.ofNat 256 (r.phase h.idx * 2 ^ 49 + d.time.toNat * 2 ^ 64)
    let d := d.cpBytes (r.mover n) a (toLe 32 y.toNat)
    let d := d.updRing n fun r => { r with ctail := r.ctail + 1
                                           attnRecs := if h.noattn then r.attnRecs else r.attnRecs ++ [h.idx] }
    match h.hist with
    | none => d.semIncrement r.field h.sem
    | some t =>
      let b := r.histAddr t
      if !d.mayAccess r.access b true then ((d.regionLost b).cplWrite n).semIncrement r.field h.sem
      else (d.cpBytes (r.mover n) b (toLe 32 y.toNat)).semIncrement r.field h.sem

/-- Write the record at CTAIL; false while it must wait. -/
def Dev.writeRecord (d : Dev) (n : Nat) (h : HeldRec) : Bool × Dev :=
  let r := d.ring n
  if d.recordWaits n h then
    let stall := fun (d : Dev) (a : Nat) => d.cpStall a (bytesMask a 32)
    let d := stall d (r.cplAddr h.idx)
    (false, match h.hist with
      | some t => stall d (r.histAddr t)
      | none => d)
  else match h.dupOf with
    | none => (true, d.recordWrite n h h.bytes)
    | some t => match d.historyCopy n h t with
      | (none, d) => (false, d)
      | (some x, d) => (true, d.recordWrite n h x)

/-- A record waits (R113). -/
def Dev.holdRecord (d : Dev) (n : Nat) (h : HeldRec) : Dev := d.updRing n fun r => { r with heldRecs := r.heldRecs ++ [h] }

/-- A command's record is due: written at once when it is the next, held otherwise (R113). -/
def Dev.finishRecord (d : Dev) (n : Nat) (h : HeldRec) : Dev :=
  let r := d.ring n
  if r.cplDead then d.semIncrement r.field h.sem
  else if h.idx = r.ctail then
    let (ok, d) := d.writeRecord n h
    if ok then d else d.holdRecord n h
  else d.holdRecord n h

/-- HELD_RECORD_WRITE: the record held for the index at CTAIL is written (R113). -/
def Dev.heldRecord (d : Dev) (n : Nat) : Dev :=
  let r := d.ring n
  match findPos (fun h : HeldRec => h.idx == r.ctail) r.heldRecs 0 with
  | none => d
  | some (i, h) => (d.setRing n { r with heldRecs := dropAt r.heldRecs i }).finishRecord n h

/-! ## The end of a command -/

/-- Bits [40:5] of FLOE_HALT_ADDR above the halt code: RESULT1 of a HALTED record (R105). -/
def haltResult (code : Nat) (addr : Nat) : Nat := code + bits addr 40 5 * 2 ^ 8

/-- How a command that has begun ends, when its own work has ended (R105, R106, R108, R117). -/
def Dev.outcome (d : Dev) (c : Cmd) : Option CmdEnd :=
  match c.done with
  | some e => some e
  | none =>
    if !c.begun then none
    else match c.opcode with
      | 0x01 =>
        if !c.floes.isEmpty then none
        else match c.halted, c.frozen with
          | some (f, code, a), _ => some { status := 8, r0 := f.zeroExtend 64, r1 := BitVec.ofNat 64 (haltResult code.toNat a.toNat) }
          | none, some f => some { status := 9, r0 := f.zeroExtend 64, r1 := 0 }
          | none, none => some { status := 0, r0 := 0, r1 := 0 }
      | 0x02 =>
        if c.timedOut then
          if c.count < c.pos then none else some { status := 7, r0 := BitVec.ofNat 64 c.count, r1 := 0 }
        else if c.pos < c.arg 16 4 ∨ c.count < c.pos then none
        else match c.firstErr with
          | some (i, s) => some { status := s, r0 := BitVec.ofNat 64 i, r1 := 0 }
          | none => some { status := 0, r0 := 0, r1 := 0 }
      | 0x08 =>
        match d.slotOf (c.arg 16 2) with
        | some n => if (d.floe n).fencing then none else some { status := 0, r0 := 0, r1 := 0 }
        | none => some { status := 0, r0 := 0, r1 := 0 }
      | _ => none

/-- COMMAND_END (R112 to R114). -/
def Dev.commandEnd (d : Dev) (n : Nat) (i : BitVec 32) : Dev :=
  match d.cmd n i with
  | none => d
  | some c =>
    match d.outcome c with
    | none => d
    | some e =>
      let d : Dev := { d with cmds := d.cmds.filter fun x => !(x.ring.val == n && x.idx == i) }
      let d := d.recordReport n e.status.toNat c.ticket.toNat
      d.finishRecord n
        { idx := i, bytes := recordBytes c.ticket.toNat c.opcode e.status.toNat false e.r0.toNat e.r1.toNat, dupOf := none,
          hist := some c.ticket.toNat, noattn := c.flags.testBit 1, sem := some c.sem }

/-! ## Doorbells -/

/-- The checks of R89 on a doorbell access, in the places of checks 2, 5 and 6 of R78; 0 when all pass. -/
def Dev.doorbellStatus (d : Dev) (n srcid : Nat) (secure : Bool) : Nat :=
  let r := d.ring n
  if r.state = 0 || !rbit (d.reg rCpStat) 31 then 3
  else if secure ≠ r.secure then 5
  else if d.hstField (n / 32) srcid ≠ some r.field then 4
  else 0

/-- Apply a doorbell that passed its checks (R92, R93): `x` is its data with the bytes not enabled as 0. -/
def Dev.doorbell (d : Dev) (n : Nat) (x : Nat) : Dev :=
  let valid := fieldAt x 8 1
  let r := d.ring n
  if valid / 4 ≠ 0 ∨ x >>> 72 ≠ 0 then d.setRing n { r with dbReject := sat 0xFFFF (r.dbReject + 1) }
  else
    let d := if valid.testBit 0 then
        let t := BitVec.ofNat 32 x
        if (t - r.head).toNat ≤ 2 ^ r.log2 ∧ (t - r.tail).toNat ≤ 2 ^ r.log2 then d.setRing n { r with tail := t }
        else d.ringError n 1
      else d
    if valid.testBit 1 then
      let h := BitVec.ofNat 32 (fieldAt x 4 4)
      let r := d.ring n
      if (h - r.chead).toNat ≤ (r.ctail - r.chead).toNat then
        d.setRing n { r with chead := h, attnRecs := r.attnRecs.filter fun i => decide ((i - h).toNat < (r.ctail - h).toNat) }
      else d.ringError n 2
    else d

/-- The enabled bytes of a doorbell, the others as 0 (R92). -/
def doorbellData (data : Line) (mask : BitVec 64) : Nat := (mergeLine 0 data mask).toNat

/-- Commands of a ring that have started and not ended, by index: a command ends with its record (R94, R109, R114). -/
def Dev.ringActive (d : Dev) (n : Nat) : List (BitVec 32) :=
  (d.cmds.filter fun c => c.ring.val == n).map (·.idx) ++ ((d.ring n).heldRecs.filter fun h => h.hist.isSome).map (·.idx)

/-- Has every earlier packet of a ring ended, with its record written (R97, R109)? -/
def Dev.ringQuiet (d : Dev) (n : Nat) : Bool := (d.ringActive n).isEmpty && (d.ring n).heldRecs.isEmpty

/-- Has a command not ended yet? -/
def Dev.cmdOpen (d : Dev) (n : Nat) (i : BitVec 32) : Bool := (d.ringActive n).contains i

/-- Is a started NBO_POST of the ring stalled (R95, R204): its posted NBO waits for a slot, or it has descriptors left at
the bound of 4,096? -/
def Dev.ringStalled (d : Dev) (n : Nat) : Bool :=
  (d.cmds.any fun c => c.ring.val == n && c.opcode == 2 && c.begun && c.done.isNone && !c.timedOut
    && decide (c.pos < c.arg 16 4) && decide (4096 ≤ d.nearUsed)) || d.nbos.any fun x => !x.accepted && (match x.poster with
    | .ring m _ _ => m.val == n
    | _ => false) && x.d.banks.any fun b => decide (2 ≤ (d.bankNear x.d.ch b).used)

/-- No completion slot is free (R95). -/
def Ring.full (r : Ring) : Bool := decide (2 ^ r.log2 ≤ (r.head - r.chead).toNat)

/-- Is fetching held (R95)? -/
def Dev.ringHeld (d : Dev) (n : Nat) : Bool :=
  decide (64 ≤ (d.ringActive n).length) || decide (1024 ≤ d.activeCmds) || (d.ring n).full || d.ringStalled n

/-- The doorbell status of R94. -/
def Dev.ringStatus (d : Dev) (n : Nat) : Line :=
  let r := d.ring n
  let busy := r.head != r.tail && d.ringHeld n
  BitVec.ofNat 512 (r.tail.toNat + r.chead.toNat * 2 ^ 32 + r.head.toNat * 2 ^ 64 + r.ctail.toNat * 2 ^ 96
    + r.hticket.toNat * 2 ^ 128 + r.epoch.toNat * 2 ^ 160 + r.state.val * 2 ^ 176
    + (busy.toNat + 2 * r.full.toNat + 4 * r.pending.toNat) * 2 ^ 184
    + (if r.state = 2 then r.error.toNat else 0) * 2 ^ 192 + (d.ringActive n).length * 2 ^ 200 + r.dbReject * 2 ^ 208)

/-! ## Starting commands -/

/-- The opcodes of R103 and R435. -/
def opcodes : List Nat := [0, 1, 2, 3, 4, 5, 6, 7, 8, 9, 0x10, 0x11, 0x12, 0x13, 0x20, 0x21, 0x22, 0x23, 0x24, 0x25, 0x26, 0x27]
def adminOp (op : Nat) : Bool := (decide (0x10 ≤ op) && decide (op < 0x14)) || (decide (0x20 ≤ op) && decide (op < 0x26))
def secureOp (op : Nat) : Bool := op == 0x12 || op == 0x13 || (decide (0x20 ≤ op) && decide (op < 0x26))

/-- The argument bytes of an opcode: offset and length; every other byte from 16 is reserved (R104, R435). -/
def argBytes : Nat → List (Nat × Nat)
  | 0x01 => [(16, 2), (18, 2), (20, 4), (24, 8), (32, 8)]
  | 0x02 => [(16, 4), (24, 8)]
  | 0x03 => [(16, 8), (24, 8), (32, 8)]
  | 0x04 => [(24, 8), (32, 8), (40, 8)]
  | 0x05 => [(16, 1)]
  | 0x06 => [(16, 1), (18, 2), (24, 8)]
  | 0x07 => [(16, 2), (24, 24)]
  | 0x08 => [(16, 2)]
  | 0x09 => [(16, 2)]
  | 0x10 => [(16, 2), (18, 1), (19, 1), (20, 4), (24, 8), (32, 8), (40, 8), (48, 2)]
  | 0x11 => [(16, 2)]
  | 0x12 => [(16, 1), (24, 8)]
  | 0x13 => [(16, 4)]
  | 0x21 => [(16, 1), (20, 2)]
  | 0x23 => [(24, 8)]
  | 0x25 => [(16, 4), (20, 4)]
  | 0x26 => [(16, 1), (17, 1), (18, 1), (20, 4), (24, 8), (32, 8), (40, 8), (48, 8), (56, 8)]
  | 0x27 => [(24, 8)]
  | _ => []

/-- Are the bytes outside a list of places zero, from `lo` up to `hi`? -/
def onlyBytes (x lo hi : Nat) (fs : List (Nat × Nat)) : Bool :=
  (List.range (hi - lo)).all fun i =>
    let k := lo + i
    fieldAt x k 1 == 0 || fs.any fun f => decide (f.1 ≤ k) && decide (k < f.1 + f.2)

/-- The rules of R100 on a packet's header: reserved bits, SEM, and the argument bytes not listed. -/
def Cmd.headerOk (c : Cmd) : Bool :=
  c.flags / 16 == 0 && (decide (c.sem < 4096) || c.sem == 0xFFFF) && c.arg 10 6 == 0
    && onlyBytes c.pk 16 64 (argBytes c.opcode)

/-- The KIND or SUBOP of an opcode whose rows differ by it lies in its range. -/
def Cmd.kindOk (c : Cmd) : Bool :=
  match c.opcode with
  | 0x06 => decide (c.arg 16 1 ≤ 2)
  | 0x12 => decide (c.arg 16 1 ≤ 3)
  | 0x26 => decide (c.arg 16 1 ≤ 4)
  | _ => true

/-- The checks of R104 that a packet meets when it starts: BAD_OPCODE, NOT_ADMIN, WORLD, and BAD_ARGS of its header. -/
def Dev.startStatus (d : Dev) (c : Cmd) : Nat :=
  let r := d.ring c.ring.val
  if !opcodes.contains c.opcode then 1
  else if adminOp c.opcode && !r.admin then 0xF
  else if (secureOp c.opcode || (c.opcode == 0x10 && (c.arg 19 1).testBit 1)) && !r.secure then 4
  else if !c.headerOk || !c.kindOk then 2
  else 0

/-- The commands that a FENCE waits for (R104): earlier ones of the ring, or of the field. -/
def Dev.fenceSet (d : Dev) (c : Cmd) : List (Nat × BitVec 32) :=
  (d.cmds.filter fun x => if c.arg 16 1 = 0 then x.ring == c.ring else x.field == c.field).map (fun x => (x.ring.val, x.idx))
    ++ d.rings.flatMap fun e =>
      if (if c.arg 16 1 = 0 then e.1 == c.ring.val else e.2.field == c.field && e.2.state != 0) then
        e.2.heldRecs.filterMap fun h => if h.hist.isSome then some (e.1, h.idx) else none
      else []

/-- PACKET_FETCH (R95, R97, R99, R101, R102). -/
def Dev.packetFetch (d : Dev) (n : Fin 1024) : Dev :=
  let r := d.ring n.val
  if !rbit (d.reg rCpStat) 31 || r.state ≠ 1 || r.head == r.tail || d.ringHeld n.val then d
  else
    let a := r.pktAddr r.head
    if r.ue then d.ringError n.val 3
    else if d.regionHeld a then d
    else if !d.mayAccess r.access a false then (d.regionLost a).ringError n.val 4
    else match d.tsvRead (r.mover n.val) (d.wordOf a) with
      | (none, d) => d
      | (some w, d) =>
        let d := d.sramRead 8 n.val
        if w.poison then d.ringError n.val 3
        else
          let c : Cmd := { ring := n, idx := r.head, packet := w.data, field := r.field, secure := r.secure, begun := false,
                           since := d.clock, pos := 0, count := 0, firstErr := none,
                           timedOut := false, nboWaits := [], entryWaits := [], floes := [], halted := none, frozen := none, awaits := [],
                           posted := false, buffer := [], done := none }
          let ahead := (c.ticket - r.hticket).toNat
          let back := (r.hticket - c.ticket).toNat
          if ahead = 1 then
            -- FENCE: the packet starts only after every earlier packet of the ring has ended
            if c.flags.testBit 0 && !d.ringQuiet n.val then d
            else
              let c := if c.opcode = 5 then { c with awaits := d.fenceSet c } else c
              let d := d.setRing n.val { r with head := r.head + 1, hticket := c.ticket, nacc := min (r.nacc + 1) 4096 }
              let st := d.startStatus c
              let d : Dev := { d with cmds := d.cmds ++ [c] }
              if st = 0 then d else d.endCmd c st
          else
            let d := d.setRing n.val { r with head := r.head + 1 }
            if back < r.nacc then
              d.finishRecord n.val { idx := r.head, bytes := recordBytes 0 c.opcode 0 true 0 0, dupOf := some c.ticket, hist := none,
                                     noattn := c.flags.testBit 1, sem := none }
            else
              (d.recordReport n.val 6 c.ticket.toNat).finishRecord n.val
                { idx := r.head, bytes := recordBytes c.ticket.toNat c.opcode 6 false 0 0, dupOf := none, hist := none,
                  noattn := c.flags.testBit 1, sem := none }

/-! ## Checks that the command rows share -/

/-- A device address of an argument: bits [63:36] zero, and aligned. -/
def addrOk (a align : Nat) : Bool := decide (a < 2 ^ 36) && a % align == 0

/-- Checks 5 and 6 of R104 over every range a command names: WORLD before NO_LEASE. -/
def Dev.rangesStatus (d : Dev) (x : Access) (rs : List (Nat × Nat × Bool)) : Nat :=
  let named := rs.flatMap fun r => (regionsOf r.1 r.2.1).map fun a => (a, r.2.2)
  let inside := named.filter fun a => decide (a.1 < 2 ^ 36)
  if inside.any fun a => !d.worldOk x a.1 a.2 then 4
  else if (rs.any fun r => decide (2 ^ 36 < r.1 + r.2.1)) || inside.any fun a => !d.leaseOk x a.1 then 3
  else 0

/-- A command ends with the outcome of its checks: where a region it names cannot be read, that is reported (R372). -/
def Dev.endChecked (d : Dev) (c : Cmd) (rs : List (Nat × Nat × Bool)) (status : Nat) (r0 : Nat := 0) : Dev :=
  (if status = 3 then (rs.flatMap fun r => regionsOf r.1 r.2.1).foldl (fun d a => d.regionLost a) d else d).endCmd c status r0

/-- The SEM of a packet belongs to the ring's field, or there is none (R104). -/
def Dev.semOk (d : Dev) (c : Cmd) : Bool := c.sem == 0xFFFF || d.semOwned (some c.field) c.sem

/-- The command of a row: of the opcode, started, not ended. -/
def Dev.rowCmd (d : Dev) (n : Nat) (i : BitVec 32) (op : Nat) : Option Cmd :=
  match d.cmd n i with
  | none => none
  | some c => if c.opcode == op && c.done.isNone && !c.timedOut then some c else none

/-- The order of the checks from BAD_ARGS on (R104): arguments, ranges, ownership, state. -/
def Dev.checkArgs (d : Dev) (c : Cmd) (argsOk : Bool) (ranges : List (Nat × Nat × Bool)) (owned : Bool) (state : Nat) : Nat :=
  if !argsOk then 2
  else
    let rs := d.rangesStatus c.access ranges
    if rs ≠ 0 then rs
    else if !d.semOk c || !owned then 5
    else state

/-! ## Timeouts -/

/-- Is the opcode subject to a timeout (R103, R435, R455)? -/
def timedOp (op : Nat) : Bool := [1, 2, 3, 4, 5, 7, 0x12, 0x21, 0x23, 0x25, 0x26].contains op

/-- The timeout of a command in ms; 0xFFFF for none (R116). -/
def Dev.timeoutMs (d : Dev) (c : Cmd) : Nat :=
  if c.arg 6 2 ≠ 0 then c.arg 6 2
  else if (d.ring c.ring.val).rtimeout ≠ 0 then (d.ring c.ring.val).rtimeout.toNat
  else fld (d.reg rCpTimeout) 15 0

/-- The links that the traffic or the recoveries of a command may use, by its opcode (R116, R406; log 82): of a LAUNCH the links of
its floes, of a group command those of the group, of everything that writes memory the twin link of a paired device. -/
def Dev.cmdLinks (d : Dev) (c : Cmd) : List Nat :=
  let twin := if d.twin.paired then [4] else []
  let peers := if d.group.member then [0, 1, 2, 3] else []
  match c.opcode with
  | 0x01 => peers ++ twin
  | 0x02 => twin
  | 0x03 => twin
  | 0x04 => twin
  | 0x21 => [0, 1, 2, 3]
  | 0x23 => [4]
  | 0x25 => [4]
  | 0x26 => peers ++ twin
  | _ => []

/-- When the clock of a command has stood still (R116, R406, R420, R427). -/
def Dev.cmdPauses (d : Dev) (c : Cmd) : List (Nat × Nat) :=
  let h := d.host (c.ring.val / 32)
  pausesTo d.clock h.pauses h.pauseFrom ++ (d.cmdLinks c).flatMap d.linkPauses
    ++ if c.opcode = 0x26 then pausesTo d.clock d.group.pauses d.group.pauseFrom else []

/-- Does the clock of a command pause now (R116, R406, R420)? -/
def Dev.clockPaused (d : Dev) (c : Cmd) : Bool :=
  (d.host (c.ring.val / 32)).pauseFrom.isSome || ((d.cmdLinks c).any fun l => (d.link l).pauseFrom.isSome)
    || (c.opcode == 0x26 && d.group.pauseFrom.isSome)

end Sys2Proof.Machine
end

