-- ==== Sys2Proof/Machine/Commands.lean ====
section
/-! DEFINITION. The commands of the command processor (R103 to R110, R560), thaws (R383, R384), and FIELD_CFG (R453 to
R456). Each row performs the step of a command that its packet has started; a row for which no such command waits has no
effect. -/

namespace Sys2Proof.Machine

/-! ## Logical floes -/

/-- The field of a logical floe is the ring's (R104). -/
def Dev.floeOwned (d : Dev) (c : Cmd) (f : Nat) : Bool := (d.floeAccess f).field == some c.field

/-- Flags, counters and limits become 0 (R237, R266, R337). -/
def Logical.clearObjects (l : Logical) : Logical := { l with flags := 0, counters := [], limits := [] }

/-- Write zeros with valid check bits over a slot's local store. -/
def Dev.lsZero (d : Dev) (n : Nat) : Dev := { d with ls := d.ls.zero (n * 2 ^ 21) (2 ^ 21) }

/-- Empty an inbox under R123: data messages are discarded, statuses dropped. -/
def Dev.emptyInbox (d : Dev) (f : Nat) : Dev :=
  let ms := (d.logi f).data
  let d := d.updLogi f fun l => { l with data := [], statuses := [] }
  ms.foldl (fun d m => d.discardMsg f m) d

/-! ## NOP, LAUNCH, NBO_POST -/

/-- NOP (R103). -/
def Dev.nopRow (d : Dev) (n : Nat) (i : BitVec 32) : Dev :=
  match d.rowCmd n i 0x00 with
  | none => d
  | some c => d.endCmd c (d.checkArgs c true [] true 0)

/-- The floes that a LAUNCH names. -/
def Cmd.launchSet (c : Cmd) : List Nat := (List.range (c.arg 18 2)).map fun k => c.arg 16 2 + k

/-- Start a floe at ENTRY (R237). -/
def Floe.launched (f : Floe) (c : Cmd) (lf k : Nat) : Floe :=
  { f with st := .running, pc := BitVec.ofNat 36 (c.arg 24 8), hold := 0
           n := [BitVec.ofNat 48 lf, BitVec.ofNat 48 k, BitVec.ofNat 48 (c.arg 18 2), BitVec.ofNat 48 (c.arg 20 4), 0, 0, 0, 0]
           cmps := List.replicate 4 none, acc := List.replicate 4 0, accPoison := 0, queues := [], icache := [], fetching := []
           bundles := [], waitList := [], waitHere := none, engines := List.replicate 6 [], halt := none, more := false
           haltAtDispatch := false, launch := some (c.ring, c.idx), storesDone := 0, openStores := 0 }

/-- A LAUNCH whose checks pass (R105, R237, R354): objects first, then the arguments, then the starts. -/
def Dev.launchGo (d : Dev) (c : Cmd) (args : List WordRead) : Dev :=
  let fs := c.launchSet
  let d := fs.foldl (fun d f => d.updLogi f fun l => { l.clearObjects with mark := none }) d
  let d := fs.foldl (fun d f => match d.slotOf f with
    | none => d
    | some s =>
      let d : Dev := { d with ls := (args.zipIdx).foldl (fun m w => m.writeWord (lsIndex s (64 * w.2)) w.1.data w.1.marks) d.ls }
      d.setReg (rFreeze s) (BitVec.ofNat 32 (fld (d.reg (rFreeze s)) 1 0))) d
  let d := (fs.zipIdx).foldl (fun d f => match d.slotOf f.1 with
    | none => d
    | some s => d.updFloe s fun x => x.launched c f.1 f.2) d
  d.updCp c.ring.val c.idx fun c => { c with begun := true, floes := fs.map (BitVec.ofNat 7) }

/-- LAUNCH (R104, R105). -/
def Dev.launchRow (d : Dev) (n : Nat) (i : BitVec 32) : Dev :=
  match d.rowCmd n i 0x01 with
  | none => d
  | some c =>
    if c.begun then d
    else
      let base := c.arg 16 2
      let cnt := c.arg 18 2
      let len := c.arg 20 4
      let ok := decide (base < 128) && decide (1 ≤ cnt) && decide (base + cnt ≤ 128) && decide (len ≤ 4096) && len % 64 == 0
        && addrOk (c.arg 24 8) 32 && addrOk (c.arg 32 8) 64
      let idle := c.launchSet.all fun f => match d.slotOf f with
        | some s => (d.floe s).st == .idle || (d.floe s).st == .halted
        | none => false
      let st := d.checkArgs c ok [(c.arg 32 8, len, false)] (c.launchSet.all fun f => d.floeOwned c f) (if idle then 0 else 0xA)
      if st ≠ 0 then d.endChecked c [(c.arg 32 8, len, false)] st
      else
        let as := (List.range (len / 64)).map fun k => c.arg 32 8 + 64 * k
        if as.any d.regionHeld then d
        else match d.tsvReads c.mover as with
          | (none, d) => d
          | (some ws, d) => d.launchGo c ws

/-- NBO_POST: each execution posts the next descriptor of the list, once the ring's earlier NBOs are accepted (R98, R106,
R204, R222). -/
def Dev.nboPostRow (d : Dev) (n : Nat) (i : BitVec 32) : Dev :=
  match d.rowCmd n i 0x02 with
  | none => d
  | some c =>
    let cnt := c.arg 16 4
    let list := c.arg 24 8
    let st := if c.begun then 0
      else d.checkArgs c (decide (1 ≤ cnt) && decide (cnt ≤ 4096) && addrOk list 64) [(list, 64 * cnt, false)] true 0
    if st ≠ 0 then d.endChecked c [(list, 64 * cnt, false)] st
    else
      let d := d.updCp n i fun c => { c with begun := true }
      let a := list + 64 * c.pos
      let behind := d.nbos.any fun x => !x.accepted && (match x.poster with
        | .ring m _ _ => m.val == n
        | _ => false)
      if cnt ≤ c.pos ∨ behind ∨ d.regionHeld a then d
      else match d.tsvRead c.mover (d.wordOf a) with
        | (none, d) => d
        | (some w, d) =>
          let (_, d) := d.postNbo w.data false w.poison (.ring c.ring i c.pos) c.access (BitVec.ofNat 2 (c.flags / 4))
          d.updCp n i fun c => { c with pos := c.pos + 1 }

/-! ## COPY and FILL -/

/-- Are two ranges of the same length disjoint? -/
def apart (a b n : Nat) : Bool := decide (a + n ≤ b) || decide (b + n ≤ a)

def lengthOk (n : Nat) : Bool := decide (64 ≤ n) && decide (n ≤ 2 ^ 32) && n % 64 == 0

/-- One word of a COPY (R107); the Bool says whether to go on. -/
def Dev.copyWord (d : Dev) (n : Nat) (i : BitVec 32) : Dev × Bool :=
  match d.rowCmd n i 0x03 with
  | none => (d, false)
  | some c =>
    let src := c.arg 16 8 + 64 * c.pos
    let dst := c.arg 24 8 + 64 * c.pos
    if c.arg 32 8 ≤ 64 * c.pos then (d.endCmd c (if c.count = 0 then 0 else 0xB) c.count, false)
    else
      let st := d.rangesStatus c.access [(src, 64, false), (dst, 64, true)]
      if st ≠ 0 then (d.endChecked c [(src, 64, false), (dst, 64, true)] st c.pos, false)
      else if d.regionHeld src || d.cpWaits c.mover dst then (d, false)
      else match d.tsvRead c.mover (d.wordOf src) with
        | (none, d) => (d, false)
        | (some w, d) =>
          -- a word to a down channel is lost, and counted as a poisoned one (R371)
          let bad := w.poison || d.wordDown (d.wordOf dst)
          let d := d.cpWord c.mover dst w.data w.poison
          (d.updCp n i fun c => { c with pos := c.pos + 1, count := c.count + bad.toNat }, true)

/-- Repeat a step at most `k` times while it asks to go on. -/
def stepWhile {α : Type} (f : α → α × Bool) : Nat → α → α
  | 0, x => x
  | k + 1, x => match f x with
    | (y, true) => stepWhile f k y
    | (y, false) => y

/-- COPY: the checks at its start, then at most `words` + 1 steps, each a word or the end (R104, R107). -/
def Dev.copyRow (d : Dev) (n : Nat) (i : BitVec 32) (words : Nat) : Dev :=
  match d.rowCmd n i 0x03 with
  | none => d
  | some c =>
    let src := c.arg 16 8
    let dst := c.arg 24 8
    let len := c.arg 32 8
    let st := if c.begun then 0
      else d.checkArgs c (addrOk src 64 && addrOk dst 64 && lengthOk len && apart src dst len)
        [(src, len, false), (dst, len, true)] true 0
    if st ≠ 0 then d.endChecked c [(src, len, false), (dst, len, true)] st
    else stepWhile (fun d => d.copyWord n i) (words + 1) (d.updCp n i fun c => { c with begun := true })

/-- One word of a FILL; words to a down channel are lost and end the command in POISON (R371). -/
def Dev.fillWord (d : Dev) (n : Nat) (i : BitVec 32) : Dev × Bool :=
  match d.rowCmd n i 0x04 with
  | none => (d, false)
  | some c =>
    let dst := c.arg 24 8 + 64 * c.pos
    if c.arg 32 8 ≤ 64 * c.pos then (d.endCmd c (if c.count = 0 then 0 else 0xB) c.count, false)
    else
      let st := d.rangesStatus c.access [(dst, 64, true)]
      if st ≠ 0 then (d.endChecked c [(dst, 64, true)] st c.pos, false)
      else if d.cpWaits c.mover dst then (d, false)
      else
        let x := (List.range 8).foldl (fun x k => x + c.arg 40 8 * 2 ^ (64 * k)) 0
        let bad := d.wordDown (d.wordOf dst)
        ((d.cpWord c.mover dst (BitVec.ofNat 512 x) false).updCp n i fun c =>
          { c with pos := c.pos + 1, count := c.count + bad.toNat }, true)

/-- FILL: the checks at its start, then at most `words` + 1 steps, each a word or the end (R104, R107). -/
def Dev.fillRow (d : Dev) (n : Nat) (i : BitVec 32) (words : Nat) : Dev :=
  match d.rowCmd n i 0x04 with
  | none => d
  | some c =>
    let dst := c.arg 24 8
    let len := c.arg 32 8
    let st := if c.begun then 0
      else d.checkArgs c (addrOk dst 64 && lengthOk len) [(dst, len, true)] true 0
    if st ≠ 0 then d.endChecked c [(dst, len, true)] st
    else stepWhile (fun d => d.fillWord n i) (words + 1) (d.updCp n i fun c => { c with begun := true })

/-! ## FENCE -/

/-- FENCE ends once every command it waits for has ended (R104). -/
def Dev.fenceRow (d : Dev) (n : Nat) (i : BitVec 32) : Dev :=
  match d.rowCmd n i 0x05 with
  | none => d
  | some c =>
    let st := if c.begun then 0 else d.checkArgs c (decide (c.arg 16 1 ≤ 1)) [] true 0
    if st ≠ 0 then d.endCmd c st
    else if c.awaits.any fun w => d.cmdOpen w.1 w.2 then d.updCp n i fun c => { c with begun := true }
    else d.endCmd c 0

/-! ## QUERY (R560) -/

/-- The 64-byte report of a ring. -/
def Dev.queryRing (d : Dev) (k : Nat) : Line :=
  let r := d.ring k
  if r.state = 0 then 0
  else BitVec.ofNat 512 ((d.ringStatus k).toNat % 2 ^ 224 + r.log2 * 2 ^ 224 + (r.attnEn.toNat + 2 * r.secure.toNat) * 2 ^ 232
    + r.rtimeout.toNat * 2 ^ 240 + r.base.toNat * 2 ^ 256 + r.cpl.toNat * 2 ^ 320 + r.hist.toNat * 2 ^ 384
    + r.nacc * 2 ^ 448 + (r.field.toNat + 128 * r.admin.toNat) * 2 ^ 464)

/-- The 32-byte entry of a logical floe. -/
def Dev.queryFloe (d : Dev) (field : BitVec 4) (f : Nat) : Nat :=
  if (d.floeAccess f).field ≠ some field then 0
  else
    let l := d.logi f
    let s := d.slotOf f
    let x := d.floe (s.getD 0)
    let held := s.isSome
    let frz := d.reg (rFreeze (s.getD 0))
    let halt := held && x.halt.isSome
    let flags := 1 + 2 * held.toNat + 4 * halt.toNat + 8 * (halt && x.more).toNat + 16 * l.mark.isSome.toNat
    flags + (if held then x.st.code else 5) * 2 ^ 8 + (s.getD 0xFF) * 2 ^ 16
      + (if held && rbit frz 31 then fld frz 27 24 else 0) * 2 ^ 24 + l.epoch.toNat * 2 ^ 32
      + (if halt then fld x.haltReason 7 0 else 0) * 2 ^ 48 + (if halt then x.haltAt else 0) * 2 ^ 64
      + (match l.mark with
         | some m => m.seq.toNat * 2 ^ 128 + m.resume.toNat * 2 ^ 192
         | none => 0)

/-- The 64-byte report of a field's usage. -/
def Dev.queryUsage (d : Dev) (f : BitVec 4) : Line :=
  let k := f.toNat
  let q := d.reg (rFldQos k)
  let mine := (List.range 128).filter fun x => (d.floeAccess x).field == some f
  BitVec.ofNat 512 (d.fldDrifts k + sat 65535 (d.fldRegions k) * 2 ^ 32 + d.fldSems k * 2 ^ 48 + fld q 25 16 * 2 ^ 64
    + fld q 7 0 * 2 ^ 80 + k * 2 ^ 88 + (d.rings.filter fun e => e.2.state != 0 && e.2.field == f).length * 2 ^ 96
    + ((d.rings.map fun e => if e.2.field = f then e.2.heldCmds else 0).foldl (· + ·) (d.cmds.filter fun c => c.field == f).length)
      * 2 ^ 112 + d.fldTokens k * 2 ^ 128
    + (mine.filter d.serves).length * 2 ^ 144 + (mine.filter d.isFrozen).length * 2 ^ 152)

/-- A QUERY of a kind: its checks, its report and its end. -/
def Dev.queryRow (d : Dev) (n : Nat) (i : BitVec 32) (kind : Nat) (words : Cmd → List Line) (owned : Cmd → Bool) : Dev :=
  match d.rowCmd n i 0x06 with
  | none => d
  | some c =>
    if c.arg 16 1 ≠ kind then d
    else
      let dest := c.arg 24 8
      let ok := addrOk dest 4096 && (if kind = 0 then decide (c.arg 18 2 < 1024) else c.arg 18 2 == 0)
      let st := d.checkArgs c ok [(dest, 64 * (words c).length, true)] (owned c) 0
      if st ≠ 0 then d.endChecked c [(dest, 64 * (words c).length, true)] st
      else if (List.range (words c).length).any fun k => d.cpWaits c.mover (dest + 64 * k) then d
      else
        let d := ((words c).zipIdx).foldl (fun d w => d.cpWord c.mover (dest + 64 * w.2) w.1 false) d
        d.endCmd c 0

/-- May the ring's field name ring `r`: an unconfigured ring belongs to no other field, since any field may create it
(R109, R560; DEDUCED, log 52). -/
def Ring.ownedBy (r : Ring) (f : BitVec 4) : Bool := r.state == 0 || r.field == f

def Dev.queryRingRow (d : Dev) (n : Nat) (i : BitVec 32) : Dev :=
  d.queryRow n i 0 (fun c => [d.queryRing (c.arg 18 2)]) fun c => (d.ring (c.arg 18 2)).ownedBy c.field

def Dev.queryFloesRow (d : Dev) (n : Nat) (i : BitVec 32) : Dev :=
  d.queryRow n i 1 (fun c => (List.range 64).map fun k =>
    BitVec.ofNat 512 (d.queryFloe c.field (2 * k) + d.queryFloe c.field (2 * k + 1) * 2 ^ 256)) fun _ => true

def Dev.queryUsageRow (d : Dev) (n : Nat) (i : BitVec 32) : Dev :=
  d.queryRow n i 2 (fun c => [d.queryUsage c.field]) fun _ => true

/-! ## MSG -/

/-- MSG posts its message once the inbox has room (R119 to R123). -/
def Dev.msgRow (d : Dev) (n : Nat) (i : BitVec 32) : Dev :=
  match d.rowCmd n i 0x07 with
  | none => d
  | some c =>
    if c.posted then d
    else
      let f := c.arg 16 2
      let st := d.checkArgs c (decide (f < 128)) [] (d.floeOwned c f) 0
      if st ≠ 0 then d.endCmd c st
      else
        let d := d.updCp n i fun c => { c with begun := true }
        if !d.frozenFloe f && decide (64 ≤ (d.logi f).data.length) then d
        else
          let m : Msg := { bytes := msgBytes (2 ^ 15 + n) (d.ring n).epoch.toNat c.ticket.toNat 0 (c.arg 24 24)
                           cmd := some (c.ring, i) }
          (d.updCp n i fun c => { c with posted := true }).deliverMsg f m

/-! ## FREEZE and THAW -/

/-- FREEZE begins the freeze; the command ends when the floe is fenced (R108, R379, R380). -/
def Dev.freezeRow (d : Dev) (n : Nat) (i : BitVec 32) : Dev :=
  match d.rowCmd n i 0x08 with
  | none => d
  | some c =>
    if c.begun then d
    else
      let f := c.arg 16 2
      let st := d.checkArgs c (decide (f < 128)) [] (d.floeOwned c f) 0
      if st ≠ 0 then d.endCmd c st
      else (d.updCp n i fun c => { c with begun := true }).freezeLogical f 1

/-- A slot that a floe returns to after a thaw (R266, R313): everything of a program is cleared. -/
def Floe.thawed (f : Floe) (lf : BitVec 7) : Floe :=
  { Floe.init with st := .idle, ident := some lf, retired := f.retired, nextBundle := f.nextBundle, nextCmd := f.nextCmd }

/-- The objects of a logical floe at a thaw (R266, R368); its local store is cleared when a FIELD_CFG asked for it (R454). -/
def Dev.thawLogical (d : Dev) (f s : Nat) : Dev :=
  let l := d.logi f
  let d := if l.clearAtThaw then d.lsZero s else d
  d.setLogi f { l.clearObjects with clearAtThaw := false, ue := false, data := [],
                                    statuses := if l.ue then [] else l.statuses }

/-- Give the identity of `f` to the spare of its drift group, if that is free (R30, R31, R383): its local store is cleared. -/
def Dev.substitute (d : Dev) (f : Nat) (nums : Nat × Nat) : Option Dev :=
  let s := 128 + f / 16
  let x := d.floe s
  if x.retired || x.ident.isSome then none
  else
    let y : Floe := { x with nextBundle := max x.nextBundle nums.1, nextCmd := max x.nextCmd nums.2 }
    let d := (d.setFloe s (y.thawed (BitVec.ofNat 7 f))).lsZero s
    some ((d.thawLogical f s).report 0x0551 1 3 f 0 s (d.floeAccess f).field)

/-- Thaw logical floe `f` (R383): the command's status, 0 or FROZEN; none while the freeze is not yet fenced. -/
def Dev.thaw (d : Dev) (f : Nat) : Option (Nat × Dev) :=
  let fail := fun (d : Dev) => (9, d.report 0x0552 3 3 f 0 0 (d.floeAccess f).field)
  match d.slotOf f with
  | none =>
    match d.substitute f (0, 0) with
    | some d => some (0, d)
    | none => some (fail d)
  | some s =>
    let x := d.floe s
    if x.st ≠ .frozen then some (0, d)
    else if x.fencing then none
    else if !x.retired then some (0, (d.setFloe s (x.thawed (BitVec.ofNat 7 f))).thawLogical f s)
    else
      let d := d.setFloe s { x with st := .unassigned, ident := none, desc := [] }
      match d.substitute f (x.nextBundle, x.nextCmd) with
      | some d => some (0, d)
      | none => some (fail d)

/-- THAW (R108, R383). -/
def Dev.thawRow (d : Dev) (n : Nat) (i : BitVec 32) : Dev :=
  match d.rowCmd n i 0x09 with
  | none => d
  | some c =>
    let f := c.arg 16 2
    let st := d.checkArgs c (decide (f < 128)) [] (d.floeOwned c f) 0
    if st ≠ 0 then d.endCmd c st
    else match d.thaw f with
      | none => d.updCp n i fun c => { c with begun := true }
      | some (s, d) => d.endCmd c s

/-! ## RING_CREATE and RING_DESTROY -/

/-- The parameters of a ring meet R88 but for its leases. -/
def ringParamsOk (log2 base cpl hist : Nat) : Bool :=
  decide (4 ≤ log2) && decide (log2 ≤ 16) && addrOk base (max 4096 (64 * 2 ^ log2)) && addrOk cpl (max 4096 (32 * 2 ^ log2))
    && addrOk hist (2 ^ 17)

/-- The ranges of a ring, with the kinds of access that the device makes there (R88, R109, R448). -/
def ringRanges (log2 base cpl hist : Nat) : List (Nat × Nat × Bool) :=
  [(base, 64 * 2 ^ log2, false), (base, 64 * 2 ^ log2, true), (cpl, 32 * 2 ^ log2, true), (hist, 2 ^ 17, false),
   (hist, 2 ^ 17, true)]

/-- Words that the fills of R109 write. -/
def fillWords (log2 : Nat) : Nat := 2 ^ log2 + 2 ^ log2 / 2

/-- The j-th word of the fills of R109: a filler packet in every slot, then a completion ring of zeros. -/
def fillAt (log2 base cpl : Nat) (first : BitVec 32) (j : Nat) : Nat × Line :=
  if j < 2 ^ log2 then (base + 64 * j, BitVec.ofNat 512 ((first + BitVec.ofNat 32 (2 ^ 31)).toNat + 0xFF * 2 ^ 32))
  else (cpl + 64 * (j - 2 ^ log2), 0)

/-- The writes of a ring's fills (R109): of class 3. -/
def fillMover (o : Origin) (field : BitVec 4) : Mover := { origin := o, port := 1, cls := 3, field := some field }

/-- Ring n runs from its beginning (R109). DB_REJECT, which R109 does not name, becomes 0 (log 148). -/
def Ring.created (r : Ring) (field : BitVec 4) (secure admin attn : Bool) (log2 base cpl hist : Nat) (rt : BitVec 16)
    (first : BitVec 32) : Ring :=
  { Ring.init with state := 1, field := field, secure := secure, admin := admin, attnEn := attn, log2 := log2
                   base := BitVec.ofNat 36 base, cpl := BitVec.ofNat 36 cpl, hist := BitVec.ofNat 36 hist, rtimeout := rt
                   hticket := first - 1, epoch := r.epoch + 1 }

/-- Ring `k` begins a life: what its earlier life has fetched is dropped (R109). -/
def Dev.ringBegin (d : Dev) (k : Nat) (r : Ring) : Dev := (d.withdraw fun o => o == .fetch (Fin.ofNat 1024 k)).setRing k r

/-- One word of the fills of a RING_CREATE, or its end, once the records of the earlier life are written (R109): the Bool says
whether to go on. A ring that another command has set running meanwhile ends it in NOT_OWNED. -/
def Dev.createWord (d : Dev) (n : Nat) (i : BitVec 32) : Dev × Bool :=
  match d.rowCmd n i 0x10 with
  | none => (d, false)
  | some c =>
    let k := c.arg 16 2
    let log2 := c.arg 18 1
    let rf := c.arg 19 1
    let base := c.arg 24 8
    let cpl := c.arg 32 8
    let first := BitVec.ofNat 32 (c.arg 20 4)
    if !(d.ring k).heldRecs.isEmpty then (d, false)
    else if c.pos < fillWords log2 then
      let x := fillAt log2 base cpl first c.pos
      let m := fillMover c.mover.origin c.field
      if d.cpWaits m x.1 then (d, false)
      else ((d.cpWord m x.1 x.2 false).updCp n i fun c => { c with pos := c.pos + 1 }, true)
    else
      let t := d.ring k
      if t.state ≠ 0 ∧ (t.field ≠ c.field ∨ t.state = 1) then (d.endCmd c 5, false)
      else ((d.ringBegin k (t.created c.field (rf.testBit 1) false (rf.testBit 0) log2 base cpl (c.arg 40 8)
        (BitVec.ofNat 16 (c.arg 48 2)) first)).endCmd c 0, false)

/-- RING_CREATE (R109): its checks, then the fills as they find room. -/
def Dev.ringCreateRow (d : Dev) (n : Nat) (i : BitVec 32) : Dev :=
  match d.rowCmd n i 0x10 with
  | none => d
  | some c =>
    let k := c.arg 16 2
    let log2 := c.arg 18 1
    let rf := c.arg 19 1
    let base := c.arg 24 8
    let cpl := c.arg 32 8
    let hist := c.arg 40 8
    let acc : Access := { field := some c.field, secure := rf.testBit 1, host := false }
    let t := d.ring k
    let st :=
      if c.begun then 0
      else if !(decide (k < 1024) && decide (rf < 4) && ringParamsOk log2 base cpl hist) then 2
      else
        let rs := d.rangesStatus acc (ringRanges log2 base cpl hist)
        if rs ≠ 0 then rs
        else if !d.semOk c || (t.state != 0 && (t.field != c.field || t.state == 1)) then 5
        else if t.state ≠ 0 ∧ !(d.ringActive k).isEmpty then 0xD
        else 0
    if st ≠ 0 then d.endChecked c (ringRanges log2 base cpl hist) st
    else stepWhile (fun d => d.createWord n i) (fillWords log2 + 1) (d.updCp n i fun c => { c with begun := true })

/-- RING_DESTROY (R109): the records that wait for no command are written first. -/
def Dev.ringDestroyRow (d : Dev) (n : Nat) (i : BitVec 32) : Dev :=
  match d.rowCmd n i 0x11 with
  | none => d
  | some c =>
    let k := c.arg 16 2
    let t := d.ring k
    let st := if c.begun then 0
      else d.checkArgs c (decide (k < 1024)) [] (t.ownedBy c.field && !t.admin) (if (d.ringActive k).isEmpty then 0 else 0xD)
    if st ≠ 0 then d.endCmd c st
    else if !t.heldRecs.isEmpty then d.updCp n i fun c => { c with begun := true }
    else (d.ringBegin k { t with state := 0 }).endCmd c 0

/-- The ring of a CP_ADM that its EN names: its number. -/
def Dev.admRing (d : Dev) (f : Nat) : Nat := fld (d.reg (rAdmCfg f)) 9 5 * 32 + fld (d.reg (rAdmCfg f)) 4 0

/-- Write a word of an administrative ring's fills at once (log 147): a buffered word, or one whose bank runs an atom or which is in
recovery, through the write buffer. -/
def Dev.placeWord (d : Dev) (m : Mover) (a : Nat) (x : Line) : Dev :=
  let n := d.wordOf a
  let c := (wordPlace n).ch
  if d.wordDown n then d
  else if (d.buffered n).isSome || d.inAtom n || (d.chan c).recovery.any (fun v => v.word == n) then
    (d.storeMasked m n x (BitVec.allOnes 64) false).1
  else
    let d := (d.mirrorWrite n x (BitVec.allOnes 64) false).dropRepair n
    { d with dram := d.dram.writeWord n x 0 }

/-- Create a field's administrative ring from its registers (R90), with RTIMEOUT_MS 0, which CP_ADM does not hold (log 146). -/
def Dev.admCreate (d : Dev) (f : Nat) : Dev :=
  let cfg := d.reg (rAdmCfg f)
  let k := d.admRing f
  let log2 := fld cfg 20 16
  let base := (d.reg64 (rAdm f)).toNat
  let cpl := (d.reg64 (rAdm f + 8)).toNat
  let hist := (d.reg64 (rAdm f + 16)).toNat
  let first := d.reg (rAdmTicket f)
  let m := fillMover (.fetch (Fin.ofNat 1024 k)) (BitVec.ofNat 4 f)
  let d := forNat (fillWords log2) d fun d j => let x := fillAt log2 base cpl first j; d.placeWord m x.1 x.2
  d.ringBegin k ((d.ring k).created (BitVec.ofNat 4 f) (rbit cfg 30) true (rbit cfg 29) log2 base cpl hist 0 first)

/-- May EN set: the ring number is free and the parameters keep R88 (R90, R125)? -/
def Dev.admOk (d : Dev) (f : Nat) (cfg : Reg) : Bool :=
  let k := fld cfg 9 5 * 32 + fld cfg 4 0
  let log2 := fld cfg 20 16
  let base := (d.reg64 (rAdm f)).toNat
  let cpl := (d.reg64 (rAdm f + 8)).toNat
  let hist := (d.reg64 (rAdm f + 16)).toNat
  (d.ring k).state == 0 && ringParamsOk log2 base cpl hist
    && d.rangesStatus { field := some (BitVec.ofNat 4 f), secure := rbit cfg 30, host := false } (ringRanges log2 base cpl hist) == 0

/-- A secure write of ADM_CFG in service (R90, R125): ignored while EN is 1; EN sets only when the ring can be created. -/
def Dev.admWrite (d : Dev) (f : Nat) (v : Reg) : Dev :=
  let o := rAdmCfg f
  if rbit (d.reg o) 31 then d
  else
    let v := v &&& 0xE01F03FF
    if rbit v 31 && rbit (d.reg rCpStat) 31 && d.admOk f v then (d.setReg o v).admCreate f
    else d.setReg o (setBit v 31 false)

/-! ## FIELD_CFG -/

/-- Does an earlier FIELD_CFG still run (R455)? -/
def Dev.cfgBehind (d : Dev) (c : Cmd) : Bool :=
  (d.cmds.takeWhile fun x => !(x.ring == c.ring && x.idx == c.idx)).any fun x => x.opcode == 0x12

/-- The forms of R446 that ATTR may give; FIELD and OOS are 0 in it (R453). -/
def attrOk (a : Reg) (paired : Bool) : Bool :=
  if a = 0 ∨ a = 0x00040000 ∨ a = 0x00020000 then true
  else (a &&& 0x7F07FFFF) == 0 && rbit a 31 && (rbit a 22 || rbit a 21) && (!rbit a 19 || paired)

/-- The record's rules that concern no named drift, region or semaphore (R453). -/
def cfgRecordOk (sub x : Nat) (paired : Bool) : Bool :=
  let head := fieldAt x 0 1 / 16 == 0 && onlyBytes x 1 8 []
  head && match sub with
  | 0 => fieldAt x 8 4 != 0 && decide (fieldAt x 12 1 < 4) && fieldAt x 12 1 != 2 && onlyBytes x 13 64 []
  | 1 =>
    let n := fieldAt x 12 4
    decide (1 ≤ n) && decide (fieldAt x 8 4 + n ≤ 32768) && attrOk (BitVec.ofNat 32 (fieldAt x 16 4)) paired
      && decide (fieldAt x 20 1 < 2) && onlyBytes x 21 64 []
  | 2 =>
    let n := fieldAt x 10 2
    decide (1 ≤ n) && decide (fieldAt x 8 2 + n ≤ 4096) && decide (fieldAt x 12 1 < 2) && onlyBytes x 13 64 []
  | _ => decide (fieldAt x 8 1 < 2) && onlyBytes x 9 64 []

/-- A region may be named by a LEASE for `field` with this ATTR (R453). -/
def Dev.leaseNameOk (d : Dev) (field : Nat) (attr : Reg) (r : Nat) : Bool :=
  let e := d.reg (rRegion r)
  tabGet (fun _ => false) d.regionUe r || (if rbit e 31 then fld e 27 24 == field
    else if rbit e 18 || rbit e 17 then attr == 0 else true)

/-- The commands that have issued on a descriptor entry which a change invalidates, and have not completed: slot, engine and
number (R313). -/
def Dev.entryUsers (d : Dev) (p : Nat → DescEntry → Bool) : List (Nat × Nat × Nat) :=
  d.floes.flatMap fun x => [3, 4].flatMap fun e => (x.2.engine e).filterMap fun c =>
    if c.issued && !c.faulted && c.entry.any (p x.1) then some (x.1, e, c.number) else none

/-- Has a command of a list not completed yet (R313)? -/
def Dev.entryOpen (d : Dev) (w : Nat × Nat × Nat) : Bool :=
  ((d.floe w.1).engine w.2.1).any fun c => c.number == w.2.2 && !c.faulted

/-- Entries that lose a region of the field (R310, R313). -/
def Dev.leaseEntry (d : Dev) (field : BitVec 4) (gone : List Nat) (n : Nat) (e : DescEntry) : Bool :=
  let t := tdesc e.bytes
  t.space == 0 && d.floeField n == some field && (match t.extent with
    | some (a, b) => gone.any fun r => decide (a / 2 ^ 21 ≤ r) && decide (r ≤ b / 2 ^ 21)
    | none => false)

/-- SPACE 2 entries of the field's other floes that name a floe of a drift that leaves (R313). -/
def Dev.driftEntry (d : Dev) (field : BitVec 4) (mask : Nat) (n : Nat) (e : DescEntry) : Bool :=
  let t := tdesc e.bytes
  t.space == 2 && d.floeField n == some field && mask.testBit (t.remote / 4)

/-- DRIFTS: clear the floes of a drift (R454). -/
def Dev.clearFloe (d : Dev) (f : Nat) : Dev :=
  let d := (d.emptyInbox f).updLogi f fun l => { l.clearObjects with mark := none }
  match d.slotOf f with
  | none => d.updLogi f fun l => { l with clearAtThaw := true }
  | some s => (d.updFloe s fun x => { x with halt := none, more := false, desc := [] }).lsZero s

def Dev.driftsIdle (d : Dev) (mask : Nat) : Bool :=
  (setBits 32 mask).all fun dr => (List.range 4).all fun p => match d.slotOf (4 * dr + p) with
    | none => true
    | some s => (d.floe s).st == .idle || (d.floe s).st == .halted || (d.floe s).st == .frozen

def Dev.cfgDrifts (d : Dev) (n : Nat) (i : BitVec 32) (x : Nat) : Dev :=
  let mask := fieldAt x 8 4
  let assign := (fieldAt x 12 1).testBit 0
  let field := fieldAt x 0 1
  let gone := d.driftEntry (BitVec.ofNat 4 field) mask
  let d := if assign then d else (d.updCp n i fun c => { c with entryWaits := d.entryUsers gone }).dtDrop gone
  (setBits 32 mask).foldl (fun d dr =>
    let d := forNat 4 d fun d p => d.clearFloe (4 * dr + p)
    d.setReg (rDriftField dr) (if assign then
      BitVec.ofNat 32 (2 ^ 31 + (fieldAt x 12 1 / 2) * 2 ^ 30 + field) else 0)) d

/-- LEASE at its switch point (R446, R454, R455). -/
def Dev.cfgLease (d : Dev) (n : Nat) (i : BitVec 32) (x : Nat) : Dev :=
  let field := fieldAt x 0 1
  let attr := BitVec.ofNat 32 (fieldAt x 16 4)
  let rs := (List.range (fieldAt x 12 4)).map fun k => fieldAt x 8 4 + k
  let entry : Reg := if rbit attr 31 then attr ||| BitVec.ofNat 32 (field * 2 ^ 24) else attr
  let gone := if rbit attr 31 then [] else rs.filter fun r => rbit (d.reg (rRegion r)) 31
  let fresh := if rbit attr 19 then rs.filter fun r => !(rbit (d.reg (rRegion r)) 31 && rbit (d.reg (rRegion r)) 19) else []
  let zero := if rbit attr 31 && (fieldAt x 20 1).testBit 0 then rs else []
  let waits := (d.nbos.filter fun b => b.accepted && b.d.touches.any fun t =>
    rs.contains (d.rowAddr b.d.ch t.1 t.2.1 / 2 ^ 21)).map (·.id)
  let lost := d.leaseEntry (BitVec.ofNat 4 field) gone
  let d := (d.updCp n i fun c => { c with entryWaits := d.entryUsers lost }).dtDrop lost
  let mark := fun (q : List PortReq) => q.map fun r => if rs.contains (r.addr.toNat / 2 ^ 21) then { r with old := true } else r
  let d : Dev := { d with chans := d.chans.map fun e =>
      (e.1, { e.2 with hostIn := mark e.2.hostIn, driftIn := mark e.2.driftIn, peerIn := mark e.2.peerIn })
                          zeroing := d.zeroing ++ zero
                          twin := { d.twin with outSync := if rbit attr 19 then d.twin.outSync ++ fresh
                                      else d.twin.outSync.filter fun r => !rs.contains r } }
  let d := rs.foldl (fun d r =>
    let d := d.sramRead 9 r
    ({ d with regionUe := tabSet (fun _ => false) d.regionUe r false, sram := tabErase d.sram (9 * 2 ^ 24 + r) } : Dev).setReg
      (rRegion r) entry) d
  d.updCp n i fun c => { c with nboWaits := waits }

/-- Do floes wait on a semaphore through SEMWAIT or SEMTAKE: slot and command. -/
def Dev.semWaiters (d : Dev) (s : Nat) : List (Nat × ECmd) :=
  d.floes.filterMap fun x => match x.2.current 5 with
    | some c => if (syncOp c.word == 0x07 || syncOp c.word == 0x08) && syncSem c.word == s && c.waiting.isSome
        then some (x.1, c) else none
    | none => none

/-- Set the owner byte of a semaphore (R460). -/
def Dev.setSemOwner (d : Dev) (s byte : Nat) : Dev :=
  d.setRegFld (rSemOwn (s / 4)) (8 * (s % 4) + 7) (8 * (s % 4)) byte

def Dev.cfgSems (d : Dev) (x : Nat) : Dev :=
  let field := fieldAt x 0 1
  let grant := (fieldAt x 12 1).testBit 0
  ((List.range (fieldAt x 10 2)).map fun k => fieldAt x 8 2 + k).foldl (fun d s =>
    if grant then
      ({ d with semPoison := tabSet (fun _ => false) d.semPoison s false } : Dev).setSem s 0 |>.setSemOwner s (128 + field)
    else
      let ws := d.semWaiters s
      let d : Dev := { d with semQ := tabSet (fun _ => []) d.semQ s [] }
      ws.foldl (fun d w => d.faultCmd w.1 5 w.2 5) (d.setSemOwner s 0)) d

def Dev.cfgRings (d : Dev) (x : Nat) : Dev :=
  let field := BitVec.ofNat 4 (fieldAt x 0 1)
  let stop := (fieldAt x 8 1).testBit 0
  { d with rings := d.rings.map fun e => (e.1,
      if e.2.field ≠ field then e.2
      else if stop ∧ e.2.state = 1 ∧ !e.2.admin then { e.2 with state := 3 }
      else if !stop ∧ e.2.state = 3 then { e.2 with state := 1 }
      else e.2) }

/-- The ownership and state rules of the drifts, regions and semaphores that a record names (R453, R454): 0, NOT_OWNED or
FLOE_BUSY. -/
def Dev.cfgNames (d : Dev) (sub x : Nat) : Nat :=
  let field := fieldAt x 0 1
  match sub with
  | 0 =>
    let ok := (setBits 32 (fieldAt x 8 4)).all fun dr =>
      let r := d.reg (rDriftField dr)
      if (fieldAt x 12 1).testBit 0 then !rbit r 31 else rbit r 31 && fld r 3 0 == field
    if !ok then 5 else if d.driftsIdle (fieldAt x 8 4) then 0 else 0xA
  | 1 =>
    if (List.range (fieldAt x 12 4)).all fun k => d.leaseNameOk field (BitVec.ofNat 32 (fieldAt x 16 4)) (fieldAt x 8 4 + k)
    then 0 else 5
  | 2 =>
    let mine := fun s => d.semOwned (some (BitVec.ofNat 4 field)) s
    let free := fun s => !rbit (d.reg (rSemOwn (s / 4))) (8 * (s % 4) + 7)
    if ((List.range (fieldAt x 10 2)).map fun k => fieldAt x 8 2 + k).all fun s =>
      if (fieldAt x 12 1).testBit 0 then free s || mine s else mine s then 0 else 5
  | _ => 0

/-- The variant bit of a record: ASSIGN, GRANT or STOP. -/
def cfgVariant (sub x : Nat) : Bool :=
  match sub with
  | 0 => (fieldAt x 12 1).testBit 0
  | 2 => (fieldAt x 12 1).testBit 0
  | 3 => (fieldAt x 8 1).testBit 0
  | _ => true

/-- A FIELD_CFG row: its checks and its switch point (R453 to R455). The record stays in the command for its end. -/
def Dev.fieldCfg (d : Dev) (n : Nat) (i : BitVec 32) (sub : Nat) (variant : Bool) : Dev :=
  match d.rowCmd n i 0x12 with
  | none => d
  | some c =>
    if c.arg 16 1 ≠ sub ∨ c.begun ∨ d.cfgBehind c then d
    else
      let a := c.arg 24 8
      let st := if !addrOk a 64 then 2 else d.rangesStatus c.access [(a, 64, false)]
      if st ≠ 0 then d.endChecked c [(a, 64, false)] st
      else if d.regionHeld a then d
      else match d.tsvRead c.mover (d.wordOf a) with
        | (none, d) => d
        | (some w, d) =>
          let x := w.data.toNat
          if w.poison then d.endCmd c 0xB
          else if !cfgRecordOk sub x d.twin.paired then d.endCmd c 2
          else if cfgVariant sub x ≠ variant then d
          else
            let st := if !d.semOk c then 5 else d.cfgNames sub x
            if st ≠ 0 then d.endCmd c st
            else
              let t := d.clock
              let d := d.updCp n i fun c => { c with begun := true, pos := t, buffer := [w.data] }
              match sub with
              | 0 => d.cfgDrifts n i x
              | 1 => d.cfgLease n i x
              | 2 => d.cfgSems x
              | _ => d.cfgRings x

/-- Zeros with valid check bits over whole regions; buffered words of theirs are replaced (R454). -/
def Dev.zeroRegions (d : Dev) (rs : List Nat) : Dev :=
  let hit := fun (w : Nat) => rs.contains (d.addrOf w / 2 ^ 21)
  let d : Dev := d.chans.foldl (fun d e =>
    let gone := (e.2.wbuf.filter fun b => hit b.word).map (·.hostWords)
    (d.updChan e.1 fun ch => { ch with wbuf := ch.wbuf.filter fun b => !hit b.word }).updHost (d.creditPort e.1) fun h =>
      { h with wdFreed := h.wdFreed + gone.foldl (· + ·) 0 }) d
  { d with dram := { bytes := tabDrop (fun k => hit (k / 64)) d.dram.bytes, synd := tabDrop (fun k => hit (k / 8)) d.dram.synd } }

/-- Zeros into the next word of mirrored regions (R430, R454): the Bool says whether to go on. -/
def Dev.zeroWord (d : Dev) (n : Nat) (i : BitVec 32) (rs : List Nat) : Dev × Bool :=
  match d.rowCmd n i 0x12 with
  | none => (d, false)
  | some c =>
    match rs[c.count / 32768]? with
    | none => (d, false)
    | some r =>
      let w := d.wordOf (r * 2 ^ 21 + 64 * (c.count % 32768))
      let m : Mover := { c.mover with port := 4, cls := 3, field := none }
      if !d.wordDown w && d.storeWaits m.origin w then (d, false)
      else
        let d := if d.wordDown w then d else (d.storeMasked m w 0 (BitVec.allOnes 64) false).1
        (d.updCp n i fun c => { c with count := c.count + 1 }, true)

/-- FIELD_CFG_SWITCH_DONE: the command ends once the accesses and NBOs of the old state have ended and the zeroing has been
performed (R454, R455). -/
def Dev.cfgDone (d : Dev) (n : Nat) (i : BitVec 32) : Dev :=
  match d.rowCmd n i 0x12 with
  | none => d
  | some c =>
    let x := (c.buffer.head?.getD 0).toNat
    let sub := c.arg 16 1
    let rs := if sub = 1 then (List.range (fieldAt x 12 4)).map fun k => fieldAt x 8 4 + k else []
    let port := fun (r : PortReq) => r.old && rs.contains (r.addr.toNat / 2 ^ 21)
    let sched := fun (r : SchedReq) => r.port != 4 && decide (r.since ≤ c.pos) && rs.contains (d.addrOf r.word / 2 ^ 21)
    let open_ := d.chans.any fun e => e.2.hostIn.any port || e.2.driftIn.any port || e.2.peerIn.any port || e.2.reqs.any sched
      || e.2.recovery.any fun v => v.waiting.any sched
    let zero := rs.filter d.zeroing.contains
    if !c.begun ∨ open_ ∨ c.nboWaits.any (fun k => (d.nbo k).isSome) then d
    else
      -- a mirrored region's zeros go to the twin too, word by word (R430)
      let twin := (fieldAt x 16 4).testBit 19
      let d := if twin then stepWhile (fun d => d.zeroWord n i zero) (32768 * zero.length) d else d
      if twin ∧ ((d.cmd n i).map (·.count)).getD 0 < 32768 * zero.length then d
      else if c.entryWaits.any d.entryOpen then d
      else
      let d : Dev := if zero.isEmpty then d else
        { (if twin then d else d.zeroRegions zero) with zeroing := d.zeroing.filter fun r => !zero.contains r }
      (d.report 0x0B02 0 5 n c.ticket.toNat (sub + fieldAt x 0 1 * 256) (some c.field)).endCmd c 0

/-! ## One hub cycle -/

/-- Commands that can end, in ascending ring number, whose SEM increments lie in a drift's hub (R341). -/
def Dev.hubEnds (d : Dev) (drift : Nat) : List (Nat × BitVec 32) :=
  sortBy (fun a b => decide (a.1 < b.1)) ((d.cmds.filter fun c =>
    (d.outcome c).isSome && decide (c.sem < 4096) && c.sem / 128 == drift).map fun c => (c.ring.val, c.idx))

/-- `hub_cycle` of R341 for every object of a drift's hub: updates, then consuming tests, then plain tests, each in
source rank. Commands that can end, and whose SEM lies in the hub, end in this cycle: their increments are its last updates
(log 151). -/
def Dev.hubCycle (d : Dev) (drift : Nat) : Dev :=
  let ss := d.slotsByFloe
  let d := d.sramRead 7 drift
  -- updates: header signals in program order, then the sync command, floe by floe
  let d := ss.foldl (fun d n =>
    let d := if d.logicalOf n / 4 = drift then
        ((d.floe n).bundles.map (·.number)).foldl (fun d k => d.headerSignal n k) d else d
    d.hubOps drift [0x01, 0x02, 0x03, 0x04, 0x05, 0x06] n) d
  let d := (d.hubEnds drift).foldl (fun d c => d.commandEnd c.1 c.2) d
  -- consuming tests: wait lists and SEMTAKE
  let d := ss.foldl (fun d n => (d.hubWait drift true n).hubOps drift [0x08] n) d
  -- plain tests: wait lists and SEMWAIT
  ss.foldl (fun d n => (d.hubWait drift false n).hubOps drift [0x07] n) d

/-! ## Timeouts -/

/-- Cancel a command whose timeout has expired (R117, R455). -/
def Dev.cancel (d : Dev) (c : Cmd) : Dev :=
  match c.opcode with
  | 0x01 =>
    let fs := c.floes
    let d := fs.foldl (fun d f => d.freezeLogical f.toNat 2) d
    d.endCmd c 7 fs.length
  | 0x02 => d.updCp c.ring.val c.idx fun c => { c with begun := true, timedOut := true }
  | 0x07 =>
    let f := c.arg 16 2
    let d := if c.posted then d.updLogi f fun l => { l with data := l.data.filter fun m => m.cmd != some (c.ring, c.idx) } else d
    d.endCmd c 7
  | 0x12 =>
    let x := (c.buffer.head?.getD 0).toNat
    let rs := if c.arg 16 1 = 1 then (List.range (fieldAt x 12 4)).map fun k => fieldAt x 8 4 + k else []
    ({ d with zeroing := if c.begun then d.zeroing.filter fun r => !rs.contains r else d.zeroing } : Dev).endCmd c 7
  | 0x21 => ({ d with group := { d.group with joining := none } } : Dev).endCmd c 7
  | 0x23 => ({ d with twin := { d.twin with wants := none } } : Dev).endCmd c 7
  | 0x25 => ({ d with twin := { d.twin with resync := none } } : Dev).endCmd c 7
  | 0x26 =>
    -- a committed collective is copied out (R427)
    if d.colls.any fun x => x.ring == c.ring && x.idx == c.idx && x.commit then d
    else ({ d with colls := d.colls.filter fun x => !(x.ring == c.ring && x.idx == c.idx) } : Dev).endCmd c 7
  | _ => d.endCmd c 7

/-- COMMAND_TIMEOUT: fires when the timed time has elapsed, without the time in which the command's clock paused (R116). -/
def Dev.commandTimeout (d : Dev) (n : Nat) (i : BitVec 32) : Dev :=
  match d.cmd n i with
  | none => d
  | some c =>
    let ms := d.timeoutMs c
    if !timedOp c.opcode || ms == 0xFFFF || (d.outcome c).isSome || c.timedOut then d
    else match dueAt c.since (2000000 * ms) d.clock (d.cmdPauses c) (d.clockPaused c) with
      | none => d
      | some t => (d.advanceTo t).cancel c

end Sys2Proof.Machine
end

