-- ==== Sys2Proof/Machine/Errors.lean ====
section
/-! DEFINITION. Faults of floes and freezes (R362, R368, R379 to R382), repair writes and patrol scrub (R363, R370), twin
read recovery (R387, R388), and the moraine: coalescing, its ring and its head (R376, R377, R392). -/

namespace Sys2Proof.Machine

/-! ## Floes -/

/-- The semaphore that the issued sync command of a slot operates on, if it is a semaphore operation. -/
def Floe.semOf (f : Floe) : Option Nat :=
  match f.current 5 with
  | some c => if 0x04 ≤ syncOp c.word ∧ syncOp c.word ≤ 0x08 then some (syncSem c.word) else none
  | none => none

/-- An uncorrectable semaphore becomes poisoned: every floe whose command waits on it, and the floe whose operation found
it, is frozen (R368). -/
def Dev.poisonSem (d : Dev) (s n : Nat) : Dev :=
  let d := { d with semPoison := tabSet (fun _ => false) d.semPoison s true }
  let d := d.report 0x000C 2 8 0 0 s
  let ns := (d.semWaiters s).map (·.1)
  (if ns.contains n then ns else ns ++ [n]).foldl (fun d n => d.freezeFloe n 6) d

/-- A fault of a slot is detected (R368, R379): cause 3 CTRL_UE, 4 LOGIC, 5 SYNC_UE, 6 SEM_POISON. WRITE_LOST (7) comes of a
channel that goes down (R371). -/
def Dev.floeFault (d : Dev) (n cause : Nat) : Dev :=
  if cause = 3 ∨ cause = 4 ∨ cause = 7 then d.freezeFloe n cause
  else if cause = 5 then
    match (d.floe n).st, (d.floe n).ident with
    | .frozen, _ => d
    | .unassigned, _ => d
    | _, none => d
    | _, some lf => (d.freezeFloe n 5).updLogi lf.toNat fun l => { l with ue := true }
  else if cause = 6 then
    match (d.floe n).semOf with
    | some s => d.poisonSem s n
    | none => d
  else d

/-- Requests of a floe that have left it and are not yet performed (R380). -/
def Dev.floeRequests (d : Dev) (lf : BitVec 7) : Bool :=
  let mine := fun (o : Origin) => match o with
    | .floe f _ _ => f == lf
    | _ => false
  d.chans.any fun e => (e.2.driftIn.any fun r => mine r.origin) || (e.2.reqs.any fun r => mine r.origin)
    || e.2.recovery.any fun v => v.waiting.any fun r => mine r.origin

/-- A slot frozen for LOGIC, or for its third CTRL_UE, is retired, and recorded when the image enables it (R382). -/
def Dev.retireFrozen (d : Dev) (n : Nat) : Dev :=
  let r := d.reg (rFreeze n)
  let cause := fld r 27 24
  if cause = 4 ∨ (cause = 3 ∧ fld r 1 0 = 3) then
    let d := (d.updFloe n fun f => { f with retired := true }).report 0x0550 2 4 n 0 0 (d.floeField n)
    let rec_ := d.fuses.repair
    let s : Fin 136 := Fin.ofNat 136 n
    if d.sys.repairRec && decide (rec_.length < 16) && !rec_.contains s then
      { d with fuses := { d.fuses with repair := rec_ ++ [s] } }
    else d
  else d

/-- FLOE_FENCED (R123, R380, R382): the epoch rises, the held messages are discarded, DONE and OPEN are recorded. -/
def Dev.floeFenced (d : Dev) (n : Nat) : Dev :=
  let f := d.floe n
  match f.ident with
  | none => d
  | some lf =>
    if !f.fencing || !f.emptied || d.floeRequests lf then d
    else
      let ms := (d.logi lf.toNat).data
      let d := d.updLogi lf.toNat fun l => { l with epoch := l.epoch + 1, data := [] }
      let d := ms.foldl (fun d m => d.discardMsg lf.toNat m) d
      let d := d.setReg (rFreezeStores n) (regOf [(16, sat 65535 f.storesDone), (0, f.openStores)])
      (d.setFloe n { f with fencing := false }).retireFrozen n

/-! ## Repair writes and scrub -/

/-- May the channel issue a command in the slot now: it is in service and awake, and neither refreshes nor trains (R127, R146)? -/
def Dev.slotOpen (d : Dev) (c : Nat) : Bool :=
  let ch := d.chan c
  ch.ready && !ch.down && !ch.selfRef && ch.refUntil.isNone && !ch.pauseUntil.any (fun u => decide (d.clock < u)) && !ch.retrain
    && !ch.powerDown && decide (ch.wakeAt ≤ d.clock) && !ch.lastSlot.any fun l => decide (d.clock ≤ l)

/-- REPAIR_WRITE: the oldest repair write of a channel whose column command can issue in the slot now is done, as the scheduler
would do it (R127, R129, R146, R214, R363): its row is open, no class-0 entry waits, and no atom runs in the bank. -/
def Dev.repairWrite (d : Dev) (c : Nat) : Dev :=
  let t := d.clock
  let es := d.entries c
  if !d.slotOpen c || es.any Ent.class0 then d
  else match es.find? fun e => (match e.kind with
      | .repair _ => true
      | _ => false) && (match d.nextCmd c e with
        | .column b w => d.timingOk c t (.column b w)
        | _ => false) with
    | none => d
    | some e => (d.updChan c fun ch => { ch with lastSlot := some t, idleFrom := none }).issueColumn c t e

/-- A scrub read of each word of the channel's next row (R370). -/
def Dev.scrubRow (d : Dev) (c : Nat) : Dev :=
  let row := (d.chan c).scrubNext
  let d := forNat 16 d fun d w =>
    let (id, d) := d.freshId c
    d.updChan c fun x => { x with idleFrom := none, reqs := x.reqs ++
      [{ id := id, origin := .scrub, port := 4, cls := 3, promoted := none, word := (c * 2097152 + row) * 16 + w, index := 0,
         field := none, since := d.clock, arr := id }] }
  (d.updChan c fun x => { x with scrubNext := (row + 1) % 2097152 }).count (rErrScrubRows c) 1

/-- Slots from one visit of a channel to the next: its 2,097,152 rows in ERR_SCRUB.PASS_H hours (R370). -/
def Dev.scrubSlots (d : Dev) : Nat := fld (d.reg rErrScrub) 7 0 * 7200000000000 / 2097152

/-- PATROL_SCRUB_VISIT (R370): one row, at its moment, while EN is 1 and the reads of the last visit are done. A visit that was kept
waiting does not put off those that follow it (log 165). -/
def Dev.scrubVisit (d : Dev) (c : Nat) : Dev :=
  let ch := d.chan c
  if !rbit (d.reg rErrScrub) 31 || !ch.ready || ch.down || ch.selfRef || ch.reqs.any fun r => r.origin == .scrub then d
  else
    let due := ch.scrubAt + d.scrubSlots
    let d := d.advanceTo due
    (d.updChan c fun x => { x with scrubAt := due }).scrubRow c

/-! ## Twin read recovery -/

/-- The requests that waited for a word are served in order of arrival (R387, R388). -/
def Dev.serveWaiting (d : Dev) (c : Nat) (rs : List SchedReq) (data : Line) (poison : Bool) : Dev :=
  rs.foldl (fun d r => if r.port = 4 then d else d.deliver c r data poison) d

/-- A recovery ends (R371, R387): the word is written locally, but for a down channel, and the waiting requests are served. The
write waits for an atom that runs in the bank (R127, R207). `info` is the INFO of TWIN_FAIL for a word that no good copy was found
of. -/
def Dev.recovered (d : Dev) (c n : Nat) (good : Option Line) (info : Nat) : Dev :=
  match findPos (fun v : Recovery => v.word == n) (d.chan c).recovery 0 with
  | none => d
  | some _ =>
  let d := d.atomDone c (wordPlace n).bank
  match findPos (fun v : Recovery => v.word == n) (d.chan c).recovery 0 with
  | none => d
  | some (i, v) =>
    let d := d.updChan c fun ch => { ch with recovery := dropAt ch.recovery i }
    let d : Dev := { d with remotes := d.remotes.filter fun r => r.who != .twin n }
    let down := (d.chan c).down
    let bank := n / 16 / 32768
    let a := d.addrOf n
    let data := good.getD (d.dram.readWord n).data
    let poison := good.isNone
    let d : Dev := if down then d else { d with dram := d.dram.writeWord n data (if poison then 0xFF else 0) }
    let d := if poison then (d.count (rErrTwinFail c) 1).report 0x0006 2 2 bank a info
      else (d.count (rErrTwinOk c) 1).report 0x0005 1 2 bank a 0
    d.serveWaiting c v.waiting data poison

/-- The answer to a twin read that was sent (R387). -/
def Dev.twinAnswer (d : Dev) (c n : Nat) (data : Line) (poison : Bool) : Dev :=
  if (d.chan c).recovery.any fun v => v.word == n && v.sent then
    d.recovered c n (if poison then none else some data) 1 else d

/-- TWIN_READ_TIMEOUT (R387, R389, R406, R433): the clock stands still while the twin link is in replay or training; a read that
could not be sent, and one whose link is down, ends with INFO 3. -/
def Dev.twinTimeout (d : Dev) (c n : Nat) : Dev :=
  let k := d.link 4
  match (d.chan c).recovery.find? fun v => v.word == n with
  | none => d
  | some v =>
    if !v.sent || k.down then d.recovered c n none 3
    else match dueAt v.since (2000 * fld (d.reg rErrTwin) 15 0) d.clock (d.linkPauses 4) k.pauseFrom.isSome with
      | none => d
      | some t => (d.advanceTo t).recovered c n none 2

/-! ## The moraine -/

/-- COALESCE_WINDOW_CLOSE (R376). -/
def Dev.windowClose (d : Dev) (code : BitVec 16) (ukind : BitVec 8) (unit : BitVec 16) : Dev :=
  match findPos (fun w : MorWindow => w.code == code && w.ukind == ukind && w.unit == unit) d.wins 0 with
  | none => d
  | some (i, w) =>
    let d := d.advanceTo (w.opened + 2000 * fld (d.reg rMorCfg) 15 0)
    let d : Dev := { d with wins := dropAt d.wins i }
    if w.count = 0 then d else d.morWrite { w.last with rept := true, info := BitVec.ofNat 32 w.count }

/-- MORAINE_RING_COPY (R377): the entry at MOR_TAIL is copied while there is room, or skipped and counted when its SRAM slot
has been overwritten. -/
def Dev.ringCopy (d : Dev) : Dev :=
  let cfg := d.reg rMorCfg
  let tail := d.reg rMorTail
  let seq := d.reg rMorSeq
  let k := fld cfg 20 16
  if !rbit cfg 31 || decide (2 ^ k ≤ (tail - d.reg rMorHead).toNat) || tail == seq then d
  else if 4096 < (seq - tail).toNat then (d.count rMorDrop 1).setReg rMorTail (tail + 1)
  else
    let a := (d.reg64 rMorBase).toNat % 2 ^ 36 + 32 * (tail.toNat % 2 ^ k)
    let i := tail.toNat % 4096
    let e := (List.range 8).map fun j => ((d.morView (rMorEntry i j)).getD 0).toNat
    let m : Mover := { origin := .moraine, port := 4, cls := 3, field := none }
    let d := d.sramRead 10 i
    if d.wordDown (d.wordOf a) then d
    else if d.cpWaits m a (bytesMask a 32) then d.cpStall a (bytesMask a 32)
    else
      let x := e.foldr (fun v x => v + 2 ^ 32 * x) 0
      (d.cpBytes m a (toLe 32 x)).setReg rMorTail (tail + 1)

/-- A write of MOR_HEAD (R377): stored only when it moves the head forward and not beyond MOR_TAIL. -/
def Dev.morHead (d : Dev) (v : Reg) : Dev :=
  let old := d.reg rMorHead
  if (v - old).toNat ≤ (d.reg rMorTail - old).toNat then d.setReg rMorHead v else d.setRegBit rMorStat 28 true

/-- A write of MOR_FIRST_FATAL (R10, R392): all ones clears it and FATAL. -/
def Dev.morFatal (d : Dev) (v : Reg) : Dev :=
  if v = BitVec.allOnes 32 then (d.setReg rMorFatal 0).setRegBit rMorStat 29 false else d

end Sys2Proof.Machine
end

