-- ==== Sys2Proof/Machine/Crypto.lean ====
section
/-! DEFINITION. SHA-384 (FIPS 180-4) and ECDSA P-384 verification (FIPS 186-5), which R458, R481, R482 and R485 name. -/

namespace Sys2Proof.Machine

/-! ## SHA-384 -/

/-- The 80 round constants of FIPS 180-4, in four parts. -/
def shaK0 : List (BitVec 64) :=
  [0x428A2F98D728AE22, 0x7137449123EF65CD, 0xB5C0FBCFEC4D3B2F, 0xE9B5DBA58189DBBC,
   0x3956C25BF348B538, 0x59F111F1B605D019, 0x923F82A4AF194F9B, 0xAB1C5ED5DA6D8118,
   0xD807AA98A3030242, 0x12835B0145706FBE, 0x243185BE4EE4B28C, 0x550C7DC3D5FFB4E2,
   0x72BE5D74F27B896F, 0x80DEB1FE3B1696B1, 0x9BDC06A725C71235, 0xC19BF174CF692694,
   0xE49B69C19EF14AD2, 0xEFBE4786384F25E3, 0x0FC19DC68B8CD5B5, 0x240CA1CC77AC9C65]

def shaK1 : List (BitVec 64) :=
  [0x2DE92C6F592B0275, 0x4A7484AA6EA6E483, 0x5CB0A9DCBD41FBD4, 0x76F988DA831153B5,
   0x983E5152EE66DFAB, 0xA831C66D2DB43210, 0xB00327C898FB213F, 0xBF597FC7BEEF0EE4,
   0xC6E00BF33DA88FC2, 0xD5A79147930AA725, 0x06CA6351E003826F, 0x142929670A0E6E70,
   0x27B70A8546D22FFC, 0x2E1B21385C26C926, 0x4D2C6DFC5AC42AED, 0x53380D139D95B3DF,
   0x650A73548BAF63DE, 0x766A0ABB3C77B2A8, 0x81C2C92E47EDAEE6, 0x92722C851482353B]

def shaK2 : List (BitVec 64) :=
  [0xA2BFE8A14CF10364, 0xA81A664BBC423001, 0xC24B8B70D0F89791, 0xC76C51A30654BE30,
   0xD192E819D6EF5218, 0xD69906245565A910, 0xF40E35855771202A, 0x106AA07032BBD1B8,
   0x19A4C116B8D2D0C8, 0x1E376C085141AB53, 0x2748774CDF8EEB99, 0x34B0BCB5E19B48A8,
   0x391C0CB3C5C95A63, 0x4ED8AA4AE3418ACB, 0x5B9CCA4F7763E373, 0x682E6FF3D6B2B8A3,
   0x748F82EE5DEFB2FC, 0x78A5636F43172F60, 0x84C87814A1F0AB72, 0x8CC702081A6439EC]

def shaK3 : List (BitVec 64) :=
  [0x90BEFFFA23631E28, 0xA4506CEBDE82BDE9, 0xBEF9A3F7B2C67915, 0xC67178F2E372532B,
   0xCA273ECEEA26619C, 0xD186B8C721C0C207, 0xEADA7DD6CDE0EB1E, 0xF57D4F7FEE6ED178,
   0x06F067AA72176FBA, 0x0A637DC5A2C898A6, 0x113F9804BEF90DAE, 0x1B710B35131C471B,
   0x28DB77F523047D84, 0x32CAAB7B40C72493, 0x3C9EBE0A15C9BEBC, 0x431D67C49C100D4C,
   0x4CC5D4BECB3E42B6, 0x597F299CFC657E2A, 0x5FCB6FAB3AD6FAEC, 0x6C44198C4A475817]

def shaK : List (BitVec 64) := shaK0 ++ shaK1 ++ shaK2 ++ shaK3

/-- The initial hash value of SHA-384. -/
def shaInit : List (BitVec 64) :=
  [0xCBBB9D5DC1059ED8, 0x629A292A367CD507, 0x9159015A3070DD17, 0x152FECD8F70E5939,
   0x67332667FFC00B31, 0x8EB44A8768581511, 0xDB0C2E0D64F98FA7, 0x47B5481DBEFA4FA4]

/-- The eight working variables. -/
structure ShaV where
  a : BitVec 64
  b : BitVec 64
  c : BitVec 64
  d : BitVec 64
  e : BitVec 64
  f : BitVec 64
  g : BitVec 64
  h : BitVec 64
deriving DecidableEq, Repr

def shaSum0 (x : BitVec 64) : BitVec 64 := x.rotateRight 28 ^^^ x.rotateRight 34 ^^^ x.rotateRight 39
def shaSum1 (x : BitVec 64) : BitVec 64 := x.rotateRight 14 ^^^ x.rotateRight 18 ^^^ x.rotateRight 41
def shaSig0 (x : BitVec 64) : BitVec 64 := x.rotateRight 1 ^^^ x.rotateRight 8 ^^^ (x >>> 7)
def shaSig1 (x : BitVec 64) : BitVec 64 := x.rotateRight 19 ^^^ x.rotateRight 61 ^^^ (x >>> 6)

/-- One round. -/
def shaRound (v : ShaV) (kw : BitVec 64) : ShaV :=
  let t1 := v.h + shaSum1 v.e + ((v.e &&& v.f) ^^^ (~~~v.e &&& v.g)) + kw
  let t2 := shaSum0 v.a + ((v.a &&& v.b) ^^^ (v.a &&& v.c) ^^^ (v.b &&& v.c))
  { a := t1 + t2, b := v.a, c := v.b, d := v.c, e := v.d + t1, f := v.e, g := v.f, h := v.g }

/-- The message schedule: `n` more words after those given, newest first. -/
def shaSched : Nat → List (BitVec 64) → List (BitVec 64)
  | 0, w => w
  | n + 1, w =>
    let at_ := fun k => (w[k]?).getD 0
    shaSched n ((shaSig1 (at_ 1) + at_ 6 + shaSig0 (at_ 14) + at_ 15) :: w)

/-- One block of 16 words. -/
def shaBlock (h : List (BitVec 64)) (ws : List (BitVec 64)) : List (BitVec 64) :=
  let at_ := fun k => (h[k]?).getD 0
  let w := (shaSched 64 ws.reverse).reverse
  let v := (List.zipWith (· + ·) shaK w).foldl shaRound
    { a := at_ 0, b := at_ 1, c := at_ 2, d := at_ 3, e := at_ 4, f := at_ 5, g := at_ 6, h := at_ 7 }
  List.zipWith (· + ·) h [v.a, v.b, v.c, v.d, v.e, v.f, v.g, v.h]

/-- Pad a message to whole blocks of 128 bytes. -/
def shaPad (m : List (BitVec 8)) : List (BitVec 8) :=
  m ++ [0x80] ++ List.replicate ((239 - m.length % 128) % 128) 0 ++ toBe 16 (8 * m.length)

/-- Split into `n` blocks of words. -/
def shaBlocks : Nat → List (BitVec 8) → List (List (BitVec 64))
  | 0, _ => []
  | n + 1, m => ((List.range 16).map fun k => BitVec.ofNat 64 (beNat ((m.drop (8 * k)).take 8))) :: shaBlocks n (m.drop 128)

/-- SHA-384 as a big-endian number. -/
def sha384 (m : List (BitVec 8)) : BitVec 384 :=
  let p := shaPad m
  let h := (shaBlocks (p.length / 128) p).foldl shaBlock shaInit
  BitVec.ofNat 384 ((h.take 6).foldl (fun x w => x * 2 ^ 64 + w.toNat) 0)

/-! ## P-384 -/

def p384P : Nat := 2 ^ 384 - 2 ^ 128 - 2 ^ 96 + 2 ^ 32 - 1
def p384N : Nat := 0xFFFFFFFFFFFFFFFFFFFFFFFFFFFFFFFFFFFFFFFFFFFFFFFFC7634D81F4372DDF581A0DB248B0A77AECEC196ACCC52973
def p384B : Nat := 0xB3312FA7E23EE7E4988E056BE3F82D19181D9C6EFE8141120314088F5013875AC656398D8A2ED19D2A85C8EDD3EC2AEF
def p384G : Nat × Nat :=
  (0xAA87CA22BE8B05378EB1C71EF320AD746E1D3B628BA79B9859F741E082542A385502F25DBF55296C3A545E3872760AB7,
   0x3617DE4A96262C6F5D9E98BF9292DC29F8F41DBD289A147CE9DA3113B5F0B8C00A60B1CE1D7E819D7A431D7C90EA0E5F)

/-- `b ^ e mod m`, over the low `k` bits of the exponent. -/
def powMod (m : Nat) : Nat → Nat → Nat → Nat
  | 0, _, _ => 1 % m
  | k + 1, b, e =>
    let h := powMod m k (b * b % m) (e / 2)
    if e % 2 = 1 then h * b % m else h

/-- The inverse modulo a prime below 2^384. -/
def invMod (m x : Nat) : Nat := powMod m 384 (x % m) (m - 2)

/-- `x − y mod m` for residues. -/
def subMod (m x y : Nat) : Nat := (x % m + m - y % m) % m

/-- Points of the curve in Jacobian form: the point (x / z², y / z³), or the point at infinity where z is 0. -/
structure EcPoint where
  x : Nat
  y : Nat
  z : Nat
deriving DecidableEq, Repr

def ecDouble (q : EcPoint) : EcPoint :=
  let p := p384P
  if q.z = 0 ∨ q.y = 0 then { x := 1, y := 1, z := 0 }
  else
    let zz := q.z * q.z % p
    let yy := q.y * q.y % p
    let b := q.x * yy % p
    let a := 3 * (subMod p q.x zz * (q.x + zz)) % p
    let x := subMod p (a * a) (8 * b)
    { x := x, y := subMod p (a * subMod p (4 * b) x) (8 * yy * yy), z := 2 * q.y * q.z % p }

def ecAdd (s t : EcPoint) : EcPoint :=
  let p := p384P
  if s.z = 0 then t
  else if t.z = 0 then s
  else
    let sz := s.z * s.z % p
    let tz := t.z * t.z % p
    let u := s.x * tz % p
    let v := s.y * (tz * t.z % p) % p
    let h := subMod p (t.x * sz) u
    let r := subMod p (t.y * (sz * s.z % p)) v
    if h = 0 then (if r = 0 then ecDouble s else { x := 1, y := 1, z := 0 })
    else
      let hh := h * h % p
      let uhh := u * hh % p
      let hhh := h * hh % p
      let x := subMod p (r * r) (hhh + 2 * uhh)
      { x := x, y := subMod p (r * subMod p uhh x) (v * hhh), z := h * (s.z * t.z % p) % p }

/-- A multiple of a point, over the low `k` bits of the factor. -/
def ecMul : Nat → Nat → EcPoint → EcPoint
  | 0, _, _ => { x := 1, y := 1, z := 0 }
  | k + 1, e, q =>
    let h := ecMul k (e / 2) (ecDouble q)
    if e % 2 = 1 then ecAdd h q else h

/-- Is a pair a point of the curve? -/
def ecOn (x y : Nat) : Bool :=
  decide (x < p384P) && decide (y < p384P) && y * y % p384P == (x * x * x + p384B + (p384P - 3) * x) % p384P

/-- ECDSA P-384 verification over a SHA-384 digest (FIPS 186-5). -/
def ecdsaOk (x y r s : Nat) (digest : BitVec 384) : Bool :=
  if !ecOn x y || r = 0 || s = 0 || decide (p384N ≤ r) || decide (p384N ≤ s) then false
  else
    let w := invMod p384N s
    let v := ecAdd (ecMul 384 (digest.toNat * w % p384N) { x := p384G.1, y := p384G.2, z := 1 })
      (ecMul 384 (r * w % p384N) { x := x, y := y, z := 1 })
    v.z != 0 && v.x * invMod p384P (v.z * v.z) % p384P % p384N == r

end Sys2Proof.Machine
end

