-- ==== Sys2Proof/Machine/Image.lean ====
section
/-! DEFINITION. The configuration image (R478 to R494): its layout, the checks of R482, the configuration hash (R485), the
image defaults (R486), and the loading of every register marked cfg. -/

namespace Sys2Proof.Machine

/-! ## Layout -/

/-- A byte of the flash; a byte never programmed reads as erased. -/
def Dev.flashByte (d : Dev) (a : Nat) : BitVec 8 := tabGet (fun _ => 0xFF) d.flash a

/-- The bytes of an image, from its start. -/
abbrev Img := Nat → BitVec 8

/-- Copy A or copy B (R478). -/
def Dev.image (d : Dev) (b : Bool) : Img := fun k => d.flashByte ((if b then 0x400000 else 0) + k)

/-- Little-endian field of an image. -/
def imgNum (m : Img) (k n : Nat) : Nat := leNat ((List.range n).map fun i => m (k + i))

/-- Big-endian field of an image. -/
def imgBe (m : Img) (k n : Nat) : Nat := beNat ((List.range n).map fun i => m (k + i))

def imgBytes (m : Img) (k n : Nat) : List (BitVec 8) := (List.range n).map fun i => m (k + i)

/-- Are `n` bytes from `k` zero? -/
def imgZero (m : Img) (k n : Nat) : Bool := (List.range n).all fun i => m (k + i) == 0

def imgSize (m : Img) : Nat := imgNum m 8 4
def imgSvn (m : Img) : Nat := imgNum m 17 1
def imgFlags (m : Img) : Nat := imgNum m 18 1
def imgSeq (m : Img) : Nat := imgNum m 24 4
def imgCount (m : Img) : Nat := imgNum m 28 2

/-- A section-table entry (R480). -/
structure Sect where
  typ : Nat
  off : Nat
  len : Nat
deriving DecidableEq, Repr

def imgSects (m : Img) : List Sect :=
  (List.range (imgCount m)).map fun k =>
    { typ := imgNum m (256 + 16 * k) 2, off := imgNum m (260 + 16 * k) 4, len := imgNum m (264 + 16 * k) 4 }

/-- LENGTH obeys the section's own rule (R487 to R494). -/
def sectLenOk (s : Sect) : Bool :=
  match s.typ with
  | 1 => s.len == 128
  | 2 => s.len == 32
  | 3 => s.len == 16
  | 4 => s.len == 1024
  | 5 => s.len % 16 == 0 && decide (s.len ≤ 32768)
  | 6 => s.len % 8 == 0
  | 7 => s.len == 2048
  | 8 => s.len == 128
  | _ => false

/-- Elements of a list, two by two. -/
def allPairs {α : Type} (p : α → α → Bool) : List α → Bool
  | [] => true
  | x :: xs => xs.all (p x) && allPairs p xs

/-- Two runs of numbers do not meet. -/
def runsApart (a n b m : Nat) : Bool := decide (a + n ≤ b) || decide (b + m ≤ a)

/-- R480. -/
def imgTableOk (m : Img) : Bool :=
  let n := imgCount m
  let size := imgSize m
  let ss := imgSects m
  decide (n ≤ 8)
    && (List.range n).all (fun k => imgZero m (258 + 16 * k) 2 && imgZero m (268 + 16 * k) 4)
    && ss.all (fun s => sectLenOk s && s.off % 64 == 0 && decide (256 + 16 * n ≤ s.off) && decide (s.off + s.len + 128 ≤ size))
    && allPairs (fun a b => a.typ != b.typ && runsApart a.off a.len b.off b.len) ss
    && (List.range (size - 128)).all fun k =>
      decide (k < 256 + 16 * n) || m k == 0 || ss.any fun s => decide (s.off ≤ k) && decide (k < s.off + s.len)

/-- SVN_FUSE: fuses burned (R484). -/
def Fuses.svnFuse (f : Fuses) : Nat := popCount 64 f.svn.toNat

/-- The signature of R481. -/
def imgSigned (m : Img) : Bool :=
  let s := imgSize m - 128
  imgZero m (s + 96) 32 && ecdsaOk (imgBe m 64 48) (imgBe m 112 48) (imgBe m s 48) (imgBe m (s + 48) 48) (sha384 (imgBytes m 0 s))

/-! ## Content (R486 to R494) -/

/-- The section of a type. -/
def imgSect (m : Img) (t : Nat) : Option Sect := (imgSects m).find? fun s => s.typ == t

/-- ATTR of a region in the REGIONS section; 0 where no run names it (R491). -/
def imgRegion (m : Img) (r : Nat) : Nat :=
  match imgSect m 5 with
  | none => 0
  | some s =>
    match (List.range (s.len / 16)).find? fun k =>
        decide (imgNum m (s.off + 16 * k) 4 ≤ r) && decide (r < imgNum m (s.off + 16 * k) 4 + imgNum m (s.off + 16 * k + 4) 4) with
    | some k => imgNum m (s.off + 16 * k + 8) 4
    | none => 0

/-- Do all regions of a range satisfy a predicate on their ATTR? -/
def imgRange (m : Img) (a n : Nat) (p : Nat → Bool) : Bool :=
  decide (a + n ≤ 2 ^ 36) && (regionsOf a n).all fun x => p (imgRegion m (x / 2 ^ 21))

/-- R487. -/
def deviceOk (m : Img) (o : Nat) : Bool :=
  let g := fun k n => imgNum m (o + k) n
  let log2 := g 2 1
  decide (g 0 1 < 4) && decide (g 1 1 < 16) && decide (7 ≤ log2) && decide (log2 ≤ 16) && decide (g 3 1 < 4) && g 4 2 != 0
    && decide (g 8 8 < 2 ^ 36)
    && (!(g 1 1).testBit 2 || (g 8 8 % max 4096 (32 * 2 ^ log2) == 0 && imgRange m (g 8 8) (32 * 2 ^ log2) fun e => e.testBit 17))
    && g 18 1 != 0 && bits (g 19 1) 6 2 == 0 && g 24 2 != 0 && g 26 2 != 0 && g 28 2 != 0 && imgZero m (o + 30) 2
    && ((g 1 1).testBit 1 || imgZero m (o + 32) 48) && imgZero m (o + 80) 48

/-- R488. -/
def channelOk (m : Img) (o : Nat) : Bool :=
  let g := fun k n => imgNum m (o + k) n
  decide (g 0 2 ≤ 1500) && decide (512 ≤ g 2 2) && decide (g 2 2 ≤ 8192)
    && ((List.range 4).all fun p => decide (40 ≤ g (4 + 2 * p) 2) && decide (g (4 + 2 * p) 2 ≤ 2000))
    && decide (g 12 1 < 2) && decide (1 ≤ g 13 1) && decide (g 13 1 ≤ 32) && decide (16 ≤ g 14 2) && decide (g 14 2 ≤ 512)
    && imgZero m (o + 16) 16

/-- R489. -/
def thermalOk (m : Img) (o : Nat) : Bool :=
  let g := fun k => imgNum m (o + k) 1
  decide (90 ≤ g 0) && decide (g 0 ≤ 180) && decide (85 ≤ g 1) && decide (g 1 ≤ 105) && decide (90 ≤ g 2) && decide (g 2 ≤ 110)
    && imgZero m (o + 3) 13

/-- One entry of FIELDS (R490). -/
def fieldOk (m : Img) (o f : Nat) : Bool :=
  let e := o + 64 * f
  let g := fun k n => imgNum m (e + k) n
  let share := g 36 2
  decide (g 4 1 < 16) && decide (1 ≤ share) && decide (share ≤ 512) && g 38 1 != 0 && imgZero m (e + 39) 25
    && (if (g 4 1).testBit 1 then
          let log2 := g 5 1
          let leased := fun (x : Nat) => x.testBit 31 && bits x 27 24 == f
          decide (g 6 1 < 32) && decide (g 7 1 < 32) && ringParamsOk log2 (g 8 8) (g 16 8) (g 24 8)
            && (ringRanges log2 (g 8 8) (g 16 8) (g 24 8)).all fun r => imgRange m r.1 r.2.1 leased
        else imgZero m (e + 5) 31 && bits (g 4 1) 3 2 == 0)

/-- R490. -/
def fieldsOk (m : Img) (o : Nat) : Bool :=
  let adm := (List.range 16).filter fun f => (imgNum m (o + 64 * f + 4) 1).testBit 1
  ((List.range 16).all fun f => fieldOk m o f)
    && allPairs (fun a b => imgNum m (o + 64 * a) 4 &&& imgNum m (o + 64 * b) 4 == 0) (List.range 16)
    && allPairs (fun a b => imgNum m (o + 64 * a + 6) 2 != imgNum m (o + 64 * b + 6) 2) adm

/-- R491. -/
def regionsOk (m : Img) (o n : Nat) : Bool :=
  let runs := (List.range (n / 16)).map fun k => o + 16 * k
  (runs.all fun e =>
      let attr := imgNum m (e + 8) 4
      decide (imgNum m e 4 + imgNum m (e + 4) 4 ≤ 32768) && imgNum m (e + 4) 4 != 0 && imgZero m (e + 12) 4
        && (attr == 0x00020000 || attr == 0x00040000
          || (attr.testBit 31 && bits attr 30 28 == 0 && bits attr 19 0 == 0 && (attr.testBit 22 || attr.testBit 21))))
    && allPairs (fun a b => runsApart (imgNum m a 4) (imgNum m (a + 4) 4) (imgNum m b 4) (imgNum m (b + 4) 4)) runs

/-- R492. -/
def semsOk (m : Img) (o n : Nat) : Bool :=
  let runs := (List.range (n / 8)).map fun k => o + 8 * k
  (runs.all fun e => decide (imgNum m e 2 + imgNum m (e + 2) 2 ≤ 4096) && imgNum m (e + 2) 2 != 0
      && decide (imgNum m (e + 4) 1 < 16) && imgZero m (e + 5) 3)
    && allPairs (fun a b => runsApart (imgNum m a 2) (imgNum m (a + 2) 2) (imgNum m b 2) (imgNum m (b + 2) 2)) runs

/-- R494. -/
def perdevOk (m : Img) (o : Nat) : Bool :=
  let g := fun k => imgNum m (o + k) 1
  decide (g 0 < 64) && imgZero m (o + 1) 7
    && ((List.range 64).all fun k => decide (g (8 + k) < 4) || g (8 + k) == 7)
    && g (8 + g 0) == 7 && decide (g 72 < 32) && imgZero m (o + 73) 55

/-- The content rules of one section. -/
def sectOk (m : Img) (s : Sect) : Bool :=
  match s.typ with
  | 1 => deviceOk m s.off
  | 2 => channelOk m s.off
  | 3 => thermalOk m s.off
  | 4 => fieldsOk m s.off
  | 5 => regionsOk m s.off s.len
  | 6 => semsOk m s.off s.len
  | 7 => (List.range 2048).all fun k => bits (imgNum m (s.off + k) 1) 6 4 == 0
  | _ => perdevOk m s.off

/-! ## Verification -/

/-- The first check of R482 that a copy fails; 0 when it verifies. -/
def verifyImage (m : Img) (fuses : Fuses) (readOk : Bool) : Nat :=
  let key := imgNum m 19 1
  if !readOk then 0x01
  else if imgNum m 0 4 ≠ 0x434C5A41 then 0x02
  else if imgNum m 4 2 ≠ 1 ∨ imgNum m 6 2 ≠ 256 ∨ !imgZero m 30 34 ∨ !imgZero m 160 96 ∨ 4 ≤ imgFlags m ∨ 64 < imgSvn m then 0x03
  else if imgNum m 12 4 ≠ 0x0A216440 then 0x04
  else if imgSize m % 64 ≠ 0 ∨ imgSize m < 512 ∨ 2097152 < imgSize m then 0x05
  else if !imgTableOk m then 0x06
  else if 4 ≤ key ∨ (fuses.keyDigest[key]?).getD 0 ≠ sha384 (imgBytes m 64 96) ∨ fuses.revoked.getLsbD key then 0x07
  else if imgSvn m < fuses.svnFuse then 0x08
  else if !imgSigned m then 0x09
  else if imgNum m 16 1 ≠ 1 then 0x0A
  else if !(imgSects m).all (sectOk m) then 0x0B
  else 0x00

/-- The configuration hash (R485). -/
def imgHash (m : Img) : BitVec 384 :=
  sha384 (((imgSects m).filter fun s => s.typ != 8).flatMap fun s =>
    toLe 2 s.typ ++ toLe 4 s.len ++ imgBytes m s.off s.len)

/-- Copy A is tried first (R483). -/
def copyAFirst (seqA seqB : Nat) : Bool := decide ((BitVec.ofNat 32 seqA - BitVec.ofNat 32 seqB).toNat < 2 ^ 31)

/-! ## Loading -/

/-- Set bits of a register in every channel block. -/
def Dev.chAll (d : Dev) (o : Nat → Nat) (hi lo v : Nat) : Dev := forNat 32 d fun d c => d.setRegFld (o c) hi lo v

/-- The image defaults of every register marked cfg (R486). -/
def Dev.loadDefaults (d : Dev) : Dev :=
  let d := d.setReg rCpTimeout 10
  let d := (d.setReg rCpAttnRoute 0).setReg rCpAttnDev 0
  let d := (d.setReg rMorCfg (BitVec.ofNat 32 (3 * 2 ^ 24 + 12 * 2 ^ 16 + 1000))).setReg64 rMorBase 0
  let d := (d.setReg rErrScrub 0x80000018).setReg rErrTwin 50
  let d := d.setReg rGrpCfg 2000
  let d := forNat 136 d fun d n => d.setReg (rSyncWdog n) 1000
  let d := ((d.chAll rChCtrl 0 0 1).chAll rChPage 10 0 96).chAll rChActThr 13 0 2048
  let d := forNat 4 d fun d p => d.chAll (fun c => rChTarget c p) 15 0 ([250, 500, 2000, 250][p]?.getD 0)
  let d := (d.chAll rNbToken 29 24 32).chAll rNbToken 9 0 512
  let d := (d.setRegFld rPwrLimit 7 0 150).setReg rThmCfg (BitVec.ofNat 32 (95 + 100 * 2 ^ 8))
  let d := forNat 16 d fun d f => d.setReg (rFldQos f) (BitVec.ofNat 32 (16 + 512 * 2 ^ 16))
  let d := d.setRegBit rDbgPolicy 31 false
  { d with sys := { d.sys with hostWait := 1000, peerReset := false, intDigest := 0, repairRec := false, commitSvn := false } }

/-- DEVICE (R487). -/
def Dev.loadDevice (d : Dev) (m : Img) (o : Nat) : Dev :=
  let g := fun k n => imgNum m (o + k) n
  let d := d.chAll rChCfg 25 24 (g 0 1)
  let d := d.setRegBit rDbgPolicy 31 ((g 1 1).testBit 1)
  let d := d.setReg rMorCfg (BitVec.ofNat 32 (bits (g 1 1) 2 2 * 2 ^ 31 + g 3 1 * 2 ^ 24 + g 2 1 * 2 ^ 16 + g 16 2))
  let d := d.setReg64 rMorBase (BitVec.ofNat 64 (g 8 8))
  let d := d.setReg rErrScrub (BitVec.ofNat 32 (bits (g 1 1) 3 3 * 2 ^ 31 + g 18 1))
  let d := d.setReg rCpTimeout (BitVec.ofNat 32 (g 4 2))
  let d := forNat 136 d fun d n => d.setReg (rSyncWdog n) (BitVec.ofNat 32 (g 6 2))
  let d := d.setReg rCpAttnDev (BitVec.ofNat 32 (bits (g 19 1) 7 7 * 2 ^ 31 + bits (g 19 1) 1 0))
  let d := d.setReg rCpAttnRoute (BitVec.ofNat 32 (g 20 4))
  let d := (d.setReg rErrTwin (BitVec.ofNat 32 (g 24 2))).setReg rGrpCfg (BitVec.ofNat 32 (g 26 2))
  { d with sys := { d.sys with hostWait := g 28 2, peerReset := (g 1 1).testBit 0, intDigest := BitVec.ofNat 384 (imgBe m (o + 32) 48) } }

/-- CHANNEL (R488). -/
def Dev.loadChannel (d : Dev) (m : Img) (o : Nat) : Dev :=
  let g := fun k n => imgNum m (o + k) n
  let d := ((d.chAll rChPage 10 0 (g 0 2)).chAll rChActThr 13 0 (g 2 2)).chAll rChCtrl 0 0 (g 12 1)
  let d := forNat 4 d fun d p => d.chAll (fun c => rChTarget c p) 15 0 (g (4 + 2 * p) 2)
  (d.chAll rNbToken 29 24 (g 13 1)).chAll rNbToken 9 0 (g 14 2)

/-- THERMAL (R489). -/
def Dev.loadThermal (d : Dev) (m : Img) (o : Nat) : Dev :=
  (d.setRegFld rPwrLimit 7 0 (imgNum m o 1)).setReg rThmCfg
    (BitVec.ofNat 32 (imgNum m (o + 1) 1 + imgNum m (o + 2) 1 * 2 ^ 8))

/-- FIELDS (R490); EN is set last, with every other bit of ADM_CFG. -/
def Dev.loadFields (d : Dev) (m : Img) (o : Nat) : Dev :=
  forNat 16 d fun d f =>
    let g := fun k n => imgNum m (o + 64 * f + k) n
    let d := (setBits 32 (g 0 4)).foldl (fun d dr =>
      d.setReg (rDriftField dr) (BitVec.ofNat 32 (2 ^ 31 + bits (g 4 1) 0 0 * 2 ^ 30 + f))) d
    let d := d.setReg (rFldQos f) (BitVec.ofNat 32 (g 38 1 + g 36 2 * 2 ^ 16))
    let d := ((d.setReg64 (rAdm f) (BitVec.ofNat 64 (g 8 8))).setReg64 (rAdm f + 8) (BitVec.ofNat 64 (g 16 8))).setReg64
      (rAdm f + 16) (BitVec.ofNat 64 (g 24 8))
    (d.setReg (rAdmTicket f) (BitVec.ofNat 32 (g 32 4))).setReg (rAdmCfg f)
      (BitVec.ofNat 32 (bits (g 4 1) 1 1 * 2 ^ 31 + bits (g 4 1) 2 2 * 2 ^ 30 + bits (g 4 1) 3 3 * 2 ^ 29 + g 5 1 * 2 ^ 16
        + g 6 1 * 2 ^ 5 + g 7 1))

/-- REGIONS (R491). -/
def Dev.loadRegions (d : Dev) (m : Img) (o n : Nat) : Dev :=
  forNat (n / 16) d fun d k =>
    let e := o + 16 * k
    forNat (imgNum m (e + 4) 4) d fun d j => d.setReg (rRegion (imgNum m e 4 + j)) (BitVec.ofNat 32 (imgNum m (e + 8) 4))

/-- SEMS (R492): each semaphore named is granted with value 0. -/
def Dev.loadSems (d : Dev) (m : Img) (o n : Nat) : Dev :=
  forNat (n / 8) d fun d k =>
    let e := o + 8 * k
    forNat (imgNum m (e + 2) 2) d fun d j => (d.setSem (imgNum m e 2 + j) 0).setSemOwner (imgNum m e 2 + j) (128 + imgNum m (e + 4) 1)

/-- HOSTSRC (R493). -/
def Dev.loadHostsrc (d : Dev) (m : Img) (o : Nat) : Dev :=
  forNat 512 d fun d k => d.setReg (rHst 0 0 + 4 * k) (BitVec.ofNat 32 (imgNum m (o + 4 * k) 4))

/-- PERDEV (R494). -/
def Dev.loadPerdev (d : Dev) (m : Img) (o : Nat) : Dev :=
  let g := fun k => imgNum m (o + k) 1
  let d := d.setReg rGrpStat (BitVec.ofNat 32 (g 0))
  let d := forNat 64 d fun d k => d.setRegFld (rGrpRoute (k / 8)) (4 * (k % 8) + 3) (4 * (k % 8)) (g (8 + k))
  forNat 5 d fun d l => d.setRegBit (rLnkCtrl l) 29 ((g 72).testBit l)

/-- Load one section. -/
def Dev.loadSect (d : Dev) (m : Img) (s : Sect) : Dev :=
  match s.typ with
  | 1 => d.loadDevice m s.off
  | 2 => d.loadChannel m s.off
  | 3 => d.loadThermal m s.off
  | 4 => d.loadFields m s.off
  | 5 => d.loadRegions m s.off s.len
  | 6 => d.loadSems m s.off s.len
  | 7 => d.loadHostsrc m s.off
  | 8 => d.loadPerdev m s.off
  | _ => d

/-- Load a verified image (R472, R485, R486, R503). -/
def Dev.loadImage (d : Dev) (b : Bool) : Dev :=
  let m := d.image b
  let d := (imgSects m).foldl (fun d s => d.loadSect m s) d.loadDefaults
  let h := toBe 48 (imgHash m).toNat
  let d := forNat 12 d fun d k => d.setReg (rCfgHash + 4 * k) (BitVec.ofNat 32 (leNat ((h.drop (4 * k)).take 4)))
  let d := (d.setReg rCfgVersion (BitVec.ofNat 32 (imgNum m 20 4))).setReg rCfgSeq (BitVec.ofNat 32 (imgSeq m))
  let d := (d.setRegFld rCfgSvn 15 8 (imgSvn m)).setRegFld rCfgStat 31 28 (8 + (if b then 2 else 1))
  { d with sys := { d.sys with commitSvn := (imgFlags m).testBit 0, repairRec := (imgFlags m).testBit 1 } }

/-- Start-up step 2: select and verify (R482, R483). None: neither copy verifies. -/
def Dev.selectImage (d : Dev) (readOk : BitVec 2) : Option Dev × Dev :=
  let a := d.image false
  let b := d.image true
  let first := !copyAFirst (imgSeq a) (imgSeq b)
  let check := fun (x : Bool) => verifyImage (if x then b else a) d.fuses (readOk.getLsbD x.toNat)
  let note := fun (d : Dev) (x : Bool) (code : Nat) => if x then d.setRegFld rCfgErr 15 8 code else d.setRegFld rCfgErr 7 0 code
  let c1 := check first
  let d := note d first c1
  if c1 = 0 then (some (d.loadImage first), d)
  else
    let c2 := check (!first)
    let d := (note d (!first) c2).setRegBit rCfgStat 27 true
    let d := d.report 0x0A02 2 0 0 0 (c1 + 2 ^ 8 * first.toNat)
    if c2 = 0 then (some (d.loadImage (!first)), d) else (none, d)

end Sys2Proof.Machine
end

