-- ==== Sys2Proof/Machine/Reset.lean ====
section
/-! DEFINITION. Resets: what each source reinitialises and keeps (R463 to R466), the writes that a retaining reset or a trip
flushes (R158, R465, R520), power-on (R382, R464), and failed starts (R473, R495). -/

namespace Sys2Proof.Machine

/-! ## Reset sources -/

/-- The RST_CAUSE bit of each source (R502). -/
abbrev cPin : Nat := 1
abbrev cWarm : Nat := 2
abbrev cSideband : Nat := 3
abbrev cWdog : Nat := 4
abbrev cThermal : Nat := 5
abbrev cPeer : Nat := 6
abbrev cRetry : Nat := 7

/-- What of the register file survives a reset that is not power-on: the sticky bits of each register (R11, R464). -/
def keepSticky (cs : Tab Reg) : Tab Reg :=
  (cs.map fun e =>
      let sticky := ((regRow e.1).map (·.sticky)).getD 0
      (e.1, (regReset e.1 &&& ~~~sticky) ||| (e.2 &&& sticky))).filter fun e => e.2 != regReset e.1

/-- A slot after a reset: its identity and its retirement stand (R382, R464). -/
def Floe.afterReset (f : Floe) : Floe :=
  { Floe.init with st := if f.ident.isSome then .idle else .unassigned, ident := f.ident, retired := f.retired }

/-- The slots after a reset; those that read as unlisted are not listed. -/
def floesAfterReset (t : Tab Floe) : Tab Floe :=
  (t.map fun e => (e.1, e.2.afterReset)).filter fun e => e.2 != floeDflt e.1

/-- The latches of the moraine block, which a reset keeps with it (R47, R464). -/
def keepLatches {α : Type} (t : Tab α) : Tab α := tabDrop (fun k => !(decide (0x500000 ≤ k % 2 ^ 24) && decide (k % 2 ^ 24 < 0x600000))) t

/-- Every engine and every control-space block but those that R464 keeps. -/
def Dev.clearEngines (d : Dev) : Dev :=
  { d with latR := keepLatches d.latR, latW := keepLatches d.latW, timeRun := false, time := 0, halfRate := 0, trimAcc := 0
           ls := { bytes := [], synd := [] }, chans := [], hosts := []
           regionUe := [], sram := [], zeroing := [], rings := [], cmds := [], nbos := [], near := [], bookings := []
           floes := floesAfterReset d.floes, logical := [], sems := [], semPoison := [], semQ := [], links := [], remotes := []
           group := Group.init, colls := [], collHeld := [], twin := Twin.init, twinHeld := [], csHeld := [], released := false }

def Dev.setPhase (d : Dev) (p : Phase) : Dev := { d with sys := { d.sys with phase := p } }

/-- RESET_n is low (R468). -/
def Dev.pinLow (d : Dev) : Bool := rbit (d.reg rRstStat) 31

/-- Where the device stands after a reset other than power-on: both fabric phases lost stay so until power-on (R511), a low
RESET_n holds (R467), and a trip waits for its cooling (R520, R521). -/
def Dev.afterReset (d : Dev) : Phase :=
  if d.sys.phase = .dead then .dead
  else if d.pinLow then .held
  else if d.sys.cooling.isSome then .tripped
  else .waiting

/-- A reset other than power-on (R463, R464). `retain` says that DRAM stands in self-refresh under R465. -/
def Dev.reset (d : Dev) (cause : Nat) (retain : Bool) : Dev :=
  let p := d.afterReset
  let d := ({ d with cs := keepSticky d.cs } : Dev).clearEngines
  let d := (d.setRegBit rRstCause cause true).setRegBit rRstStat 29 true
  let chans := if retain then (List.range 32).map fun c => (c, { Chan.init with selfRef := true }) else []
  { d with chans := chans
           sys := { d.sys with phase := p, retaining := retain, saved := if retain then d.sys.saved else none, waitingCh := 0,
                               startMs := 0, retiredNow := [], validRun := [], overRun := 0, energyRem := 0, hostWait := 1000
                               peerReset := false, repairRec := false, commitSvn := false, intDigest := 0 } }

/-! ## Retention -/

/-- Perform the writes that a channel has accepted, and write its buffer to the array (R465, R520). -/
def Dev.flushChannel (d : Dev) (c : Nat) : Dev :=
  let ch := d.chan c
  let d := (ch.hostIn.filter (·.write)).foldl (fun d r => (d.performWrite r 0).1) d
  let d := (ch.driftIn.filter (·.write)).foldl (fun d r => (d.performWrite r 1).1) d
  let d := (ch.peerIn.filter (·.write)).foldl (fun d r => (d.performWrite r 3).1) d
  let ws := (d.chan c).wbuf
  let d : Dev := if ch.down then d else { d with dram := ws.foldl (fun m b => m.writeWord b.word (b.onto m).1 (b.onto m).2) d.dram }
  d.updChan c fun ch => { ch with wbuf := [], hostIn := [], driftIn := [], peerIn := [] }

/-- Every atom reaches its boundary, accepted writes reach the array, every die-slice enters self-refresh, and the order in
force is recorded (R158, R465). -/
def Dev.quiesce (d : Dev) : Dev :=
  let d := forNat 32 d fun d c => forNat 64 d fun d b => d.atomDone c b
  let d := forNat 32 d fun d c => (d.flushChannel c).updChan c fun ch =>
    { ch with banks := [], selfRef := true, powerDown := false }
  { d with sys := { d.sys with saved := some d.order } }

/-! ## Power-on -/

/-- The identities that the repair record gives (R382): recorded slots are retired, and the spare of a group carries the
lowest of them. -/
def repairFloes (rec_ : List (Fin 136)) : Tab Floe :=
  let hit := fun (n : Nat) => rec_.any fun r => r.val == n
  ((List.range 136).map fun n =>
      let f : Floe :=
        if n < 128 then
          if hit n then { Floe.init with retired := true } else floeDflt n
        else if hit n then { Floe.init with retired := true }
        else match (List.range 16).find? fun k => hit (16 * (n - 128) + k) with
          | some k => { Floe.init with st := .idle, ident := some (BitVec.ofNat 7 (16 * (n - 128) + k)) }
          | none => floeDflt n
      (n, f)).filter fun e => e.2 != floeDflt e.1

/-- A power-on reset reinitialises everything (R464); RESET_n's level is the board's. -/
def Dev.powerOn (d : Dev) : Dev :=
  let low := d.pinLow
  let d : Dev := { d with cs := [], latR := [], latW := [], mor := [], morUe := [], wins := [], dram := { bytes := [], synd := [] } }
  let d := d.clearEngines
  let d := (d.setRegBit rRstCause 0 true).setRegBit rRstStat 29 true
  let d := (d.setRegBit rRstStat 31 low).setRegBit rDbgPolicy 30 d.fuses.vendorEn
  { d with floes := repairFloes d.fuses.repair, sys := { Sys.init with phase := .rising, pinAtPower := low, sb := { Sideband.init with addr := d.sys.sb.addr } } }

/-! ## Failed starts -/

/-- The failed-start count (R495). -/
def Dev.fails (d : Dev) : Nat := fld (d.reg rRstStat) 19 18

/-- A failed start (R473). -/
def Dev.startFail (d : Dev) (code : Nat) : Dev :=
  let d := d.report 0x0A01 2 0 0 0 code
  let d := (d.setRegFld rRstStat 19 18 (sat 3 (d.fails + 1))).setRegFld rCfgStat 15 8 code
  d.reset (if code = 8 then cWdog else cRetry) false

/-! ## Stops -/

/-- The clocks of the device stop, and DRAM is not retained (R507, R541). -/
def Dev.stopClocks (d : Dev) (p : Phase) : Dev :=
  { d with timeRun := false, sys := { d.sys with phase := p, saved := none, retaining := false } }

end Sys2Proof.Machine
end

