-- ==== Sys2Proof/Machine/Bringup.lean ====
section
/-! DEFINITION. Start-up (R469 to R476), permafrost (R495 to R497), the RESET_n pin (R467, R468), power-good (R541), resets
from the sideband, the host and a peer (R110, R466, R502), and the flash registers (R498). -/

namespace Sys2Proof.Machine

/-! ## Steps of a start -/

def Dev.step_ (d : Dev) (k : Nat) : Dev := d.setRegFld rCfgStat 18 16 k

/-- Step 1 once the PLLs have locked: the timebase starts and SVN_FUSE is read (R46, R469, R505). The lock falls in a slot
in which a bank cycle (R171) and a share window (R144) begin: DESIGN CHOICE, log 47. -/
def Dev.stepOne (d : Dev) : Dev :=
  let d := d.advanceTo ((d.clock + 4095) / 4096 * 4096)
  let d := (d.setRegBit rRstStat 29 false).setRegFld rClkStat 31 29 7
  let d := (d.setRegFld rCfgSvn 7 0 d.fuses.svnFuse).step_ 1
  { d with timeRun := true }

/-- Slots that the self-tests fail (R475, R476, R503): retired, reported, and recorded when the image enables it. -/
def Dev.bist (d : Dev) (fails : BitVec 136) : Dev :=
  let ns := setBits 136 fails.toNat
  let d := ns.foldl (fun d n =>
    let fresh := !(d.floe n).retired
    let d := (d.setRegBit (rCfgBist + 4 * (n / 32)) (n % 32) true).updFloe n fun f => { f with retired := true }
    let d := d.report 0x0A04 2 4 n 0 0
    let d : Dev := if fresh then { d with sys := { d.sys with retiredNow := d.sys.retiredNow ++ [n] } } else d
    if d.sys.repairRec && decide (d.fuses.repair.length < 16) && !(d.fuses.repair.any fun r => r.val == n) then
      { d with fuses := { d.fuses with repair := d.fuses.repair ++ [Fin.ofNat 136 n] } }
    else d) d
  d

/-- Does a DRAM die read below −5 °C (R470)? A sensor read as 125 °C does not. -/
def Dev.tooCold (d : Dev) : Bool :=
  (List.range 16).any fun i => decide (sextInt 12 (fld (d.reg (rThmDram i)) 11 0) < -20)

/-- The settings that training chose for a channel (R164): START and CURRENT of its 39 lanes and groups, and their widths. -/
def Dev.setTsv (d : Dev) (c : Nat) (ls : List LaneMeas) : Dev :=
  (ls.zipIdx).foldl (fun d p =>
    d.setReg (rChTsvLane c p.2)
      (BitVec.ofNat 32 (p.1.centre.toNat * 2 ^ 24 + p.1.centre.toNat * 2 ^ 16 + p.1.eye.toNat * 2 ^ 8))) d

/-- The windows measured on a channel: 39 of each in turn, those that the operand gives (log 154). -/
def tsvLanes (lanes : List LaneMeas) (c : Nat) : List LaneMeas := (lanes.drop (39 * c)).take 39

/-- Channels that training leaves down: those whose attempts fail, and those with a window narrower than 16 steps (R163, R164). -/
def tsvFails (down : BitVec 32) (lanes : List LaneMeas) (c : Nat) : Bool :=
  down.getLsbD c || (tsvLanes lanes c).any fun l => !lanePasses l

/-- Step 4: training of every channel (R164). -/
def Dev.stepFour (d : Dev) (down : BitVec 32) (lanes : List LaneMeas) : Dev :=
  forNat 32 (d.step_ 4) fun d c =>
    if tsvFails down lanes c then d.updChan c fun ch => { ch with down := true }
    else d.setTsv c (tsvLanes lanes c)

/-- Is retention due (R465)? -/
def Dev.retains (d : Dev) (held : Bool) (order : Option Nat) : Bool := held && d.sys.saved == some order

/-- Step 5: initialisation or retention, and the order of the image (R131, R165, R465). `order` is none in permafrost. -/
def Dev.stepFive (d : Dev) (held : Bool) (order : Option Nat) : Dev :=
  let d := d.step_ 5
  let keep := d.sys.retaining && d.retains held order
  let d : Dev := if keep then d else { d with dram := { bytes := [], synd := [] } }
  let d := if d.sys.retaining && !keep then (d.setRegBit rCfgStat 26 true).report 0x0A07 2 0 0 0 0 else d
  let d := d.setRegBit rRstCause 8 keep
  let d := d.chAll rChCfg 31 31 (if order.isNone then 1 else 0)
  let d := forNat 32 d fun d c => d.updChan c fun ch =>
    -- the visit times of R166 are spread over 50 ms (log 155); scrub begins (R370)
    if ch.down then ch else { ch with ready := true, selfRef := false, nextRefi := d.clock + refiSlots (d.band (c / 2))
                                      nextVisit := d.clock + (c + 1) * 3125000, scrubAt := d.clock }
  { d with sys := { d.sys with retaining := false, saved := none } }

/-- A host channel trained at start-up (R75). -/
def Dev.hostUp (d : Dev) (c : Nat) : Dev :=
  (d.setLanes c (BitVec.allOnes 68)).updHost c fun h =>
    let h := { h with trained := some (linkData 0xFF false false true 128 512 (BitVec.ofNat 72 (2 ^ 68 - 1))) }
    h.trainedUp .start 0xFF d.clock

/-- A host channel whose three attempts fail at start-up (R75): what its lanes came to in the last is left open (log 164). -/
def Dev.hostFails (d : Dev) (c : Nat) : Dev :=
  (({ d with freeUses := d.freeUses + 1 } : Dev).setLanes c ((Config.freeLine d.freeUses).truncate 68)).hostDown c false

/-- Step 6 begins on a set of channels (R75, R469): those whose host drives CK train or are down; the others wait. -/
def Dev.stepSix (d : Dev) (chs : List Nat) (ck ok : BitVec 32) : Dev :=
  let d := chs.foldl (fun d c =>
    if !ck.getLsbD c then d.updHost c fun h => { h with training := some .start }
    else if ok.getLsbD c then d.hostUp c
    else d.hostFails c) (d.step_ 6)
  let waits := chs.foldl (fun x c => if ck.getLsbD c then x else x + 2 ^ c) 0
  { d with sys := { d.sys with waitingCh := BitVec.ofNat 32 waits } }

/-! ## Step 7 -/

/-- The identities at the release (R382, R383, R476). -/
def Dev.assignSpares (d : Dev) : Dev :=
  -- a retired slot holds no identity
  let d := forNat 136 d fun d n =>
    let f := d.floe n
    if f.retired && f.ident.isSome then d.setFloe n { f with ident := none, st := .unassigned } else d
  let d := forNat 8 d fun d g =>
    let s := 128 + g
    let f := d.floe s
    match (List.range 16).find? fun k => d.sys.retiredNow.contains (16 * g + k) && (d.slotOf (16 * g + k)).isNone with
    | some k =>
      if f.retired || f.ident.isSome then d
      else (d.setFloe s { f with ident := some (BitVec.ofNat 7 (16 * g + k)), st := .idle }).report 0x0551 1 3 (16 * g + k) 0 s
    | none => d
  forNat 128 d fun d f => if (d.slotOf f).isNone then d.report 0x0552 3 3 f 0 0 else d

/-- The administrative rings that the image recorded (R90). -/
def Dev.imageRings (d : Dev) : Dev :=
  forNat 16 d fun d f => if rbit (d.reg (rAdmCfg f)) 31 then d.admCreate f else d

/-- Burn the security-version fuses of an image that commits (R484). -/
def Dev.svnCommit (d : Dev) : Dev :=
  let v := fld (d.reg rCfgSvn) 15 8
  if d.sys.commitSvn && decide (d.fuses.svnFuse < v) then
    let d : Dev := { d with fuses := { d.fuses with svn := d.fuses.svn ||| BitVec.ofNat 64 (2 ^ v - 1) } }
    (d.setRegFld rCfgSvn 7 0 d.fuses.svnFuse).report 0x0A06 0 0 0 0 d.fuses.svnFuse
  else d

/-- Channels of a kind that are down. -/
def Dev.downMask (d : Dev) (host : Bool) : Nat :=
  (List.range 32).foldl (fun x c => if (if host then (d.host c).down else (d.chan c).down) then x + 2 ^ c else x) 0

/-- The copy ring restarts empty (R464). -/
def Dev.morRestart (d : Dev) : Dev := (d.setReg rMorTail (d.reg rMorSeq)).setReg rMorHead (d.reg rMorSeq)

/-- Links begin training (R407), but for those that DISABLE keeps untrained. -/
def Dev.startLinks (d : Dev) : Dev :=
  forNat 5 d fun d l => d.linkTrain l .start

/-- Step 7 and the end of a start that succeeds (R469, R472, R522, R524). -/
def Dev.release (d : Dev) : Dev :=
  let d := d.advanceTo (d.clock + 2000000 * d.sys.startMs)
  let d := (d.step_ 7).assignSpares
  let d : Dev := ({ d with released := true } : Dev).imageRings
  let d := (d.setRegBit rCpStat 31 true).svnCommit.startLinks
  let d := (d.setReg rCfgHdown (BitVec.ofNat 32 (d.downMask true))).setReg rCfgDdown (BitVec.ofNat 32 (d.downMask false))
  let ms := sat 65535 d.sys.startMs
  let d := (d.setRegFld rCfgStartMs 15 0 ms).setRegFld rRstStat 19 18 0
  let d := if rbit (d.reg rThmTrip) 31 then (d.setRegBit rThmTrip 31 false).setRegBit rCpDevsrc 30 true else d
  (d.setPhase .running).report 0x0A00 0 0 0 0 ms

/-- The end of step 6: the release when every channel has trained or is down, the wait otherwise. -/
def Dev.endSix (d : Dev) : Dev :=
  if d.sys.waitingCh = 0 then
    if rbit (d.reg rCfgStat) 30 then
      ((d.setReg rCfgHdown (BitVec.ofNat 32 (d.downMask true))).setReg rCfgDdown (BitVec.ofNat 32 (d.downMask false))).setPhase
        .permafrost
    else d.release
  else d.setPhase .hostWait

/-! ## STARTUP -/

/-- Steps 4 to 6 of an ordinary start. -/
def Dev.startTail (d : Dev) (env : StartEnv) : Dev :=
  if (List.range 32).any (tsvFails env.tsvDown env.lanes) then ((d.stepFour env.tsvDown env.lanes).startFail 6)
  else
    let d := d.stepFour 0 env.lanes
    if env.dramBad then d.startFail 7
    else
      let d := d.stepFive env.held (some (fld (d.reg (rChCfg 0)) 25 24))
      (d.stepSix (List.range 32) env.ckSeen env.hostOk).endSix

/-- Permafrost (R496): its steps, without an image, and with failures recorded but not fatal. -/
def Dev.enterPermafrost (d : Dev) (env : StartEnv) : Dev :=
  let d := (d.stepOne.loadDefaults.morRestart).setRegBit rCfgStat 30 true
  let d := (d.step_ 3).bist env.bist
  let d := ((d.stepFour env.tsvDown env.lanes).stepFive false none).updHost 0 fun h => { h with slow := true }
  let d := d.report 0x0A03 3 0 0 0 0
  (d.stepSix [0] env.ckSeen env.hostOk).endSix

/-- STARTUP from time zero (R469, R472): the steps in order, the first failure ending the start. -/
def Dev.startup (d : Dev) (env : StartEnv) : Dev :=
  if !(d.sys.phase == .waiting || d.sys.phase == .starting) then d
  else if !env.pllOk then ((d.setRegBit rRstStat 29 false).step_ 1).setPhase .starting
  else
    let d : Dev := { d with sys := { d.sys with startMs := env.startMs.toNat } }
    if d.fails = 3 then d.enterPermafrost env
    else
      let d := d.stepOne
      if !env.fuseOk then d.startFail 3
      else
        let d := (d.step_ 2).setRegFld rFlStat 23 16 env.density.toNat
        if !env.flashOk ∨ env.density.toNat < 23 then d.startFail 1
        else match d.selectImage env.readOk with
          | (none, d) => d.startFail 2
          | (some d, _) =>
            let d := d.morRestart.step_ 3
            if env.eccBad then d.startFail 4
            else if env.sramBad then d.startFail 5
            else
              let d := d.bist env.bist
              if d.tooCold then (d.setRegBit rCfgStat 25 true).setPhase .cold
              else d.startTail env

/-- COLD_HOLD_RELEASE (R470). -/
def Dev.coldRelease (d : Dev) (env : StartEnv) : Dev :=
  if d.sys.phase ≠ .cold ∨ d.tooCold then d else (d.setRegBit rCfgStat 25 false).startTail env

/-- A channel of step 6 has trained or is down: it no longer holds the step. -/
def Dev.sixCheck (d : Dev) (c : Nat) : Dev :=
  if d.sys.phase ≠ .hostWait then d
  else if !(d.host c).up && !(d.host c).down then d
  else
    let left := BitVec.ofNat 32 (d.sys.waitingCh.toNat &&& (2 ^ 32 - 1 - 2 ^ c))
    ({ d with sys := { d.sys with waitingCh := left } } : Dev).endSix

/-- HOST_WAIT_EXPIRY (R469): the channel has shown no CK. -/
def Dev.hostWaitExpiry (d : Dev) (c : Nat) : Dev :=
  if d.sys.phase ≠ .hostWait ∨ !d.sys.waitingCh.getLsbD c then d
  else
    let last := d.sys.waitingCh == BitVec.ofNat 32 (2 ^ c)
    let d : Dev := if last then { d with sys := { d.sys with startMs := d.sys.startMs + d.sys.hostWait } } else d
    (d.hostDown c false).sixCheck c

/-- STARTUP_WATCHDOG (R471): 1,000 ms from time zero; it pauses in the cold hold and the host wait. -/
def Dev.startupWatchdog (d : Dev) : Dev :=
  if (d.sys.phase == .waiting || d.sys.phase == .starting) && d.fails != 3 then d.startFail 8 else d

/-! ## Pins and power -/

/-- RESET_PIN_ASSERT (R463, R467): the reset holds for as long as the pin stays low. -/
def Dev.resetPinAssert (d : Dev) : Dev :=
  let d := (d.setRegBit rRstStat 31 true).setRegFld rRstStat 15 0 0
  match d.sys.phase with
  | .off => { d with sys := { d.sys with pinAtPower := true } }
  | .rising => { d with sys := { d.sys with pinAtPower := true } }
  | _ => ({ d with sys := { d.sys with pinAtPower := false } } : Dev).reset cPin false

/-- RESET_PIN_RELEASE (R467, R468): after 10 µs high, time zero of start-up. A pin held low at power-on is no fault: what it
leaves is log 168. -/
def Dev.resetPinRelease (d : Dev) (ms : Nat) : Dev :=
  if !d.pinLow then d
  else
    let stuck := rbit (d.reg rRstStat) 30
    let d := ((d.setRegBit rRstStat 31 false).setRegBit rRstStat 30 false).setRegFld rRstStat 15 0 ms
    let d := if stuck && !d.sys.pinAtPower then d.report 0x0A05 2 0 0 0 ms else d
    -- EXTEST acts only while RESET_n is low (R457)
    let d : Dev := { d with sys := { d.sys with pinAtPower := false, tap := { d.sys.tap with driving := false } } }
    if d.sys.phase = .held then d.setPhase (if d.sys.cooling.isSome then .tripped else .waiting) else d

/-- RESET_PIN_STUCK (R468); PIN_MS then counts at least 1,000. -/
def Dev.resetPinStuck (d : Dev) : Dev :=
  if !d.pinLow then d
  else (d.setRegBit rRstStat 30 true).setRegFld rRstStat 15 0 (max 1000 (fld (d.reg rRstStat) 15 0))

/-- POWER_GOOD (R541): with a high RESET_n, time zero. -/
def Dev.powerGood (d : Dev) : Dev :=
  if d.sys.phase = .rising then d.setPhase (if d.pinLow then .held else .waiting) else d

/-- RAIL_OUT_OF_RANGE (R541): power-good is withdrawn and every clock stops. -/
def Dev.railOut (d : Dev) : Dev :=
  match d.sys.phase with
  | .off => d
  | .rising => d
  | _ => (d.stopClocks .off).setRegFld rClkStat 31 24 0

/-! ## Resets by command -/

/-- The resets that RST_CTRL and a peer ask for reach a device with power (R502). -/
def Dev.powered (d : Dev) : Bool := !(d.sys.phase == .off || d.sys.phase == .rising)

/-- ACTION 1 of RST_CTRL from the sideband (R463, R502). -/
def Dev.sidebandReset (d : Dev) (key : Nat) : Dev :=
  if key = 0x6440 && d.powered then d.reset cSideband false else d

/-- ACTION 2: FAILS to 0. -/
def Dev.clearFails (d : Dev) (key : Nat) : Dev := if key = 0x6440 then d.setRegFld rRstStat 19 18 0 else d

/-- ACTION 3: FAILS to 0, then a boot-retry reset. -/
def Dev.clearRetry (d : Dev) (key : Nat) : Dev :=
  if key = 0x6440 then
    let d := d.setRegFld rRstStat 19 18 0
    if d.powered then d.reset cRetry false else d
  else d

/-- WARM_RESET (R104, R110, R465): the command writes no record. -/
def Dev.warmReset (d : Dev) (n : Nat) (i : BitVec 32) : Dev :=
  match d.rowCmd n i 0x13 with
  | none => d
  | some c =>
    let st := d.checkArgs c (c.arg 16 4 == 0x6440A5A5) [] true 0
    if st ≠ 0 then d.endCmd c st else d.quiesce.reset cWarm true

/-- A peer-requested reset: the target's UID and the key both match (R466). The Bool: it was obeyed, and the link that brought it
stands as after a reset. -/
def Dev.peerReset (d : Dev) (uid key : Nat) (fromTwin : Bool) (src link : Nat) : Dev × Bool :=
  let allowed := fromTwin || (d.group.member && d.group.founder.toNat == src)
  if d.sys.peerReset && allowed && uid == d.fuses.uid.toNat && key == 0x6440A5A5 then (d.reset cPeer false, true)
  else (d.report 0x0A09 2 7 link 0 0, false)

/-! ## Flash -/

/-- The result of an operation in FL_STAT.CODE (R503). -/
def Dev.flCode (d : Dev) (code : Nat) : Dev := (d.setRegFld rFlStat 3 0 code).setRegBit rFlStat 31 false

/-- Does an address lie in the copy named by CFG_STAT.COPY (R478, R498)? -/
def Dev.flProtected (d : Dev) (a : Nat) : Bool :=
  let copy := fld (d.reg rCfgStat) 29 28
  !d.permafrost && ((copy == 1 && decide (a < 0x400000)) || (copy == 2 && decide (0x400000 ≤ a)))

/-- What a program or an erase that failed leaves in the flash is open: free bytes. -/
def Dev.flashSpoil (d : Dev) (a n : Nat) : Dev :=
  let u := d.freeUses
  { d with flash := forNat n d.flash fun m k => tabSet (fun _ => (0xFF : BitVec 8)) m (a + k) (lineByte (Config.freeLine (u + k / 64)) (k % 64))
           freeUses := u + n / 64 }

/-- FL_CTRL with GO = 1 and OP 0, 1 or 2 (R498); `ok` says that the flash finished in time and did what it was told. A program
clears bits and sets none (PRESUMED, log 91): a page that was not erased may then read back unequal. -/
def Dev.flashOp (d : Dev) (op : Nat) (ok : Bool) : Dev :=
  let a := fld (d.reg rFlAddr) 22 0
  let size := if op = 2 then 4096 else 256
  if a % size ≠ 0 then d.flCode 2
  else if op ≠ 0 && d.flProtected a then d.flCode 1
  else if !ok then (if op = 0 then d else d.flashSpoil a size).flCode 3
  else match op with
    | 0 => (forNat 64 d fun d k =>
        d.setReg (rFlBuf + 4 * k) (BitVec.ofNat 32 (leNat ((List.range 4).map fun i => d.flashByte (a + 4 * k + i))))).flCode 0
    | 1 =>
      let put := fun (m : List Host.Cell) (k : Nat) =>
        let x : BitVec 8 := BitVec.ofNat 8 (fieldAt (d.reg (rFlBuf + 4 * (k / 4))).toNat (k % 4) 1)
        tabSet (fun _ => (0xFF : BitVec 8)) m (a + k) (x &&& tabGet (fun _ => (0xFF : BitVec 8)) m (a + k))
      let d : Dev := { d with flash := forNat 256 d.flash put }
      -- the page must read back equal to the buffer
      let same := (List.range 256).all fun k => (d.flashByte (a + k)).toNat == fieldAt (d.reg (rFlBuf + 4 * (k / 4))).toNat (k % 4) 1
      if same then (d.flCode 0).report 0x0A08 0 0 0 a op else d.flCode 3
    | _ =>
      (({ d with flash := tabDrop (fun k => decide (a ≤ k) && decide (k < a + size)) d.flash } : Dev).flCode 0).report
        0x0A08 0 0 0 a op

end Sys2Proof.Machine
end

