-- ==== Sys2Proof/Machine/Thermal.lean ====
section
/-! DEFINITION. Sensors, bands and throttling (R513 to R518), the power limit (R519), trips and restarts (R520, R521), PLLs
(R507), regulator phases (R510 to R512) and the process monitors (R523). Temperatures are in units of 0.25 °C and factors
in 64ths. -/

namespace Sys2Proof.Machine

/-- A code of this chapter; 0x0802 to 0x0809 set CP_ATTN_DEVSRC.THERMAL (R524). -/
def Dev.thmReport (d : Dev) (code sev ukind info : Nat) : Dev :=
  let d := d.report code sev ukind 0 0 info
  if 0x0802 ≤ code then d.devsrc 30 else d

/-! ## Sensors -/

/-- The register of a sensor: 0 to 15 DRAM dies, 16 to 24 base die. -/
def rSensor (i : Nat) : Nat := if i < 16 then rThmDram i else rThmBase (i - 16)

/-- TEMP of a sensor. -/
def Dev.temp (d : Dev) (i : Nat) : Int := sextInt 12 (fld (d.reg (rSensor i)) 11 0)

/-- A sensor becomes or stays invalid: it is read as 125 °C (R514). -/
def Dev.sensorBad (d : Dev) (i : Nat) : Dev :=
  let first := !rbit (d.reg (rSensor i)) 31
  let d := (d.setRegBit (rSensor i) 31 true).setRegFld (rSensor i) 11 0 0x1F4
  let d : Dev := { d with sys := { d.sys with validRun := tabSet (fun _ => 0) d.sys.validRun i 0 } }
  if first then d.thmReport 0x0804 2 8 i else d

/-- One conversion of a sensor (R514). -/
def Dev.sensorRead (d : Dev) (i : Nat) (v : BitVec 12) : Dev :=
  let t := sextInt 12 v.toNat
  if t < -160 ∨ 600 < t then d.sensorBad i
  else if rbit (d.reg (rSensor i)) 31 then
    let run := tabGet (fun _ => 0) d.sys.validRun i + 1
    if 10 ≤ run then
      let d : Dev := { d with sys := { d.sys with validRun := tabSet (fun _ => 0) d.sys.validRun i 0 } }
      (d.setRegBit (rSensor i) 31 false).setRegFld (rSensor i) 11 0 v.toNat
    else { d with sys := { d.sys with validRun := tabSet (fun _ => 0) d.sys.validRun i run } }
  else d.setRegFld (rSensor i) 11 0 v.toNat

/-- The band that a die at `t` enters or keeps (R515). -/
def nextBand (band : Nat) (t : Int) : Nat :=
  let up := if 380 ≤ t then 3 else if 340 ≤ t then 2 else if 180 ≤ t then 1 else 0
  let keeps := if 372 ≤ t then 3 else if 332 ≤ t then 2 else if 172 ≤ t then 1 else 0
  if band < up then up else min band keeps

/-- `prop(t, point)` of R517 in 64ths; `point` in °C. -/
def propFactor (t : Int) (point : Nat) : Nat :=
  let e := (t - 4 * point).toNat
  max 8 ((6400 - 128 * e) / 100)

/-- Band, LOW and s_d of a die (R515 to R517). -/
def Dev.dieConvert (d : Dev) (i : Nat) : Dev :=
  let t := d.temp i
  let old := d.band i
  let band := nextBand old t
  let d := d.setRegFld (rThmDram i) 29 28 band
  let d := if band ≠ old then d.thmReport 0x0800 0 8 (i + 16 * band) else d
  let low := rbit (d.reg (rThmDram i)) 30
  let d := if t < -20 && !low then (d.setRegBit (rThmDram i) 30 true).thmReport 0x0803 1 8 i
    else if -12 ≤ t then d.setRegBit (rThmDram i) 30 false else d
  let s := propFactor t (fld (d.reg rThmCfg) 6 0)
  d.setRegFld (rThmDram i) 22 16 (if band = 3 then min 58 s else s)

/-- The greatest TEMP of some sensors. -/
def Dev.hottest (d : Dev) (is : List Nat) : Int := is.foldl (fun x i => max x (d.temp i)) (-2048)

/-- s_P (R519). -/
def Dev.sP (d : Dev) : Nat := fld (d.reg rPwrStat) 29 23

/-- Every factor is recomputed (R517). -/
def Dev.factors (d : Dev) : Dev :=
  let d := forNat 16 d Dev.dieConvert
  let sb := propFactor (d.hottest ((List.range 9).map (16 + ·))) (fld (d.reg rThmCfg) 14 8)
  let s := (List.range 16).foldl (fun x i => min x (fld (d.reg (rThmDram i)) 22 16)) (min sb d.sP)
  let old := fld (d.reg rThmStat) 22 16
  let d := d.setRegFld rThmStat 22 16 s
  if (s == 64) != (old == 64) then d.thmReport 0x0801 0 0 s else d

/-- Is some valid reading at 85 °C or above (R521)? -/
def Dev.tooWarm (d : Dev) : Bool :=
  (List.range 25).any fun i => !rbit (d.reg (rSensor i)) 31 && decide (340 ≤ d.temp i)

/-- The always-on domain has power: the sensors convert (R513, R541). -/
def Dev.sensing (d : Dev) : Bool := d.powered && d.sys.phase != .held

/-- SENSOR_CONVERSION (R514 to R517, R521). -/
def Dev.sensorConversion (d : Dev) (dram base : List (BitVec 12)) : Dev :=
  if !d.sensing then d
  else
    let d := ((dram.take 16).zipIdx).foldl (fun d p => d.sensorRead p.2 p.1) d
    let d := ((base.take 9).zipIdx).foldl (fun d p => d.sensorRead (16 + p.2) p.1) d
    let d : Dev := if d.sys.cooling.isSome && d.tooWarm then { d with sys := { d.sys with cooling := some d.clock } } else d
    if d.sys.phase.live then d.factors else d

/-- SENSOR_TIMEOUT (R514). -/
def Dev.sensorTimeout (d : Dev) (i : Nat) : Dev := if d.sensing then d.sensorBad i else d

/-! ## Power -/

/-- Has a fabric phase failed open or lost its sense (R511, R512)? -/
def Dev.fabricDegraded (d : Dev) : Bool := [32, 33].any fun p => fld (d.reg (rPwrPhase p)) 31 30 != 0

/-- The power limit in force, in W (R519). -/
def Dev.powerLimit (d : Dev) : Nat :=
  let w := fld (d.reg rPwrLimit) 7 0
  if d.fabricDegraded then min w 120 else w

/-- s_P after an adjustment: `avg` and `peak` in 0.1 W (R519). -/
def nextSp (s limit avg peak : Nat) : Nat :=
  if 25 * limit < 2 * peak then max 8 (s / 2)
  else if 10 * limit < avg then max 8 (s - 2)
  else if 10 * avg < 97 * limit then min 64 (s + 1)
  else s

/-- POWER_ADJUST (R519, R523). -/
def Dev.powerAdjust (d : Dev) (avg peak : Nat) : Dev :=
  if !d.sys.phase.live then d
  else
    let w := d.powerLimit
    let s := nextSp d.sP w avg peak
    let d := (d.setRegFld rPwrStat 29 23 s).setRegFld rPwrStat 15 0 avg
    let e := d.sys.energyRem + avg
    let d := d.count rPwrEnergy (e / 100)
    { d with sys := { d.sys with energyRem := e % 100, overRun := if s = 8 && decide (10 * w < avg) then d.sys.overRun + 1 else 0 } }

/-- POWER_OVER (R519): 10 ms are 100 adjustments. -/
def Dev.powerOver (d : Dev) : Dev :=
  if d.sys.phase.live && decide (100 ≤ d.sys.overRun) && !rbit (d.reg rPwrStat) 31 then
    (d.setRegBit rPwrStat 31 true).thmReport 0x0808 1 0 (fld (d.reg rPwrStat) 15 0)
  else d

/-! ## Trips -/

/-- The stop sequence of R520: commands end, atoms reach their boundaries, accepted writes reach the array, every die-slice
enters self-refresh, and the PLLs stop. -/
def Dev.stopSequence (d : Dev) (code sev ukind info : Nat) (p : Phase) : Dev :=
  let dev := d.reg rCpAttnDev
  let d : Dev := if d.sys.phase.live then
      let d := (d.thmReport code sev ukind info).quiesce
      { d with cmds := [] }
    else d.thmReport code sev ukind info
  let d := d.setRegFld rClkStat 31 24 0
  { d with timeRun := false
           sys := { d.sys with phase := p, tripAttn := if rbit dev 31 then BitVec.ofNat 4 (2 ^ fld dev 1 0) else 0 } }

/-- THERMAL_TRIP (R520): comparators 0 to 15 DRAM dies, 16 base die. A trip while the device is held or stopped is recorded,
and the next start waits for the cooling. -/
def Dev.thermalTrip (d : Dev) (k : Nat) : Dev :=
  if !d.powered then d
  else
    let temp := if k < 16 then fld (d.reg (rThmDram k)) 11 0
      else ((d.hottest ((List.range 9).map (16 + ·))) % 4096).toNat
    let d := d.setReg rThmTrip (BitVec.ofNat 32 (2 ^ 31 + k * 2 ^ 21 + 1000))
    let d : Dev := { d with sys := { d.sys with cooling := some d.clock } }
    match d.sys.phase with
    | .held | .stopped | .dead | .tripped => d
    | _ => d.stopSequence 0x0802 3 8 (k + temp * 2 ^ 16) .tripped

/-- THERMAL_RESTART (R463, R521): every die below 85 °C for 1 s. -/
def Dev.thermalRestart (d : Dev) : Dev :=
  match d.sys.phase, d.sys.cooling with
  | .tripped, some t =>
    if d.tooWarm then d
    else
      let d := (d.advanceTo (t + 2000000000)).setRegFld rThmTrip 10 0 0
      let d : Dev := { d with sys := { d.sys with cooling := none, tripAttn := 0 } }
      d.reset cThermal d.sys.saved.isSome
  | _, _ => d

/-! ## PLLs and phases -/

/-- PLL_UNLOCK (R507): 0 PLL-F, 1 PLL-D, 2 PLL-H. -/
def Dev.pllUnlock (d : Dev) (pll : Nat) : Dev :=
  if !(d.sys.phase.live || d.sys.phase == .cold || d.sys.phase == .stopped) then d
  else
    let d := (d.setRegBit rClkStat (16 + pll) true).setRegBit rClkStat (31 - pll) false
    let d := if rbit (d.reg rClkStat) 31 then d.thmReport 0x0809 3 0 pll else d
    d.stopClocks .stopped

/-- PHASE_OPEN (R511). -/
def Dev.phaseOpen (d : Dev) (p : Nat) : Dev :=
  let o := rPwrPhase p
  if !d.powered || rbit (d.reg o) 31 then d
  else
    let d := d.setRegBit o 31 true
    if p < 32 then (d.setRegFld o 29 23 (min 32 (fld (d.reg o) 29 23))).thmReport 0x0805 2 8 p
    else if rbit (d.reg (rPwrPhase 32)) 31 && rbit (d.reg (rPwrPhase 33)) 31 then
      d.stopSequence 0x0807 3 0 0 .dead
    else d.thmReport 0x0805 2 8 p

/-- SENSE_FAIL (R512). -/
def Dev.senseFail (d : Dev) (p : Nat) : Dev :=
  let o := rPwrPhase p
  if !d.powered || rbit (d.reg o) 30 then d
  else
    let d := (d.setRegBit o 30 true).setRegFld o 9 0 1000
    let d := if p < 32 then d.setRegFld o 29 23 8 else d
    d.thmReport 0x0806 2 8 p

/-! ## Process monitors -/

/-- A write of MON_PROC_CTRL with GO (R523). -/
def Dev.monStart (d : Dev) : Dev := d.setRegBit rMonProcCtrl 30 true

/-- MON_PROC_COUNT_END (R523). -/
def Dev.monEnd (d : Dev) (counts : List (BitVec 20)) : Dev :=
  if !rbit (d.reg rMonProcCtrl) 30 then d
  else
    let d := ((counts.take 9).zipIdx).foldl (fun d p => d.setReg (rMonProc p.2) (p.1.zeroExtend 32)) d
    d.setRegBit rMonProcCtrl 30 false

end Sys2Proof.Machine
end

