-- ==== Sys2Proof/Machine/Registers.lean ====
section
/-! DEFINITION. Reads and writes of control space (R10, R12, R37 to R40, R47, R48, R451, R452): who may reach what, the
latches of 64-bit quantities, and what each register does with a write. -/

namespace Sys2Proof.Machine

/-! ## Agents -/

/-- An access's path of latches (R47): 0 to 31 host channels, 32 the sideband, 33 the TAP, 34 and up the devices of the
group; its field and world (R444); and whether it is the sideband, or the TAP at VENDOR level. -/
structure Rights where
  path   : Nat
  field  : Option (BitVec 4)
  secure : Bool
  side   : Bool
  vendor : Bool
  host   : Option (Nat × Nat)
deriving DecidableEq, Repr

/-- DBG_STAT.LEVEL (R457). -/
def Dev.tapLevel (d : Dev) : Nat := fld (d.reg rDbgStat) 31 30

def Dev.hostRights (d : Dev) (ch srcid : Nat) (secure : Bool) : Rights :=
  { path := ch, field := d.hstField ch srcid, secure := secure, side := false, vendor := false, host := some (ch, srcid) }

def sideRights : Rights := { path := 32, field := none, secure := true, side := true, vendor := false, host := none }

def Dev.tapRights (d : Dev) : Rights :=
  { path := 33, field := none, secure := d.tapLevel == 2, side := false, vendor := d.tapLevel == 2, host := none }

def peerRights (dev : BitVec 6) (field : BitVec 4) (secure : Bool) : Rights :=
  { path := 34 + dev.toNat, field := some field, secure := secure, side := false, vendor := false, host := none }

def Dev.rights (d : Dev) (ag : Agent) : Rights :=
  match ag.kind with
  | 0 => d.hostRights ag.ch.val ag.srcid.toNat ag.secure
  | 1 => sideRights
  | 2 => d.tapRights
  | 3 => peerRights ag.dev ag.field ag.secure

/-- Does a control-space frame of a host source wait (R40)? Its later accesses wait behind it. -/
def Dev.csWaits (d : Dev) (c : Nat) (srcid : BitVec 6) : Bool :=
  d.csHeld.any fun e => e.1 == c && (frameF e.2.body).srcid == srcid

/-- Does the agent's path reach control space (R37, R411, R457)? -/
def Dev.reaches (d : Dev) (ag : Agent) : Bool :=
  match ag.kind with
  | 0 => d.sys.phase.live && (d.host ag.ch.val).up && !d.csWaits ag.ch.val ag.srcid
  | 1 => !d.sys.ioLost
  | 2 => d.sys.phase.live && d.tapLevel != 0
  | 3 => d.sys.phase.live && d.group.member && d.group.set.getLsbD ag.dev.toNat

/-! ## Admission -/

/-- What R451 says of one register: admitted, reads 0 and ignores writes, closed, or admitted in some bytes. -/
inductive Admit where
  | ok
  | zero
  | closed
  | part (mask : Reg)
deriving DecidableEq, Repr

/-- The bytes of an HST register whose entry maps to a field (R451). -/
def hstMask (r : Reg) (f : Option (BitVec 4)) : Reg :=
  match f with
  | none => 0
  | some f => (List.range 4).foldl (fun m j =>
      if rbit r (8 * j + 7) && fld r (8 * j + 3) (8 * j) == f.toNat then setFld m (8 * j + 7) (8 * j) 0xFF else m) 0

/-- Is a drift a non-secure drift of the field? -/
def Dev.openDrift (d : Dev) (dr : Nat) (f : Option (BitVec 4)) : Bool :=
  let a := d.driftAccess dr
  f.isSome && a.field == f && !a.secure

/-- Admission of one register (R451). -/
def Dev.letIn (d : Dev) (r : Rights) (o : Nat) : Admit :=
  if r.secure || o < 0x20000 then .ok
  else if o < 0x21000 then (if r.field.map (·.toNat) = some ((o - 0x20000) / 0x100) then .ok else .zero)
  else if rHst 0 0 ≤ o ∧ o < rHst 32 0 then .part (hstMask (d.reg o) r.field)
  else if rRegion 0 ≤ o ∧ o < rRegion 32768 then
    let e := d.reg o
    if rbit e 31 && r.field == some (BitVec.ofNat 4 (fld e 27 24)) && !tabGet (fun _ => false) d.regionUe ((o - rRegion 0) / 4)
      then .ok else .zero
  else if o = rDbgStat then .ok
  else if o = rDbgCtrl ∨ o = rDbgPolicy then .closed
  else if o < 0x100000 then .zero
  else if o < 0x200000 then .ok
  else if o < 0x288000 then
    match (d.floe ((o - 0x200000) / 0x1000)).ident with
    | some lf => if d.openDrift (lf.toNat / 4) r.field then .ok else .closed
    | none => .closed
  else if o < 0x300000 then .zero
  else if o < 0x320000 then (if d.openDrift ((o - 0x300000) / 0x1000) r.field then .ok else .closed)
  else if o < 0x400000 then .zero
  else if o < 0x500000 then .ok
  else if o < 0x600000 then .closed
  else .zero

/-- Is a read, or a write, of a 64-byte word closed as a whole (R451, R452)? -/
def Dev.wordClosed (d : Dev) (r : Rights) (w : Nat) (write : Bool) : Bool :=
  if w = rDbgStat then write && !r.secure else d.letIn r w == .closed

/-- The events of R462: CS_DENIED and RWS_IGNORED. -/
def Dev.csReport (d : Dev) (r : Rights) (code o : Nat) : Dev :=
  match r.host with
  | some (c, s) => d.report code 0 6 c o s r.field
  | none => d.report code 0 0 0 o 0 r.field

/-- The control-space subset of the sideband, for reads and for writes (R501). -/
def sideReads (o : Nat) : Bool :=
  decide (o < 0x1000) || (decide (0x10000 ≤ o) && decide (o < 0x20000)) || o == rDbgStat
    || (decide (0x100000 ≤ o) && decide (o < 0x180000))
    || (decide (0x200000 ≤ o) && decide (o < 0x288000) && (decide (o % 0x1000 < 0x400) || decide (0xC00 ≤ o % 0x1000)))
    || (decide (0x300000 ≤ o) && decide (o < 0x320000) && decide (o % 0x1000 < 0x100))
    || (decide (0x400000 ≤ o) && decide (o < 0x402000)) || (decide (0x500000 ≤ o) && decide (o < 0x600000))

/-- Bits of a register that a sideband write reaches (R501). -/
def sideWrites (o : Nat) : Reg :=
  let all := BitVec.allOnes 32
  if o = rRstCause ∨ o = rRstCtrl ∨ o = rFlCtrl ∨ o = rFlAddr ∨ (rFlBuf ≤ o ∧ o < rFlBuf + 256) then all
  else if 0x10000 ≤ o ∧ o < 0x20000 then all
  else if 0x100000 ≤ o ∧ o < 0x180000 then
    let k := o % 0x4000
    if k = 0x3004 then all else if k = 0x8 then 0x80000000 else if k = 0x3008 then 0xFC000000 else 0
  else if 0x400000 ≤ o ∧ o < 0x400500 ∧ o % 0x100 = 4 then 0xC0000000
  else if o = rMorHead ∨ o = rMorFatal then all
  else 0

/-- The registers that answer the sideband in reset (R501). -/
def sideAlways (o : Nat) : Bool :=
  [0, 4, rUidLo, rUidHi, rRstCause, rRstStat, rRstCtrl, rDbgStat].contains o

/-! ## Reads -/

/-- The latch of a path for the high half at an offset. -/
def latKey (path o : Nat) : Nat := path * 2 ^ 24 + o

/-- Read one register with the latching of R47. -/
def Dev.readReg (d : Dev) (r : Rights) (o : Nat) : Reg × Dev :=
  match d.letIn r o with
  | .zero => (0, d)
  | .closed => (0, d)
  | .part m => (d.regValue o &&& m, d)
  | .ok =>
    match regRow o with
    | none => (0, d)
    | some row =>
      if row.half = 1 then
        (d.regValue o, { d with latR := tabSet (fun _ => 0) d.latR (latKey r.path (o + 4)) (d.regValue (o + 4)) })
      else if row.half = 2 then (tabGet (fun _ => 0) d.latR (latKey r.path o), d)
      else (d.regValue o, d)

/-- Read the 16 registers of a word in ascending order (R38); none for a closed word, which raises CS_DENIED (R452). -/
def Dev.csRead (d : Dev) (r : Rights) (w : Nat) : Option Line × Dev :=
  if d.wordClosed r w false then (none, d.csReport r 0x0B00 w)
  else
    let (x, d) := (List.range 16).foldl (fun (s : Nat × Dev) k =>
      let (v, d) := s.2.readReg r (w + 4 * k)
      (s.1 + v.toNat * 2 ^ (32 * k), d)) (0, d)
    (some (BitVec.ofNat 512 x), d)

/-! ## Writes -/

/-- A register's value after a write under its access codes (R10). -/
def writeValue (row : RegRow) (old v : Reg) (secure : Bool) : Reg :=
  let m := row.rw ||| (if secure then row.rws else 0)
  ((old &&& ~~~m) ||| (v &&& m)) &&& ~~~(v &&& row.w1c)

/-- Fields that store the nearer limit or a default in place of a value outside their range (R125, R170, R206, R392, R439,
R460, R523). -/
def storeLimit (o : Nat) (v : Reg) : Reg :=
  let c := fun (hi lo a b : Nat) (v : Reg) => setFld v hi lo (clampNat a b (fld v hi lo))
  if o = rCpTimeout then (if fld v 15 0 = 0 then 10 else v)
  else if o = rThmCfg then c 14 8 90 110 (c 6 0 85 105 v)
  else if o = rPwrLimit then c 7 0 90 180 v
  else if 0x20000 ≤ o ∧ o < 0x21000 ∧ o % 0x100 = 8 then c 25 16 1 512 (c 7 0 1 255 v)
  else if 0x100000 ≤ o ∧ o < 0x180000 then
    let k := o % 0x4000
    if k = 0xC then c 10 0 0 1500 v
    else if 0x10 ≤ k ∧ k < 0x20 then c 15 0 40 2000 v
    else if k = 0x20 then c 13 0 512 8192 v
    else if k = 0x2004 then c 29 24 1 32 (c 9 0 16 512 v)
    else v
  else if o = rGrpCfg then c 15 0 1 65535 v
  else if o = rMorCfg then c 20 16 7 16 v
  else if o = rErrScrub then c 7 0 1 255 v
  else if o = rErrTwin then c 15 0 1 65535 v
  else v

/-- NB_TOKEN: DIE_CAP is one register per die, DEV_CAP one for the device (R206). -/
def Dev.setToken (d : Dev) (c : Nat) (v : Reg) : Dev :=
  let d := forNat 32 d fun d k => d.setRegFld (rNbToken k) 9 0 (fld v 9 0)
  (d.setRegFld (rNbToken (c / 2 * 2)) 29 24 (fld v 29 24)).setRegFld (rNbToken (c / 2 * 2 + 1)) 29 24 (fld v 29 24)

/-- HP_CTRL (R76, R86). -/
def Dev.hpCtrl (d : Dev) (c : Nat) (v : Reg) : Dev :=
  let d := if rbit v 31 && (d.host c).up then d.updHost c fun h => ({ h with askTrain := true }).linkBeat false else d
  if rbit v 30 && (d.host c).down then d.beginTraining c .start else d

/-- LNK_CTRL (R407, R438): a retraining is asked of the other end by a LINK packet with RETRAIN = 1. -/
def Dev.lnkCtrl (d : Dev) (l : Nat) (v : Reg) : Dev :=
  let d := if rbit v 31 && (d.link l).up then
    (d.updLink l fun k => ({ k with askTrain := true } : Link).linkPkt false d.clock).linkTrain l .service else d
  if rbit v 30 && (d.link l).down then d.linkTrain l .start else d

/-- RST_CTRL (R502). -/
def Dev.rstCtrl (d : Dev) (r : Rights) (v : Reg) : Dev :=
  let key := fld v 31 16
  let mayClear := r.side || (r.host.isSome && r.secure && d.permafrost)
  match fld v 1 0 with
  | 1 => if r.side then d.sidebandReset key else d
  | 2 => if mayClear then d.clearFails key else d
  | 3 => if mayClear then d.clearRetry key else d
  | _ => d

/-- FL_CTRL (R498): writes are taken only from the secure world or the sideband. -/
def Dev.flCtrl (d : Dev) (r : Rights) (v : Reg) : Dev :=
  if !r.secure then d.csReport r 0x0B01 rFlCtrl
  else if !rbit v 31 || fld v 1 0 == 3 then d
  else d.flashOp (fld v 1 0) true

/-- The TAP returns to CLOSED (R457). -/
def Dev.tapClose (d : Dev) : Dev :=
  { d.setRegFld rDbgStat 31 30 0 with sys := { d.sys with tap := { d.sys.tap with driving := false } } }

/-- Registers that act on what is written; none for one that only stores. -/
def Dev.writeAction (d : Dev) (r : Rights) (o : Nat) (v : Reg) : Option Dev :=
  if o = rRstCtrl then some (d.rstCtrl r v)
  else if o = rFlCtrl then some (d.flCtrl r v)
  else if o = rMonProcCtrl then some (if rbit v 31 then d.monStart else d)
  else if o = rDbgCtrl then some (if rbit v 31 && r.secure then d.tapClose else d)
  else if rAdm 0 ≤ o ∧ o < rAdm 16 then
    let f := (o - rAdm 0) / 0x40
    if !r.secure then none
    else if rbit (d.reg (rAdmCfg f)) 31 then some d
    else if o = rAdmCfg f then some (d.admWrite f v)
    else none
  else if 0x100000 ≤ o ∧ o < 0x180000 then
    let c := (o - 0x100000) / 0x4000
    let k := o % 0x4000
    if k = 0x4 then some (if r.vendor then d.setIntlv (fld v 20 16) else d)
    else if k = 0x8 then
      let d := if r.secure && !r.side then d.setRegBit o 0 (rbit v 0) else d
      some (if rbit v 31 then d.callRetrain c else d)
    else if k = 0x2004 then (if r.secure then some (d.setToken c (storeLimit o v)) else none)
    else if k = 0x3004 then some (d.hpCtrl c v)
    else none
  else if 0x200000 ≤ o ∧ o < 0x288000 ∧ o % 0x1000 = 0x480 then some (d.dtCmd ((o - 0x200000) / 0x1000) v)
  else if 0x400000 ≤ o ∧ o < 0x400500 ∧ o % 0x100 = 4 then
    let d := if r.secure && !r.side then d.setRegBit o 29 (rbit v 29) else d
    some (d.lnkCtrl ((o - 0x400000) / 0x100) v)
  else if o = rMorHead then (if r.secure then some (d.morHead v) else none)
  else if o = rMorFatal then some (d.morFatal v)
  else none

/-- Does a non-secure write of the register meet an RWS field (R452)? -/
def RegRow.hasRws (row : RegRow) : Bool := row.rws != 0

/-- Store into one register, all of whose byte enables are set, by a source that its block admits (R10, R38, R48). A low half that
waits for its high half is held apart from the latch of reads: it does not change what a read of the high half returns (log 153). -/
def Dev.writeReg (d : Dev) (r : Rights) (o : Nat) (v : Reg) : Dev :=
  match regRow o with
  | none => d
  | some row =>
    let d := if row.hasRws && !r.secure then d.csReport r 0x0B01 o else d
    match d.writeAction r o v with
    | some d => d
    | none =>
      let m := row.rw ||| (if r.secure then row.rws else 0)
      if row.half = 1 then
        -- held until the high half is written (R48)
        if m = 0 then d else { d with latW := tabSet (fun _ => none) d.latW (latKey r.path (o + 4)) (some v) }
      else if row.half = 2 then
        if m = 0 then d
        else
          let lo := tabGet (fun _ => none) d.latW (latKey r.path o)
          let d : Dev := { d with latW := tabSet (fun _ => none) d.latW (latKey r.path o) none }
          let d := d.setReg o (writeValue row (d.reg o) v r.secure)
          match lo, regRow (o - 4) with
          | some x, some low => d.setReg (o - 4) (writeValue low (d.reg (o - 4)) x r.secure)
          | _, _ => d
      else
        let x := writeValue row (d.reg o) v r.secure
        d.setReg o (if m = 0 then x else storeLimit o x)

/-- A write of one register of a word that is not closed (R451). -/
def Dev.writeAdmitted (d : Dev) (r : Rights) (o : Nat) (v : Reg) : Dev :=
  match d.letIn r o with
  | .ok => d.writeReg r o v
  | .part m => if m = 0 then d else d.writeReg r o v
  | _ => d

/-- A write of a 64-byte word under byte enables (R38, R452): false when it is closed and stores nothing. -/
def Dev.csWrite (d : Dev) (r : Rights) (w : Nat) (data : Line) (mask : BitVec 64) : Bool × Dev :=
  if d.wordClosed r w true then (false, d.csReport r 0x0B00 w)
  else
    (true, (List.range 16).foldl (fun d k =>
      if fieldAt mask.toNat 0 8 >>> (4 * k) % 16 = 15 then
        d.writeAdmitted r (w + 4 * k) (BitVec.ofNat 32 (fieldAt data.toNat (4 * k) 4))
      else d) d)

/-! ## The register-write commands -/

/-- A sideband write of one register within its subset (R500, R501): false outside it. -/
def Dev.sideStore (d : Dev) (o : Nat) (v : Reg) : Bool × Dev :=
  let m := sideWrites o
  if m = 0 then (false, d) else (true, d.writeReg sideRights o (v &&& m))

/-- Has a thermal trip not yet ended in a restart (R520 to R522)? -/
def Dev.tripOpen (d : Dev) : Bool := rbit (d.reg rThmTrip) 31

/-- Does the sideband reach only what R501 allows in reset? Also until the restart after a trip ends (R522, log 167). -/
def Dev.sideInReset (d : Dev) : Bool :=
  match d.sys.phase with
  | .starting => d.tripOpen
  | .cold => d.tripOpen
  | .hostWait => d.tripOpen
  | .running => false
  | .permafrost => false
  | _ => true

/-- A write of one whole register by an agent: no effect when its path does not reach control space. A closed write of a host
source ends in a WORLD status beat (R452). -/
def Dev.agentWrite (d : Dev) (ag : Agent) (o : Nat) (v : Reg) : Dev :=
  if !d.reaches ag || o % 4 != 0 then d
  else if ag.kind = 1 then
    if d.sideInReset && !sideAlways o then d else (d.sideStore o v).2
  else
    let r := d.rights ag
    let k := o % 64
    let (done, d) := d.csWrite r (o - k) (BitVec.ofNat 512 (v.toNat * 2 ^ (8 * k))) (BitVec.ofNat 64 (15 * 2 ^ k))
    if !done && ag.kind == 0 then
      d.hostStatus { ch := ag.ch, srcid := ag.srcid, tag := 0, seq := 0, op := 3, len := 0, waddr := BitVec.ofNat 31 ((2 ^ 36 + o - k) / 64) }
        5 r.field
    else d

end Sys2Proof.Machine
end

