-- ==== Sys2Proof/Machine/Debug.lean ====
section
/-! DEFINITION. The test access port (R457 to R459, R552 to R556). Each row loads one instruction and makes one scan of its
data register: capture, shift, update. -/

namespace Sys2Proof.Machine

/-! ## Scans -/

/-- An instruction is in force, and its data register has captured a value of a width (R552). EXTEST alone drives bumps. -/
def Dev.tapScan (d : Dev) (ir : Nat) (captured width : Nat) : Dev :=
  { d with sys := { d.sys with tap := { d.sys.tap with ir := BitVec.ofNat 8 ir, captured := captured, width := width, driving := ir == 0x03 } } }

def Dev.updTap (d : Dev) (f : Tap → Tap) : Dev := { d with sys := { d.sys with tap := f d.sys.tap } }

/-- The bypass register: it captures 0 and passes what is shifted in one bit later (R552). -/
def Dev.tapBypass (d : Dev) (ir : Nat) (tdi : Bool) : Dev :=
  (d.tapScan ir (2 * tdi.toNat) 2).updTap fun t => { t with driving := false }

/-- Is the instruction of a code available: its level and its condition on RESET_n (R457, R552)? -/
def Dev.tapAvailable (d : Dev) (ir : Nat) : Bool :=
  match ir with
  | 0x01 => true
  | 0x02 => true
  | 0x03 => decide (1 ≤ d.tapLevel) && d.pinLow
  | 0x10 => true
  | 0x11 => true
  | 0x12 => true
  | 0x20 => decide (1 ≤ d.tapLevel)
  | 0x40 => d.tapLevel == 2 && d.pinLow
  | 0x41 => d.tapLevel == 2 && d.pinLow
  | 0x42 => d.tapLevel == 2 && d.pinLow
  | _ => false

/-- A scan of an instruction: as BYPASS when it is not available, and nothing without power. -/
def Dev.tapRow (d : Dev) (ir : Nat) (act : Dev → Dev) : Dev :=
  if !d.powered then d else if d.tapAvailable ir then act d else d.tapBypass ir false

/-! ## Opening and closing -/

/-- DBG_CHAL (R458): a fresh nonce, with GLB_UID above it. -/
def Dev.tapChal (d : Dev) (nonce : BitVec 256) : Dev :=
  d.tapRow 0x10 fun d => (d.tapScan 0x10 (nonce.toNat + d.fuses.uid.toNat * 2 ^ 256) 320).updTap fun t => { t with nonce := some nonce }

/-- Does a response open a level (R458)? -/
def Dev.unlockOk (d : Dev) (r : Nat) : Bool :=
  match r % 256 with
  | 1 => rbit (d.reg rDbgPolicy) 31 && d.sys.intDigest != 0 && sha384 (toBe 32 (fieldAt r 1 32)) == d.sys.intDigest
  | 2 =>
    rbit (d.reg rDbgPolicy) 30 && (match d.sys.tap.nonce with
      | none => false
      | some n =>
        let key := d.fuses.vendorKey.toNat
        ecdsaOk (key / 2 ^ 384) (key % 2 ^ 384) (fieldAt r 1 48) (fieldAt r 49 48)
          (sha384 (2 :: toBe 8 d.fuses.uid.toNat ++ toBe 32 n.toNat)))
  | _ => false

/-- A failed attempt (R458, R459): the third locks the TAP out until power-on. -/
def Dev.unlockFails (d : Dev) (level : Nat) : Dev :=
  let n := fld (d.reg rDbgStat) 1 0
  let d := (d.setRegFld rDbgStat 1 0 (sat 3 (n + 1))).report 0x0B04 2 0 0 0 level
  if n = 2 then (d.setRegBit rDbgStat 28 true).report 0x0B05 2 0 0 0 0 else d

/-- DBG_UNLOCK (R458, R459). -/
def Dev.tapUnlock (d : Dev) (resp : BitVec 776) : Dev :=
  d.tapRow 0x11 fun d =>
    let r := resp.toNat
    let level := r % 256
    let good := !rbit (d.reg rDbgStat) 28 && d.unlockOk r
    let d := (d.tapScan 0x11 0 776).updTap fun t => { t with nonce := none }
    if good then ((d.setRegFld rDbgStat 31 30 level).setRegBit rDbgStat 29 true).report 0x0B03 2 0 0 0 level
    else d.unlockFails level

/-- DBG_CLOSE (R457). -/
def Dev.tapCloseRow (d : Dev) : Dev := d.tapRow 0x12 fun d => (d.tapBypass 0x12 false).tapClose

/-! ## Identity, boundary, bypass -/

/-- IDCODE (R553). -/
def Dev.tapIdcode (d : Dev) : Dev := d.tapRow 0x01 fun d => d.tapScan 0x01 0x16440A43 32

/-- TEST_LOGIC_RESET selects IDCODE (R552). -/
def Dev.tapReset (d : Dev) : Dev := d.updTap fun t => { t with ir := 0x01, driving := false }

/-- The capture of the boundary register: each bump's level in its data bit, 0 in its enable bit (R554). -/
def boundaryOf (levels : BitVec 2671) : Nat :=
  (List.range 2671).foldl (fun x u => x + (levels.getLsbD u).toNat * 2 ^ (2 * u)) 0

/-- SAMPLE/PRELOAD and EXTEST (R554). -/
def Dev.tapBoundary (d : Dev) (ir : Nat) (levels : BitVec 2671) (shifted : BitVec 5342) : Dev :=
  d.tapRow ir fun d => (d.tapScan ir (boundaryOf levels) 5342).updTap fun t => { t with boundary := shifted }

/-- BYPASS, or a code that acts as it (R552). A code that is available as another instruction is not this row. -/
def Dev.tapBypassRow (d : Dev) (code : Nat) (tdi : Bool) : Dev :=
  if !d.powered || d.tapAvailable code then d else d.tapBypass code tdi

/-! ## Control space -/

/-- One 32-bit access on the TAP path (R451, R452, R555): what it reads, and whether R451 closes it. -/
def Dev.tapAccess (d : Dev) (o : Nat) (write : Bool) (v : Reg) : Option Reg × Dev :=
  let r := d.tapRights
  let w := o - o % 64
  if write then
    let (ok, d) := d.csWrite r w (BitVec.ofNat 512 (v.toNat * 2 ^ (8 * (o % 64)))) (BitVec.ofNat 64 (15 * 2 ^ (o % 64)))
    (if ok then some 0 else none, d)
  else if d.letIn r o = .closed then (none, d.csReport r 0x0B00 w)
  else
    let (x, d) := d.readReg r o
    (some x, d)

/-- CS_ACCESS (R555): capture, then the access; one whose reserved bits are not 0, or with control space out of reach, is not
made. -/
def Dev.tapCs (d : Dev) (shifted : BitVec 64) : Dev :=
  d.tapRow 0x20 fun d =>
    let t := d.sys.tap
    let x := shifted.toNat
    let o := bits x 55 32
    let write := bit x 56
    let d := d.tapScan 0x20 (t.csData.toNat + t.csDone.toNat * 2 ^ 32 + t.csDenied.toNat * 2 ^ 33) 64
    if bits x 63 57 ≠ 0 ∨ o % 4 ≠ 0 ∨ !d.sys.phase.live then d.updTap fun t => { t with csDone := false, csDenied := false }
    else match d.tapAccess o write (BitVec.ofNat 32 x) with
      | (some v, d) => d.updTap fun t => { t with csDone := true, csDenied := false, csData := if write then t.csData else v }
      | (none, d) => d.updTap fun t => { t with csDone := true, csDenied := true }

/-! ## Stack test -/

/-- The selected dies, from the base die upward (R556). -/
def Tap.dies (t : Tap) : List Nat := setBits 17 t.stack.toNat

/-- STACK_SEL (R556). -/
def Dev.tapStack (d : Dev) (dies : BitVec 17) : Dev :=
  d.tapRow 0x40 fun d => (d.tapScan 0x40 d.sys.tap.stack.toNat 17).updTap fun t => { t with stack := dies }

/-- WRAP_IR (R556): the wrapper instruction registers of the selected dies, in their order. -/
def Dev.tapWrapIr (d : Dev) (codes : List (BitVec 8)) : Dev :=
  d.tapRow 0x41 fun d =>
    let t := d.sys.tap
    let ds := t.dies
    let old := leNat (ds.map fun k => (t.wir[k]?).getD 0)
    if codes.length ≠ ds.length then d
    else (d.tapScan 0x41 old (8 * ds.length)).updTap fun t =>
      { t with wir := (ds.zip codes).foldl (fun w p => setAt 17 0 w p.1 p.2) t.wir }

/-- Cells that a die's wrapper instruction selects: its TSV interface for WS_EXTEST and WS_INTEST (R556), one bit for
WS_BYPASS and for codes whose register the spec does not give. -/
def Tap.cellCount (t : Tap) (die : Nat) : Nat :=
  let w := ((t.wir[die]?).getD 0).toNat
  if w = 1 ∨ w = 2 then (if die = 0 then 9984 else 624) else 1

/-- Bits of free values. -/
def freeBits (u n : Nat) : Nat := (List.range ((n + 511) / 512)).foldl (fun x k => x + (Config.freeLine (u + k)).toNat * 2 ^ (512 * k)) 0 % 2 ^ n

/-- The bits of a scan that go to each selected die. -/
def Tap.cellsOf (t : Tap) : List Nat → List Bool → List (Nat × List Bool)
  | [], _ => []
  | k :: ks, bs => (k, bs.take (t.cellCount k)) :: t.cellsOf ks (bs.drop (t.cellCount k))

/-- WRAP_DR (R552, R556): the wrapper registers of the selected dies in one chain. What they capture is open, but for WS_BYPASS
alone, which captures 0. -/
def Dev.tapWrapDr (d : Dev) (cells : List Bool) : Dev :=
  d.tapRow 0x42 fun d =>
    let t := d.sys.tap
    let n := (t.dies.map t.cellCount).foldl (· + ·) 0
    if cells.length ≠ n then d
    else
      let plain := t.dies.all fun k => (t.wir[k]?).getD 0 == 0
      let x := if plain then 0 else freeBits d.freeUses n
      let d : Dev := if plain then d else { d with freeUses := d.freeUses + (n + 511) / 512 }
      (d.tapScan 0x42 x n).updTap fun t =>
        { t with cells := (t.cellsOf t.dies cells).foldl (fun c p =>
            if p.2.length = 1 then c else tabSet (fun _ => []) c p.1 p.2) t.cells }

end Sys2Proof.Machine
end

