-- ==== Sys2Proof/Machine/Frames.lean ====
section
/-! DEFINITION. What an accepted host frame does (R77, R78): memory, control space (R38, R40), doorbell pages (R87 to R94)
and relay windows (R416, R417). -/

namespace Sys2Proof.Machine

/-! ## Answers -/

/-- A read that ends with no data beat: its tag is free (R80). -/
def Dev.dropTag (d : Dev) (t : HostTag) : Dev :=
  d.updHost t.ch.val fun h => { h with tags := h.tags.filter fun x => x.1 != t.tag }

/-- A one-word data beat for a read (R60, R61). -/
def Dev.hostData (d : Dev) (t : HostTag) (data : Line) (poison : Bool) : Dev :=
  d.updHost t.ch.val fun h => h.send (BitVec.ofNat 16 (t.tag.toNat * 4 + (if poison then 2 ^ 13 else 0))) data

/-- A status beat that ends a request whose tag it holds. -/
def Dev.hostEnds (d : Dev) (t : HostTag) (code : Nat) (field : Option (BitVec 4)) : Dev :=
  ((if t.op = 1 then d.dropTag t else d)).hostStatus t code field

/-! ## Relay windows -/

/-- The window and the offset in it of a control-space offset (R416). -/
def relayPlace (o : Nat) : Option (Nat × Nat) :=
  if 0x408000 ≤ o ∧ o < 0x410000 then some ((o - 0x408000) / 0x800, o % 0x800) else none

/-- A relayed access fails (R415, R416): ERR, RELAY_FAIL, and for a read a poisoned beat. -/
def Dev.relayFail (d : Dev) (t : HostTag) (w code : Nat) : Dev :=
  let a := (d.reg64 (rRlyBase w)).toNat + t.waddr.toNat * 64 % 0x800
  let d := (d.setRegBit (rRlyCtrl w) 30 true).report 0x0909 2 6 t.ch.val a code
  if t.op = 1 then ({ d with freeUses := d.freeUses + 1 } : Dev).hostData t (Config.freeLine d.freeUses) true else d

/-- The answer to a relayed access: a word for a read, a status otherwise (R416). -/
def Dev.relayDone (d : Dev) (t : HostTag) (w : Nat) (word : Option (Line × Bool)) (code : Nat) : Dev :=
  match word with
  | some (x, p) => if t.op = 1 then d.hostData t x p else d
  | none => if code = 0 then d else d.relayFail t w code

/-- The packet of a relayed access (R400, R402, R416). -/
def Dev.relayPacket (d : Dev) (t : HostTag) (w off : Nat) (cls : BitVec 2) (world : Bool) (data : Line) (mask : BitVec 64) :
    Packet :=
  let ctrl := d.reg (rRlyCtrl w)
  let typ := if t.op = 1 then 1 else if t.op = 2 then 2 else 3
  { d.packet typ (fld ctrl 5 0) with
      cls := cls, world := world, field := BitVec.ofNat 4 (fld ctrl 19 16), orig := BitVec.ofNat 16 (t.ch.val * 64 + t.srcid.toNat)
      addr := ((d.reg64 (rRlyBase w)).toNat + off) % 2 ^ 37, data := if typ = 1 then 0 else data
      arg := if typ = 3 then mask else 0 }

/-- A host access to a relay window (R416); none while no tag is free. -/
def Dev.relayAccess (d : Dev) (t : HostTag) (w off : Nat) (cls : BitVec 2) (world : Bool) (data : Line) (mask : BitVec 64) :
    Option Dev :=
  let ctrl := d.reg (rRlyCtrl w)
  if !rbit ctrl 31 then some (if t.op = 1 then d.hostData t 0 false else d)
  else if d.hstField t.ch.val t.srcid.toNat ≠ some (BitVec.ofNat 4 (fld ctrl 19 16)) then
    some (d.hostEnds t 4 (d.hstField t.ch.val t.srcid.toNat))
  else match d.workingRoute (fld ctrl 5 0) with
    | none => some (d.relayFail t w 0x14)
    | some l => (d.remoteRequest l (d.relayPacket t w off cls world data mask) (.host t w)).map (·.2)

/-! ## Control space -/

/-- Has the source a relayed write that is not answered (R417)? -/
def Dev.relayedWrites (d : Dev) (ch srcid : Nat) : Bool :=
  d.remotes.any fun r => r.write && match r.who with
    | .host t _ => t.ch.val == ch && t.srcid.toNat == srcid
    | _ => false

/-- Perform a control-space frame (R38, R416, R452); none while it must wait. -/
def Dev.csFrame (d : Dev) (c : Nat) (f : FrameIn) : Option Dev :=
  let x := frameF f.body
  let t := hostTag c x
  let o := x.addr % 2 ^ 24
  let mask := if x.op = 3 then f.mask else BitVec.allOnes 64
  let data := f.words.head?.getD 0
  if x.op = 1 ∧ d.relayedWrites c x.srcid.toNat then none
  else match relayPlace o with
    | some (w, off) => d.relayAccess t w off x.cls x.world data mask
    | none =>
      let r := d.hostRights c x.srcid.toNat x.world
      if x.op = 1 then
        match d.csRead r o with
        | (some v, d) => some (d.hostData t v false)
        | (none, d) => some (d.hostEnds t 5 r.field)
      else
        match d.csWrite r o data mask with
        | (true, d) => some d
        | (false, d) => some (d.hostEnds t 5 r.field)

/-- Does a frame of the same source wait already (R40)? -/
def Dev.csBehind (d : Dev) (c : Nat) (f : FrameIn) : Bool := d.csWaits c (frameF f.body).srcid

/-- Perform a control-space frame, or hold it in the order of its source (R40, R417). -/
def Dev.csTry (d : Dev) (c : Nat) (f : FrameIn) : Dev :=
  let hold := { d with csHeld := d.csHeld ++ [(c, f)] }
  if d.csBehind c f then hold else (d.csFrame c f).getD hold

/-- Frames that waited go on, in order, after an answer has come (R417). -/
def Dev.csResume (d : Dev) : Dev :=
  d.csHeld.foldl (fun d e => d.csTry e.1 e.2) { d with csHeld := [] }

/-! ## Doorbell pages -/

/-- The ring of an aperture address in a command window (R87). -/
def doorbellRing (a : Nat) : Nat := (a - 0x1800000000) / 0x100000 * 32 + a / 0x8000 % 32

/-- A doorbell write (R92, R93) or a doorbell-status read (R94). -/
def Dev.doorbellFrame (d : Dev) (c : Nat) (f : FrameIn) : Dev :=
  let x := frameF f.body
  let t := hostTag c x
  let n := doorbellRing x.addr
  let field := d.hstField c x.srcid.toNat
  if x.addr % 0x8000 ≠ 0 then (if x.op = 1 then d.hostData t 0 false else d)
  else
    let st := d.doorbellStatus n x.srcid.toNat x.world
    if st ≠ 0 then d.hostEnds t st field
    else if x.op = 1 then d.hostData t (d.ringStatus n) false
    else d.doorbell n (doorbellData (f.words.head?.getD 0) (if x.op = 3 then f.mask else BitVec.allOnes 64))

/-! ## Frames -/

/-- The checks of R78 that come before the world check, for control space and command windows; 0 when they pass. -/
def Dev.portStatus (d : Dev) (c : Nat) (x : FrameF) : Nat :=
  let a := x.addr
  let window := decide (0x1800000000 ≤ a)
  if 0x1802000000 ≤ a ∨ (2 ^ 36 + 2 ^ 24 ≤ a ∧ a < 0x1800000000) then 3
  else if window && a % 0x8000 == 0 && ((d.ring (doorbellRing a)).state == 0 || !rbit (d.reg rCpStat) 31) then 3
  else if window && (a - 0x1800000000) / 0x100000 != c && !(d.permafrost && c == 0) then 2
  else if d.tagBusy c x then 8
  else if d.permafrost && !x.world then 5
  else 0

/-- Execute an accepted frame (R58, R68, R77, R78): one that no memory port takes leaves the ingress at once (R73). -/
def Dev.execFrame (d : Dev) (c : Nat) (f : FrameIn) : Dev :=
  let x := frameF f.body
  let t := hostTag c x
  let field := d.hstField c x.srcid.toNat
  let done := fun (d : Dev) => d.freeCredits c 1 x.words
  if badRequest x then done (d.hostStatus t 6 field)
  else if x.addr < 2 ^ 36 then
    let st := d.memStatus c x
    if st ≠ 0 then done ((if st = 4 then d.regionLost x.addr else d).hostStatus t st field) else d.memIngress c f
  else
    let st := d.portStatus c x
    if st ≠ 0 then done (d.hostStatus t st field)
    else
      let d := if x.op = 1 then d.updHost c fun h => { h with tags := h.tags ++ [(x.tag, 1)] } else d
      done (if x.addr < 0x1800000000 then d.csTry c f else d.doorbellFrame c f)

/-- A request frame, or the frame that a row names, arrives on a host channel: `ops` are the OPs of the row (R56, R68). -/
def Dev.frameRow (d : Dev) (ops : List Nat) (c : Nat) (f : FrameIn) : Dev :=
  if d.sys.phase.live && ops.contains (frameF f.body).op then d.onFrame Dev.execFrame c f else d

/-- A write-data beat (R60, R68). -/
def Dev.beatRow (d : Dev) (c : Nat) (b : HostBeat) : Dev := if d.sys.phase.live then d.onBeat Dev.execFrame c b else d

/-! ## Single commands of the command window and the relay windows -/

/-- DOORBELL_WRITE: a write of the doorbell word of a ring from its own channel. -/
def Dev.doorbellRow (d : Dev) (n srcid : Nat) (secure : Bool) (data : Line) (mask : BitVec 64) : Dev :=
  let c := n / 32
  if !d.sys.phase.live || !(d.host c).up then d
  else
    let st := d.doorbellStatus n srcid secure
    let t : HostTag := { ch := Fin.ofNat 32 c, srcid := BitVec.ofNat 6 srcid, tag := 0, seq := 0, op := 3, len := 0
                         waddr := BitVec.ofNat 31 ((0x1800000000 + c * 0x100000 + n % 32 * 0x8000) / 64) }
    if st ≠ 0 then d.hostStatus t st (d.hstField c srcid) else d.doorbell n (doorbellData data mask)

/-- DOORBELL_STATUS_READ: its data beat, or its status beat. -/
def Dev.statusReadRow (d : Dev) (n srcid : Nat) (secure : Bool) (tag : BitVec 9) : Dev :=
  let c := n / 32
  let t : HostTag := { ch := Fin.ofNat 32 c, srcid := BitVec.ofNat 6 srcid, tag := tag, seq := 0, op := 1, len := 0
                       waddr := BitVec.ofNat 31 ((0x1800000000 + c * 0x100000 + n % 32 * 0x8000) / 64) }
  if !d.sys.phase.live || !(d.host c).up then d
  else
    let st := d.doorbellStatus n srcid secure
    if st = 3 then d.hostStatus t 3 (d.hstField c srcid)
    else if (d.host c).tags.any fun x => x.1 == tag then d.hostStatus t 8 (d.hstField c srcid)
    else if st ≠ 0 then d.hostStatus t st (d.hstField c srcid)
    else d.updHost c fun h => h.send (BitVec.ofNat 16 (tag.toNat * 4)) (d.ringStatus n)

/-- RELAY_WINDOW_ACCESS (R416): op 0 a read, 1 a whole-word write, 2 a masked write. Only a host source reaches a window; an
access that must wait has no effect. -/
def Dev.relayRow (d : Dev) (ag : Agent) (w off op : Nat) (cls : BitVec 2) (tag : BitVec 9) (data : Line) (mask : BitVec 64) :
    Dev :=
  if ag.kind ≠ 0 || !d.reaches ag || off % 64 != 0 || 2 < op then d
  else
    let t : HostTag := { ch := ag.ch, srcid := ag.srcid, tag := tag, seq := 0, op := BitVec.ofNat 4 (op + 1), len := 0
                         waddr := BitVec.ofNat 31 ((2 ^ 36 + 0x408000 + w * 0x800 + off) / 64) }
    if op = 0 && ((d.host ag.ch.val).tags.any fun x => x.1 == tag) then
      d.hostStatus t 8 (d.hstField ag.ch.val ag.srcid.toNat)
    else if op = 0 && d.relayedWrites ag.ch.val ag.srcid.toNat then d
    else
      let d1 := if op = 0 then d.updHost ag.ch.val fun h => { h with tags := h.tags ++ [(tag, 1)] } else d
      (d1.relayAccess t w off cls ag.secure data mask).getD d

end Sys2Proof.Machine
end

