-- ==== Sys2Proof/Machine/Coll.lean ====
section
/-! DEFINITION. Collectives (R421 to R427): contributions, reductions, staging and commit, absence and fencing. -/

namespace Sys2Proof.Machine

/-! ## Members -/

/-- The devices of a member set, ascending. -/
def memberList (m : BitVec 64) : List Nat := setBits 64 m.toNat

/-- The rank of a device among the members (R421). -/
def rankOf (m : BitVec 64) (dev : Nat) : Nat := ((memberList m).filter fun x => decide (x < dev)).length

def Coll.count (c : Coll) : Nat := (memberList c.members).length

/-- The coordinator: the lowest member (R424). -/
def Coll.coordinator (c : Coll) : Nat := ((memberList c.members).head?).getD 0

/-- Words of SRC, of a segment, and of the output (R421). -/
def Coll.srcWords (c : Coll) : Nat := c.len / 64
def Coll.segment (c : Coll) : Nat := c.len / 64 / max 1 c.count
def collOut (kind len n : Nat) : Nat :=
  match kind with
  | 0 => 0
  | 3 => len / max 1 n
  | 4 => len * n
  | _ => len
def Coll.outWords (c : Coll) : Nat := collOut c.kind c.len c.count / 64

/-- A packet of this chapter's management subtypes (R400). -/
def Dev.mgmtPacket (d : Dev) (dst sub : Nat) (epoch : BitVec 16) (field : BitVec 4) (data : Nat) : Packet :=
  { d.packet 9 dst with epoch := epoch, field := field, arg := BitVec.ofNat 64 sub, data := BitVec.ofNat 512 data }

/-- Send a management packet to each device of a list but this one. -/
def Dev.mgmtAll (d : Dev) (ds : List Nat) (sub : Nat) (epoch : BitVec 16) (field : BitVec 4) (data : Nat) : Dev :=
  (ds.filter fun x => x != d.gdev).foldl (fun d x => (d.sendTo (d.mgmtPacket x sub epoch field data)).2) d

/-! ## Reductions -/

/-- The operand of a collective in its accumulator's form (R422). -/
def collWiden (fmt x : Nat) : Nat := if fmt = 1 then x * 2 ^ 16 else x

/-- `comb` of R422: OP[1:0] 0 the sum, 1 the maximum. -/
def collComb (fmt op a b : Nat) : Nat :=
  if fmt = 5 then (if op = 0 then (a + b) % 2 ^ 32 else patInt 32 (max (sextInt 32 a) (sextInt 32 b)))
  else
    let x := fFP32.dec a
    let y := fFP32.dec b
    fFP32.encStd false (if op = 0 then x.add y else x.maxv y)

def collNarrow (fmt x : Nat) : Nat := if fmt = 1 then fBF16.encStd false (fFP32.dec x) else x

/-- Reduce one 64-byte word of each member, in ascending member order (R422). -/
def collReduce (op : Nat) (ws : List Line) : Line :=
  let fmt := op / 16
  let b := if fmt = 1 then 16 else 32
  let el := fun (w : Line) (k : Nat) => (w.toNat >>> (b * k)) % 2 ^ b
  match ws with
  | [] => 0
  | w :: rest =>
    BitVec.ofNat 512 ((List.range (512 / b)).foldl (fun x k =>
      let acc := rest.foldl (fun a v => collComb fmt (op % 4) a (collWiden fmt (el v k))) (collWiden fmt (el w k))
      x + collNarrow fmt acc % 2 ^ b * 2 ^ (b * k)) 0)

/-! ## Words -/

/-- Where the word `i` of a rank's source is kept. -/
def collKey (rank i : Nat) : Nat := rank * 2 ^ 25 + i

def Coll.word (c : Coll) (rank i : Nat) : Option (Line × Bool) := tabGet (fun _ => none) c.words (collKey rank i)

/-- The source words, rank and index, that output word `j` of the device of rank `me` takes (R421). -/
def Coll.inputs (c : Coll) (me j : Nat) : List (Nat × Nat) :=
  match c.kind with
  | 1 => [(rankOf c.members c.root, j)]
  | 2 => (List.range c.count).map fun r => (r, j)
  | 3 => (List.range c.count).map fun r => (r, me * c.segment + j)
  | 4 => [(j / max 1 c.srcWords, j % max 1 c.srcWords)]
  | _ => []

/-- Output word `j`, if every word it takes is there (R422, R427). -/
def Coll.output (c : Coll) (me j : Nat) : Option (Line × Bool) :=
  ((c.inputs me j).mapM fun p => c.word p.1 p.2).map fun ws =>
    let x := if c.kind = 2 ∨ c.kind = 3 then collReduce c.op (ws.map (·.1)) else ((ws.map (·.1)).head?).getD 0
    (x, ws.any (·.2))

def Dev.coll (d : Dev) (ring : Fin 1024) (idx : BitVec 32) : Option Coll :=
  d.colls.find? fun c => c.ring == ring && c.idx == idx

def Dev.setColl (d : Dev) (c : Coll) : Dev :=
  { d with colls := d.colls.map fun x => if x.ring == c.ring && x.idx == c.idx then c else x }

/-- A collective ends on this device with a status and RESULT0 (R436). -/
def Dev.collEnd (d : Dev) (c : Coll) (status r0 : Nat) : Dev :=
  let d : Dev := { d with colls := d.colls.filter fun x => !(x.ring == c.ring && x.idx == c.idx) }
  match d.cmd c.ring.val c.idx with
  | some x => if x.done.isNone then d.endCmd x status r0 else d
  | none => d

/-! ## Commit -/

/-- The command and the collective of a ring and index. -/
def Dev.collCmd (d : Dev) (n : Nat) (i : BitVec 32) : Option (Cmd × Coll) :=
  (d.cmd n i).bind fun c => (d.coll c.ring c.idx).map fun x => (c, x)

/-- One word of STAGE is copied to DST; a poisoned one, or one that a down channel loses, is counted (R424, R427, R371). The
Bool says whether to go on. -/
def Dev.collCopyWord (d : Dev) (n : Nat) (i : BitVec 32) : Dev × Bool :=
  match d.collCmd n i with
  | none => (d, false)
  | some (c, x) =>
    let src := x.stage + 64 * x.copyPos
    let dst := x.dst + 64 * x.copyPos
    if x.outWords ≤ x.copyPos || d.regionHeld src || d.cpWaits c.mover dst then (d, false)
    else match d.tsvRead c.mover (d.wordOf src) with
      | (none, d) => (d, false)
      | (some w, d) =>
        let bad := w.poison || d.wordDown (d.wordOf dst)
        ((d.cpWord c.mover dst w.data w.poison).setColl { x with copyPos := x.copyPos + 1, poisoned := x.poisoned + bad.toNat },
          true)

/-- STAGE is copied to DST as whole words, up to 64 at each step, and the collective ends (R424, R427); no step while a member
realigns (R420). -/
def Dev.collCopy (d : Dev) (n : Nat) (i : BitVec 32) : Dev :=
  if d.group.realign ≠ 0 then d
  else
    let d := stepWhile (fun d => d.collCopyWord n i) 64 d
    match d.collCmd n i with
    | some (_, x) => if x.copyPos < x.outWords then d else d.collEnd x (if x.poisoned = 0 then 0 else 0xB) x.poisoned
    | none => d

/-- COMMIT reaches the device (R424). -/
def Dev.collCommit (d : Dev) (c : Coll) : Dev :=
  if !c.staged || c.commit then d
  else (d.setColl { c with commit := true }).collCopy c.ring.val c.idx

/-- The management data that names a collective and a device. -/
def collData (id : BitVec 32) (dev : Nat) : Nat := id.toNat + dev * 2 ^ 32

/-- The coordinator sends COMMIT once it holds STAGED from every member (R424), while no member realigns (R420). -/
def Dev.collTryCommit (d : Dev) (c : Coll) : Dev :=
  if d.group.realign = 0 ∧ c.stagedBy &&& c.members = c.members ∧ c.staged ∧ !c.commit then
    (d.mgmtAll (memberList c.members) 0x0C c.epoch c.field (collData c.id d.gdev)).collCommit c
  else d

/-- A member has staged (R424). -/
def Dev.collStaged (d : Dev) (c : Coll) (dev : Nat) : Dev :=
  let c := { c with stagedBy := c.stagedBy ||| BitVec.ofNat 64 (2 ^ dev) }
  (d.setColl c).collTryCommit c

/-- One output word whose inputs are all there is written to STAGE (R424); the Bool says whether to go on. -/
def Dev.collStageWord (d : Dev) (n : Nat) (i : BitVec 32) : Dev × Bool :=
  match d.collCmd n i with
  | none => (d, false)
  | some (c, x) =>
    let a := x.stage + 64 * x.stagePos
    if x.outWords ≤ x.stagePos || d.cpWaits c.mover a then (d, false)
    else match x.output (rankOf x.members d.gdev) x.stagePos with
      | none => (d, false)
      | some (w, p) => ((d.cpWord c.mover a w p).setColl { x with stagePos := x.stagePos + 1 }, true)

/-- The output goes to STAGE, up to 64 words at each step; once it is whole there, STAGED goes to the coordinator (R424). -/
def Dev.collStage (d : Dev) (n : Nat) (i : BitVec 32) : Dev :=
  let d := stepWhile (fun d => d.collStageWord n i) 64 d
  match d.collCmd n i with
  | none => d
  | some (_, x) =>
    if x.stagePos < x.outWords then d
    else
      let x := { x with staged := true, words := [] }
      let d := d.setColl x
      if x.coordinator = d.gdev then d.collStaged x d.gdev
      else (d.sendTo (d.mgmtPacket x.coordinator 0x0B x.epoch x.field (collData x.id d.gdev))).2

/-! ## Fencing and absence -/

/-- Every collective pending under a lower epoch ends in EPOCH_FENCED (R426). -/
def Dev.fenceEpoch (d : Dev) (e : BitVec 16) : Dev :=
  let d : Dev := if d.group.epoch.toNat < e.toNat then { d with group := { d.group with epoch := e } } else d
  (d.colls.filter fun c => decide (c.epoch.toNat < e.toNat)).foldl (fun d c =>
    (d.collEnd c 0x12 e.toNat).report 0x0904 2 5 c.ring.val 0 e.toNat (some c.field)) d

/-- A COLL or STAGED packet of another epoch than the pending collective of its COLL_ID (R426). -/
def Dev.sendFence (d : Dev) (c : Coll) (e : BitVec 16) : Dev :=
  let hi : BitVec 16 := if c.epoch.toNat < e.toNat then e else c.epoch
  (d.mgmtAll (memberList d.group.set) 0x0E hi c.field (hi.toNat + c.id.toNat * 2 ^ 32)).fenceEpoch hi

/-- The member set has changed: collectives that lack their coordinator, or, at the coordinator, a member (R425). -/
def Dev.collAbsent (d : Dev) : Dev :=
  d.colls.foldl (fun d c =>
    if c.commit then d
    else if !d.group.set.getLsbD c.coordinator then d.collEnd c 0x11 c.coordinator
    else if c.coordinator = d.gdev then
      match (memberList c.members).find? fun x => !d.group.set.getLsbD x with
      | none => d
      | some x => (d.mgmtAll (memberList c.members) 0x0D c.epoch c.field (collData c.id x)).collEnd c 0x11 x
    else d) d

/-! ## Contributions -/

/-- The COLL_ID that a COLL or STAGED packet names. -/
def Packet.collId (p : Packet) : BitVec 32 := if p.typ = 8 then p.arg.truncate 32 else p.data.truncate 32

/-- A COLL or STAGED packet for a pending collective of its COLL_ID. A packet of a higher epoch fences the collective and waits
for the one that is issued again under that epoch (R426). The Bool: the packet is held. -/
def Dev.collTake (d : Dev) (c : Coll) (l : Nat) (p : Packet) : Dev × Bool :=
  if p.epoch ≠ c.epoch then
    let d := d.sendFence c p.epoch
    if c.epoch.toNat < p.epoch.toNat then ({ d with collHeld := d.collHeld ++ [(l, p)] }, true) else (d, false)
  else if p.typ = 8 then
    if c.staged || !c.members.getLsbD p.dev.toNat then (d, false)
    else
      let key := collKey (rankOf c.members p.dev.toNat) ((p.arg >>> 32).toNat % 2 ^ 25)
      (d.setColl { c with words := tabSet (fun _ => none) c.words key (some (p.data, p.poison)) }, false)
  else (d.collStaged c p.dev.toNat, false)

/-- Has a mismatch ended the collective of a field and COLL_ID before this device has issued it (R423)? -/
def Dev.collLost (d : Dev) (field : BitVec 4) (id : BitVec 32) : Bool := d.group.mismatch.contains (field, id)

/-- The packets held for a collective leave, each with its credit. -/
def Dev.collDrop (d : Dev) (field : BitVec 4) (id : BitVec 32) : Dev :=
  let mine := fun (e : Nat × Packet) => e.2.field == field && e.2.collId == id
  (d.collHeld.filter mine).foldl (fun d e => d.giveCredit e.1 2) { d with collHeld := d.collHeld.filter fun e => !mine e }

/-- A contribution for another COLL_ID than the pending collective's ends both in COLL_MISMATCH (R423): the pending one now, its
own as soon as this device issues it, and at the sender by the contributions that this device has sent or sends (log 157). -/
def Dev.collClash (d : Dev) (c : Coll) (p : Packet) : Dev :=
  let d := (d.collEnd c 0x13 p.collId.toNat).collDrop p.field p.collId
  { d with group := { d.group with mismatch := d.group.mismatch ++ [(p.field, p.collId)] } }

/-- A COLL or STAGED packet arrives (R423, R426): taken, held, or a mismatch. A collective that has committed is over for this
test, and a STAGED is no contribution (log 157). The Bool: it is held. -/
def Dev.collArrive (d : Dev) (l : Nat) (p : Packet) : Dev × Bool :=
  if d.collLost p.field p.collId then (d, false)
  else match d.colls.find? fun c => c.field == p.field with
    | none => ({ d with collHeld := d.collHeld ++ [(l, p)] }, true)
    | some c =>
      if c.id = p.collId then d.collTake c l p
      else if p.typ = 8 && !c.commit then (d.collClash c p, false)
      else ({ d with collHeld := d.collHeld ++ [(l, p)] }, true)

/-- The packets held for a collective that is now issued are taken, in the order of their arrival. -/
def Dev.collDrain (d : Dev) (c : Coll) : Dev :=
  let mine := fun (e : Nat × Packet) => e.2.field == c.field && e.2.collId == c.id
  (d.collHeld.filter mine).foldl (fun d e =>
    match d.coll c.ring c.idx with
    | some c =>
      let (d, held) := d.collTake c e.1 e.2
      if held then d else d.giveCredit e.1 2
    | none => { d with collHeld := d.collHeld ++ [e] }) { d with collHeld := d.collHeld.filter fun e => !mine e }

/-! ## The command -/

/-- The collective that a COLL packet asks for (R435). -/
def Dev.collOf (d : Dev) (c : Cmd) : Coll :=
  { ring := c.ring, idx := c.idx, field := c.field, id := BitVec.ofNat 32 (c.arg 20 4), kind := c.arg 16 1, op := c.arg 17 1
    root := c.arg 18 1, members := BitVec.ofNat 64 (c.arg 24 8), src := c.arg 32 8, dst := c.arg 40 8, stage := c.arg 56 8
    len := c.arg 48 8, epoch := d.group.epoch, words := [], commit := false, stagePos := 0, staged := false, poisoned := 0, copyPos := 0
    stagedBy := 0 }

/-- The argument rules of R421, R422 and R435 that concern the packet alone. -/
def Coll.argsOk (x : Coll) : Bool :=
  let n := x.count
  let out := collOut x.kind x.len n
  let far := fun (a m b k : Nat) => decide (a + m ≤ b) || decide (b + k ≤ a)
  x.len % 64 == 0 && decide (x.len ≤ 2 ^ 30) && (x.kind != 0 || x.len == 0)
    && (x.kind == 0 || (addrOk x.src 64 && addrOk x.dst 64 && addrOk x.stage 64
      && far x.src x.len x.dst out && far x.src x.len x.stage out && far x.dst out x.stage out))
    && (x.kind != 3 || x.len % (64 * max 1 n) == 0)
    && (x.kind != 1 || x.members.getLsbD x.root)
    && (!(x.kind == 2 || x.kind == 3) || ([0, 1, 5].contains (x.op / 16) && [0, 1].contains (x.op % 16)))

/-- The ranges a collective names. -/
def Coll.ranges (x : Coll) : List (Nat × Nat × Bool) :=
  if x.kind = 0 then []
  else
    let out := collOut x.kind x.len x.count
    [(x.src, x.len, false), (x.dst, out, true), (x.stage, out, true)]

/-- The device for which a COLL ends in NOT_MEMBER, if one (R435). -/
def Dev.notMember (d : Dev) (x : Coll) : Option Nat :=
  if !d.group.member || !x.members.getLsbD d.gdev then some d.gdev
  else (memberList x.members).find? fun k => !d.group.set.getLsbD k

/-- Does the device contribute its source? -/
def Dev.contributes (d : Dev) (x : Coll) : Bool := x.kind != 0 && (x.kind != 1 || x.root == d.gdev)

/-- The other members that take source word `i` of this device (R421). -/
def Dev.takers (d : Dev) (x : Coll) (i : Nat) : List Nat :=
  (memberList x.members).filter fun k => k != d.gdev && (x.kind != 3 || rankOf x.members k == i / max 1 x.segment)

/-- One word of this device's source is read, kept and sent (R402, R421, R423); the Bool says whether to go on. -/
def Dev.collSend (d : Dev) (n : Nat) (i : BitVec 32) : Dev × Bool :=
  match d.collCmd n i with
  | none => (d, false)
  | some (c, x) =>
    let a := x.src + 64 * c.pos
    if !d.contributes x || x.srcWords ≤ c.pos || d.regionHeld a then (d, false)
    else match d.tsvRead c.mover (d.wordOf a) with
      | (none, d) => (d, false)
      | (some w, d) =>
        let key := collKey (rankOf x.members d.gdev) c.pos
        let d := d.setColl { x with words := tabSet (fun _ => none) x.words key (some (w.data, w.poison)) }
        let d := (d.takers x c.pos).foldl (fun d k =>
          (d.sendTo { d.packet 8 k with epoch := x.epoch, field := x.field, poison := w.poison, data := w.data
                                        orig := BitVec.ofNat 16 (2 * 2 ^ 14 + c.ring.val)
                                        arg := BitVec.ofNat 64 (x.id.toNat + c.pos * 2 ^ 32) }).2) d
        (d.updCp n i fun c => { c with pos := c.pos + 1 }, true)

/-- The collective of a COLL begins, and takes the packets held for it; one that a mismatch has already ended ends with it (R423). -/
def Dev.collBegin (d : Dev) (c : Cmd) (x : Coll) : Dev :=
  if d.collLost x.field x.id then
    ({ d with group := { d.group with mismatch := d.group.mismatch.filter (· != (x.field, x.id)) } } : Dev).endCmd c 0x13 x.id.toNat
  else (({ d with colls := d.colls ++ [x] } : Dev).updCp c.ring.val c.idx fun c => { c with begun := true }).collDrain x

/-- A step of a collective that is under way: words sent and staged, COMMIT, or the copy (R424). -/
def Dev.collStep (d : Dev) (n : Nat) (i : BitVec 32) (x : Coll) : Dev :=
  if x.commit then d.collCopy n i
  else if x.staged then d.collTryCommit x
  else (stepWhile (fun d => d.collSend n i) 64 d).collStage n i

/-- COLL of a kind (R421 to R427, R435): issued at its first step; each further step sends and stages up to 64 words, and copies
up to 64 once COMMIT has come. No new step is taken while a member realigns (R420). -/
def Dev.collRow (d : Dev) (n : Nat) (i : BitVec 32) (kind : Nat) : Dev :=
  match d.rowCmd n i 0x26 with
  | none => d
  | some c =>
    if c.arg 16 1 ≠ kind ∨ d.group.realign ≠ 0 then d
    else if !c.begun then
      let x := d.collOf c
      let st := d.checkArgs c x.argsOk x.ranges true 0
      if st ≠ 0 then d.endChecked c x.ranges st
      else match d.notMember x with
        | some k => d.endCmd c 0x16 k
        | none => if d.colls.any fun y => y.field == c.field then d else d.collBegin c x
    else match d.coll c.ring c.idx with
      | none => d
      | some x => d.collStep n i x

end Sys2Proof.Machine
end

