-- ==== Sys2Proof/Machine/Group.lean ====
section
/-! DEFINITION. Group membership (R408 to R413), time alignment (R419, R420), the pairing of twins (R428, R433, R434), the
MGMT packets, and the group commands (R435). The layouts of MGMT data that the spec leaves open are named in the log. -/

namespace Sys2Proof.Machine

/-! ## What HELLO and JOIN say -/

abbrev rContract : Nat := 0x8

/-- The configuration hash as CFG_HASH shows it (R503). -/
def Dev.cfgHash (d : Dev) : BitVec 384 :=
  BitVec.ofNat 384 ((List.range 12).foldr (fun k x => (d.reg (rCfgHash + 4 * k)).toNat + 2 ^ 32 * x) 0)

/-- GLB_UID, GLB_CONTRACT, hash, device number and a last byte: bytes 0 to 7, 8 to 11, 12 to 59, 60 and 61 (R407, R409). -/
def Dev.idData (d : Dev) (last : Nat) : Nat :=
  d.fuses.uid.toNat + (d.regValue rContract).toNat * 2 ^ 64 + d.cfgHash.toNat * 2 ^ 96 + d.gdev * 2 ^ 480 + last * 2 ^ 488

def idOf (data : Line) : Hello :=
  let x := data.toNat
  { uid := BitVec.ofNat 64 (fieldAt x 0 8), contract := BitVec.ofNat 32 (fieldAt x 8 4), hash := BitVec.ofNat 384 (fieldAt x 12 48)
    dev := BitVec.ofNat 6 (fieldAt x 60 1), link := fieldAt x 61 1 }

/-- The first of reasons 1 and 2 of R409 that applies to another device; 0 when versions and hashes agree. -/
def Dev.idReason (d : Dev) (h : Hello) : Nat :=
  if h.contract ≠ d.regValue rContract then 1 else if h.hash ≠ d.cfgHash then 2 else 0

/-! ## Membership -/

def Dev.isFounder (d : Dev) : Bool := d.group.member && d.group.founder.toNat == d.gdev

/-- The group changes; the pause of R420 runs while a member reports realigning. -/
def Dev.setGroup (d : Dev) (g : Group) : Dev :=
  { d with group :=
      if g.realign ≠ 0 then { g with pauseFrom := some (g.pauseFrom.getD d.clock) }
      else match g.pauseFrom with
        | none => g
        | some t => { g with pauseFrom := none, pauses := g.pauses ++ [(t, d.clock)] } }

/-- The next group epoch (R411). -/
def nextEpoch (e : BitVec 16) : BitVec 16 := if e + 1 = 0 then 1 else e + 1

/-- MEMBERS to every device of the set, and to one more (R411): set, epoch, founder at bytes 0, 8 and 10. -/
def Dev.sendMembers (d : Dev) (more : List Nat) : Dev :=
  let g := d.group
  d.mgmtAll (memberList g.set ++ more) 0x06 g.epoch 0 (g.set.toNat + g.epoch.toNat * 2 ^ 64 + d.gdev * 2 ^ 80)

/-- The founder changes the set (R411): the epoch rises, and MEMBERS goes out. -/
def Dev.changeSet (d : Dev) (set : BitVec 64) (more : List Nat) : Dev :=
  let d := d.setGroup { d.group with set := set, epoch := nextEpoch d.group.epoch, realign := d.group.realign &&& set }
  (d.sendMembers more).collAbsent

/-- A device was heard (R412, R419). -/
def Dev.hear (d : Dev) (dev : Nat) : Dev :=
  { d with group := { d.group with heard := tabSet (fun _ => 0) d.group.heard dev d.clock } }

/-- The founder declares a member absent (R412). -/
def Dev.dropMember (d : Dev) (dev : Nat) (more : List Nat) : Dev :=
  let d := d.peerReport 0x0902 2 8 0 0 dev
  d.changeSet (d.group.set &&& ~~~(BitVec.ofNat 64 (2 ^ dev))) more

/-- The device leaves its group, or never was in one. -/
def Dev.leaveGroup (d : Dev) : Dev :=
  (({ d with group := { Group.init with joining := d.group.joining } } : Dev).setRegBit rTimeStat 30 false).setRegBit rTimeStat 29 false

/-- The founder's judgement of a JOIN (R409); 0 admits. -/
def Dev.joinReason (d : Dev) (p : Packet) : Nat :=
  let h := idOf p.data
  let r := d.idReason h
  if r ≠ 0 then r
  else if p.epoch ≠ d.group.epoch then 3
  else if d.group.set.getLsbD p.dev.toNat then 4
  else if (d.route p.dev.toNat).isNone then 5
  else 0

/-- JOIN arrives (R409): only the founder judges it. -/
def Dev.onJoin (d : Dev) (p : Packet) : Dev :=
  let dev := p.dev.toNat
  if !d.isFounder then d
  else
    let r := d.joinReason p
    if r ≠ 0 then
      (d.sendTo (d.mgmtPacket dev 0x04 d.group.epoch 0 r)).2.peerReport 0x090A 2 8 0 0 (dev + r * 256)
    else
      let d := (d.sendTo (d.mgmtPacket dev 0x03 (nextEpoch d.group.epoch) 0 0)).2
      (d.hear dev).changeSet (d.group.set ||| BitVec.ofNat 64 (2 ^ dev)) []

/-- End a waiting command, if it has not ended. -/
def Dev.endWaiting (d : Dev) (w : Option (Fin 1024 × BitVec 32)) (status r0 : Nat) : Dev :=
  match w.bind fun w => d.cmd w.1.val w.2 with
  | some c => if c.done.isNone then d.endCmd c status r0 else d
  | none => d

/-- ADMIT ends GROUP_JOIN in OK (R409). -/
def Dev.onAdmit (d : Dev) : Dev :=
  ({ d with group := { d.group with joining := none } } : Dev).endWaiting d.group.joining 0 0

/-- REFUSE ends GROUP_JOIN in REFUSED, and the twin hears the reason (R409, R410). -/
def Dev.onRefuse (d : Dev) (p : Packet) : Dev :=
  if d.group.joining.isNone then d
  else
    let r := fieldAt p.data.toNat 0 1
    let d := ({ d with group := { d.group with joining := none } } : Dev).endWaiting d.group.joining 0x10 r
    if d.twin.paired then d.linkSend 4 (d.mgmtPacket 0 0x05 0 0 r) else d

/-- MEMBERS arrives (R411): adopted when its set includes this device; without it, it ends a GROUP_LEAVE (R413). -/
def Dev.onMembers (d : Dev) (p : Packet) : Dev :=
  let x := p.data.toNat
  let set := BitVec.ofNat 64 (fieldAt x 0 8)
  let founder := BitVec.ofNat 6 (fieldAt x 10 1)
  if set.getLsbD d.gdev then
    let g := d.group
    let d := d.setGroup { g with member := true, set := set, epoch := BitVec.ofNat 16 (fieldAt x 8 2), founder := founder
                                 realign := g.realign &&& set, exchangeAt := if g.member then g.exchangeAt else d.clock }
    (d.hear founder.toNat).collAbsent
  else if d.group.leaving.isSome && p.dev == d.group.founder then (d.endWaiting d.group.leaving 0 0).leaveGroup
  else d

/-- LEAVE arrives (R412, R413). -/
def Dev.onLeave (d : Dev) (p : Packet) : Dev :=
  let dev := p.dev.toNat
  if d.isFounder && d.group.set.getLsbD dev && dev != d.gdev then d.dropMember dev [dev] else d

/-- MEMBER_ABSENT (R412): a member not heard for 2 ms, or without a working route. -/
def Dev.memberAbsentRow (d : Dev) (dev : Nat) : Dev :=
  if !d.sys.phase.live || !d.isFounder || dev == d.gdev || !d.group.set.getLsbD dev then d
  else
    let d := if (d.workingRoute dev).isNone then d else d.advanceTo (tabGet (fun _ => 0) d.group.heard dev + 4000000)
    d.dropMember dev []

/-- FOUNDER_TAKEN (R412): nothing from the founder for 2 ms, and this is the lowest member that it can still reach. -/
def Dev.founderTakenRow (d : Dev) (reach : BitVec 64) : Dev :=
  let g := d.group
  let one := fun (k : Nat) => BitVec.ofNat 64 (2 ^ k)
  let set := (g.set &&& reach &&& ~~~(one g.founder.toNat)) ||| one d.gdev
  if !d.sys.phase.live || !g.member || d.isFounder || (memberList set).head? != some d.gdev then d
  else
    let d := d.advanceTo (tabGet (fun _ => 0) g.heard g.founder.toNat + 4000000)
    let d : Dev := { d with group := { d.group with founder := BitVec.ofNat 6 d.gdev } }
    let d := (memberList set).foldl (fun d k => d.hear k) d
    let d := d.changeSet set []
    d.peerReport 0x0903 2 8 0 0 d.group.epoch.toNat

/-! ## Time alignment -/

/-- The trim after an alignment (R419): the change in θ in ns over 1 ms is 1 ppm each, in steps of 0.01 ppm, within 300 ppm. -/
def trimOf (old : Int) (change : Int) : Int :=
  let x := old - 100 * change
  if x < -30000 then -30000 else if 30000 < x then 30000 else x

/-- The last alignment has succeeded, or it has not (R46). -/
def Dev.setAligned (d : Dev) (ok : Bool) : Dev := d.setRegBit rTimeStat 30 ok

/-- Step, hold and trim the timebase for an offset θ in ns (R419, R50). GROUP_ALIGNED says whether the alignment succeeded: the
spec does not say when one does, and the model takes |θ| ≤ 50 ns, and ≤ 8 ns within a forced realignment (DESIGN CHOICE, log 156). -/
def Dev.align (d : Dev) (theta : Int) : Dev :=
  let last := sextInt 16 (fld (d.reg rTimeStat) 15 0)
  let trim := trimOf (sextInt 16 (fld (d.reg rGrpTrim) 15 0)) (theta - last)
  let dev : Int := if theta < -32768 then -32768 else if 32767 < theta then 32767 else theta
  let ok := decide (theta.natAbs ≤ if rbit (d.reg rTimeStat) 29 then 8 else 50)
  let d : Dev := if theta < 0 then { d with time := d.time + BitVec.ofNat 64 theta.natAbs }
    else { d with halfRate := d.halfRate + 2 * theta.toNat }
  ((d.setRegFld rGrpTrim 15 0 (patInt 16 trim)).setRegFld rTimeStat 15 0 (patInt 16 dev)).setAligned ok

/-- An exchange of time stamps begins: TIME goes to the neighbour on the route toward the founder (R419). An exchange before it
that has had no answer, or one that has no working route to go on, has failed (R46). -/
def Dev.sendTime (d : Dev) : Dev :=
  let d := if d.group.exchanging then d.setAligned false else d
  let d : Dev := { d with group := { d.group with exchangeAt := d.clock, exchanging := true } }
  match d.workingRoute d.group.founder.toNat with
  | none => d.setAligned false
  | some l =>
    let dev := ((d.link l).peer.map fun h => h.dev.toNat).getD 0
    d.linkSend l (d.mgmtPacket dev 0x08 d.group.epoch 0 d.time.toNat)

/-- ALIVE (R419): GDEV, epoch and θ at bytes 0, 2 and 4. -/
def Dev.sendAlive (d : Dev) (dst : Nat) (theta : Int) : Dev :=
  (d.sendTo (d.mgmtPacket dst 0x10 d.group.epoch 0 (d.gdev + d.group.epoch.toNat * 2 ^ 16 + patInt 32 theta * 2 ^ 32))).2

/-- This device realigns, or has realigned (R420). -/
def Dev.setRealign (d : Dev) (on : Bool) : Dev :=
  let me := BitVec.ofNat 64 (2 ^ d.gdev)
  let d := d.setGroup { d.group with realign := if on then d.group.realign ||| me else d.group.realign &&& ~~~me }
  (d.mgmtAll (memberList d.group.set) (if on then 0x09 else 0x0A) d.group.epoch 0 0).setRegBit rTimeStat 29 on

/-- An exchange has found θ (R419, R420): the member aligns, sends ALIVE, and begins or ends a forced realignment. -/
def Dev.aligned (d : Dev) (theta : Int) : Dev :=
  let forced := rbit (d.reg rTimeStat) 29
  let d := (d.align theta).sendAlive d.group.founder.toNat theta
  if forced then (if theta.natAbs ≤ 8 then d.setRealign false else d)
  else if theta.natAbs ≤ 50 then d
  else (d.setRealign true).peerReport 0x0905 1 0 0 0 (patInt 32 theta)

/-- TIME_ALIGNMENT of a member other than the founder, 1 ms after the last exchange (R419). -/
def Dev.alignmentRow (d : Dev) : Dev :=
  if !d.sys.phase.live || !d.group.member || d.isFounder then d
  else (d.advanceTo (d.group.exchangeAt + 2000000)).sendTime

/-- REALIGN_REPEAT, 10 µs after the last exchange, until |θ| ≤ 8 ns (R420). -/
def Dev.realignRow (d : Dev) : Dev :=
  if !d.sys.phase.live || !d.group.member || d.isFounder || !rbit (d.reg rTimeStat) 29 then d
  else (d.advanceTo (d.group.exchangeAt + 20000)).sendTime

/-- θ of four stamps: sent here, received there, sent there, received here (R419); a half nanosecond is dropped (log 156). -/
def thetaOf (t1 t2 t3 t4 : BitVec 64) : Int := ((t1 - t2).toInt + (t4 - t3).toInt) / 2

/-- TIME arrives (R419): a request, byte 24 zero, is answered with three stamps; the answer to an exchange under way gives the
fourth, its arrival, and with them θ. -/
def Dev.onTime (d : Dev) (l : Nat) (p : Packet) : Dev :=
  let x := p.data.toNat
  let stamp := fun (k : Nat) => BitVec.ofNat 64 (fieldAt x k 8)
  if fieldAt x 24 1 = 0 then
    d.linkSend l (d.mgmtPacket p.dev.toNat 0x08 d.group.epoch 0
      (fieldAt x 0 8 + d.time.toNat * 2 ^ 64 + d.time.toNat * 2 ^ 128 + 2 ^ 192))
  else if !d.group.member || d.isFounder || !d.group.exchanging then d
  else
    ({ d with group := { d.group with exchanging := false } } : Dev).aligned (thetaOf (stamp 0) (stamp 8) (stamp 16) d.time)

/-- REALIGN and ALIGNED of another member (R420). -/
def Dev.onRealign (d : Dev) (p : Packet) (on : Bool) : Dev :=
  let b := BitVec.ofNat 64 (2 ^ p.dev.toNat)
  if !d.group.set.getLsbD p.dev.toNat then d
  else d.setGroup { d.group with realign := if on then d.group.realign ||| b else d.group.realign &&& ~~~b }

/-- ALIVE arrives: the founder answers it (R419). -/
def Dev.onAlive (d : Dev) (p : Packet) : Dev :=
  if d.isFounder && d.group.set.getLsbD p.dev.toNat then (d.hear p.dev.toNat).sendAlive p.dev.toNat 0 else d

/-! ## Collectives -/

/-- The pending collective that a MGMT packet names. -/
def Dev.collNamed (d : Dev) (p : Packet) : Option Coll :=
  d.colls.find? fun c => c.field == p.field && c.id == p.data.truncate 32 && c.epoch == p.epoch

/-- COMMIT arrives from the coordinator (R424). -/
def Dev.onCommit (d : Dev) (p : Packet) : Dev :=
  match d.collNamed p with
  | some c => if c.coordinator = p.dev.toNat then d.collCommit c else d
  | none => d

/-- ABORT arrives (R425). -/
def Dev.onAbort (d : Dev) (p : Packet) : Dev :=
  match d.collNamed p with
  | some c => if c.commit then d else d.collEnd c 0x11 (fieldAt p.data.toNat 4 1)
  | none => d

/-- FENCE arrives (R426). -/
def Dev.onFence (d : Dev) (p : Packet) : Dev :=
  if d.group.set.getLsbD p.dev.toNat then d.fenceEpoch (p.data.truncate 16) else d

/-! ## Twins -/

/-- TWIN_NOTICE of the pairing (0x80), with the UID that the sender means at byte 8, or of its end (0x81). -/
def Dev.sendNotice (d : Dev) (kind : Nat) (uid : BitVec 64) : Dev :=
  d.linkSend 4 (d.mgmtPacket 0 0x05 0 0 (kind + uid.toNat * 2 ^ 64))

/-- The pairing is made (R428). -/
def Dev.pair (d : Dev) (uid : BitVec 64) : Dev :=
  { d with twin := { d.twin with paired := true, partner := uid, partnerHolds := true, wants := none } }

/-- A TWIN_PAIR ends in REFUSED (R428); for a UID that does not match the spec gives no reason: a free value. -/
def Dev.pairRefused (d : Dev) (w : Fin 1024 × BitVec 32) (reason : Nat) : Dev :=
  let (r, d) := if reason = 0 then ((Config.freeLine d.freeUses).toNat % 2 ^ 64, { d with freeUses := d.freeUses + 1 }) else (reason, d)
  ({ d with twin := { d.twin with wants := none } } : Dev).endWaiting (some w) 0x10 r

/-- The pairing ends, or the partner has reset (R428, R433). -/
def Dev.unpair (d : Dev) : Dev :=
  let d := d.twinLost
  { d with twin := { d.twin with paired := false, partner := 0, partnerHolds := false, offered := none } }

/-- TWIN_NOTICE arrives on TL (R410, R428, R433). -/
def Dev.onNotice (d : Dev) (p : Packet) : Dev :=
  let x := p.data.toNat
  let kind := fieldAt x 0 1
  let uid := BitVec.ofNat 64 (fieldAt x 8 8)
  if kind = 0x81 then (if d.twin.paired then d.unpair else { d with twin := { d.twin with offered := none } })
  else if kind = 0x80 then
    let mine := uid == d.fuses.uid
    let d : Dev := { d with twin := { d.twin with offered := some uid } }
    if d.twin.paired then
      { d with twin := { d.twin with partnerHolds := mine && ((d.link 4).peer.map (·.uid)) == some d.twin.partner } }
    else match d.twin.wants with
      | none => d
      | some (u, r, i) =>
        if mine then (d.pair u).endWaiting (some (r, i)) 0 0 else d.pairRefused (r, i) 0
  else d.peerReport 0x0908 2 7 4 0 kind

/-- TL comes into service (R428, R433): a partner still held is told so. -/
def Dev.twinLinkUp (d : Dev) : Dev :=
  if d.twin.paired then d.sendNotice 0x80 d.twin.partner else d

/-! ## The management packets -/

/-- A MGMT packet for this device, by its subtype (R409 to R428, R466): TL carries notices, times and reset requests only
between twins, the peer links the rest. The Bool: no credit returns, for a STAGED that waits for its collective or after a reset. -/
def Dev.onMgmt (d : Dev) (l : Nat) (p : Packet) : Dev × Bool :=
  let sub := p.arg.toNat % 256
  if sub = 0x0F then
    d.peerReset (fieldAt p.data.toNat 0 8) (fieldAt p.data.toNat 8 4) (l == 4 && d.twin.paired) p.dev.toNat l
  else if l = 4 then (if sub = 0x05 then d.onNotice p else d, false)
  else match sub with
    | 0x02 => (d.onJoin p, false)
    | 0x03 => (d.onAdmit, false)
    | 0x04 => (d.onRefuse p, false)
    | 0x06 => (d.onMembers p, false)
    | 0x07 => (d.onLeave p, false)
    | 0x08 => (d.onTime l p, false)
    | 0x09 => (d.onRealign p true, false)
    | 0x0A => (d.onRealign p false, false)
    | 0x0B => d.collArrive l p
    | 0x0C => (d.onCommit p, false)
    | 0x0D => (d.onAbort p, false)
    | 0x0E => (d.onFence p, false)
    | 0x10 => (d.onAlive p, false)
    | _ => (d, false)

/-! ## The group commands -/

/-- GROUP_FOUND (R409, R435). -/
def Dev.groupFoundRow (d : Dev) (n : Nat) (i : BitVec 32) : Dev :=
  match d.rowCmd n i 0x20 with
  | none => d
  | some c =>
    let st := d.checkArgs c (!d.group.member) [] true 0
    if st ≠ 0 then d.endCmd c st
    else
      let me := d.gdev
      ({ d with group := { Group.init with member := true, founder := BitVec.ofNat 6 me, epoch := 1, set := BitVec.ofNat 64 (2 ^ me)
                                           joining := d.group.joining } } : Dev).endCmd c 0

/-- GROUP_JOIN (R409, R435): JOIN is sent, and the answer ends the command. -/
def Dev.groupJoinRow (d : Dev) (n : Nat) (i : BitVec 32) : Dev :=
  match d.rowCmd n i 0x21 with
  | none => d
  | some c =>
    let dev := c.arg 16 1
    if c.begun || d.group.joining.isSome then d
    else
      let st := d.checkArgs c (!d.group.member && decide (dev < 64)) [] true 0
      if st ≠ 0 then d.endCmd c st
      else if (d.workingRoute dev).isNone then d.endCmd c 0x14 dev
      else
        let d := (d.sendTo { d.mgmtPacket dev 0x02 (BitVec.ofNat 16 (c.arg 20 2)) 0 (d.idData 0) with epoch := BitVec.ofNat 16 (c.arg 20 2) }).2
        ({ d with group := { d.group with joining := some (c.ring, c.idx) } } : Dev).updCp n i fun c => { c with begun := true }

/-- GROUP_LEAVE (R413): the pending collectives end first; LEAVE goes to the founder. -/
def Dev.groupLeaveRow (d : Dev) (n : Nat) (i : BitVec 32) : Dev :=
  match d.rowCmd n i 0x22 with
  | none => d
  | some c =>
    if c.begun then d
    else
      let st := d.checkArgs c true [] true 0
      if st ≠ 0 then d.endCmd c st
      else if !d.group.member then d.endCmd c 0x16 d.gdev
      else
        let d := d.colls.foldl (fun d x => d.collEnd x 0x11 d.gdev) d
        if d.isFounder then d.leaveGroup.endCmd c 0
        else
          let d := (d.sendTo (d.mgmtPacket d.group.founder.toNat 0x07 d.group.epoch 0 0)).2
          ({ d with group := { d.group with leaving := some (c.ring, c.idx) } } : Dev).updCp n i fun c => { c with begun := true }

/-- LEAVE_TIMEOUT: 1 ms after a GROUP_LEAVE whose MEMBERS has not come (R413). -/
def Dev.leaveTimeoutRow (d : Dev) (n : Nat) (i : BitVec 32) : Dev :=
  match d.rowCmd n i 0x22 with
  | none => d
  | some c =>
    if d.group.leaving ≠ some (c.ring, c.idx) then d
    else ((d.advanceTo (c.since + 2000000)).endCmd c 0).leaveGroup

/-- TWIN_PAIR (R428, R435): refused when the device on TL is not the one named or differs in version or hash; else the notice
goes out, and the pairing is made once the other end has named this device. -/
def Dev.twinPairRow (d : Dev) (n : Nat) (i : BitVec 32) : Dev :=
  match d.rowCmd n i 0x23 with
  | none => d
  | some c =>
    let uid := BitVec.ofNat 64 (c.arg 24 8)
    if c.begun then d
    else
      let st := d.checkArgs c (!d.twin.paired) [] true 0
      if st ≠ 0 then d.endCmd c st
      else if d.twin.wants.isSome || !(d.link 4).up then d
      else match (d.link 4).peer with
        | none => d
        | some h =>
          let d := d.updCp n i fun c => { c with begun := true }
          let r := d.idReason h
          if r ≠ 0 then d.pairRefused (c.ring, c.idx) r
          else if h.uid ≠ uid then d.pairRefused (c.ring, c.idx) 0
          else
            let d := d.sendNotice 0x80 uid
            match d.twin.offered with
            | none => { d with twin := { d.twin with wants := some (uid, c.ring, c.idx) } }
            | some u =>
              if u = d.fuses.uid then (d.pair uid).endWaiting (some (c.ring, c.idx)) 0 0 else d.pairRefused (c.ring, c.idx) 0

/-- TWIN_UNPAIR (R428): the pairing ends on both devices. -/
def Dev.twinUnpairRow (d : Dev) (n : Nat) (i : BitVec 32) : Dev :=
  match d.rowCmd n i 0x24 with
  | none => d
  | some c =>
    let st := d.checkArgs c true [] true 0
    if st ≠ 0 then d.endCmd c st
    else (if d.twin.paired then (d.sendNotice 0x81 d.twin.partner).unpair else d).endCmd c 0

/-- Is the resynced copy of a region acknowledged (R434)? -/
def Dev.mirrorQuiet (d : Dev) (r : Nat) : Bool := !(d.remotes.any fun x => x.who == .mirror r)

/-- One step of a resync: the next word is sent, or a region that is whole is marked in sync. The Bool: whether to go on. -/
def Dev.resyncStep (d : Dev) : Dev × Bool :=
  match d.twin.resync with
  | none => (d, false)
  | some (ring, idx, r, w, left) =>
    let a := r * 2 ^ 21 + 64 * w
    if left = 0 then
      let d : Dev := { d with twin := { d.twin with resync := none } }
      (d.endWaiting (some (ring, idx)) 0 0, false)
    else if !rbit (d.region a) 19 then ({ d with twin := { d.twin with resync := some (ring, idx, r + 1, 0, left - 1) } }, true)
    else if w = 32768 then
      if d.mirrorQuiet r then
        ({ d with twin := { d.twin with resync := some (ring, idx, r + 1, 0, left - 1), outSync := d.twin.outSync.filter (· != r) } }, true)
      else (d, false)
    else if !d.twinReachable || d.mirrorStalls || d.regionBusy a || d.regionHeld a then (d, false)
    else match (d.cmd ring.val idx).map fun c => d.tsvRead c.mover (d.wordOf a) with
      | none => (d, false)
      | some (none, d) => (d, false)
      | some (some got, d) =>
        -- a write accepted since the read is in the word too: what the stream has before it stays before it
        let x := if d.wordDown (d.wordOf a) then got else d.seen (d.wordOf a)
        let d := d.mirrorSend 2 (wordPlace (d.wordOf a)).ch a x.data 0 x.poison
        ({ d with twin := { d.twin with resync := some (ring, idx, r, w + 1, left) } }, true)

/-- TWIN_RESYNC (R434, R435): up to 128 words at each step; a region without the mirrored attribute is passed over. -/
def Dev.twinResyncRow (d : Dev) (n : Nat) (i : BitVec 32) : Dev :=
  match d.rowCmd n i 0x25 with
  | none => d
  | some c =>
    let first := c.arg 16 4
    let cnt := c.arg 20 4
    if !c.begun then
      let st := d.checkArgs c (decide (1 ≤ cnt) && decide (cnt ≤ 32768) && decide (first + cnt ≤ 32768)) [] true 0
      if st ≠ 0 then d.endCmd c st
      else if !d.twin.paired then d.endCmd c 0x17
      else if d.twin.resync.isSome then d
      else ({ d with twin := { d.twin with resync := some (c.ring, c.idx, first, 0, cnt) } } : Dev).updCp n i fun c => { c with begun := true }
    else if !d.twin.paired then ({ d with twin := { d.twin with resync := none } } : Dev).endCmd c 0x17
    else if (d.twin.resync.map fun x => (x.1, x.2.1)) ≠ some (c.ring, c.idx) then d
    else stepWhile (fun d => d.resyncStep) 128 d

/-- GROUP_QUERY (R435): GRP_STAT, the epoch, the member set, the route table and TWIN_STAT in one word. -/
def Dev.groupReport (d : Dev) : Line :=
  let r := fun (o : Nat) => (d.regValue o).toNat
  BitVec.ofNat 512 (r rGrpStat + r rGrpEpoch * 2 ^ 32 + d.group.set.toNat * 2 ^ 64
    + (List.range 8).foldl (fun x k => x + r (rGrpRoute k) * 2 ^ (128 + 32 * k)) 0 + r rTwinStat * 2 ^ 384)

def Dev.groupQueryRow (d : Dev) (n : Nat) (i : BitVec 32) : Dev :=
  match d.rowCmd n i 0x27 with
  | none => d
  | some c =>
    let dest := c.arg 24 8
    let st := d.checkArgs c (addrOk dest 4096) [(dest, 64, true)] true 0
    if st ≠ 0 then d.endChecked c [(dest, 64, true)] st
    else if d.cpWaits c.mover dest then d
    else (d.cpWord c.mover dest d.groupReport false).endCmd c 0

end Sys2Proof.Machine
end

