-- ==== Sys2Proof/Machine/Links.lean ====
section
/-! DEFINITION. Packets that arrive on a link (R403 to R405, R408, R414, R415), training and failure of a link (R406, R407),
and the requests of this device that others answer. -/

namespace Sys2Proof.Machine

/-! ## Requests of other members -/

/-- The checks of R414 on a request whose ORIGDEV is `p.dev`; 0 when all pass. -/
def Dev.requestStatus (d : Dev) (p : Packet) : Nat :=
  let a := p.addr
  let kind := p.orig.toNat / 2 ^ 14
  let acc : Access := { field := some p.field, secure := p.world, host := kind == 0 }
  let write := p.typ != 1
  if !d.group.member || !d.group.set.getLsbD p.dev.toNat then 0x16
  else if a < 2 ^ 36 then
    if (d.chan (d.place a).ch).down then 3
    else if !d.worldOk acc a write then 5
    else if !d.leaseOk acc a then 4
    else if kind == 0 && rbit (d.region a) 20 && d.regionBusy a then 7
    else 0
  else if 0x1802000000 ≤ a ∨ (2 ^ 36 + 2 ^ 24 ≤ a ∧ a < 0x1800000000) ∨ kind ≠ 0 then 3
  else if a < 0x1800000000 then 0
  else if a / 64 * 64 % 0x8000 ≠ 0 then 0
  else
    let r := d.ring (doorbellRing a)
    if r.state = 0 || !rbit (d.reg rCpStat) 31 then 3
    else if p.world ≠ r.secure then 5
    else if some p.field ≠ some r.field then 4
    else 0

/-- A request that passed: memory by the peer port, control space, or a doorbell page (R414, R417). -/
def Dev.requestDo (d : Dev) (l : Nat) (p : Packet) : Dev :=
  let a := p.addr / 64 * 64
  let read := fun (d : Dev) (x : Line) => d.answerData l p.dev p.tag x false
  let status := fun (d : Dev) (s : Nat) => d.answerStatus l p.dev p.tag s
  let mask := if p.typ = 3 then p.arg else BitVec.allOnes 64
  if a < 2 ^ 36 then
    d.peerEnter { origin := .peer { link := Fin.ofNat 5 l, dev := p.dev, tag := p.tag, cls := p.cls }, write := p.typ != 1
                  masked := p.typ == 3, addr := BitVec.ofNat 36 a, len := 0, cls := p.cls, field := some p.field
                  secure := p.world, mask := p.arg, data := if p.typ = 1 then [] else [p.data]
                  poison := p.poison, since := d.clock, words := [], arr := 0 }
  else if a < 0x1800000000 then
    let r := peerRights p.dev p.field p.world
    if p.typ = 1 then
      match d.csRead r (a % 2 ^ 24) with
      | (some x, d) => read d x
      | (none, d) => status d 5
    else
      let (ok, d) := d.csWrite r (a % 2 ^ 24) p.data mask
      status d (if ok then 0 else 5)
  else if a % 0x8000 ≠ 0 then (if p.typ = 1 then read d 0 else status d 0)
  else if p.typ = 1 then read d (d.ringStatus (doorbellRing a))
  else status (d.doorbell (doorbellRing a) (doorbellData p.data mask)) 0

/-- RD, WR or WRM for this device from a member (R414); members send no NBO. The Bool: it goes to the peer port of a channel,
which withholds the link credit until it has accepted it (R138). -/
def Dev.onRequest (d : Dev) (l : Nat) (p : Packet) : Dev × Bool :=
  if p.typ = 4 then (d, false)
  else
    let st := d.requestStatus p
    if st ≠ 0 then ((if st = 4 then d.regionLost p.addr else d).answerStatus l p.dev p.tag st, false)
    else (d.requestDo l p, decide (p.addr < 2 ^ 36))

/-! ## Answers to this device's requests -/

/-- The outcome of a floe's request (R415, R418): the word of a read, or a status. -/
def Dev.floeAnswer (d : Dev) (f engine cmd addr : Nat) (tag : Nat) (word : Option (Line × Bool)) (status : Nat) : Dev :=
  match d.slotOf f with
  | none => d
  | some n =>
    match ((d.floe n).engine engine).find? fun c => c.number == cmd && c.tags.contains tag with
    | none => d
    | some c =>
      let d := d.updCmd n engine cmd fun x =>
        { x with tags := x.tags.filter (· != tag), got := x.got ++ (word.map fun w => (addr, w.1, w.2)).toList }
      if word.isSome || status = 0 then d
      else if status = 1 then d.report 0x0003 2 3 f addr 0 (d.floeAccess f).field
      else d.faultCmd n engine c 5

/-- A request of this device, no longer among those open, ends with a word or a status (R415, R416, R432, R387). -/
def Dev.remoteEnds (d : Dev) (r : Remote) (word : Option (Line × Bool)) (status : Nat) : Dev :=
  match r.who with
  | .floe f e c a => d.floeAnswer f.toNat e c a r.tag.toNat word status
  | .host t w => (d.relayDone t w word status).csResume
  | .mirror region => if status = 0 then d else d.markOutSync region
  | .twin n => d.twinAnswer (wordPlace n).ch n ((word.map (·.1)).getD 0) (word.all (·.2))

/-- RSP_DATA or RSP_STATUS for a tag of this device (R414, R432); an answer to no request is discarded. -/
def Dev.onAnswer (d : Dev) (l : Nat) (p : Packet) : Dev :=
  match d.remotes.find? fun r => r.tag == p.tag with
  | none => d
  | some r =>
    let twin := match r.who with
      | .mirror _ => true
      | .twin _ => true
      | _ => false
    if twin != (l == 4) then d
    else ({ d with remotes := d.remotes.filter fun x => x.tag != p.tag } : Dev).remoteEnds r
      (if p.typ = 5 then some (p.data, p.poison) else none) p.status

/-- REMOTE_TIMEOUT (R415): a floe's or a host's request that GRP_CFG.REMOTE_TIMEOUT_US has passed since its first sending ends in
LINK_DOWN; the clock pauses while the link is in replay or training. -/
def Dev.remoteTimeoutRow (d : Dev) (tag : BitVec 12) : Dev :=
  match d.remotes.find? fun r => r.tag == tag with
  | none => d
  | some r =>
    let pauses := ((d.route r.dst.toNat).map d.linkPauses).getD []
    let paused := (d.route r.dst.toNat).any fun l => (d.link l).pauseFrom.isSome
    match r.since.bind fun t => dueAt t (2000 * fld (d.reg rGrpCfg) 15 0) d.clock pauses paused with
    | none => d
    | some t =>
      let ends := ({ d.advanceTo t with remotes := d.remotes.filter fun x => x.tag != tag } : Dev).remoteEnds r none 0x15
      match r.who with
      | .floe .. => ends
      | .host .. => ends
      | _ => d

/-! ## Arrival -/

/-- Send on a packet for another device (R408); a request that no working route leads on is answered with NO_ROUTE (R415). -/
def Dev.forward (d : Dev) (l : Nat) (p : Packet) : Dev :=
  match d.workingRoute p.dst.toNat with
  | some k => d.linkSend k p
  | none => if p.typ ≤ 4 then d.answerStatus l p.dev p.tag 0x14 else d

/-- What a packet accepted on a link does; the Bool: it is held, and its credit with it (R423, R432). -/
def Dev.deliverPacket (d : Dev) (l : Nat) (p : Packet) : Dev × Bool :=
  if l = 4 then
    if p.typ ≤ 4 then d.mirrorArrive p
    else if p.typ = 9 then d.onMgmt 4 p
    else (if p.typ = 8 then d else d.onAnswer 4 p, false)
  else if p.dst.toNat ≠ d.gdev then (d.forward l p, false)
  else
    let d := if d.group.member && p.dev == d.group.founder && !d.isFounder then d.hear p.dev.toNat else d
    if p.typ ≤ 4 then d.onRequest l p
    else if p.typ = 8 then d.collArrive l p
    else if p.typ = 9 then d.onMgmt l p
    else (d.onAnswer l p, false)

/-- NAK goes out, and flits are discarded until a code word with START = 1 (R404). -/
def Link.nak (k : Link) (now : Nat) : Link := ({ k with inError := true, discard := true } : Link).linkPkt true now

/-- A packet that fails its CRC is counted and answered by NAK (R397, R400, R404). -/
def Dev.crcFail (d : Dev) (l : Nat) : Dev := (d.updLink l fun k => k.nak d.clock).count (rLnkCrc l) 1

/-- A gap in SEQ (R404): one NAK until the packet expected has come (log 115). -/
def Dev.seqGap (d : Dev) (l : Nat) : Dev := d.updLink l fun k => if k.inError then k else k.nak d.clock

/-- A code word arrives (R397, R404): corrected symbols are counted, and START ends the discarding of flits. The Bool: what begins
in it is read. -/
def Dev.codeWord (d : Dev) (l : Nat) (cw : CodeWord) : Dev × Bool :=
  let d := if cw.fixed = 0 then d else d.count (rLnkFecCorr l) cw.fixed.toNat
  if !(d.link l).discard then (d, true)
  else if cw.start then (d.updLink l fun k => { k with discard := false }, true) else (d, false)

/-- A packet is accepted in order (R403, R404, R405). -/
def Link.accept (k : Link) (v now : Nat) : Link :=
  { k with expSeq := k.expSeq + 1, inError := false, unacked := k.unacked + 1
           unackedSince := if k.unacked = 0 then now else k.unackedSince
           consumed := setAt 3 0 k.consumed v ((k.consumed[v]?.getD 0) + 1) }

/-- 32 accepted packets without a LINK bring one (R404). -/
def Dev.ackDue (d : Dev) (l : Nat) : Dev := d.updLink l fun k => if 32 ≤ k.unacked then k.linkPkt false d.clock else k

/-- A sequenced packet arrives (R403 to R405). -/
def Dev.rxPacket (d : Dev) (l : Nat) (p : Packet) (seq : BitVec 10) (ok : Bool) : Dev :=
  let k := d.link l
  let v := packetVc p.typ
  if !ok then d.crcFail l
  else if seq ≠ k.expSeq then
    if 512 ≤ (seq - k.expSeq).toNat then d.count (rLnkDup l) 1 else d.seqGap l
  else if k.granted[v]?.getD 0 = k.consumed[v]?.getD 0 then (d.setRegBit (rLnkErr l) 29 true).crcFail l
  else
    let d := d.setLink l (k.accept v d.clock)
    let (d, held) := d.deliverPacket l p
    (if held then d else d.giveCredit l v).ackDue l

/-- A packet of a row arrives on a link in service: the row is the packet's type, for MGMT its subtype. -/
def Dev.packetRow (d : Dev) (l : Nat) (cw : CodeWord) (hdr : BitVec 256) (data : Line) (row : Packet → Bool) : Dev :=
  let (p, seq, ok) := parsePacket hdr data
  if !d.sys.phase.live || !(d.link l).up || !row p then d
  else match d.codeWord l cw with
    | (d, true) => d.rxPacket l p seq ok
    | (d, false) => d

def isType (t : Nat) (p : Packet) : Bool := p.typ == t
def isMgmt (sub : Nat) (p : Packet) : Bool := p.typ == 9 && p.arg.toNat % 256 == sub

/-! ## Training and failure -/

/-- A request that waits for a link finds no route any more (R415): one of another device is answered, one of this device ends. -/
def Dev.noRoute (d : Dev) (p : Packet) : Dev :=
  if p.dev.toNat ≠ d.gdev then d.answerStatus 0 p.dev p.tag 0x14
  else match d.remotes.find? fun r => r.tag == p.tag with
    | none => d
    | some r => ({ d with remotes := d.remotes.filter fun x => x.tag != p.tag } : Dev).remoteEnds r none 0x14

/-- A link goes down (R406, R407, R415, R433). -/
def Dev.linkDown (d : Dev) (l : Nat) : Dev :=
  let k := d.link l
  let waits := k.outq.filter fun p => decide (p.typ ≤ 4)
  let d := d.setLink l { k with up := false, training := none, down := true, attempts := 0, held := [], outq := [], inError := false
                                discard := false, replay := false, rounds := 0, peer := none }
  let d := (d.setRegBit (rLnkErr l) 30 true).peerReport 0x0901 3 7 l 0 0
  if l = 4 then d.twinLost else waits.foldl (fun d p => d.noRoute p) d

/-- An attempt fails (R406, R407); in service the packets sent and not acknowledged are kept. -/
def Dev.attemptFails (d : Dev) (l : Nat) : Dev :=
  let k := d.link l
  let limit := if k.training = some .linkFail then 1 else 3
  if limit ≤ k.attempts + 1 then d.linkDown l 
  else d.setLink l { k with attempts := k.attempts + 1, held := if k.training = some .start then [] else k.held }

/-- HELLO goes out as SEQ 0 of a fresh link (R407). -/
def Dev.sendHello (d : Dev) (l : Nat) : Dev :=
  let hello := d.mgmtPacket 0 0x01 0 0 (d.idData l)
  d.updLink l fun k =>
    { k with expSeq := 0, nextSeq := 1, inError := false, discard := false, unacked := 0, held := [(0, hello)], given := [128, 128, 64]
             used := [0, 0, 1], granted := [128, 128, 64], consumed := [0, 0, 0], rounds := 0, replay := false, peer := none
             linkSent := d.clock, quietFrom := d.clock }

/-- LINK_TRAINING_ATTEMPT (R407): `ok` says that steps 1 and 2 have passed; at start HELLO follows, in service the state is
kept and the senders resend. -/
def Dev.trainingRow (d : Dev) (l : Nat) (ok : Bool) (laneOk : BitVec 8) (reversed : Bool) (polarity : BitVec 8) : Dev :=
  let k := d.link l
  if !d.sys.phase.live then d
  else match k.training with
    | none => d
    | some cause =>
      let d := d.setLink l { k with laneOk := laneOk, reversed := reversed, polarity := polarity }
      -- a training that succeeds has locked the PLL of the link's PHY in its step 1 (R407, R505)
      let d := if ok then d.setRegBit rClkStat (24 + l) true else d
      if !ok then d.attemptFails l
      else if cause = .start then d.sendHello l
      else (d.updLink l fun k =>
        ({ k with up := true, training := none, attempts := 0, rounds := 0, replay := false, inError := false, discard := false
                  quietFrom := d.clock } : Link).linkPkt false d.clock).linkDrain l

/-- MGMT_HELLO (R407): on a link that trains it ends step 3; its number must be 4 at both ends or at neither. -/
def Dev.helloRow (d : Dev) (l : Nat) (cw : CodeWord) (hdr : BitVec 256) (data : Line) : Dev :=
  let (p, seq, ok) := parsePacket hdr data
  if (d.link l).up then d.packetRow l cw hdr data (isMgmt 0x01)
  else if !d.sys.phase.live || (d.link l).training != some .start || (d.link l).held.isEmpty || !isMgmt 0x01 p then d
  else match d.codeWord l cw with
  | (d, false) => d
  | (d, true) =>
    let k := d.link l
    let h := idOf p.data
    if !ok || seq ≠ 0 then d.crcFail l else
    if (h.link == 4) != (l == 4) then (d.setRegBit (rLnkErr l) 28 true).attemptFails l
    else
      let d := (d.setLink l { (k.accept 2 d.clock) with up := true, training := none, attempts := 0, peer := some h }).giveCredit l 2
      let d := d.linkDrain l
      if l = 4 then d.twinLinkUp else d

/-- One more replay round (R404, R406); when eight have failed there is no ninth, and the link has failed. -/
def Dev.replayRound (d : Dev) (l : Nat) : Dev :=
  if (d.link l).held.isEmpty then d
  else if 8 ≤ (d.link l).rounds then d.updLink l fun k => { k with rounds := 9 }
  else (d.updLink l fun k => { k with replay := true, rounds := k.rounds + 1, quietFrom := d.clock }).count (rLnkReplay l) 1

/-- LINK_PACKET (R404): acknowledgement, credits, NAK and RETRAIN. -/
def Dev.linkPacketRow (d : Dev) (l : Nat) (cw : CodeWord) (hdr : BitVec 256) : Dev :=
  let (p, _, ok) := parsePacket hdr 0
  let h := hdr.toNat
  let ack := BitVec.ofNat 10 (bits h 169 160)
  if !d.sys.phase.live || !(d.link l).up || p.typ != 14 then d
  else match d.codeWord l cw with
  | (d, false) => d
  | (d, true) =>
    let nak := bit h 176
    if !ok then d.crcFail l else
    let d := d.updLink l fun k =>
      let held := k.held.filter fun e => decide (512 ≤ (ack - e.1).toNat)
      let done := held.isEmpty || decide (held.length < k.held.length)
      { k with held := held, rounds := if done then 0 else k.rounds, replay := k.replay && !done, quietFrom := d.clock
               given := [BitVec.ofNat 16 (bits h 111 96), BitVec.ofNat 16 (bits h 127 112), BitVec.ofNat 16 (bits h 143 128)] }
    let d := if nak then d.replayRound l else d
    (if bit h 177 then d.linkTrain l .service else d).linkDrain l

/-- PEER_CORRUPT_PACKET: 0 a CRC failure, 1 a SEQ gap, 2 a code word that the decoder cannot correct, whose header is not read
(R397, R404). -/
def Dev.corruptPacketRow (d : Dev) (l : Nat) (cw : CodeWord) (cause : Nat) : Dev :=
  if !d.sys.phase.live || !(d.link l).up then d
  else if cause = 2 then
    let d := d.count (rLnkFecUncorr l) 1
    if (d.link l).discard then d else d.crcFail l
  else match d.codeWord l cw with
    | (d, true) => if cause = 0 then d.crcFail l else d.seqGap l
    | (d, false) => d

/-- When the next positive LINK is due (R404): 100 ns after the oldest packet not acknowledged, 1 µs after the last LINK. -/
def Link.ackAt (k : Link) : Nat := if k.unacked = 0 then k.linkSent + 2000 else min (k.unackedSince + 200) (k.linkSent + 2000)

/-- PEER_ACK_TIMER (R404): a positive LINK at the time at which it is due. -/
def Dev.ackTimerRow (d : Dev) (l : Nat) : Dev :=
  if d.sys.phase.live && (d.link l).up then
    let d := d.advanceTo (d.link l).ackAt
    d.updLink l fun k => k.linkPkt false d.clock
  else d

/-- PEER_RESEND_TIMEOUT (R404): no LINK for 2 µs. -/
def Dev.resendRow (d : Dev) (l : Nat) : Dev :=
  if d.sys.phase.live && (d.link l).up && !(d.link l).held.isEmpty then (d.advanceTo ((d.link l).quietFrom + 4000)).replayRound l else d

/-- PEER_LINK_FAIL (R406): after eight rounds in a row have failed, one retraining attempt. -/
def Dev.linkFailRow (d : Dev) (l : Nat) : Dev :=
  if !d.sys.phase.live || !(d.link l).up || decide ((d.link l).rounds ≤ 8) then d
  else
    let d := ((d.setRegBit (rLnkErr l) 31 true).devsrc 28).peerReport 0x0900 2 7 l 0 0
    if rbit (d.reg (rLnkCtrl l)) 29 then d.linkDown l
    else (d.linkTrain l .linkFail).updLink l fun k => { k with rounds := 0 }

/-- TWIN_LOSS (R433). -/
def Dev.twinLossRow (d : Dev) : Dev := if d.sys.phase.live then d.twinLost else d

end Sys2Proof.Machine
end

