-- ==== Sys2Proof/Machine/Sideband.lean ====
section
/-! DEFINITION. The sideband (R499 to R501): its four commands, the Quick Command and the bus timeout. STATUS is 0 OK, 1 PEC_ERR,
2 OUTSIDE, 3 IN_RESET, 4 LENGTH. -/

namespace Sys2Proof.Machine

def Dev.updSb (d : Dev) (f : Sideband → Sideband) : Dev := { d with sys := { d.sys with sb := f d.sys.sb } }

/-- A transaction ends with a status. -/
def Dev.sbEnd (d : Dev) (status : Nat) : Dev := d.updSb fun s => { s with status := BitVec.ofNat 8 status }

/-- SET_ADDR (R500): the offset and the registers per transfer. -/
def Dev.sbSetAddrRow (d : Dev) (bytes : List (BitVec 8)) (pecOk : Bool) : Dev :=
  if d.sys.ioLost then d
  else if bytes.length ≠ 4 then d.sbEnd 4
  else if !pecOk then d.sbEnd 1
  else
    let x := leNat bytes
    let n := x / 2 ^ 24
    if x % 4 ≠ 0 ∨ n = 0 ∨ 16 < n then d.sbEnd 4
    else (d.updSb fun s => { s with offset := BitVec.ofNat 24 x, count := BitVec.ofNat 5 n }).sbEnd 0

/-- A register outside the subset, or not to be reached in reset: its STATUS; 0 when it answers a read (R501). THM_TRIP answers
from a trip to the end of its restart (R522). -/
def Dev.sbReadStatus (d : Dev) (o : Nat) : Nat :=
  if sideAlways o || (o == rThmTrip && d.tripOpen) then 0 else if d.sideInReset then 3 else if sideReads o then 0 else 2

/-- The address advances (R500). -/
def Sideband.advance (s : Sideband) (n : Nat) : Sideband := { s with offset := s.offset + BitVec.ofNat 24 (4 * n) }

/-- READ (R500, R501): registers in ascending order, on the sideband's own latches (R47). -/
def Dev.sbReadRow (d : Dev) : Dev :=
  if d.sys.ioLost then d
  else
    let n := d.sys.sb.count.toNat
    let (vs, st, d) := (List.range n).foldl (fun (s : List Reg × Nat × Dev) k =>
      let o := (s.2.2.sys.sb.offset.toNat + 4 * k) % 2 ^ 24
      let e := s.2.2.sbReadStatus o
      if e ≠ 0 then (s.1 ++ [0], e, s.2.2)
      else
        let (v, d) := s.2.2.readReg sideRights o
        (s.1 ++ [v], s.2.1, d)) (([] : List Reg), 0, d)
    (d.updSb fun s => { s.advance n with answer := vs.flatMap fun v => toLe 4 v.toNat }).sbEnd st

/-- WRITE (R500, R501): full 32-bit secure writes in ascending order. -/
def Dev.sbWriteRow (d : Dev) (bytes : List (BitVec 8)) (pecOk : Bool) : Dev :=
  let n := bytes.length / 4
  if d.sys.ioLost then d
  else if bytes.length % 4 ≠ 0 ∨ n = 0 ∨ 16 < n then d.sbEnd 4
  else if !pecOk then d.sbEnd 1
  else
    let a := d.sys.sb.offset.toNat
    let (st, d) := (List.range n).foldl (fun (s : Nat × Dev) k =>
      let o := (a + 4 * k) % 2 ^ 24
      if s.2.sideInReset && !sideAlways o then (3, s.2)
      else
        let (ok, d) := s.2.sideStore o (BitVec.ofNat 32 (leNat ((bytes.drop (4 * k)).take 4)))
        (if ok then s.1 else 2, d)) (0, d)
    (d.updSb fun s => s.advance n).sbEnd st

/-- STATUS (R500). -/
def Dev.sbStatusRow (d : Dev) : Dev := if d.sys.ioLost then d else d.updSb fun s => { s with answer := [s.status] }

/-- SMBUS_TIMEOUT (R499): the interface resets; what it was answering is gone. -/
def Dev.sbTimeoutRow (d : Dev) : Dev := if d.sys.ioLost then d else d.updSb fun s => { s with answer := [] }

end Sys2Proof.Machine
end

