-- ==== Sys2Proof/Machine/Exec.lean ====
section
/-! DEFINITION. What every command's effect ends with, and the small rows that no other file holds. -/

namespace Sys2Proof.Machine

/-! ## The end of every command -/

/-- After every command and every tick the ATTN_n pins stand as the conditions routed to them ask (R118). -/
def Dev.settle (d : Dev) : Dev := { d with sys := { d.sys with attn := d.attnLevel } }

/-- A command's effect on the device; the queue is not its concern. -/
def State.does (s : State) (f : Dev → Dev) : Host.Outcome State Fault Refusal := .next { s with dev := (f s.dev).settle }

/-- The effect of a block whose clocks must run: none outside service. -/
def Dev.inService (d : Dev) (f : Dev → Dev) : Dev := if d.sys.phase.live then f d else d

/-! ## Host-port rows -/

/-- CORRUPT_FRAME (R66, R68, R73): cause 0 a CRC failure, 1 a broken write window, 2 a frame or word without credit. -/
def Dev.corruptFrameRow (d : Dev) (c cause : Nat) : Dev :=
  if !(d.host c).up then d
  else
    let d := match cause with
      | 0 => d
      | 1 => d.setRegBit (rHpErr c) 28 true
      | _ => d.setRegBit (rHpErr c) 29 true
    d.badFrame c

/-- HOST_ACK_TIMER (R68): 32 accepted frames unacknowledged, or the oldest 40 ns old. -/
def Dev.hostAckRow (d : Dev) (c : Nat) : Dev :=
  let h := d.host c
  if !h.up || h.unacked = 0 then d
  else (if 32 ≤ h.unacked then d else d.advanceTo (h.unackedSince + 80)).updHost c fun h => h.linkBeat false

/-- HOST_CREDIT_RETURN (R73): the credits freed so far go out in a link beat. -/
def Dev.hostCreditRow (d : Dev) (c : Nat) : Dev :=
  let h := d.host c
  if !h.up || (h.rqFreed = 0 && h.wdFreed = 0) then d else d.updHost c fun h => h.linkBeat false

/-- HOST_LINK_FAIL (R72): after eight replay rounds in a row have failed, one retraining attempt. -/
def Dev.hostFailRow (d : Dev) (c : Nat) : Dev :=
  if !(d.host c).up || (decide ((d.host c).rounds ≤ 8) && decide ((d.host c).rnaks ≤ 8)) then d
  else
    let d := ((d.setRegBit (rHpErr c) 31 true).report 0x0700 3 6 c 0 0).devsrc 31
    (d.updHost c fun h => { h with rounds := 0, rnaks := 0 }).beginTraining c .linkFail

/-! ## Bank-unit, floe and control rows -/

/-- The reads and lane work of a bank's running atom, when its NBO is of the row's operation (R182). -/
def Dev.atomOpRow (d : Dev) (c bank op : Nat) : Dev :=
  match ((d.bankNear c bank).atom).bind fun a => d.nbo a.nbo with
  | none => d
  | some x => if x.d.op = op then d.atomWork c bank else d

/-- Bits [22:0] of CMP (R277, R278). -/
def cmpFields (k a : Nat) (byReg : Bool) (b imm : Nat) : Nat :=
  a * 2 ^ 23 + k * 2 ^ 18 + (if byReg then 2 ^ 17 + b * 2 ^ 20 else imm)

/-- A value of DT_CMD with GO = 1 (R336). -/
def dtWord (op entry : Nat) : Reg := BitVec.ofNat 32 (2 ^ 31 + op * 2 ^ 28 + entry)

/-- A value of RST_CTRL (R502). -/
def rstWord (key : BitVec 16) (action : Nat) : Reg := BitVec.ofNat 32 (key.toNat * 2 ^ 16 + action)

/-- The TAP as an agent (R555). -/
def tapAgent : Agent := { kind := 2, ch := 0, srcid := 0, secure := false, dev := 0, field := 0 }

/-- FL_CTRL with an operation (R498); `ok` is false when the flash does not finish in time or a program reads back wrong. -/
def Dev.flashRow (d : Dev) (ag : Agent) (op : Nat) (ok : Bool) : Dev :=
  if ok then d.agentWrite ag rFlCtrl (BitVec.ofNat 32 (2 ^ 31 + op))
  else if !d.reaches ag || !(d.rights ag).secure || (ag.kind == 1 && d.sideInReset) then d
  else d.flashOp op false

/-- RAIL_OUT_OF_RANGE (R541); rails 0 to 7 in the order of R509. The sideband answers while VDD_AON and VDD_IO18 hold. -/
def Dev.railRow (d : Dev) (rail : Fin 8) : Dev :=
  let d := d.railOut
  { d with sys := { d.sys with ioLost := d.sys.ioLost || rail == 2 || rail == 7 } }

end Sys2Proof.Machine
end

