-- ==== Sys2Proof/Machine/ExecChannel.lean ====
section
/-! DEFINITION. The meanings of the rows of the channels and bank units (chapters 4, 5, 6 and 11). -/

namespace Sys2Proof.Machine

/-- SCHEDULER_SLOT (R146). -/
def execSchedulerSlot (ch : Fin 32) (s : State) : Host.Outcome State Fault Refusal :=
  s.does fun d => d.inService fun d => d.slot ch.val

/-- CHANNEL_REQUEST_ACCEPT (R137). -/
def execChannelRequestAccept (ch : Fin 32) (port : Fin 4) (s : State) : Host.Outcome State Fault Refusal :=
  s.does fun d => d.inService fun d => d.portAccept ch.val port.val

/-- CLASS0_PROMOTION (R141). -/
def execClass0Promotion (ch : Fin 32) (bank : Option (Fin 64)) (id : Nat) (s : State) : Host.Outcome State Fault Refusal :=
  s.does fun d => d.inService fun d => d.promote ch.val (bank.map (·.val)) id

/-- PAGE_IDLE_TIMEOUT (R151). -/
def execPageIdleTimeout (ch : Fin 32) (bank : Fin 64) (s : State) : Host.Outcome State Fault Refusal :=
  s.does fun d => d.inService fun d => d.pageIdle ch.val bank.val

/-- POWER_DOWN_ENTRY (R153). -/
def execPowerDownEntry (ch : Fin 32) (s : State) : Host.Outcome State Fault Refusal :=
  s.does fun d => d.inService fun d => d.powerDownIn ch.val

/-- POWER_DOWN_EXIT (R153). -/
def execPowerDownExit (ch : Fin 32) (s : State) : Host.Outcome State Fault Refusal :=
  s.does fun d => d.inService fun d => d.powerDownOut ch.val

/-- REFRESH_INTERVAL (R155). -/
def execRefreshInterval (ch : Fin 32) (s : State) : Host.Outcome State Fault Refusal :=
  s.does fun d => d.inService fun d => d.refiEnd ch.val

/-- REFRESH_START (R156). -/
def execRefreshStart (ch : Fin 32) (s : State) : Host.Outcome State Fault Refusal :=
  s.does fun d => d.inService fun d => d.refreshStart ch.val

/-- REFRESH_END (R156). -/
def execRefreshEnd (ch : Fin 32) (s : State) : Host.Outcome State Fault Refusal :=
  s.does fun d => d.inService fun d => d.refreshEnd ch.val

/-- TRR_TABLE_RESET (R160). -/
def execTrrTableReset (ch : Fin 32) (s : State) : Host.Outcome State Fault Refusal :=
  s.does fun d => d.inService fun d => d.trrReset ch.val

/-- PERIODIC_RETRAIN (R166). -/
def execPeriodicRetrain (ch : Fin 32) (lanes : List LaneMeas) (s : State) : Host.Outcome State Fault Refusal :=
  s.does fun d => d.inService fun d => d.retrainVisit ch.val lanes

/-- FULL_RETRAIN (R167). -/
def execFullRetrain (ch : Fin 32) (ok : Bool) (lanes : List LaneMeas) (s : State) : Host.Outcome State Fault Refusal :=
  s.does fun d => d.inService fun d => d.retrainAttempt ch.val ok lanes

/-- CH_CTRL_RETRAIN (R167). -/
def execChCtrlRetrain (ag : Agent) (ch : Fin 32) (s : State) : Host.Outcome State Fault Refusal :=
  s.does fun d => d.agentWrite ag (rChCtrl ch.val) (d.reg (rChCtrl ch.val) ||| 0x80000000)

/-- INTLV_LOG2_WRITE (R134). -/
def execIntlvLog2Write (g : BitVec 5) (s : State) : Host.Outcome State Fault Refusal :=
  s.does fun d => d.agentWrite tapAgent (rChCfg 0) (BitVec.ofNat 32 (g.toNat * 2 ^ 16))

/-- NBO_ACCEPT (R186). -/
def execNboAccept (ch : Fin 32) (pos : Nat) (s : State) : Host.Outcome State Fault Refusal :=
  s.does fun d => d.inService fun d => d.nboTry ch.val pos

/-- NBO_RSUM (R182). -/
def execNboRsum (ch : Fin 32) (bank : Fin 64) (s : State) : Host.Outcome State Fault Refusal :=
  s.does fun d => d.inService fun d => d.atomOpRow ch.val bank.val 1

/-- NBO_RMAX (R182). -/
def execNboRmax (ch : Fin 32) (bank : Fin 64) (s : State) : Host.Outcome State Fault Refusal :=
  s.does fun d => d.inService fun d => d.atomOpRow ch.val bank.val 2

/-- NBO_DOTW (R182). -/
def execNboDotw (ch : Fin 32) (bank : Fin 64) (s : State) : Host.Outcome State Fault Refusal :=
  s.does fun d => d.inService fun d => d.atomOpRow ch.val bank.val 3

/-- NBO_ACCW (R182). -/
def execNboAccw (ch : Fin 32) (bank : Fin 64) (s : State) : Host.Outcome State Fault Refusal :=
  s.does fun d => d.inService fun d => d.atomOpRow ch.val bank.val 4

/-- NBO_SETW (R182). -/
def execNboSetw (ch : Fin 32) (bank : Fin 64) (s : State) : Host.Outcome State Fault Refusal :=
  s.does fun d => d.inService fun d => d.atomOpRow ch.val bank.val 5

/-- NBO_CSHIFT (R198). -/
def execNboCshift (ch : Fin 32) (bank : Fin 64) (s : State) : Host.Outcome State Fault Refusal :=
  s.does fun d => d.inService fun d => d.atomOpRow ch.val bank.val 6

/-- FIRN_LOAD (R188). -/
def execFirnLoad (ch : Fin 32) (bank : Fin 64) (s : State) : Host.Outcome State Fault Refusal :=
  s.does fun d => d.inService fun d => d.firnWord ch.val bank.val

/-- ATOM_END (R190). -/
def execAtomEnd (ch : Fin 32) (bank : Fin 64) (s : State) : Host.Outcome State Fault Refusal :=
  s.does fun d => d.inService fun d => d.atomDone ch.val bank.val

/-- CHAIN_HOP (R197). -/
def execChainHop (ch : Fin 32) (bank : Fin 64) (s : State) : Host.Outcome State Fault Refusal :=
  s.does fun d => d.inService fun d => d.chainStep ch.val bank.val

/-- REPAIR_WRITE (R363). -/
def execRepairWrite (ch : Fin 32) (s : State) : Host.Outcome State Fault Refusal :=
  s.does fun d => d.inService fun d => d.repairWrite ch.val

/-- PATROL_SCRUB_VISIT (R370). -/
def execPatrolScrubVisit (ch : Fin 32) (s : State) : Host.Outcome State Fault Refusal :=
  s.does fun d => d.inService fun d => d.scrubVisit ch.val

/-- TWIN_READ_RESPONSE (R387). -/
def execTwinReadResponse (ch : Fin 32) (word : BitVec 30) (data : Line) (poison : Bool) (s : State) : Host.Outcome State Fault Refusal :=
  s.does fun d => d.inService fun d => d.twinAnswer ch.val word.toNat data poison

/-- TWIN_READ_TIMEOUT (R387). -/
def execTwinReadTimeout (ch : Fin 32) (word : BitVec 30) (s : State) : Host.Outcome State Fault Refusal :=
  s.does fun d => d.inService fun d => d.twinTimeout ch.val word.toNat

end Sys2Proof.Machine
end

