-- ==== Sys2Proof/Machine/ExecControl.lean ====
section
/-! DEFINITION. The meanings of the rows of control space, rings and the command processor (chapters 1, 3 and 13). -/

namespace Sys2Proof.Machine

/-- REGISTER_WRITE (R38). -/
def execRegisterWrite (ag : Agent) (off : BitVec 24) (val : Reg) (s : State) : Host.Outcome State Fault Refusal :=
  s.does fun d => d.agentWrite ag off.toNat val

/-- DOORBELL_WRITE (R93). -/
def execDoorbellWrite (ring : Fin 1024) (srcid : BitVec 6) (secure : Bool) (data : Line) (mask : BitVec 64) (s : State) : Host.Outcome State Fault Refusal :=
  s.does fun d => d.doorbellRow ring.val srcid.toNat secure data mask

/-- DOORBELL_STATUS_READ (R94). -/
def execDoorbellStatusRead (ring : Fin 1024) (srcid : BitVec 6) (secure : Bool) (tag : BitVec 9) (s : State) : Host.Outcome State Fault Refusal :=
  s.does fun d => d.statusReadRow ring.val srcid.toNat secure tag

/-- ADM_RING_ENABLE (R90). -/
def execAdmRingEnable (ag : Agent) (field : Fin 16) (cfg : Reg) (s : State) : Host.Outcome State Fault Refusal :=
  s.does fun d => d.agentWrite ag (rAdmCfg field.val) (cfg ||| 0x80000000)

/-- PACKET_FETCH (R101). -/
def execPacketFetch (ring : Fin 1024) (s : State) : Host.Outcome State Fault Refusal :=
  s.does fun d => d.inService fun d => d.packetFetch ring

/-- NOP (R103). -/
def execNop (ring : Fin 1024) (idx : BitVec 32) (s : State) : Host.Outcome State Fault Refusal :=
  s.does fun d => d.inService fun d => d.nopRow ring.val idx

/-- LAUNCH (R105). -/
def execLaunch (ring : Fin 1024) (idx : BitVec 32) (s : State) : Host.Outcome State Fault Refusal :=
  s.does fun d => d.inService fun d => d.launchRow ring.val idx

/-- NBO_POST (R106). -/
def execNboPost (ring : Fin 1024) (idx : BitVec 32) (s : State) : Host.Outcome State Fault Refusal :=
  s.does fun d => d.inService fun d => d.nboPostRow ring.val idx

/-- COPY (R107). -/
def execCopy (ring : Fin 1024) (idx : BitVec 32) (words : Nat) (s : State) : Host.Outcome State Fault Refusal :=
  s.does fun d => d.inService fun d => d.copyRow ring.val idx words

/-- FILL (R107). -/
def execFill (ring : Fin 1024) (idx : BitVec 32) (words : Nat) (s : State) : Host.Outcome State Fault Refusal :=
  s.does fun d => d.inService fun d => d.fillRow ring.val idx words

/-- FENCE (R104). -/
def execFence (ring : Fin 1024) (idx : BitVec 32) (s : State) : Host.Outcome State Fault Refusal :=
  s.does fun d => d.inService fun d => d.fenceRow ring.val idx

/-- QUERY_RING (R560). -/
def execQueryRing (ring : Fin 1024) (idx : BitVec 32) (s : State) : Host.Outcome State Fault Refusal :=
  s.does fun d => d.inService fun d => d.queryRingRow ring.val idx

/-- QUERY_FLOES (R560). -/
def execQueryFloes (ring : Fin 1024) (idx : BitVec 32) (s : State) : Host.Outcome State Fault Refusal :=
  s.does fun d => d.inService fun d => d.queryFloesRow ring.val idx

/-- QUERY_USAGE (R560). -/
def execQueryUsage (ring : Fin 1024) (idx : BitVec 32) (s : State) : Host.Outcome State Fault Refusal :=
  s.does fun d => d.inService fun d => d.queryUsageRow ring.val idx

/-- MSG (R122). -/
def execMsg (ring : Fin 1024) (idx : BitVec 32) (s : State) : Host.Outcome State Fault Refusal :=
  s.does fun d => d.inService fun d => d.msgRow ring.val idx

/-- FREEZE (R108). -/
def execFreeze (ring : Fin 1024) (idx : BitVec 32) (s : State) : Host.Outcome State Fault Refusal :=
  s.does fun d => d.inService fun d => d.freezeRow ring.val idx

/-- THAW (R383). -/
def execThaw (ring : Fin 1024) (idx : BitVec 32) (s : State) : Host.Outcome State Fault Refusal :=
  s.does fun d => d.inService fun d => d.thawRow ring.val idx

/-- RING_CREATE (R109). -/
def execRingCreate (ring : Fin 1024) (idx : BitVec 32) (s : State) : Host.Outcome State Fault Refusal :=
  s.does fun d => d.inService fun d => d.ringCreateRow ring.val idx

/-- RING_DESTROY (R109). -/
def execRingDestroy (ring : Fin 1024) (idx : BitVec 32) (s : State) : Host.Outcome State Fault Refusal :=
  s.does fun d => d.inService fun d => d.ringDestroyRow ring.val idx

/-- FIELD_CFG_DRIFTS_ASSIGN (R454). -/
def execFieldCfgDriftsAssign (ring : Fin 1024) (idx : BitVec 32) (s : State) : Host.Outcome State Fault Refusal :=
  s.does fun d => d.inService fun d => d.fieldCfg ring.val idx 0 true

/-- FIELD_CFG_DRIFTS_RELEASE (R454). -/
def execFieldCfgDriftsRelease (ring : Fin 1024) (idx : BitVec 32) (s : State) : Host.Outcome State Fault Refusal :=
  s.does fun d => d.inService fun d => d.fieldCfg ring.val idx 0 false

/-- FIELD_CFG_LEASE (R454). -/
def execFieldCfgLease (ring : Fin 1024) (idx : BitVec 32) (s : State) : Host.Outcome State Fault Refusal :=
  s.does fun d => d.inService fun d => d.fieldCfg ring.val idx 1 true

/-- FIELD_CFG_SEMS_GRANT (R454). -/
def execFieldCfgSemsGrant (ring : Fin 1024) (idx : BitVec 32) (s : State) : Host.Outcome State Fault Refusal :=
  s.does fun d => d.inService fun d => d.fieldCfg ring.val idx 2 true

/-- FIELD_CFG_SEMS_WITHDRAW (R454). -/
def execFieldCfgSemsWithdraw (ring : Fin 1024) (idx : BitVec 32) (s : State) : Host.Outcome State Fault Refusal :=
  s.does fun d => d.inService fun d => d.fieldCfg ring.val idx 2 false

/-- FIELD_CFG_RINGS_STOP (R454). -/
def execFieldCfgRingsStop (ring : Fin 1024) (idx : BitVec 32) (s : State) : Host.Outcome State Fault Refusal :=
  s.does fun d => d.inService fun d => d.fieldCfg ring.val idx 3 true

/-- FIELD_CFG_RINGS_START (R454). -/
def execFieldCfgRingsStart (ring : Fin 1024) (idx : BitVec 32) (s : State) : Host.Outcome State Fault Refusal :=
  s.does fun d => d.inService fun d => d.fieldCfg ring.val idx 3 false

/-- FIELD_CFG_SWITCH_DONE (R455). -/
def execFieldCfgSwitchDone (ring : Fin 1024) (idx : BitVec 32) (s : State) : Host.Outcome State Fault Refusal :=
  s.does fun d => d.inService fun d => d.cfgDone ring.val idx

/-- WARM_RESET (R110). -/
def execWarmReset (ring : Fin 1024) (idx : BitVec 32) (s : State) : Host.Outcome State Fault Refusal :=
  s.does fun d => d.inService fun d => d.warmReset ring.val idx

/-- COMMAND_END (R114). -/
def execCommandEnd (ring : Fin 1024) (idx : BitVec 32) (s : State) : Host.Outcome State Fault Refusal :=
  s.does fun d => d.inService fun d => d.commandEnd ring.val idx

/-- HELD_RECORD_WRITE (R113). -/
def execHeldRecordWrite (ring : Fin 1024) (s : State) : Host.Outcome State Fault Refusal :=
  s.does fun d => d.inService fun d => d.heldRecord ring.val

/-- COMMAND_TIMEOUT (R117). -/
def execCommandTimeout (ring : Fin 1024) (idx : BitVec 32) (s : State) : Host.Outcome State Fault Refusal :=
  s.does fun d => d.inService fun d => d.commandTimeout ring.val idx

end Sys2Proof.Machine
end

