-- ==== Sys2Proof/Machine/ExecDebug.lean ====
section
/-! DEFINITION. The meanings of the rows of the test access port (chapters 13 and 16). -/

namespace Sys2Proof.Machine

/-- DBG_CHAL (R458). -/
def execDbgChal (nonce : BitVec 256) (s : State) : Host.Outcome State Fault Refusal :=
  s.does fun d => d.tapChal nonce

/-- DBG_UNLOCK (R458). -/
def execDbgUnlock (resp : BitVec 776) (s : State) : Host.Outcome State Fault Refusal :=
  s.does fun d => d.tapUnlock resp

/-- DBG_CLOSE (R457). -/
def execDbgClose (s : State) : Host.Outcome State Fault Refusal :=
  s.does fun d => d.tapCloseRow

/-- DBG_CTRL_CLOSE (R457). -/
def execDbgCtrlClose (ag : Agent) (s : State) : Host.Outcome State Fault Refusal :=
  s.does fun d => d.agentWrite ag rDbgCtrl 0x80000000

/-- IDCODE (R553). -/
def execIdcode (s : State) : Host.Outcome State Fault Refusal :=
  s.does fun d => d.tapIdcode

/-- SAMPLE_PRELOAD (R554). -/
def execSamplePreload (levels : BitVec 2671) (shifted : BitVec 5342) (s : State) : Host.Outcome State Fault Refusal :=
  s.does fun d => d.tapBoundary 0x02 levels shifted

/-- EXTEST (R554). -/
def execExtest (levels : BitVec 2671) (shifted : BitVec 5342) (s : State) : Host.Outcome State Fault Refusal :=
  s.does fun d => d.tapBoundary 0x03 levels shifted

/-- CS_ACCESS (R555). -/
def execCsAccess (shifted : BitVec 64) (s : State) : Host.Outcome State Fault Refusal :=
  s.does fun d => d.tapCs shifted

/-- STACK_SEL (R556). -/
def execStackSel (dies : BitVec 17) (s : State) : Host.Outcome State Fault Refusal :=
  s.does fun d => d.tapStack dies

/-- WRAP_IR (R556). -/
def execWrapIr (codes : List (BitVec 8)) (s : State) : Host.Outcome State Fault Refusal :=
  s.does fun d => d.tapWrapIr codes

/-- WRAP_DR (R552). -/
def execWrapDr (cells : List Bool) (s : State) : Host.Outcome State Fault Refusal :=
  s.does fun d => d.tapWrapDr cells

/-- BYPASS (R552). -/
def execBypass (code : BitVec 8) (tdi : Bool) (s : State) : Host.Outcome State Fault Refusal :=
  s.does fun d => d.tapBypassRow code.toNat tdi

/-- TEST_LOGIC_RESET (R552). -/
def execTestLogicReset (s : State) : Host.Outcome State Fault Refusal :=
  s.does fun d => d.tapReset

end Sys2Proof.Machine
end

