-- ==== Sys2Proof/Machine/ExecEngine.lean ====
section
/-! DEFINITION. The meanings of the rows of the matrix, load, store and sync slots (chapters 8, 9 and 10). -/

namespace Sys2Proof.Machine

/-- MMA (R291). -/
def execMma (slot : Fin 136) (s : State) : Host.Outcome State Fault Refusal :=
  s.does fun d => d.inService fun d => d.engineRow slot.val 2 0x01

/-- DRAIN (R289). -/
def execDrain (slot : Fin 136) (s : State) : Host.Outcome State Fault Refusal :=
  s.does fun d => d.inService fun d => d.engineRow slot.val 2 0x02

/-- ACCLD (R289). -/
def execAccld (slot : Fin 136) (s : State) : Host.Outcome State Fault Refusal :=
  s.does fun d => d.inService fun d => d.engineRow slot.val 2 0x03

/-- ACCZ (R289). -/
def execAccz (slot : Fin 136) (s : State) : Host.Outcome State Fault Refusal :=
  s.does fun d => d.inService fun d => d.engineRow slot.val 2 0x04

/-- LDT (R295). -/
def execLdt (slot : Fin 136) (s : State) : Host.Outcome State Fault Refusal :=
  s.does fun d => d.inService fun d => d.engineRow slot.val 3 0x01

/-- LDG (R323). -/
def execLdg (slot : Fin 136) (s : State) : Host.Outcome State Fault Refusal :=
  s.does fun d => d.inService fun d => d.engineRow slot.val 3 0x02

/-- LDL (R295). -/
def execLdl (slot : Fin 136) (s : State) : Host.Outcome State Fault Refusal :=
  s.does fun d => d.inService fun d => d.engineRow slot.val 3 0x03

/-- LDQ (R295). -/
def execLdq (slot : Fin 136) (s : State) : Host.Outcome State Fault Refusal :=
  s.does fun d => d.inService fun d => d.engineRow slot.val 3 0x04

/-- STT (R297). -/
def execStt (slot : Fin 136) (s : State) : Host.Outcome State Fault Refusal :=
  s.does fun d => d.inService fun d => d.engineRow slot.val 4 0x01

/-- STS (R324). -/
def execSts (slot : Fin 136) (s : State) : Host.Outcome State Fault Refusal :=
  s.does fun d => d.inService fun d => d.engineRow slot.val 4 0x02

/-- STL (R297). -/
def execStl (slot : Fin 136) (s : State) : Host.Outcome State Fault Refusal :=
  s.does fun d => d.inService fun d => d.engineRow slot.val 4 0x03

/-- NBOP (R298). -/
def execNbop (slot : Fin 136) (s : State) : Host.Outcome State Fault Refusal :=
  s.does fun d => d.inService fun d => d.engineRow slot.val 4 0x04

/-- SIGR (R300). -/
def execSigr (slot : Fin 136) (s : State) : Host.Outcome State Fault Refusal :=
  s.does fun d => d.inService fun d => d.syncRow slot.val 0x01

/-- TLSET (R300). -/
def execTlset (slot : Fin 136) (s : State) : Host.Outcome State Fault Refusal :=
  s.does fun d => d.inService fun d => d.syncRow slot.val 0x02

/-- TADD (R300). -/
def execTadd (slot : Fin 136) (s : State) : Host.Outcome State Fault Refusal :=
  s.does fun d => d.inService fun d => d.syncRow slot.val 0x03

/-- SEMADD (R300). -/
def execSemadd (slot : Fin 136) (s : State) : Host.Outcome State Fault Refusal :=
  s.does fun d => d.inService fun d => d.syncRow slot.val 0x04

/-- SEMINC (R300). -/
def execSeminc (slot : Fin 136) (s : State) : Host.Outcome State Fault Refusal :=
  s.does fun d => d.inService fun d => d.syncRow slot.val 0x05

/-- SEMSET (R300). -/
def execSemset (slot : Fin 136) (s : State) : Host.Outcome State Fault Refusal :=
  s.does fun d => d.inService fun d => d.syncRow slot.val 0x06

/-- SEMWAIT (R300). -/
def execSemwait (slot : Fin 136) (s : State) : Host.Outcome State Fault Refusal :=
  s.does fun d => d.inService fun d => d.syncRow slot.val 0x07

/-- SEMTAKE (R342). -/
def execSemtake (slot : Fin 136) (s : State) : Host.Outcome State Fault Refusal :=
  s.does fun d => d.inService fun d => d.syncRow slot.val 0x08

/-- SEND (R300). -/
def execSend (slot : Fin 136) (s : State) : Host.Outcome State Fault Refusal :=
  s.does fun d => d.inService fun d => d.syncRow slot.val 0x09

/-- RECV (R300). -/
def execRecv (slot : Fin 136) (s : State) : Host.Outcome State Fault Refusal :=
  s.does fun d => d.inService fun d => d.syncRow slot.val 0x0A

/-- COMMIT (R353). -/
def execCommit (slot : Fin 136) (s : State) : Host.Outcome State Fault Refusal :=
  s.does fun d => d.inService fun d => d.syncRow slot.val 0x0B

end Sys2Proof.Machine
end

