-- ==== Sys2Proof/Machine/ExecErrors.lean ====
section
/-! DEFINITION. The meanings of the rows of the moraine (chapter 11). -/

namespace Sys2Proof.Machine

/-- COALESCE_WINDOW_CLOSE (R376). -/
def execCoalesceWindowClose (code : BitVec 16) (ukind : BitVec 8) (unit : BitVec 16) (s : State) : Host.Outcome State Fault Refusal :=
  s.does fun d => d.inService fun d => d.windowClose code ukind unit

/-- MORAINE_RING_COPY (R377). -/
def execMoraineRingCopy (s : State) : Host.Outcome State Fault Refusal :=
  s.does fun d => d.inService fun d => d.ringCopy

/-- MOR_HEAD_WRITE (R377). -/
def execMorHeadWrite (ag : Agent) (val : Reg) (s : State) : Host.Outcome State Fault Refusal :=
  s.does fun d => d.agentWrite ag rMorHead val

/-- MOR_FIRST_FATAL_CLEAR (R392). -/
def execMorFirstFatalClear (ag : Agent) (s : State) : Host.Outcome State Fault Refusal :=
  s.does fun d => d.agentWrite ag rMorFatal 0xFFFFFFFF

end Sys2Proof.Machine
end

