-- ==== Sys2Proof/Machine/ExecFloe.lean ====
section
/-! DEFINITION. The meanings of the rows of the floe front end, its freezes and its descriptor table (chapters 7, 9, 10 and 11). -/

namespace Sys2Proof.Machine

/-- DISPATCH_CYCLE (R247). -/
def execDispatchCycle (slot : Fin 136) (s : State) : Host.Outcome State Fault Refusal :=
  s.does fun d => d.inService fun d => d.dispatchCycle slot.val

/-- ICACHE_LINE_FILL (R253). -/
def execIcacheLineFill (slot : Fin 136) (line : BitVec 29) (s : State) : Host.Outcome State Fault Refusal :=
  s.does fun d => d.inService fun d => d.icFill slot.val line

/-- WAIT_RELEASE (R248). -/
def execWaitRelease (slot : Fin 136) (s : State) : Host.Outcome State Fault Refusal :=
  s.does fun d => d.inService fun d => d.waitRelease slot.val

/-- ENGINE_ISSUE (R249). -/
def execEngineIssue (slot : Fin 136) (engine : Fin 6) (s : State) : Host.Outcome State Fault Refusal :=
  s.does fun d => d.inService fun d => d.engineIssue slot.val engine.val

/-- ENGINE_COMMAND_COMPLETE (R250). -/
def execEngineCommandComplete (slot : Fin 136) (engine : Fin 6) (s : State) : Host.Outcome State Fault Refusal :=
  s.does fun d => d.inService fun d => d.engineComplete slot.val engine.val

/-- HEADER_SIGNAL (R243). -/
def execHeaderSignal (slot : Fin 136) (bundle : Nat) (s : State) : Host.Outcome State Fault Refusal :=
  s.does fun d => d.inService fun d => d.headerSignal slot.val bundle

/-- BUNDLE_RETIRE (R251). -/
def execBundleRetire (slot : Fin 136) (s : State) : Host.Outcome State Fault Refusal :=
  s.does fun d => d.inService fun d => d.bundleRetire slot.val

/-- FLOE_HALTED (R263). -/
def execFloeHalted (slot : Fin 136) (s : State) : Host.Outcome State Fault Refusal :=
  s.does fun d => d.inService fun d => d.floeHalted slot.val

/-- COMMIT_MARK_WRITE (R354). -/
def execCommitMarkWrite (slot : Fin 136) (s : State) : Host.Outcome State Fault Refusal :=
  s.does fun d => d.inService fun d => d.commitMark slot.val

/-- HUB_CYCLE (R341). -/
def execHubCycle (drift : Fin 32) (s : State) : Host.Outcome State Fault Refusal :=
  s.does fun d => d.inService fun d => d.hubCycle drift.val

/-- SYNC_WATCHDOG_EXPIRY (R345). -/
def execSyncWatchdogExpiry (slot : Fin 136) (s : State) : Host.Outcome State Fault Refusal :=
  s.does fun d => d.inService fun d => d.watchdog slot.val

/-- DT_CREATE (R311). -/
def execDtCreate (ag : Agent) (slot : Fin 136) (entry : Fin 256) (s : State) : Host.Outcome State Fault Refusal :=
  s.does fun d => d.agentWrite ag (rDtCmd slot.val) (dtWord 0 entry.val)

/-- DT_INVALIDATE (R311). -/
def execDtInvalidate (ag : Agent) (slot : Fin 136) (entry : Fin 256) (s : State) : Host.Outcome State Fault Refusal :=
  s.does fun d => d.agentWrite ag (rDtCmd slot.val) (dtWord 1 entry.val)

/-- DT_INVALIDATE_ALL (R311). -/
def execDtInvalidateAll (ag : Agent) (slot : Fin 136) (s : State) : Host.Outcome State Fault Refusal :=
  s.does fun d => d.agentWrite ag (rDtCmd slot.val) (dtWord 2 0)

/-- DT_READ_BACK (R311). -/
def execDtReadBack (ag : Agent) (slot : Fin 136) (entry : Fin 256) (s : State) : Host.Outcome State Fault Refusal :=
  s.does fun d => d.agentWrite ag (rDtCmd slot.val) (dtWord 3 entry.val)

/-- FLOE_FAULT (R379). -/
def execFloeFault (slot : Fin 136) (cause : Fin 16) (s : State) : Host.Outcome State Fault Refusal :=
  s.does fun d => d.inService fun d => d.floeFault slot.val cause.val

/-- FLOE_FREEZE_START (R380). -/
def execFloeFreezeStart (slot : Fin 136) (s : State) : Host.Outcome State Fault Refusal :=
  s.does fun d => d.inService fun d => d.freezeDiscard slot.val

/-- FLOE_FENCED (R380). -/
def execFloeFenced (slot : Fin 136) (s : State) : Host.Outcome State Fault Refusal :=
  s.does fun d => d.inService fun d => d.floeFenced slot.val

end Sys2Proof.Machine
end

