-- ==== Sys2Proof/Machine/ExecGroup.lean ====
section
/-! DEFINITION. The meanings of the rows of the group, twin and collective commands (chapter 12). -/

namespace Sys2Proof.Machine

/-- GROUP_FOUND (R409). -/
def execGroupFound (ring : Fin 1024) (idx : BitVec 32) (s : State) : Host.Outcome State Fault Refusal :=
  s.does fun d => d.inService fun d => d.groupFoundRow ring.val idx

/-- GROUP_JOIN (R409). -/
def execGroupJoin (ring : Fin 1024) (idx : BitVec 32) (s : State) : Host.Outcome State Fault Refusal :=
  s.does fun d => d.inService fun d => d.groupJoinRow ring.val idx

/-- GROUP_LEAVE (R413). -/
def execGroupLeave (ring : Fin 1024) (idx : BitVec 32) (s : State) : Host.Outcome State Fault Refusal :=
  s.does fun d => d.inService fun d => d.groupLeaveRow ring.val idx

/-- LEAVE_TIMEOUT (R413). -/
def execLeaveTimeout (ring : Fin 1024) (idx : BitVec 32) (s : State) : Host.Outcome State Fault Refusal :=
  s.does fun d => d.inService fun d => d.leaveTimeoutRow ring.val idx

/-- TWIN_PAIR (R428). -/
def execTwinPair (ring : Fin 1024) (idx : BitVec 32) (s : State) : Host.Outcome State Fault Refusal :=
  s.does fun d => d.inService fun d => d.twinPairRow ring.val idx

/-- TWIN_UNPAIR (R428). -/
def execTwinUnpair (ring : Fin 1024) (idx : BitVec 32) (s : State) : Host.Outcome State Fault Refusal :=
  s.does fun d => d.inService fun d => d.twinUnpairRow ring.val idx

/-- TWIN_RESYNC (R434). -/
def execTwinResync (ring : Fin 1024) (idx : BitVec 32) (s : State) : Host.Outcome State Fault Refusal :=
  s.does fun d => d.inService fun d => d.twinResyncRow ring.val idx

/-- COLL_BARRIER (R421). -/
def execCollBarrier (ring : Fin 1024) (idx : BitVec 32) (s : State) : Host.Outcome State Fault Refusal :=
  s.does fun d => d.inService fun d => d.collRow ring.val idx 0

/-- COLL_BROADCAST (R421). -/
def execCollBroadcast (ring : Fin 1024) (idx : BitVec 32) (s : State) : Host.Outcome State Fault Refusal :=
  s.does fun d => d.inService fun d => d.collRow ring.val idx 1

/-- COLL_ALL_REDUCE (R422). -/
def execCollAllReduce (ring : Fin 1024) (idx : BitVec 32) (s : State) : Host.Outcome State Fault Refusal :=
  s.does fun d => d.inService fun d => d.collRow ring.val idx 2

/-- COLL_REDUCE_SCATTER (R421). -/
def execCollReduceScatter (ring : Fin 1024) (idx : BitVec 32) (s : State) : Host.Outcome State Fault Refusal :=
  s.does fun d => d.inService fun d => d.collRow ring.val idx 3

/-- COLL_ALL_GATHER (R421). -/
def execCollAllGather (ring : Fin 1024) (idx : BitVec 32) (s : State) : Host.Outcome State Fault Refusal :=
  s.does fun d => d.inService fun d => d.collRow ring.val idx 4

/-- GROUP_QUERY (R435). -/
def execGroupQuery (ring : Fin 1024) (idx : BitVec 32) (s : State) : Host.Outcome State Fault Refusal :=
  s.does fun d => d.inService fun d => d.groupQueryRow ring.val idx

end Sys2Proof.Machine
end

