-- ==== Sys2Proof/Machine/ExecHost.lean ====
section
/-! DEFINITION. The meanings of the rows of the host port (chapter 2). -/

namespace Sys2Proof.Machine

/-- HOST_RD (R84). -/
def execHostRd (ch : Fin 32) (body : BitVec 64) (crc : BitVec 16) (s : State) : Host.Outcome State Fault Refusal :=
  s.does fun d => d.frameRow [1] ch.val { body := body, crc := crc, mask := 0, maskCrc := 0, beats := [] }

/-- HOST_WR (R82). -/
def execHostWr (ch : Fin 32) (body : BitVec 64) (crc : BitVec 16) (beats : List HostBeat) (s : State) : Host.Outcome State Fault Refusal :=
  s.does fun d => d.frameRow [2] ch.val { body := body, crc := crc, mask := 0, maskCrc := 0, beats := beats }

/-- HOST_WRM (R83). -/
def execHostWrm (ch : Fin 32) (body : BitVec 64) (crc : BitVec 16) (mask : BitVec 64) (maskCrc : BitVec 16) (beats : List HostBeat) (s : State) : Host.Outcome State Fault Refusal :=
  s.does fun d => d.frameRow [3] ch.val { body := body, crc := crc, mask := mask, maskCrc := maskCrc, beats := beats }

/-- HOST_IDLE_FRAME (R59). -/
def execHostIdleFrame (ch : Fin 32) (body : BitVec 64) (crc : BitVec 16) (s : State) : Host.Outcome State Fault Refusal :=
  s.does fun d => d.frameRow [0] ch.val { body := body, crc := crc, mask := 0, maskCrc := 0, beats := [] }

/-- HOST_LINK_FRAME (R70). -/
def execHostLinkFrame (ch : Fin 32) (body : BitVec 64) (crc : BitVec 16) (s : State) : Host.Outcome State Fault Refusal :=
  s.does fun d => d.frameRow [14] ch.val { body := body, crc := crc, mask := 0, maskCrc := 0, beats := [] }

/-- HOST_TRAIN_FRAME (R561). -/
def execHostTrainFrame (ch : Fin 32) (body : BitVec 64) (crc : BitVec 16) (s : State) : Host.Outcome State Fault Refusal :=
  s.does fun d => d.frameRow [15] ch.val { body := body, crc := crc, mask := 0, maskCrc := 0, beats := [] }

/-- HOST_RESERVED_OP_FRAME (R56). -/
def execHostReservedOpFrame (ch : Fin 32) (body : BitVec 64) (crc : BitVec 16) (s : State) : Host.Outcome State Fault Refusal :=
  s.does fun d => d.frameRow [4, 5, 6, 7, 8, 9, 10, 11, 12, 13] ch.val { body := body, crc := crc, mask := 0, maskCrc := 0, beats := [] }

/-- CORRUPT_FRAME (R68). -/
def execCorruptFrame (ch : Fin 32) (cause : Fin 3) (s : State) : Host.Outcome State Fault Refusal :=
  s.does fun d => d.inService fun d => d.corruptFrameRow ch.val cause.val

/-- HOST_WRITE_BEAT (R68). -/
def execHostWriteBeat (ch : Fin 32) (beat : HostBeat) (s : State) : Host.Outcome State Fault Refusal :=
  s.does fun d => d.beatRow ch.val beat

/-- HOST_ACK_TIMER (R68). -/
def execHostAckTimer (ch : Fin 32) (s : State) : Host.Outcome State Fault Refusal :=
  s.does fun d => d.inService fun d => d.hostAckRow ch.val

/-- HOST_READ_DATA_RETURN (R61). -/
def execHostReadDataReturn (ch : Fin 32) (s : State) : Host.Outcome State Fault Refusal :=
  s.does fun d => d.inService fun d => d.readReturn ch.val

/-- HOST_CREDIT_RETURN (R73). -/
def execHostCreditReturn (ch : Fin 32) (s : State) : Host.Outcome State Fault Refusal :=
  s.does fun d => d.inService fun d => d.hostCreditRow ch.val

/-- HOST_LINK_FAIL (R72). -/
def execHostLinkFail (ch : Fin 32) (s : State) : Host.Outcome State Fault Refusal :=
  s.does fun d => d.inService fun d => d.hostFailRow ch.val

/-- HOST_TRAINING_ATTEMPT (R75). -/
def execHostTrainingAttempt (ch : Fin 32) (laneOk : BitVec 68) (completed : Bool) (rack : BitVec 8) (s : State) : Host.Outcome State Fault Refusal :=
  s.does fun d => d.inService fun d => (d.trainAttempt ch.val laneOk completed rack).sixCheck ch.val

/-- HP_CTRL_RETRAIN (R76). -/
def execHpCtrlRetrain (ag : Agent) (ch : Fin 32) (s : State) : Host.Outcome State Fault Refusal :=
  s.does fun d => d.agentWrite ag (rHpCtrl ch.val) 0x80000000

/-- HP_CTRL_REVIVE (R86). -/
def execHpCtrlRevive (ag : Agent) (ch : Fin 32) (s : State) : Host.Outcome State Fault Refusal :=
  s.does fun d => d.agentWrite ag (rHpCtrl ch.val) 0x40000000

end Sys2Proof.Machine
end

