-- ==== Sys2Proof/Machine/ExecLinks.lean ====
section
/-! DEFINITION. The meanings of the rows of packets, links and the group (chapter 12). -/

namespace Sys2Proof.Machine

/-- PEER_RD (R414). -/
def execPeerRd (link : Fin 5) (cw : CodeWord) (hdr : BitVec 256) (s : State) : Host.Outcome State Fault Refusal :=
  s.does fun d => d.packetRow link.val cw hdr 0 (isType 1)

/-- PEER_WR (R414). -/
def execPeerWr (link : Fin 5) (cw : CodeWord) (hdr : BitVec 256) (data : Line) (s : State) : Host.Outcome State Fault Refusal :=
  s.does fun d => d.packetRow link.val cw hdr data (fun p => isType 2 p && link != 4)

/-- PEER_WRM (R414). -/
def execPeerWrm (link : Fin 5) (cw : CodeWord) (hdr : BitVec 256) (data : Line) (s : State) : Host.Outcome State Fault Refusal :=
  s.does fun d => d.packetRow link.val cw hdr data (fun p => isType 3 p && link != 4)

/-- MIRROR_STREAM_ITEM (R432). -/
def execMirrorStreamItem (link : Fin 5) (cw : CodeWord) (hdr : BitVec 256) (data : Line) (s : State) : Host.Outcome State Fault Refusal :=
  s.does fun d => d.packetRow link.val cw hdr data (fun p => (isType 2 p || isType 3 p || isType 4 p) && (link == 4 || isType 4 p))

/-- RSP_DATA (R415). -/
def execRspData (link : Fin 5) (cw : CodeWord) (hdr : BitVec 256) (data : Line) (s : State) : Host.Outcome State Fault Refusal :=
  s.does fun d => d.packetRow link.val cw hdr data (isType 5)

/-- RSP_STATUS (R415). -/
def execRspStatus (link : Fin 5) (cw : CodeWord) (hdr : BitVec 256) (s : State) : Host.Outcome State Fault Refusal :=
  s.does fun d => d.packetRow link.val cw hdr 0 (isType 6)

/-- REMOTE_TIMEOUT (R415). -/
def execRemoteTimeout (tag : BitVec 12) (s : State) : Host.Outcome State Fault Refusal :=
  s.does fun d => d.inService fun d => d.remoteTimeoutRow tag

/-- COLL_CONTRIBUTION (R423). -/
def execCollContribution (link : Fin 5) (cw : CodeWord) (hdr : BitVec 256) (data : Line) (s : State) : Host.Outcome State Fault Refusal :=
  s.does fun d => d.packetRow link.val cw hdr data (isType 8)

/-- MGMT_HELLO (R407). -/
def execMgmtHello (link : Fin 5) (cw : CodeWord) (hdr : BitVec 256) (data : Line) (s : State) : Host.Outcome State Fault Refusal :=
  s.does fun d => d.helloRow link.val cw hdr data

/-- MGMT_JOIN (R409). -/
def execMgmtJoin (link : Fin 5) (cw : CodeWord) (hdr : BitVec 256) (data : Line) (s : State) : Host.Outcome State Fault Refusal :=
  s.does fun d => d.packetRow link.val cw hdr data (isMgmt 0x02)

/-- MGMT_ADMIT (R409). -/
def execMgmtAdmit (link : Fin 5) (cw : CodeWord) (hdr : BitVec 256) (data : Line) (s : State) : Host.Outcome State Fault Refusal :=
  s.does fun d => d.packetRow link.val cw hdr data (isMgmt 0x03)

/-- MGMT_REFUSE (R409). -/
def execMgmtRefuse (link : Fin 5) (cw : CodeWord) (hdr : BitVec 256) (data : Line) (s : State) : Host.Outcome State Fault Refusal :=
  s.does fun d => d.packetRow link.val cw hdr data (isMgmt 0x04)

/-- MGMT_TWIN_NOTICE (R410). -/
def execMgmtTwinNotice (link : Fin 5) (cw : CodeWord) (hdr : BitVec 256) (data : Line) (s : State) : Host.Outcome State Fault Refusal :=
  s.does fun d => d.packetRow link.val cw hdr data (isMgmt 0x05)

/-- MGMT_MEMBERS (R411). -/
def execMgmtMembers (link : Fin 5) (cw : CodeWord) (hdr : BitVec 256) (data : Line) (s : State) : Host.Outcome State Fault Refusal :=
  s.does fun d => d.packetRow link.val cw hdr data (isMgmt 0x06)

/-- MGMT_LEAVE (R413). -/
def execMgmtLeave (link : Fin 5) (cw : CodeWord) (hdr : BitVec 256) (data : Line) (s : State) : Host.Outcome State Fault Refusal :=
  s.does fun d => d.packetRow link.val cw hdr data (isMgmt 0x07)

/-- MGMT_TIME (R419). -/
def execMgmtTime (link : Fin 5) (cw : CodeWord) (hdr : BitVec 256) (data : Line) (s : State) : Host.Outcome State Fault Refusal :=
  s.does fun d => d.packetRow link.val cw hdr data (isMgmt 0x08)

/-- MGMT_REALIGN (R420). -/
def execMgmtRealign (link : Fin 5) (cw : CodeWord) (hdr : BitVec 256) (data : Line) (s : State) : Host.Outcome State Fault Refusal :=
  s.does fun d => d.packetRow link.val cw hdr data (isMgmt 0x09)

/-- MGMT_ALIGNED (R420). -/
def execMgmtAligned (link : Fin 5) (cw : CodeWord) (hdr : BitVec 256) (data : Line) (s : State) : Host.Outcome State Fault Refusal :=
  s.does fun d => d.packetRow link.val cw hdr data (isMgmt 0x0A)

/-- MGMT_STAGED (R424). -/
def execMgmtStaged (link : Fin 5) (cw : CodeWord) (hdr : BitVec 256) (data : Line) (s : State) : Host.Outcome State Fault Refusal :=
  s.does fun d => d.packetRow link.val cw hdr data (isMgmt 0x0B)

/-- MGMT_COMMIT (R424). -/
def execMgmtCommit (link : Fin 5) (cw : CodeWord) (hdr : BitVec 256) (data : Line) (s : State) : Host.Outcome State Fault Refusal :=
  s.does fun d => d.packetRow link.val cw hdr data (isMgmt 0x0C)

/-- MGMT_ABORT (R425). -/
def execMgmtAbort (link : Fin 5) (cw : CodeWord) (hdr : BitVec 256) (data : Line) (s : State) : Host.Outcome State Fault Refusal :=
  s.does fun d => d.packetRow link.val cw hdr data (isMgmt 0x0D)

/-- MGMT_FENCE (R426). -/
def execMgmtFence (link : Fin 5) (cw : CodeWord) (hdr : BitVec 256) (data : Line) (s : State) : Host.Outcome State Fault Refusal :=
  s.does fun d => d.packetRow link.val cw hdr data (isMgmt 0x0E)

/-- MGMT_RESET_REQ (R466). -/
def execMgmtResetReq (link : Fin 5) (cw : CodeWord) (hdr : BitVec 256) (data : Line) (s : State) : Host.Outcome State Fault Refusal :=
  s.does fun d => d.packetRow link.val cw hdr data (isMgmt 0x0F)

/-- MGMT_ALIVE (R419). -/
def execMgmtAlive (link : Fin 5) (cw : CodeWord) (hdr : BitVec 256) (data : Line) (s : State) : Host.Outcome State Fault Refusal :=
  s.does fun d => d.packetRow link.val cw hdr data (isMgmt 0x10)

/-- LINK_PACKET (R404). -/
def execLinkPacket (link : Fin 5) (cw : CodeWord) (hdr : BitVec 256) (s : State) : Host.Outcome State Fault Refusal :=
  s.does fun d => d.linkPacketRow link.val cw hdr

/-- PEER_CORRUPT_PACKET (R404). -/
def execPeerCorruptPacket (link : Fin 5) (cw : CodeWord) (cause : Fin 3) (s : State) : Host.Outcome State Fault Refusal :=
  s.does fun d => d.corruptPacketRow link.val cw cause.val

/-- PEER_ACK_TIMER (R404). -/
def execPeerAckTimer (link : Fin 5) (s : State) : Host.Outcome State Fault Refusal :=
  s.does fun d => d.ackTimerRow link.val

/-- PEER_RESEND_TIMEOUT (R404). -/
def execPeerResendTimeout (link : Fin 5) (s : State) : Host.Outcome State Fault Refusal :=
  s.does fun d => d.resendRow link.val

/-- PEER_LINK_FAIL (R406). -/
def execPeerLinkFail (link : Fin 5) (s : State) : Host.Outcome State Fault Refusal :=
  s.does fun d => d.linkFailRow link.val

/-- LINK_TRAINING_ATTEMPT (R407). -/
def execLinkTrainingAttempt (link : Fin 5) (ok : Bool) (laneOk : BitVec 8) (reversed : Bool) (polarity : BitVec 8) (s : State) : Host.Outcome State Fault Refusal :=
  s.does fun d => d.trainingRow link.val ok laneOk reversed polarity

/-- LNK_CTRL_RETRAIN (R407). -/
def execLnkCtrlRetrain (ag : Agent) (link : Fin 5) (s : State) : Host.Outcome State Fault Refusal :=
  s.does fun d => d.agentWrite ag (rLnkCtrl link.val) (d.reg (rLnkCtrl link.val) ||| 0x80000000)

/-- LNK_CTRL_REVIVE (R407). -/
def execLnkCtrlRevive (ag : Agent) (link : Fin 5) (s : State) : Host.Outcome State Fault Refusal :=
  s.does fun d => d.agentWrite ag (rLnkCtrl link.val) (d.reg (rLnkCtrl link.val) ||| 0x40000000)

/-- TIME_ALIGNMENT (R419). -/
def execTimeAlignment (s : State) : Host.Outcome State Fault Refusal :=
  s.does fun d => d.alignmentRow

/-- REALIGN_REPEAT (R420). -/
def execRealignRepeat (s : State) : Host.Outcome State Fault Refusal :=
  s.does fun d => d.realignRow

/-- MEMBER_ABSENT (R412). -/
def execMemberAbsent (dev : BitVec 6) (s : State) : Host.Outcome State Fault Refusal :=
  s.does fun d => d.memberAbsentRow dev.toNat

/-- FOUNDER_TAKEN (R412). -/
def execFounderTaken (reach : BitVec 64) (s : State) : Host.Outcome State Fault Refusal :=
  s.does fun d => d.founderTakenRow reach

/-- TWIN_LOSS (R433). -/
def execTwinLoss (s : State) : Host.Outcome State Fault Refusal :=
  s.does fun d => d.twinLossRow

/-- RELAY_WINDOW_ACCESS (R416). -/
def execRelayWindowAccess (ag : Agent) (window : Fin 16) (off : BitVec 11) (op : BitVec 2) (cls : BitVec 2) (tag : BitVec 9) (data : Line) (mask : BitVec 64) (s : State) : Host.Outcome State Fault Refusal :=
  s.does fun d => d.relayRow ag window.val off.toNat op.toNat cls tag data mask

end Sys2Proof.Machine
end

