-- ==== Sys2Proof/Machine/ExecReset.lean ====
section
/-! DEFINITION. The meanings of the rows of reset, start-up, flash and the sideband (chapter 14). -/

namespace Sys2Proof.Machine

/-- POWER_ON_RESET (R464). -/
def execPowerOnReset (s : State) : Host.Outcome State Fault Refusal :=
  s.does fun d => d.powerOn

/-- RESET_PIN_ASSERT (R467). -/
def execResetPinAssert (s : State) : Host.Outcome State Fault Refusal :=
  s.does fun d => d.resetPinAssert

/-- RESET_PIN_RELEASE (R467). -/
def execResetPinRelease (lowMs : BitVec 16) (s : State) : Host.Outcome State Fault Refusal :=
  s.does fun d => d.resetPinRelease lowMs.toNat

/-- RESET_PIN_STUCK (R468). -/
def execResetPinStuck (s : State) : Host.Outcome State Fault Refusal :=
  s.does fun d => d.resetPinStuck

/-- SIDEBAND_RESET (R502). -/
def execSidebandReset (key : BitVec 16) (s : State) : Host.Outcome State Fault Refusal :=
  s.does fun d => d.sidebandReset key.toNat

/-- RST_CTRL_CLEAR (R502). -/
def execRstCtrlClear (ag : Agent) (key : BitVec 16) (s : State) : Host.Outcome State Fault Refusal :=
  s.does fun d => d.agentWrite ag rRstCtrl (rstWord key 2)

/-- RST_CTRL_CLEAR_RETRY (R502). -/
def execRstCtrlClearRetry (ag : Agent) (key : BitVec 16) (s : State) : Host.Outcome State Fault Refusal :=
  s.does fun d => d.agentWrite ag rRstCtrl (rstWord key 3)

/-- STARTUP (R469). -/
def execStartup (env : StartEnv) (s : State) : Host.Outcome State Fault Refusal :=
  s.does fun d => d.startup env

/-- COLD_HOLD_RELEASE (R470). -/
def execColdHoldRelease (env : StartEnv) (s : State) : Host.Outcome State Fault Refusal :=
  s.does fun d => d.coldRelease env

/-- HOST_WAIT_EXPIRY (R469). -/
def execHostWaitExpiry (ch : Fin 32) (s : State) : Host.Outcome State Fault Refusal :=
  s.does fun d => d.hostWaitExpiry ch.val

/-- STARTUP_WATCHDOG (R471). -/
def execStartupWatchdog (s : State) : Host.Outcome State Fault Refusal :=
  s.does fun d => d.startupWatchdog

/-- FL_READ (R498). -/
def execFlRead (ag : Agent) (s : State) : Host.Outcome State Fault Refusal :=
  s.does fun d => d.flashRow ag 0 true

/-- FL_PROGRAM (R498). -/
def execFlProgram (ag : Agent) (ok : Bool) (s : State) : Host.Outcome State Fault Refusal :=
  s.does fun d => d.flashRow ag 1 ok

/-- FL_ERASE (R498). -/
def execFlErase (ag : Agent) (ok : Bool) (s : State) : Host.Outcome State Fault Refusal :=
  s.does fun d => d.flashRow ag 2 ok

/-- SB_SET_ADDR (R500). -/
def execSbSetAddr (bytes : List (BitVec 8)) (pecOk : Bool) (s : State) : Host.Outcome State Fault Refusal :=
  s.does fun d => d.sbSetAddrRow bytes pecOk

/-- SB_READ (R500). -/
def execSbRead (s : State) : Host.Outcome State Fault Refusal :=
  s.does fun d => d.sbReadRow

/-- SB_WRITE (R500). -/
def execSbWrite (bytes : List (BitVec 8)) (pecOk : Bool) (s : State) : Host.Outcome State Fault Refusal :=
  s.does fun d => d.sbWriteRow bytes pecOk

/-- SB_STATUS (R500). -/
def execSbStatus (s : State) : Host.Outcome State Fault Refusal :=
  s.does fun d => d.sbStatusRow

/-- SB_QUICK_COMMAND (R499). -/
def execSbQuickCommand (s : State) : Host.Outcome State Fault Refusal :=
  s.does fun d => d

/-- SMBUS_TIMEOUT (R499). -/
def execSmbusTimeout (s : State) : Host.Outcome State Fault Refusal :=
  s.does fun d => d.sbTimeoutRow

/-- POWER_GOOD (R541). -/
def execPowerGood (s : State) : Host.Outcome State Fault Refusal :=
  s.does fun d => d.powerGood

/-- RAIL_OUT_OF_RANGE (R541). -/
def execRailOutOfRange (rail : Fin 8) (s : State) : Host.Outcome State Fault Refusal :=
  s.does fun d => d.railRow rail

end Sys2Proof.Machine
end

