-- ==== Sys2Proof/Machine/ExecScalar.lean ====
section
/-! DEFINITION. The meanings of the rows of the scalar slot (R278). -/

namespace Sys2Proof.Machine

/-- MOVI (R278). -/
def execMovi (slot : Fin 136) (a : Fin 8) (imm : BitVec 16) (s : State) : Host.Outcome State Fault Refusal :=
  s.does fun d => d.inService fun d => d.scalarRow slot.val (0x01 * 2 ^ 26 + a.val * 2 ^ 23 + imm.toNat)

/-- INSI (R278). -/
def execInsi (slot : Fin 136) (a : Fin 8) (p : Fin 3) (imm : BitVec 16) (s : State) : Host.Outcome State Fault Refusal :=
  s.does fun d => d.inService fun d => d.scalarRow slot.val (0x02 * 2 ^ 26 + a.val * 2 ^ 23 + p.val * 2 ^ 16 + imm.toNat)

/-- MOV (R278). -/
def execMov (slot : Fin 136) (a : Fin 8) (b : Fin 8) (s : State) : Host.Outcome State Fault Refusal :=
  s.does fun d => d.inService fun d => d.scalarRow slot.val (0x03 * 2 ^ 26 + a.val * 2 ^ 23 + b.val * 2 ^ 20)

/-- ADDI (R278). -/
def execAddi (slot : Fin 136) (a : Fin 8) (imm : BitVec 16) (s : State) : Host.Outcome State Fault Refusal :=
  s.does fun d => d.inService fun d => d.scalarRow slot.val (0x04 * 2 ^ 26 + a.val * 2 ^ 23 + imm.toNat)

/-- SCALAR_ADD (R278). -/
def execScalarAdd (slot : Fin 136) (a : Fin 8) (b : Fin 8) (s : State) : Host.Outcome State Fault Refusal :=
  s.does fun d => d.inService fun d => d.scalarRow slot.val (0x05 * 2 ^ 26 + a.val * 2 ^ 23 + b.val * 2 ^ 20)

/-- SCALAR_SUB (R278). -/
def execScalarSub (slot : Fin 136) (a : Fin 8) (b : Fin 8) (s : State) : Host.Outcome State Fault Refusal :=
  s.does fun d => d.inService fun d => d.scalarRow slot.val (0x06 * 2 ^ 26 + a.val * 2 ^ 23 + b.val * 2 ^ 20)

/-- SHLI (R278). -/
def execShli (slot : Fin 136) (a : Fin 8) (n : BitVec 6) (s : State) : Host.Outcome State Fault Refusal :=
  s.does fun d => d.inService fun d => d.scalarRow slot.val (0x07 * 2 ^ 26 + a.val * 2 ^ 23 + n.toNat)

/-- SHRI (R278). -/
def execShri (slot : Fin 136) (a : Fin 8) (n : BitVec 6) (s : State) : Host.Outcome State Fault Refusal :=
  s.does fun d => d.inService fun d => d.scalarRow slot.val (0x08 * 2 ^ 26 + a.val * 2 ^ 23 + n.toNat)

/-- ANDI (R278). -/
def execAndi (slot : Fin 136) (a : Fin 8) (imm : BitVec 16) (s : State) : Host.Outcome State Fault Refusal :=
  s.does fun d => d.inService fun d => d.scalarRow slot.val (0x09 * 2 ^ 26 + a.val * 2 ^ 23 + imm.toNat)

/-- CMP (R278). -/
def execCmp (slot : Fin 136) (k : Fin 4) (a : Fin 8) (byReg : Bool) (b : Fin 8) (imm : BitVec 16) (s : State) : Host.Outcome State Fault Refusal :=
  s.does fun d => d.inService fun d => d.scalarRow slot.val (0x10 * 2 ^ 26 + cmpFields k.val a.val byReg b.val imm.toNat)

/-- CMPX (R278). -/
def execCmpx (slot : Fin 136) (k : Fin 4) (s : State) : Host.Outcome State Fault Refusal :=
  s.does fun d => d.inService fun d => d.scalarRow slot.val (0x11 * 2 ^ 26 + k.val * 2 ^ 18)

/-- BR (R278). -/
def execBr (slot : Fin 136) (off : BitVec 26) (s : State) : Host.Outcome State Fault Refusal :=
  s.does fun d => d.inService fun d => d.scalarRow slot.val (0x18 * 2 ^ 26 + off.toNat)

/-- END (R246). -/
def execEndProgram (slot : Fin 136) (s : State) : Host.Outcome State Fault Refusal :=
  s.does fun d => d.inService fun d => d.scalarRow slot.val (0x19 * 2 ^ 26)

/-- ICINV (R254). -/
def execIcinv (slot : Fin 136) (s : State) : Host.Outcome State Fault Refusal :=
  s.does fun d => d.inService fun d => d.scalarRow slot.val (0x1A * 2 ^ 26)

/-- QCFG (R257). -/
def execQcfg (slot : Fin 136) (q : Fin 32) (record : BitVec 18) (s : State) : Host.Outcome State Fault Refusal :=
  s.does fun d => d.inService fun d => d.scalarRow slot.val (0x20 * 2 ^ 26 + q.val * 2 ^ 21 + record.toNat)

/-- QFREE (R256). -/
def execQfree (slot : Fin 136) (q : Fin 32) (s : State) : Host.Outcome State Fault Refusal :=
  s.does fun d => d.inService fun d => d.scalarRow slot.val (0x21 * 2 ^ 26 + q.val * 2 ^ 21)

/-- LDR (R279). -/
def execLdr (slot : Fin 136) (a : Fin 8) (record : BitVec 18) (s : State) : Host.Outcome State Fault Refusal :=
  s.does fun d => d.inService fun d => d.scalarRow slot.val (0x28 * 2 ^ 26 + a.val * 2 ^ 23 + record.toNat)

/-- TIME (R278). -/
def execTime (slot : Fin 136) (a : Fin 8) (b : Fin 8) (s : State) : Host.Outcome State Fault Refusal :=
  s.does fun d => d.inService fun d => d.scalarRow slot.val (0x29 * 2 ^ 26 + a.val * 2 ^ 23 + b.val * 2 ^ 20)

/-- EPOCH (R278). -/
def execEpoch (slot : Fin 136) (a : Fin 8) (s : State) : Host.Outcome State Fault Refusal :=
  s.does fun d => d.inService fun d => d.scalarRow slot.val (0x2A * 2 ^ 26 + a.val * 2 ^ 23)

end Sys2Proof.Machine
end

