-- ==== Sys2Proof/Machine/ExecThermal.lean ====
section
/-! DEFINITION. The meanings of the rows of clocks, power and temperature (chapter 15). -/

namespace Sys2Proof.Machine

/-- SENSOR_CONVERSION (R517). -/
def execSensorConversion (dram : List (BitVec 12)) (base : List (BitVec 12)) (s : State) : Host.Outcome State Fault Refusal :=
  s.does fun d => d.sensorConversion dram base

/-- SENSOR_TIMEOUT (R514). -/
def execSensorTimeout (sensor : Fin 25) (s : State) : Host.Outcome State Fault Refusal :=
  s.does fun d => d.sensorTimeout sensor.val

/-- POWER_ADJUST (R519). -/
def execPowerAdjust (avgDw : BitVec 16) (peakDw : BitVec 16) (s : State) : Host.Outcome State Fault Refusal :=
  s.does fun d => d.powerAdjust avgDw.toNat peakDw.toNat

/-- POWER_OVER (R519). -/
def execPowerOver (s : State) : Host.Outcome State Fault Refusal :=
  s.does fun d => d.powerOver

/-- THERMAL_TRIP (R520). -/
def execThermalTrip (comparator : Fin 17) (s : State) : Host.Outcome State Fault Refusal :=
  s.does fun d => d.thermalTrip comparator.val

/-- THERMAL_RESTART (R521). -/
def execThermalRestart (s : State) : Host.Outcome State Fault Refusal :=
  s.does fun d => d.thermalRestart

/-- PLL_UNLOCK (R507). -/
def execPllUnlock (pll : Fin 3) (s : State) : Host.Outcome State Fault Refusal :=
  s.does fun d => d.pllUnlock pll.val

/-- PHASE_OPEN (R511). -/
def execPhaseOpen (phase : Fin 34) (s : State) : Host.Outcome State Fault Refusal :=
  s.does fun d => d.phaseOpen phase.val

/-- SENSE_FAIL (R512). -/
def execSenseFail (phase : Fin 34) (s : State) : Host.Outcome State Fault Refusal :=
  s.does fun d => d.senseFail phase.val

/-- MON_PROC_START (R523). -/
def execMonProcStart (ag : Agent) (s : State) : Host.Outcome State Fault Refusal :=
  s.does fun d => d.agentWrite ag rMonProcCtrl 0x80000000

/-- MON_PROC_COUNT_END (R523). -/
def execMonProcCountEnd (counts : List (BitVec 20)) (s : State) : Host.Outcome State Fault Refusal :=
  s.does fun d => d.monEnd counts

end Sys2Proof.Machine
end

