-- ==== Sys2Proof/Machine/ExecVector.lean ====
section
/-! DEFINITION. The meanings of the rows of the vector slot (R282): the engine performs its issued command. -/

namespace Sys2Proof.Machine

/-- VEC_ADD (R282). -/
def execVecAdd (slot : Fin 136) (s : State) : Host.Outcome State Fault Refusal :=
  s.does fun d => d.inService fun d => d.engineRow slot.val 1 0x01

/-- VEC_SUB (R282). -/
def execVecSub (slot : Fin 136) (s : State) : Host.Outcome State Fault Refusal :=
  s.does fun d => d.inService fun d => d.engineRow slot.val 1 0x02

/-- VEC_MUL (R282). -/
def execVecMul (slot : Fin 136) (s : State) : Host.Outcome State Fault Refusal :=
  s.does fun d => d.inService fun d => d.engineRow slot.val 1 0x03

/-- VEC_FMA (R282). -/
def execVecFma (slot : Fin 136) (s : State) : Host.Outcome State Fault Refusal :=
  s.does fun d => d.inService fun d => d.engineRow slot.val 1 0x04

/-- VEC_MAX (R282). -/
def execVecMax (slot : Fin 136) (s : State) : Host.Outcome State Fault Refusal :=
  s.does fun d => d.inService fun d => d.engineRow slot.val 1 0x05

/-- VEC_MIN (R282). -/
def execVecMin (slot : Fin 136) (s : State) : Host.Outcome State Fault Refusal :=
  s.does fun d => d.inService fun d => d.engineRow slot.val 1 0x06

/-- VEC_ABS (R282). -/
def execVecAbs (slot : Fin 136) (s : State) : Host.Outcome State Fault Refusal :=
  s.does fun d => d.inService fun d => d.engineRow slot.val 1 0x07

/-- VEC_NEG (R282). -/
def execVecNeg (slot : Fin 136) (s : State) : Host.Outcome State Fault Refusal :=
  s.does fun d => d.inService fun d => d.engineRow slot.val 1 0x08

/-- VEC_RCP (R284). -/
def execVecRcp (slot : Fin 136) (s : State) : Host.Outcome State Fault Refusal :=
  s.does fun d => d.inService fun d => d.engineRow slot.val 1 0x09

/-- VEC_RSQRT (R284). -/
def execVecRsqrt (slot : Fin 136) (s : State) : Host.Outcome State Fault Refusal :=
  s.does fun d => d.inService fun d => d.engineRow slot.val 1 0x0A

/-- VEC_EXP2 (R284). -/
def execVecExp2 (slot : Fin 136) (s : State) : Host.Outcome State Fault Refusal :=
  s.does fun d => d.inService fun d => d.engineRow slot.val 1 0x0B

/-- VEC_LOG2 (R284). -/
def execVecLog2 (slot : Fin 136) (s : State) : Host.Outcome State Fault Refusal :=
  s.does fun d => d.inService fun d => d.engineRow slot.val 1 0x0C

/-- VEC_CVT (R285). -/
def execVecCvt (slot : Fin 136) (s : State) : Host.Outcome State Fault Refusal :=
  s.does fun d => d.inService fun d => d.engineRow slot.val 1 0x0D

/-- VEC_MXQ (R286). -/
def execVecMxq (slot : Fin 136) (s : State) : Host.Outcome State Fault Refusal :=
  s.does fun d => d.inService fun d => d.engineRow slot.val 1 0x0E

/-- VEC_RSUM (R287). -/
def execVecRsum (slot : Fin 136) (s : State) : Host.Outcome State Fault Refusal :=
  s.does fun d => d.inService fun d => d.engineRow slot.val 1 0x0F

/-- VEC_RMAX (R287). -/
def execVecRmax (slot : Fin 136) (s : State) : Host.Outcome State Fault Refusal :=
  s.does fun d => d.inService fun d => d.engineRow slot.val 1 0x10

/-- VEC_AND (R282). -/
def execVecAnd (slot : Fin 136) (s : State) : Host.Outcome State Fault Refusal :=
  s.does fun d => d.inService fun d => d.engineRow slot.val 1 0x11

/-- VEC_OR (R282). -/
def execVecOr (slot : Fin 136) (s : State) : Host.Outcome State Fault Refusal :=
  s.does fun d => d.inService fun d => d.engineRow slot.val 1 0x12

/-- VEC_XOR (R282). -/
def execVecXor (slot : Fin 136) (s : State) : Host.Outcome State Fault Refusal :=
  s.does fun d => d.inService fun d => d.engineRow slot.val 1 0x13

/-- VEC_SHL (R282). -/
def execVecShl (slot : Fin 136) (s : State) : Host.Outcome State Fault Refusal :=
  s.does fun d => d.inService fun d => d.engineRow slot.val 1 0x14

/-- VEC_SHR (R282). -/
def execVecShr (slot : Fin 136) (s : State) : Host.Outcome State Fault Refusal :=
  s.does fun d => d.inService fun d => d.engineRow slot.val 1 0x15

/-- VEC_CMPLT (R282). -/
def execVecCmplt (slot : Fin 136) (s : State) : Host.Outcome State Fault Refusal :=
  s.does fun d => d.inService fun d => d.engineRow slot.val 1 0x16

/-- VEC_CMPEQ (R282). -/
def execVecCmpeq (slot : Fin 136) (s : State) : Host.Outcome State Fault Refusal :=
  s.does fun d => d.inService fun d => d.engineRow slot.val 1 0x17

/-- VEC_SEL (R282). -/
def execVecSel (slot : Fin 136) (s : State) : Host.Outcome State Fault Refusal :=
  s.does fun d => d.inService fun d => d.engineRow slot.val 1 0x18

/-- VEC_COPY (R282). -/
def execVecCopy (slot : Fin 136) (s : State) : Host.Outcome State Fault Refusal :=
  s.does fun d => d.inService fun d => d.engineRow slot.val 1 0x19

end Sys2Proof.Machine
end

