-- ==== Sys2Proof/Machine/Dispatch.lean ====
section
/-! DEFINITION. The meaning of every command: one arm per constructor, each one direct call. -/

namespace Sys2Proof.Machine

def exec (i : Instr) (s : State) : Host.Outcome State Fault Refusal :=
  match i with
  | .hostRd ch body crc => Sys2Proof.Machine.execHostRd ch body crc s
  | .hostWr ch body crc beats => Sys2Proof.Machine.execHostWr ch body crc beats s
  | .hostWrm ch body crc mask maskCrc beats => Sys2Proof.Machine.execHostWrm ch body crc mask maskCrc beats s
  | .hostIdleFrame ch body crc => Sys2Proof.Machine.execHostIdleFrame ch body crc s
  | .hostLinkFrame ch body crc => Sys2Proof.Machine.execHostLinkFrame ch body crc s
  | .hostTrainFrame ch body crc => Sys2Proof.Machine.execHostTrainFrame ch body crc s
  | .hostReservedOpFrame ch body crc => Sys2Proof.Machine.execHostReservedOpFrame ch body crc s
  | .corruptFrame ch cause => Sys2Proof.Machine.execCorruptFrame ch cause s
  | .hostWriteBeat ch beat => Sys2Proof.Machine.execHostWriteBeat ch beat s
  | .hostAckTimer ch => Sys2Proof.Machine.execHostAckTimer ch s
  | .hostReadDataReturn ch => Sys2Proof.Machine.execHostReadDataReturn ch s
  | .hostCreditReturn ch => Sys2Proof.Machine.execHostCreditReturn ch s
  | .hostLinkFail ch => Sys2Proof.Machine.execHostLinkFail ch s
  | .hostTrainingAttempt ch laneOk completed rack => Sys2Proof.Machine.execHostTrainingAttempt ch laneOk completed rack s
  | .hpCtrlRetrain ag ch => Sys2Proof.Machine.execHpCtrlRetrain ag ch s
  | .hpCtrlRevive ag ch => Sys2Proof.Machine.execHpCtrlRevive ag ch s
  | .registerWrite ag off val => Sys2Proof.Machine.execRegisterWrite ag off val s
  | .doorbellWrite ring srcid secure data mask => Sys2Proof.Machine.execDoorbellWrite ring srcid secure data mask s
  | .doorbellStatusRead ring srcid secure tag => Sys2Proof.Machine.execDoorbellStatusRead ring srcid secure tag s
  | .admRingEnable ag field cfg => Sys2Proof.Machine.execAdmRingEnable ag field cfg s
  | .packetFetch ring => Sys2Proof.Machine.execPacketFetch ring s
  | .nop ring idx => Sys2Proof.Machine.execNop ring idx s
  | .launch ring idx => Sys2Proof.Machine.execLaunch ring idx s
  | .nboPost ring idx => Sys2Proof.Machine.execNboPost ring idx s
  | .copy ring idx words => Sys2Proof.Machine.execCopy ring idx words s
  | .fill ring idx words => Sys2Proof.Machine.execFill ring idx words s
  | .fence ring idx => Sys2Proof.Machine.execFence ring idx s
  | .queryRing ring idx => Sys2Proof.Machine.execQueryRing ring idx s
  | .queryFloes ring idx => Sys2Proof.Machine.execQueryFloes ring idx s
  | .queryUsage ring idx => Sys2Proof.Machine.execQueryUsage ring idx s
  | .msg ring idx => Sys2Proof.Machine.execMsg ring idx s
  | .freeze ring idx => Sys2Proof.Machine.execFreeze ring idx s
  | .thaw ring idx => Sys2Proof.Machine.execThaw ring idx s
  | .ringCreate ring idx => Sys2Proof.Machine.execRingCreate ring idx s
  | .ringDestroy ring idx => Sys2Proof.Machine.execRingDestroy ring idx s
  | .fieldCfgDriftsAssign ring idx => Sys2Proof.Machine.execFieldCfgDriftsAssign ring idx s
  | .fieldCfgDriftsRelease ring idx => Sys2Proof.Machine.execFieldCfgDriftsRelease ring idx s
  | .fieldCfgLease ring idx => Sys2Proof.Machine.execFieldCfgLease ring idx s
  | .fieldCfgSemsGrant ring idx => Sys2Proof.Machine.execFieldCfgSemsGrant ring idx s
  | .fieldCfgSemsWithdraw ring idx => Sys2Proof.Machine.execFieldCfgSemsWithdraw ring idx s
  | .fieldCfgRingsStop ring idx => Sys2Proof.Machine.execFieldCfgRingsStop ring idx s
  | .fieldCfgRingsStart ring idx => Sys2Proof.Machine.execFieldCfgRingsStart ring idx s
  | .fieldCfgSwitchDone ring idx => Sys2Proof.Machine.execFieldCfgSwitchDone ring idx s
  | .warmReset ring idx => Sys2Proof.Machine.execWarmReset ring idx s
  | .groupFound ring idx => Sys2Proof.Machine.execGroupFound ring idx s
  | .groupJoin ring idx => Sys2Proof.Machine.execGroupJoin ring idx s
  | .groupLeave ring idx => Sys2Proof.Machine.execGroupLeave ring idx s
  | .leaveTimeout ring idx => Sys2Proof.Machine.execLeaveTimeout ring idx s
  | .twinPair ring idx => Sys2Proof.Machine.execTwinPair ring idx s
  | .twinUnpair ring idx => Sys2Proof.Machine.execTwinUnpair ring idx s
  | .twinResync ring idx => Sys2Proof.Machine.execTwinResync ring idx s
  | .collBarrier ring idx => Sys2Proof.Machine.execCollBarrier ring idx s
  | .collBroadcast ring idx => Sys2Proof.Machine.execCollBroadcast ring idx s
  | .collAllReduce ring idx => Sys2Proof.Machine.execCollAllReduce ring idx s
  | .collReduceScatter ring idx => Sys2Proof.Machine.execCollReduceScatter ring idx s
  | .collAllGather ring idx => Sys2Proof.Machine.execCollAllGather ring idx s
  | .groupQuery ring idx => Sys2Proof.Machine.execGroupQuery ring idx s
  | .commandEnd ring idx => Sys2Proof.Machine.execCommandEnd ring idx s
  | .heldRecordWrite ring => Sys2Proof.Machine.execHeldRecordWrite ring s
  | .commandTimeout ring idx => Sys2Proof.Machine.execCommandTimeout ring idx s
  | .schedulerSlot ch => Sys2Proof.Machine.execSchedulerSlot ch s
  | .channelRequestAccept ch port => Sys2Proof.Machine.execChannelRequestAccept ch port s
  | .class0Promotion ch bank id => Sys2Proof.Machine.execClass0Promotion ch bank id s
  | .pageIdleTimeout ch bank => Sys2Proof.Machine.execPageIdleTimeout ch bank s
  | .powerDownEntry ch => Sys2Proof.Machine.execPowerDownEntry ch s
  | .powerDownExit ch => Sys2Proof.Machine.execPowerDownExit ch s
  | .refreshInterval ch => Sys2Proof.Machine.execRefreshInterval ch s
  | .refreshStart ch => Sys2Proof.Machine.execRefreshStart ch s
  | .refreshEnd ch => Sys2Proof.Machine.execRefreshEnd ch s
  | .trrTableReset ch => Sys2Proof.Machine.execTrrTableReset ch s
  | .periodicRetrain ch lanes => Sys2Proof.Machine.execPeriodicRetrain ch lanes s
  | .fullRetrain ch ok lanes => Sys2Proof.Machine.execFullRetrain ch ok lanes s
  | .chCtrlRetrain ag ch => Sys2Proof.Machine.execChCtrlRetrain ag ch s
  | .intlvLog2Write g => Sys2Proof.Machine.execIntlvLog2Write g s
  | .nboAccept ch pos => Sys2Proof.Machine.execNboAccept ch pos s
  | .nboRsum ch bank => Sys2Proof.Machine.execNboRsum ch bank s
  | .nboRmax ch bank => Sys2Proof.Machine.execNboRmax ch bank s
  | .nboDotw ch bank => Sys2Proof.Machine.execNboDotw ch bank s
  | .nboAccw ch bank => Sys2Proof.Machine.execNboAccw ch bank s
  | .nboSetw ch bank => Sys2Proof.Machine.execNboSetw ch bank s
  | .nboCshift ch bank => Sys2Proof.Machine.execNboCshift ch bank s
  | .firnLoad ch bank => Sys2Proof.Machine.execFirnLoad ch bank s
  | .atomEnd ch bank => Sys2Proof.Machine.execAtomEnd ch bank s
  | .chainHop ch bank => Sys2Proof.Machine.execChainHop ch bank s
  | .dispatchCycle slot => Sys2Proof.Machine.execDispatchCycle slot s
  | .icacheLineFill slot line => Sys2Proof.Machine.execIcacheLineFill slot line s
  | .waitRelease slot => Sys2Proof.Machine.execWaitRelease slot s
  | .engineIssue slot engine => Sys2Proof.Machine.execEngineIssue slot engine s
  | .engineCommandComplete slot engine => Sys2Proof.Machine.execEngineCommandComplete slot engine s
  | .headerSignal slot bundle => Sys2Proof.Machine.execHeaderSignal slot bundle s
  | .bundleRetire slot => Sys2Proof.Machine.execBundleRetire slot s
  | .floeHalted slot => Sys2Proof.Machine.execFloeHalted slot s
  | .movi slot a imm => Sys2Proof.Machine.execMovi slot a imm s
  | .insi slot a p imm => Sys2Proof.Machine.execInsi slot a p imm s
  | .mov slot a b => Sys2Proof.Machine.execMov slot a b s
  | .addi slot a imm => Sys2Proof.Machine.execAddi slot a imm s
  | .scalarAdd slot a b => Sys2Proof.Machine.execScalarAdd slot a b s
  | .scalarSub slot a b => Sys2Proof.Machine.execScalarSub slot a b s
  | .shli slot a n => Sys2Proof.Machine.execShli slot a n s
  | .shri slot a n => Sys2Proof.Machine.execShri slot a n s
  | .andi slot a imm => Sys2Proof.Machine.execAndi slot a imm s
  | .cmp slot k a byReg b imm => Sys2Proof.Machine.execCmp slot k a byReg b imm s
  | .cmpx slot k => Sys2Proof.Machine.execCmpx slot k s
  | .br slot off => Sys2Proof.Machine.execBr slot off s
  | .endProgram slot => Sys2Proof.Machine.execEndProgram slot s
  | .icinv slot => Sys2Proof.Machine.execIcinv slot s
  | .qcfg slot q record => Sys2Proof.Machine.execQcfg slot q record s
  | .qfree slot q => Sys2Proof.Machine.execQfree slot q s
  | .ldr slot a record => Sys2Proof.Machine.execLdr slot a record s
  | .time slot a b => Sys2Proof.Machine.execTime slot a b s
  | .epoch slot a => Sys2Proof.Machine.execEpoch slot a s
  | .vecAdd slot => Sys2Proof.Machine.execVecAdd slot s
  | .vecSub slot => Sys2Proof.Machine.execVecSub slot s
  | .vecMul slot => Sys2Proof.Machine.execVecMul slot s
  | .vecFma slot => Sys2Proof.Machine.execVecFma slot s
  | .vecMax slot => Sys2Proof.Machine.execVecMax slot s
  | .vecMin slot => Sys2Proof.Machine.execVecMin slot s
  | .vecAbs slot => Sys2Proof.Machine.execVecAbs slot s
  | .vecNeg slot => Sys2Proof.Machine.execVecNeg slot s
  | .vecRcp slot => Sys2Proof.Machine.execVecRcp slot s
  | .vecRsqrt slot => Sys2Proof.Machine.execVecRsqrt slot s
  | .vecExp2 slot => Sys2Proof.Machine.execVecExp2 slot s
  | .vecLog2 slot => Sys2Proof.Machine.execVecLog2 slot s
  | .vecCvt slot => Sys2Proof.Machine.execVecCvt slot s
  | .vecMxq slot => Sys2Proof.Machine.execVecMxq slot s
  | .vecRsum slot => Sys2Proof.Machine.execVecRsum slot s
  | .vecRmax slot => Sys2Proof.Machine.execVecRmax slot s
  | .vecAnd slot => Sys2Proof.Machine.execVecAnd slot s
  | .vecOr slot => Sys2Proof.Machine.execVecOr slot s
  | .vecXor slot => Sys2Proof.Machine.execVecXor slot s
  | .vecShl slot => Sys2Proof.Machine.execVecShl slot s
  | .vecShr slot => Sys2Proof.Machine.execVecShr slot s
  | .vecCmplt slot => Sys2Proof.Machine.execVecCmplt slot s
  | .vecCmpeq slot => Sys2Proof.Machine.execVecCmpeq slot s
  | .vecSel slot => Sys2Proof.Machine.execVecSel slot s
  | .vecCopy slot => Sys2Proof.Machine.execVecCopy slot s
  | .mma slot => Sys2Proof.Machine.execMma slot s
  | .drain slot => Sys2Proof.Machine.execDrain slot s
  | .accld slot => Sys2Proof.Machine.execAccld slot s
  | .accz slot => Sys2Proof.Machine.execAccz slot s
  | .ldt slot => Sys2Proof.Machine.execLdt slot s
  | .ldg slot => Sys2Proof.Machine.execLdg slot s
  | .ldl slot => Sys2Proof.Machine.execLdl slot s
  | .ldq slot => Sys2Proof.Machine.execLdq slot s
  | .stt slot => Sys2Proof.Machine.execStt slot s
  | .sts slot => Sys2Proof.Machine.execSts slot s
  | .stl slot => Sys2Proof.Machine.execStl slot s
  | .nbop slot => Sys2Proof.Machine.execNbop slot s
  | .sigr slot => Sys2Proof.Machine.execSigr slot s
  | .tlset slot => Sys2Proof.Machine.execTlset slot s
  | .tadd slot => Sys2Proof.Machine.execTadd slot s
  | .semadd slot => Sys2Proof.Machine.execSemadd slot s
  | .seminc slot => Sys2Proof.Machine.execSeminc slot s
  | .semset slot => Sys2Proof.Machine.execSemset slot s
  | .semwait slot => Sys2Proof.Machine.execSemwait slot s
  | .semtake slot => Sys2Proof.Machine.execSemtake slot s
  | .send slot => Sys2Proof.Machine.execSend slot s
  | .recv slot => Sys2Proof.Machine.execRecv slot s
  | .commit slot => Sys2Proof.Machine.execCommit slot s
  | .commitMarkWrite slot => Sys2Proof.Machine.execCommitMarkWrite slot s
  | .hubCycle drift => Sys2Proof.Machine.execHubCycle drift s
  | .syncWatchdogExpiry slot => Sys2Proof.Machine.execSyncWatchdogExpiry slot s
  | .dtCreate ag slot entry => Sys2Proof.Machine.execDtCreate ag slot entry s
  | .dtInvalidate ag slot entry => Sys2Proof.Machine.execDtInvalidate ag slot entry s
  | .dtInvalidateAll ag slot => Sys2Proof.Machine.execDtInvalidateAll ag slot s
  | .dtReadBack ag slot entry => Sys2Proof.Machine.execDtReadBack ag slot entry s
  | .floeFault slot cause => Sys2Proof.Machine.execFloeFault slot cause s
  | .floeFreezeStart slot => Sys2Proof.Machine.execFloeFreezeStart slot s
  | .floeFenced slot => Sys2Proof.Machine.execFloeFenced slot s
  | .repairWrite ch => Sys2Proof.Machine.execRepairWrite ch s
  | .patrolScrubVisit ch => Sys2Proof.Machine.execPatrolScrubVisit ch s
  | .twinReadResponse ch word data poison => Sys2Proof.Machine.execTwinReadResponse ch word data poison s
  | .twinReadTimeout ch word => Sys2Proof.Machine.execTwinReadTimeout ch word s
  | .coalesceWindowClose code ukind unit => Sys2Proof.Machine.execCoalesceWindowClose code ukind unit s
  | .moraineRingCopy => Sys2Proof.Machine.execMoraineRingCopy s
  | .morHeadWrite ag val => Sys2Proof.Machine.execMorHeadWrite ag val s
  | .morFirstFatalClear ag => Sys2Proof.Machine.execMorFirstFatalClear ag s
  | .peerRd link cw hdr => Sys2Proof.Machine.execPeerRd link cw hdr s
  | .peerWr link cw hdr data => Sys2Proof.Machine.execPeerWr link cw hdr data s
  | .peerWrm link cw hdr data => Sys2Proof.Machine.execPeerWrm link cw hdr data s
  | .mirrorStreamItem link cw hdr data => Sys2Proof.Machine.execMirrorStreamItem link cw hdr data s
  | .rspData link cw hdr data => Sys2Proof.Machine.execRspData link cw hdr data s
  | .rspStatus link cw hdr => Sys2Proof.Machine.execRspStatus link cw hdr s
  | .remoteTimeout tag => Sys2Proof.Machine.execRemoteTimeout tag s
  | .collContribution link cw hdr data => Sys2Proof.Machine.execCollContribution link cw hdr data s
  | .mgmtHello link cw hdr data => Sys2Proof.Machine.execMgmtHello link cw hdr data s
  | .mgmtJoin link cw hdr data => Sys2Proof.Machine.execMgmtJoin link cw hdr data s
  | .mgmtAdmit link cw hdr data => Sys2Proof.Machine.execMgmtAdmit link cw hdr data s
  | .mgmtRefuse link cw hdr data => Sys2Proof.Machine.execMgmtRefuse link cw hdr data s
  | .mgmtTwinNotice link cw hdr data => Sys2Proof.Machine.execMgmtTwinNotice link cw hdr data s
  | .mgmtMembers link cw hdr data => Sys2Proof.Machine.execMgmtMembers link cw hdr data s
  | .mgmtLeave link cw hdr data => Sys2Proof.Machine.execMgmtLeave link cw hdr data s
  | .mgmtTime link cw hdr data => Sys2Proof.Machine.execMgmtTime link cw hdr data s
  | .mgmtRealign link cw hdr data => Sys2Proof.Machine.execMgmtRealign link cw hdr data s
  | .mgmtAligned link cw hdr data => Sys2Proof.Machine.execMgmtAligned link cw hdr data s
  | .mgmtStaged link cw hdr data => Sys2Proof.Machine.execMgmtStaged link cw hdr data s
  | .mgmtCommit link cw hdr data => Sys2Proof.Machine.execMgmtCommit link cw hdr data s
  | .mgmtAbort link cw hdr data => Sys2Proof.Machine.execMgmtAbort link cw hdr data s
  | .mgmtFence link cw hdr data => Sys2Proof.Machine.execMgmtFence link cw hdr data s
  | .mgmtResetReq link cw hdr data => Sys2Proof.Machine.execMgmtResetReq link cw hdr data s
  | .mgmtAlive link cw hdr data => Sys2Proof.Machine.execMgmtAlive link cw hdr data s
  | .linkPacket link cw hdr => Sys2Proof.Machine.execLinkPacket link cw hdr s
  | .peerCorruptPacket link cw cause => Sys2Proof.Machine.execPeerCorruptPacket link cw cause s
  | .peerAckTimer link => Sys2Proof.Machine.execPeerAckTimer link s
  | .peerResendTimeout link => Sys2Proof.Machine.execPeerResendTimeout link s
  | .peerLinkFail link => Sys2Proof.Machine.execPeerLinkFail link s
  | .linkTrainingAttempt link ok laneOk reversed polarity => Sys2Proof.Machine.execLinkTrainingAttempt link ok laneOk reversed polarity s
  | .lnkCtrlRetrain ag link => Sys2Proof.Machine.execLnkCtrlRetrain ag link s
  | .lnkCtrlRevive ag link => Sys2Proof.Machine.execLnkCtrlRevive ag link s
  | .timeAlignment => Sys2Proof.Machine.execTimeAlignment s
  | .realignRepeat => Sys2Proof.Machine.execRealignRepeat s
  | .memberAbsent dev => Sys2Proof.Machine.execMemberAbsent dev s
  | .founderTaken reach => Sys2Proof.Machine.execFounderTaken reach s
  | .twinLoss => Sys2Proof.Machine.execTwinLoss s
  | .relayWindowAccess ag window off op cls tag data mask => Sys2Proof.Machine.execRelayWindowAccess ag window off op cls tag data mask s
  | .dbgChal nonce => Sys2Proof.Machine.execDbgChal nonce s
  | .dbgUnlock resp => Sys2Proof.Machine.execDbgUnlock resp s
  | .dbgClose => Sys2Proof.Machine.execDbgClose s
  | .dbgCtrlClose ag => Sys2Proof.Machine.execDbgCtrlClose ag s
  | .idcode => Sys2Proof.Machine.execIdcode s
  | .samplePreload levels shifted => Sys2Proof.Machine.execSamplePreload levels shifted s
  | .extest levels shifted => Sys2Proof.Machine.execExtest levels shifted s
  | .csAccess shifted => Sys2Proof.Machine.execCsAccess shifted s
  | .stackSel dies => Sys2Proof.Machine.execStackSel dies s
  | .wrapIr codes => Sys2Proof.Machine.execWrapIr codes s
  | .wrapDr cells => Sys2Proof.Machine.execWrapDr cells s
  | .bypass code tdi => Sys2Proof.Machine.execBypass code tdi s
  | .powerOnReset => Sys2Proof.Machine.execPowerOnReset s
  | .resetPinAssert => Sys2Proof.Machine.execResetPinAssert s
  | .resetPinRelease lowMs => Sys2Proof.Machine.execResetPinRelease lowMs s
  | .resetPinStuck => Sys2Proof.Machine.execResetPinStuck s
  | .sidebandReset key => Sys2Proof.Machine.execSidebandReset key s
  | .rstCtrlClear ag key => Sys2Proof.Machine.execRstCtrlClear ag key s
  | .rstCtrlClearRetry ag key => Sys2Proof.Machine.execRstCtrlClearRetry ag key s
  | .startup env => Sys2Proof.Machine.execStartup env s
  | .coldHoldRelease env => Sys2Proof.Machine.execColdHoldRelease env s
  | .hostWaitExpiry ch => Sys2Proof.Machine.execHostWaitExpiry ch s
  | .startupWatchdog => Sys2Proof.Machine.execStartupWatchdog s
  | .flRead ag => Sys2Proof.Machine.execFlRead ag s
  | .flProgram ag ok => Sys2Proof.Machine.execFlProgram ag ok s
  | .flErase ag ok => Sys2Proof.Machine.execFlErase ag ok s
  | .sbSetAddr bytes pecOk => Sys2Proof.Machine.execSbSetAddr bytes pecOk s
  | .sbRead => Sys2Proof.Machine.execSbRead s
  | .sbWrite bytes pecOk => Sys2Proof.Machine.execSbWrite bytes pecOk s
  | .sbStatus => Sys2Proof.Machine.execSbStatus s
  | .sbQuickCommand => Sys2Proof.Machine.execSbQuickCommand s
  | .smbusTimeout => Sys2Proof.Machine.execSmbusTimeout s
  | .sensorConversion dram base => Sys2Proof.Machine.execSensorConversion dram base s
  | .sensorTimeout sensor => Sys2Proof.Machine.execSensorTimeout sensor s
  | .powerAdjust avgDw peakDw => Sys2Proof.Machine.execPowerAdjust avgDw peakDw s
  | .powerOver => Sys2Proof.Machine.execPowerOver s
  | .thermalTrip comparator => Sys2Proof.Machine.execThermalTrip comparator s
  | .thermalRestart => Sys2Proof.Machine.execThermalRestart s
  | .pllUnlock pll => Sys2Proof.Machine.execPllUnlock pll s
  | .phaseOpen phase => Sys2Proof.Machine.execPhaseOpen phase s
  | .senseFail phase => Sys2Proof.Machine.execSenseFail phase s
  | .powerGood => Sys2Proof.Machine.execPowerGood s
  | .railOutOfRange rail => Sys2Proof.Machine.execRailOutOfRange rail s
  | .monProcStart ag => Sys2Proof.Machine.execMonProcStart ag s
  | .testLogicReset => Sys2Proof.Machine.execTestLogicReset s
  | .monProcCountEnd counts => Sys2Proof.Machine.execMonProcCountEnd counts s

end Sys2Proof.Machine
end

