-- ==== Sys2Proof/Machine/Step.lean ====
section
/-! DEFINITION. One step: the command at the front of the queue, or a tick of the clock on an empty queue. -/

namespace Sys2Proof.Machine

/-- What a step does with nothing to do (DESIGN CHOICE, log 1): one command slot of 0.5 ns passes. -/
def State.tick (s : State) : State := { s with dev := (s.dev.advanceTo (s.dev.clock + 1)).settle }

/-- One step of the block. -/
def step (s : State) : Host.Outcome State Fault Refusal :=
  match s.pending with
  | [] => .next s.tick
  | c :: rest => exec c { s with pending := rest }

/-- A state with the command that a word spells at the front of its queue; unchanged where it spells none. -/
def State.withFetchWord (s : State) (nbits w : Nat) : State :=
  match decodeTableWord nbits w with
  | some c => { s with pending := c :: s.pending }
  | none => s

end Sys2Proof.Machine
end

