-- ==== Sys2Proof/Safety.lean ====
section
/-! DEFINITION. What counts as a safe run: the block never stops, its pins stand as R118 asks, and its memories keep their
canonical form. -/

namespace Sys2Proof.Machine

/-- The memories keep their canonical form: DRAM and local stores read 0 where nothing is listed, the flash 0xFF. -/
def Memory.wf (d : Dev) : Bool := d.dram.wf && d.ls.wf && tabWf (fun _ => (0xFF : BitVec 8)) d.flash

/-- The pins agree with the conditions routed to them (R118, R496, R520). -/
def State.pinsAgree (s : State) : Bool := s.dev.sys.attn == s.dev.attnLevel

/-- The command runs: `exec` answers a next state, with the queue as it was and a device of which `P` holds. -/
def Runs (i : Instr) (s : State) (P : Dev → Prop) : Prop := ∃ t, exec i s = .next t ∧ t.pending = s.pending ∧ P t.dev

/-- The beats that a host channel has sent and not seen acknowledged, then those that wait, in order (R67). -/
def HostPort.beats (h : HostPort) : List (BitVec 16 × Line) :=
  h.held.map (fun b => (b.info, b.data)) ++ h.outq.map fun b => (b.info, b.data)

/-- An outcome is safe when the machine goes on with pins that agree. -/
def safeOutcome : Host.Outcome State Fault Refusal → Bool
  | .next s => s.pinsAgree
  | .fault _ => false
  | .refused _ => false

end Sys2Proof.Machine
end

