-- ==== Sys2Proof/WellFormed.lean ====
section
/-! DEFINITION. Which terms are commands of their rows: a frame's OP and a packet's type are those of the row, fields that the
spec reserves are 0, and lists are as long as what they stand for. `exec` does not depend on it: it takes every term. -/

namespace Sys2Proof

open Sys2Proof.Machine (bits)

/-- The OP of a request frame (R55). -/
def isOp (op : Nat) (body : BitVec 64) : Bool := bits body.toNat 3 0 == op

/-- The TYPE of a packet (R399). -/
def isPacket (t : Nat) (hdr : BitVec 256) : Bool := bits hdr.toNat 3 0 == t

/-- A MGMT packet of a subtype (R400). -/
def isSubtype (sub : Nat) (hdr : BitVec 256) : Bool := isPacket 9 hdr && bits hdr.toNat 167 160 == sub

/-- A code-word header (R397): bits [3:0] are 0b1010 and bits [19:13] are 0. -/
def CodeWord.ok (w : CodeWord) : Bool := bits w.header.toNat 3 0 == 0b1010 && bits w.header.toNat 19 13 == 0

/-- Is the term a command of its row? -/
def Instr.wf : Instr → Bool
  | .hostRd _ body _ => isOp 1 body
  | .hostWr _ body _ beats => isOp 2 body && decide (beats.length ≤ 4)
  | .hostWrm _ body _ _ _ beats => isOp 3 body && decide (beats.length ≤ 4)
  | .hostIdleFrame _ body _ => isOp 0 body
  | .hostLinkFrame _ body _ => isOp 14 body
  | .hostTrainFrame _ body _ => isOp 15 body
  | .hostReservedOpFrame _ body _ => decide (4 ≤ bits body.toNat 3 0) && decide (bits body.toNat 3 0 ≤ 13)
  | .corruptFrame _ _ => true
  | .hostWriteBeat _ _ => true
  | .hostAckTimer _ => true
  | .hostReadDataReturn _ => true
  | .hostCreditReturn _ => true
  | .hostLinkFail _ => true
  | .hostTrainingAttempt _ _ _ _ => true
  | .hpCtrlRetrain _ _ => true
  | .hpCtrlRevive _ _ => true
  | .registerWrite _ off _ => off.toNat % 4 == 0
  | .doorbellWrite _ _ _ _ _ => true
  | .doorbellStatusRead _ _ _ _ => true
  | .admRingEnable _ _ _ => true
  | .packetFetch _ => true
  | .nop _ _ => true
  | .launch _ _ => true
  | .nboPost _ _ => true
  | .copy _ _ words => decide (1 ≤ words)
  | .fill _ _ words => decide (1 ≤ words)
  | .fence _ _ => true
  | .queryRing _ _ => true
  | .queryFloes _ _ => true
  | .queryUsage _ _ => true
  | .msg _ _ => true
  | .freeze _ _ => true
  | .thaw _ _ => true
  | .ringCreate _ _ => true
  | .ringDestroy _ _ => true
  | .fieldCfgDriftsAssign _ _ => true
  | .fieldCfgDriftsRelease _ _ => true
  | .fieldCfgLease _ _ => true
  | .fieldCfgSemsGrant _ _ => true
  | .fieldCfgSemsWithdraw _ _ => true
  | .fieldCfgRingsStop _ _ => true
  | .fieldCfgRingsStart _ _ => true
  | .fieldCfgSwitchDone _ _ => true
  | .warmReset _ _ => true
  | .groupFound _ _ => true
  | .groupJoin _ _ => true
  | .groupLeave _ _ => true
  | .leaveTimeout _ _ => true
  | .twinPair _ _ => true
  | .twinUnpair _ _ => true
  | .twinResync _ _ => true
  | .collBarrier _ _ => true
  | .collBroadcast _ _ => true
  | .collAllReduce _ _ => true
  | .collReduceScatter _ _ => true
  | .collAllGather _ _ => true
  | .groupQuery _ _ => true
  | .commandEnd _ _ => true
  | .heldRecordWrite _ => true
  | .commandTimeout _ _ => true
  | .schedulerSlot _ => true
  | .channelRequestAccept _ _ => true
  | .class0Promotion _ _ _ => true
  | .pageIdleTimeout _ _ => true
  | .powerDownEntry _ => true
  | .powerDownExit _ => true
  | .refreshInterval _ => true
  | .refreshStart _ => true
  | .refreshEnd _ => true
  | .trrTableReset _ => true
  | .periodicRetrain _ lanes => lanes.length == 39
  | .fullRetrain _ _ lanes => lanes.length == 39
  | .chCtrlRetrain _ _ => true
  | .intlvLog2Write _ => true
  | .nboAccept _ _ => true
  | .nboRsum _ _ => true
  | .nboRmax _ _ => true
  | .nboDotw _ _ => true
  | .nboAccw _ _ => true
  | .nboSetw _ _ => true
  | .nboCshift _ _ => true
  | .firnLoad _ _ => true
  | .atomEnd _ _ => true
  | .chainHop _ _ => true
  | .dispatchCycle _ => true
  | .icacheLineFill _ _ => true
  | .waitRelease _ => true
  | .engineIssue _ _ => true
  | .engineCommandComplete _ _ => true
  | .headerSignal _ _ => true
  | .bundleRetire _ => true
  | .floeHalted _ => true
  | .movi _ _ _ => true
  | .insi _ _ _ _ => true
  | .mov _ _ _ => true
  | .addi _ _ _ => true
  | .scalarAdd _ _ _ => true
  | .scalarSub _ _ _ => true
  | .shli _ _ _ => true
  | .shri _ _ _ => true
  | .andi _ _ _ => true
  | .cmp _ _ _ byReg b imm => if byReg then imm == 0 else b == 0
  | .cmpx _ _ => true
  | .br _ _ => true
  | .endProgram _ => true
  | .icinv _ => true
  | .qcfg _ _ _ => true
  | .qfree _ _ => true
  | .ldr _ _ _ => true
  | .time _ _ _ => true
  | .epoch _ _ => true
  | .vecAdd _ => true
  | .vecSub _ => true
  | .vecMul _ => true
  | .vecFma _ => true
  | .vecMax _ => true
  | .vecMin _ => true
  | .vecAbs _ => true
  | .vecNeg _ => true
  | .vecRcp _ => true
  | .vecRsqrt _ => true
  | .vecExp2 _ => true
  | .vecLog2 _ => true
  | .vecCvt _ => true
  | .vecMxq _ => true
  | .vecRsum _ => true
  | .vecRmax _ => true
  | .vecAnd _ => true
  | .vecOr _ => true
  | .vecXor _ => true
  | .vecShl _ => true
  | .vecShr _ => true
  | .vecCmplt _ => true
  | .vecCmpeq _ => true
  | .vecSel _ => true
  | .vecCopy _ => true
  | .mma _ => true
  | .drain _ => true
  | .accld _ => true
  | .accz _ => true
  | .ldt _ => true
  | .ldg _ => true
  | .ldl _ => true
  | .ldq _ => true
  | .stt _ => true
  | .sts _ => true
  | .stl _ => true
  | .nbop _ => true
  | .sigr _ => true
  | .tlset _ => true
  | .tadd _ => true
  | .semadd _ => true
  | .seminc _ => true
  | .semset _ => true
  | .semwait _ => true
  | .semtake _ => true
  | .send _ => true
  | .recv _ => true
  | .commit _ => true
  | .commitMarkWrite _ => true
  | .hubCycle _ => true
  | .syncWatchdogExpiry _ => true
  | .dtCreate _ _ _ => true
  | .dtInvalidate _ _ _ => true
  | .dtInvalidateAll _ _ => true
  | .dtReadBack _ _ _ => true
  | .floeFault _ _ => true
  | .floeFreezeStart _ => true
  | .floeFenced _ => true
  | .repairWrite _ => true
  | .patrolScrubVisit _ => true
  | .twinReadResponse _ _ _ _ => true
  | .twinReadTimeout _ _ => true
  | .coalesceWindowClose _ _ _ => true
  | .moraineRingCopy => true
  | .morHeadWrite _ _ => true
  | .morFirstFatalClear _ => true
  | .peerRd _ cw hdr => cw.ok && (isPacket 1 hdr)
  | .peerWr _ cw hdr _ => cw.ok && (isPacket 2 hdr)
  | .peerWrm _ cw hdr _ => cw.ok && (isPacket 3 hdr)
  | .mirrorStreamItem _ cw hdr _ => cw.ok && (isPacket 2 hdr || isPacket 3 hdr || isPacket 4 hdr)
  | .rspData _ cw hdr _ => cw.ok && (isPacket 5 hdr)
  | .rspStatus _ cw hdr => cw.ok && (isPacket 6 hdr)
  | .remoteTimeout _ => true
  | .collContribution _ cw hdr _ => cw.ok && (isPacket 8 hdr)
  | .mgmtHello _ cw hdr _ => cw.ok && (isSubtype 0x01 hdr)
  | .mgmtJoin _ cw hdr _ => cw.ok && (isSubtype 0x02 hdr)
  | .mgmtAdmit _ cw hdr _ => cw.ok && (isSubtype 0x03 hdr)
  | .mgmtRefuse _ cw hdr _ => cw.ok && (isSubtype 0x04 hdr)
  | .mgmtTwinNotice _ cw hdr _ => cw.ok && (isSubtype 0x05 hdr)
  | .mgmtMembers _ cw hdr _ => cw.ok && (isSubtype 0x06 hdr)
  | .mgmtLeave _ cw hdr _ => cw.ok && (isSubtype 0x07 hdr)
  | .mgmtTime _ cw hdr _ => cw.ok && (isSubtype 0x08 hdr)
  | .mgmtRealign _ cw hdr _ => cw.ok && (isSubtype 0x09 hdr)
  | .mgmtAligned _ cw hdr _ => cw.ok && (isSubtype 0x0A hdr)
  | .mgmtStaged _ cw hdr _ => cw.ok && (isSubtype 0x0B hdr)
  | .mgmtCommit _ cw hdr _ => cw.ok && (isSubtype 0x0C hdr)
  | .mgmtAbort _ cw hdr _ => cw.ok && (isSubtype 0x0D hdr)
  | .mgmtFence _ cw hdr _ => cw.ok && (isSubtype 0x0E hdr)
  | .mgmtResetReq _ cw hdr _ => cw.ok && (isSubtype 0x0F hdr)
  | .mgmtAlive _ cw hdr _ => cw.ok && (isSubtype 0x10 hdr)
  | .linkPacket _ cw hdr => cw.ok && (isPacket 14 hdr)
  | .peerCorruptPacket _ cw _ => cw.ok
  | .peerAckTimer _ => true
  | .peerResendTimeout _ => true
  | .peerLinkFail _ => true
  | .linkTrainingAttempt _ _ _ _ _ => true
  | .lnkCtrlRetrain _ _ => true
  | .lnkCtrlRevive _ _ => true
  | .timeAlignment => true
  | .realignRepeat => true
  | .memberAbsent _ => true
  | .founderTaken _ => true
  | .twinLoss => true
  | .relayWindowAccess _ _ off op _ _ _ _ => off.toNat % 64 == 0 && decide (op.toNat < 3)
  | .dbgChal _ => true
  | .dbgUnlock _ => true
  | .dbgClose => true
  | .dbgCtrlClose _ => true
  | .idcode => true
  | .samplePreload _ _ => true
  | .extest _ _ => true
  | .csAccess _ => true
  | .stackSel _ => true
  | .wrapIr codes => decide (codes.length ≤ 17)
  | .wrapDr _ => true
  | .bypass _ _ => true
  | .powerOnReset => true
  | .resetPinAssert => true
  | .resetPinRelease _ => true
  | .resetPinStuck => true
  | .sidebandReset _ => true
  | .rstCtrlClear _ _ => true
  | .rstCtrlClearRetry _ _ => true
  | .startup env => decide (env.lanes.length ≤ 1248)
  | .coldHoldRelease env => decide (env.lanes.length ≤ 1248)
  | .hostWaitExpiry _ => true
  | .startupWatchdog => true
  | .flRead _ => true
  | .flProgram _ _ => true
  | .flErase _ _ => true
  | .sbSetAddr bytes _ => decide (bytes.length ≤ 255)
  | .sbRead => true
  | .sbWrite bytes _ => decide (bytes.length ≤ 255)
  | .sbStatus => true
  | .sbQuickCommand => true
  | .smbusTimeout => true
  | .sensorConversion dram base => dram.length == 16 && base.length == 9
  | .sensorTimeout _ => true
  | .powerAdjust _ _ => true
  | .powerOver => true
  | .thermalTrip _ => true
  | .thermalRestart => true
  | .pllUnlock _ => true
  | .phaseOpen _ => true
  | .senseFail _ => true
  | .powerGood => true
  | .railOutOfRange _ => true
  | .monProcStart _ => true
  | .testLogicReset => true
  | .monProcCountEnd counts => counts.length == 9

end Sys2Proof
end

