-- ==== Sys2Proof/Certificates/Slice0/Obligations.lean ====
section
/-! DEFINITION. The statements for the provers. -/

open Sys2Proof Sys2Proof.Machine

namespace Sys2Proof.Claims

/-- The next frame in sequence on a host channel in service, with its parts, its CRCs and its credits (R68, R73). -/
def NextFrame (d : Dev) (c : Nat) (f : FrameIn) : Prop :=
  d.sys.phase.live = true ∧ (d.host c).up = true ∧ (d.host c).down = false ∧ (d.host c).waiting = none
    ∧ f.crc = crc16 (toLe 8 f.body.toNat) ∧ (frameF f.body).seq = (d.host c).expSeq
    ∧ (d.host c).rqGiven ≠ (d.host c).rqUsed ∧ (frameF f.body).words ≤ ((d.host c).wdGiven - (d.host c).wdUsed).toNat
    ∧ f.partsOk = some true

/-- What accepting a frame does to the channel's sequence and credits (R68, R73). -/
def Accepted (d d' : Dev) (c : Nat) (f : FrameIn) : Prop :=
  (d'.host c).expSeq = (d.host c).expSeq + 1 ∧ (d'.host c).rqUsed = (d.host c).rqUsed + 1
    ∧ (d'.host c).wdUsed = (d.host c).wdUsed + BitVec.ofNat 16 (frameF f.body).words
    ∧ (d'.host c).unacked = (d.host c).unacked + 1

/-- A memory frame has entered its channel's ingress as one request, and nothing else of the device has changed but its host
channel (R68, R139). -/
def Enters (d d' : Dev) (c : Fin 32) (f : FrameIn) : Prop :=
  let x := frameF f.body
  Accepted d d' c f
    ∧ (d'.chan (d.place x.addr).ch).hostIn = (d.chan (d.place x.addr).ch).hostIn ++
        [{ origin := .host (hostTag c x), write := x.isWrite, masked := x.op == 3, addr := BitVec.ofNat 36 x.addr
           len := x.len, cls := x.cls, field := d.hstField c x.srcid.toNat, secure := x.world, mask := f.mask
           data := f.words, poison := false, since := d.clock, words := (List.range (x.len.toNat + 1)).map fun i => d.wordOf (x.addr + 64 * i)
           arr := (d.chan (d.place x.addr).ch).nextId }]
    ∧ (∀ k, k ≠ (d.place x.addr).ch → d'.chan k = d.chan k) ∧ (∀ k, k ≠ c.val → d'.host k = d.host k)
    ∧ d' = ({ d with chans := d'.chans, hosts := d'.hosts } : Dev).settle

/-- The link beat of a host channel with every freed credit (R64, R73). -/
def linkBeatOf (h : HostPort) (nak ask : Bool) : BitVec 16 × Line :=
  (2, linkData (h.expSeq - 1) nak ask false (h.rqGiven + BitVec.ofNat 16 h.rqFreed) (h.wdGiven + BitVec.ofNat 16 h.wdFreed) 0)

/-- The agent's write of this register arrives (R37, R457, R501). -/
def Writes (d : Dev) (ag : Agent) (o : Nat) : Prop :=
  d.reaches ag = true ∧ (ag.kind = 1 → d.sideInReset = true → sideAlways o = true)

/-- A command of the opcode has been fetched and has not ended, on a device in service (R97, R104). -/
def Started (d : Dev) (n : Fin 1024) (i : BitVec 32) (op : Nat) (c : Cmd) : Prop :=
  d.sys.phase.live = true ∧ d.cmd n i = some c ∧ c.opcode = op ∧ c.done = none ∧ c.timedOut = false

/-- The command's own work has ended with a status and results (R111). -/
def Ended (d : Dev) (n : Fin 1024) (i : BitVec 32) (status : BitVec 8) (r0 r1 : Nat) : Prop :=
  ∃ c, d.cmd n i = some c ∧ c.done = some { status := status, r0 := BitVec.ofNat 64 r0, r1 := BitVec.ofNat 64 r1 }

/-- A FIELD_CFG whose record `x` has been read by this execution and passes every check (R453 to R455). -/
def CfgPasses (d : Dev) (n : Fin 1024) (i : BitVec 32) (c : Cmd) (sub : Nat) (variant : Bool) (x : Nat) : Prop :=
  let d' := (d.tsvRead c.mover (d.wordOf (c.arg 24 8))).2
  Started d n i 0x12 c ∧ c.arg 16 1 = sub ∧ c.begun = false ∧ d.cfgBehind c = false ∧ addrOk (c.arg 24 8) 64 = true
    ∧ d.rangesStatus c.access [(c.arg 24 8, 64, false)] = 0 ∧ d.regionHeld (c.arg 24 8) = false
    ∧ (∃ w, (d.tsvRead c.mover (d.wordOf (c.arg 24 8))).1 = some w ∧ w.poison = false ∧ x = w.data.toNat)
    ∧ cfgRecordOk sub x d.twin.paired = true ∧ cfgVariant sub x = variant ∧ d'.semOk c = true ∧ d'.cfgNames sub x = 0

/-- The next packet in sequence on a link in service: its flits are not discarded, it parses, its CRC holds, and its virtual
channel has a credit (R403 to R405). -/
def NextPacket (d : Dev) (l : Fin 5) (cw : CodeWord) (hdr : BitVec 256) (data : Line) (p : Packet) : Prop :=
  d.sys.phase.live = true ∧ (d.link l).up = true ∧ ((d.link l).discard = false ∨ cw.start = true) ∧ parsePacket hdr data = (p, (d.link l).expSeq, true)
    ∧ (d.link l).granted[packetVc p.typ]?.getD 0 ≠ (d.link l).consumed[packetVc p.typ]?.getD 0

/-- The packet of a management subtype for this device, from a member's device on a peer link (R400, R408). -/
def NextMgmt (d : Dev) (l : Fin 5) (cw : CodeWord) (hdr : BitVec 256) (data : Line) (p : Packet) (sub : Nat) : Prop :=
  NextPacket d l cw hdr data p ∧ l ≠ 4 ∧ p.typ = 9 ∧ p.arg.toNat % 256 = sub ∧ p.dst.toNat = d.gdev

/-- Packets that a link has sent and not seen acknowledged, or has still to send. -/
def sent (k : Link) : List Packet := k.held.map (·.2) ++ k.outq

/-- A command of a ring waits for the group or the twin, and has not ended. -/
def Waiting (d : Dev) (w : Option (Fin 1024 × BitVec 32)) (n : Fin 1024) (i : BitVec 32) : Prop :=
  w = some (n, i) ∧ ∃ c, d.cmd n i = some c ∧ c.done = none

end Sys2Proof.Claims

open Sys2Proof.Claims

/-! ## The block -/

/-- A step takes the command at the front of the queue and runs it on the queue's rest.

The queue of waiting commands is the model's (log entry 2). -/
def Obligations.StepRunsFront : Prop :=
  ∀ (s : State) (c : Instr) (rest : List Instr), s.pending = c :: rest → step s = exec c { s with pending := rest }

/-! ## Host port (chapter 2) -/

/-- R58: a frame of a reserved OP in sequence is accepted, is not executed, and ends in a BAD_REQUEST status beat.

R56, R67, R70, R76: an IDLE frame changes nothing; a LINK frame acknowledges beats up to its RACK; a TRAIN frame with
PHASE = 1 begins retraining. -/
def Obligations.HostOtherFrames : Prop :=
  (∀ (s : State) (c : Fin 32) (body : BitVec 64) (crc : BitVec 16),
     let f : FrameIn := { body := body, crc := crc, mask := 0, maskCrc := 0, beats := [] }
     let x := frameF body
     4 ≤ x.op → x.op ≤ 13 → NextFrame s.dev c f →
       Runs (.hostReservedOpFrame c body crc) s fun d =>
         Accepted s.dev d c f ∧ (d.host c).beats = (s.dev.host c).beats ++ [(BitVec.ofNat 16 (1 + x.tag.toNat * 4), statusData (hostTag c x) 6)]
           ∧ rbit (d.reg (rHpErr c)) 26 = true ∧ d.dram = s.dev.dram ∧ d.chans = s.dev.chans) ∧
  (∀ (s : State) (c : Fin 32) (body : BitVec 64),
     let crc := crc16 (toLe 8 body.toNat)
     let h := s.dev.host c
     let rack := BitVec.ofNat 8 (bits body.toNat 11 4)
     s.dev.sys.phase.live = true → h.up = true → unseqOk body = true →
       ((frameF body).op = 0 → exec (.hostIdleFrame c body crc) s = .next { s with dev := s.dev.settle }) ∧
       ((frameF body).op = 14 → Runs (.hostLinkFrame c body crc) s fun d =>
         (d.host c).lastRack = rack ∧ (d.host c).expSeq = h.expSeq ∧ (d.host c).replay = bit body.toNat 12 ∧
           (d.host c).beats = ((h.held.filter fun b => !decide ((rack - b.rseq).toNat < 128)).map fun b => (b.info, b.data)) ++ h.outq.map fun b => (b.info, b.data)) ∧
       ((frameF body).op = 15 → bits body.toNat 7 4 = 1 → Runs (.hostTrainFrame c body crc) s fun d =>
         (d.host c).up = false ∧ (d.host c).training = some .service ∧ (d.host c).attempts = 0 ∧
           (d.host c).expSeq = h.expSeq ∧ (d.host c).beats = h.beats))

/-- R68, R78, R139: a read, a write or a masked write in sequence that passes its checks enters its channel's ingress.

R68: the last data beat of a waiting write, when it checks, has the write accepted and taken by its channel. -/
def Obligations.HostFrameEntersMemory : Prop :=
  (∀ (s : State) (c : Fin 32) (body : BitVec 64) (crc : BitVec 16) (mask : BitVec 64) (maskCrc : BitVec 16) (beats : List HostBeat),
     let x := frameF body
     let rd : FrameIn := { body := body, crc := crc, mask := 0, maskCrc := 0, beats := [] }
     let wr : FrameIn := { body := body, crc := crc, mask := 0, maskCrc := 0, beats := beats }
     let wm : FrameIn := { body := body, crc := crc, mask := mask, maskCrc := maskCrc, beats := beats }
     badRequest x = false → x.addr < 2 ^ 36 → s.dev.memStatus c x = 0 →
       (x.op = 1 → NextFrame s.dev c rd → Runs (.hostRd c body crc) s fun d => Enters s.dev d c rd ∧ (d.host c).inError = false) ∧
       (x.op = 2 → NextFrame s.dev c wr → Runs (.hostWr c body crc beats) s fun d => Enters s.dev d c wr ∧ (d.host c).inError = false) ∧
       (x.op = 3 → NextFrame s.dev c wm → Runs (.hostWrm c body crc mask maskCrc beats) s fun d => Enters s.dev d c wm ∧ (d.host c).inError = false)) ∧
  (∀ (s : State) (c : Fin 32) (f : FrameIn) (b : HostBeat),
     let g : FrameIn := { f with beats := f.beats ++ [b] }
     let x := frameF f.body
     s.dev.sys.phase.live = true → (s.dev.host c).up = true → (s.dev.host c).waiting = some f → (s.dev.host c).behind = [] →
       g.partsOk = some true → badRequest x = false → x.addr < 2 ^ 36 → s.dev.memStatus c x = 0 →
       Runs (.hostWriteBeat c b) s fun d => Enters s.dev d c g ∧ (d.host c).waiting = none)

/-- R61, R68, R73: the acknowledgement timer and the credit return send a link beat that acknowledges every accepted frame and
returns every freed credit; a read's word goes out as a data beat with its tag, its index and its poison.

R143: that of a class-0 read goes before the beats that wait, so its place is stated where none waits. -/
def Obligations.HostBeatsGoOut : Prop :=
  ∀ (s : State) (c : Fin 32), s.dev.sys.phase.live = true → (s.dev.host c).up = true → (s.dev.host c).down = false →
    let h := s.dev.host c
    (h.unacked ≠ 0 → Runs (.hostAckTimer c) s fun d =>
      (d.host c).unacked = 0 ∧ (d.host c).beats = h.beats ++ [linkBeatOf h false h.askTrain] ∧
        (h.unacked < 32 → h.unackedSince + 80 ≤ d.clock)) ∧
    (h.rqFreed ≠ 0 ∨ h.wdFreed ≠ 0 → Runs (.hostCreditReturn c) s fun d =>
      (d.host c).rqFreed = 0 ∧ (d.host c).wdFreed = 0 ∧ (d.host c).rqGiven = h.rqGiven + BitVec.ofNat 16 h.rqFreed ∧
        (d.host c).wdGiven = h.wdGiven + BitVec.ofNat 16 h.wdFreed ∧
        (d.host c).beats = h.beats ++ [linkBeatOf h false h.askTrain]) ∧
    (∀ (k : Fin 32) (i : Nat) (r : ReadyWord) (t : HostTag), nextReady (s.dev.chan k).readyQ = some (i, r) → r.origin = .host t →
      t.ch = c → (h.outq = [] ∨ r.cls ≠ 0) → Runs (.hostReadDataReturn k) s fun d =>
        (d.chan k).readyQ = dropAt (s.dev.chan k).readyQ i ∧ (d.host c).beats = h.beats ++
          [(BitVec.ofNat 16 (t.tag.toNat * 4 + r.index.toNat * 2 ^ 11 + (if r.poison then 2 ^ 13 else 0)), r.data)])

/-- R66, R68, R72, R73: a corrupt frame on a channel without an open error is counted, answered by one NAK and marks the
channel; it executes nothing. After eight failed rounds the link failure is declared and the channel trains. A ninth error in a
row is not answered by NAK: the eighth round has failed (log entry 158). -/
def Obligations.HostChannelErrors : Prop :=
  ∀ (s : State) (c : Fin 32), s.dev.sys.phase.live = true → (s.dev.host c).up = true → (s.dev.host c).down = false →
    let h := s.dev.host c
    (∀ cause : Fin 3, h.inError = false → h.rounds < 8 → Runs (.corruptFrame c cause) s fun d =>
      (d.host c).inError = true ∧ (d.host c).nakTime = some s.dev.clock ∧ (d.host c).expSeq = h.expSeq ∧
        (d.host c).beats = h.beats ++ [linkBeatOf h true h.askTrain] ∧
        d.reg64 (rHpCrc c) = s.dev.reg64 (rHpCrc c) + 1 ∧ (cause = 1 → rbit (d.reg (rHpErr c)) 28 = true) ∧
        (cause = 2 → rbit (d.reg (rHpErr c)) 29 = true) ∧ d.chans = s.dev.chans ∧ d.dram = s.dev.dram) ∧
    (∀ cause : Fin 3, h.inError = false → 8 ≤ h.rounds → Runs (.corruptFrame c cause) s fun d =>
      (d.host c).rounds = 9 ∧ (d.host c).beats = h.beats ∧ (d.host c).expSeq = h.expSeq) ∧
    (9 ≤ h.rounds ∨ 9 ≤ h.rnaks → Runs (.hostLinkFail c) s fun d =>
      (d.host c).up = false ∧ (d.host c).training = some .linkFail ∧ (d.host c).expSeq = h.expSeq ∧ (d.host c).beats = h.beats ∧
        rbit (d.reg (rHpErr c)) 31 = true ∧ rbit (d.reg rCpDevsrc) 31 = true)

/-- R72, R73, R75, R76, R86: training ends in normal operation, with 128 and 512 credits and SEQ 0 after initial training and
with the sequence kept after retraining; the third failure, or the one after a link failure, takes the channel down. HP_CTRL asks
for retraining and revives a channel that is down. -/
def Obligations.HostTraining : Prop :=
  ∀ (s : State) (c : Fin 32) (ok : BitVec 68) (completed : Bool) (rack : BitVec 8) (ag : Agent),
    let h := s.dev.host c
    (∀ cause, s.dev.sys.phase.live = true → h.training = some cause → (s.dev.permafrost = true → c = 0) →
      Runs (.hostTrainingAttempt c ok completed rack) s fun d =>
        (completed = true → ok = BitVec.allOnes 68 → (d.host c).up = true ∧ (d.host c).training = none ∧
          (cause = .start → (d.host c).expSeq = 0 ∧ (d.host c).rqGiven = 128 ∧ (d.host c).wdGiven = 512 ∧ (d.host c).beats = []) ∧
          (cause ≠ .start → (d.host c).expSeq = h.expSeq)) ∧
        (completed = false ∨ ok ≠ BitVec.allOnes 68 →
          (cause = .linkFail ∨ 2 ≤ h.attempts → (d.host c).up = false ∧ (d.host c).down = true ∧ (d.host c).training = none ∧
            rbit (d.reg (rHpErr c)) 30 = true) ∧
          (cause ≠ .linkFail → h.attempts < 2 → (d.host c).training = some cause ∧ (d.host c).attempts = h.attempts + 1))) ∧
    (Writes s.dev ag (rHpCtrl c) → h.up = true → h.down = false → Runs (.hpCtrlRetrain ag c) s fun d =>
      (d.host c).askTrain = true ∧ (d.host c).beats = h.beats ++ [linkBeatOf h false true]) ∧
    (Writes s.dev ag (rHpCtrl c) → h.down = true → Runs (.hpCtrlRevive ag c) s fun d =>
      (d.host c).down = false ∧ (d.host c).training = some .start)

/-! ## Control space, rings and the command processor (chapters 1, 3 and 13) -/

/-- R10: a register that only stores takes the written value in its RW bits, in its RWS bits from the secure world, and clears a
W1C bit that is written 1; every other bit and every other register stay. Fields with a range store its nearer limit. -/
def Obligations.RegisterWriteStores : Prop :=
  ∀ (s : State) (ag : Agent) (off : BitVec 24) (v : Reg) (row : RegRow),
    let r := s.dev.rights ag
    let o := off.toNat
    s.dev.reaches ag = true → ag.kind ≠ 1 → o % 4 = 0 → regRow o = some row → row.half = 0 → (row.rws ≠ 0 → r.secure = true) →
      s.dev.letIn r o = .ok → s.dev.wordClosed r (o - o % 64) true = false → s.dev.writeAction r o v = none →
      Runs (.registerWrite ag off v) s fun d =>
        (∃ x : Reg, (∀ k, k < 32 → x.getLsbD k =
            if row.w1c.getLsbD k && v.getLsbD k then false
            else if row.rw.getLsbD k || (r.secure && row.rws.getLsbD k) then v.getLsbD k else (s.dev.reg o).getLsbD k) ∧
          d.reg o = if row.rw ||| (if r.secure then row.rws else 0) = 0 then x else storeLimit o x) ∧
        (∀ p, p ≠ o → d.reg p = s.dev.reg p) ∧ d = ({ s.dev with cs := d.cs } : Dev).settle

/-- R92, R93: a doorbell that passes its checks moves TAIL and CHEAD as its VALID bits say, when they lie in range; a TAIL out
of range puts the ring in error with code 1.

R94: a doorbell-status read that passes its checks is answered by one data beat with the ring's status. -/
def Obligations.Doorbells : Prop :=
  (∀ (s : State) (n : Fin 1024) (srcid : BitVec 6) (secure : Bool) (data : Line) (mask : BitVec 64),
     let x := doorbellData data mask
     let r := s.dev.ring n
     let t := BitVec.ofNat 32 x
     let h := BitVec.ofNat 32 (fieldAt x 4 4)
     s.dev.sys.phase.live = true → (s.dev.host (n.val / 32)).up = true → s.dev.doorbellStatus n srcid.toNat secure = 0 →
       fieldAt x 8 1 < 4 → x >>> 72 = 0 →
       ((fieldAt x 8 1 % 2 = 1 → (t - r.head).toNat ≤ 2 ^ r.log2 ∧ (t - r.tail).toNat ≤ 2 ^ r.log2) →
         (2 ≤ fieldAt x 8 1 → (h - r.chead).toNat ≤ (r.ctail - r.chead).toNat) →
         Runs (.doorbellWrite n srcid secure data mask) s fun d =>
           (d.ring n).tail = (if fieldAt x 8 1 % 2 = 1 then t else r.tail) ∧
           (d.ring n).chead = (if 2 ≤ fieldAt x 8 1 then h else r.chead) ∧ (d.ring n).head = r.head ∧ (d.ring n).ctail = r.ctail ∧
           (d.ring n).state = r.state ∧ (∀ m, m ≠ n.val → d.ring m = s.dev.ring m) ∧ d = ({ s.dev with rings := d.rings } : Dev).settle) ∧
       (fieldAt x 8 1 = 1 → r.state ≠ 2 → ¬ ((t - r.head).toNat ≤ 2 ^ r.log2 ∧ (t - r.tail).toNat ≤ 2 ^ r.log2) →
         Runs (.doorbellWrite n srcid secure data mask) s fun d =>
           (d.ring n).state = 2 ∧ (d.ring n).error = 1 ∧ (d.ring n).tail = r.tail)) ∧
  (∀ (s : State) (n : Fin 1024) (srcid : BitVec 6) (secure : Bool) (tag : BitVec 9),
     let c := n.val / 32
     s.dev.sys.phase.live = true → (s.dev.host c).up = true → (s.dev.host c).down = false →
       s.dev.doorbellStatus n srcid.toNat secure = 0 → (∀ x ∈ (s.dev.host c).tags, x.1 ≠ tag) →
       Runs (.doorbellStatusRead n srcid secure tag) s fun d =>
         (d.host c).beats = (s.dev.host c).beats ++ [(BitVec.ofNat 16 (tag.toNat * 4), s.dev.ringStatus n)] ∧
           d = ({ s.dev with hosts := d.hosts } : Dev).settle)

/-- R97, R101: a running ring with a packet and a free slot fetches the packet at HEAD; a packet with the next ticket starts.

That a packet with FENCE is fetched no earlier than it may start is log entry 74. -/
def Obligations.PacketFetchStarts : Prop :=
  ∀ (s : State) (n : Fin 1024) (w : WordRead),
    let r := s.dev.ring n
    let a := r.pktAddr r.head
    s.dev.sys.phase.live = true → rbit (s.dev.reg rCpStat) 31 = true → r.state = 1 → r.head ≠ r.tail → s.dev.ringHeld n = false →
      r.ue = false → s.dev.regionHeld a = false → s.dev.mayAccess r.access a false = true →
      (s.dev.tsvRead (r.mover n) (s.dev.wordOf a)).1 = some w → w.poison = false → (w.data.truncate 32 - r.hticket : BitVec 32) = 1 →
      (fieldAt w.data.toNat 5 1 % 2 = 1 → s.dev.ringQuiet n = true) →
      Runs (.packetFetch n) s fun d =>
        (d.ring n).head = r.head + 1 ∧ (d.ring n).hticket = w.data.truncate 32 ∧ (d.ring n).tail = r.tail ∧
          ∃ c : Cmd, d.cmds.map (fun x => (x.ring, x.idx)) = s.dev.cmds.map (fun x => (x.ring, x.idx)) ++ [(n, r.head)] ∧
            c ∈ d.cmds ∧ c.ring = n ∧ c.idx = r.head ∧ c.packet = w.data ∧ c.field = r.field ∧ c.secure = r.secure ∧
            (s.dev.startStatus c = 0 → c.done = none ∧ c.begun = false) ∧
            (s.dev.startStatus c ≠ 0 → ∃ e, c.done = some e ∧ e.status = BitVec.ofNat 8 (s.dev.startStatus c))

/-- R105, R237, R337: a LAUNCH whose checks pass starts every floe that it names at ENTRY with its counters set, and with its
objects cleared.

R98, R106: an NBO_POST posts the next descriptor of its list at the near-bank port of the descriptor's channel.

One NBO for each execution of NBO_POST is log entry 27. -/
def Obligations.LaunchAndNboPost : Prop :=
  (∀ (s : State) (n : Fin 1024) (i : BitVec 32) (c : Cmd),
     let base := c.arg 16 2
     let cnt := c.arg 18 2
     let len := c.arg 20 4
     let as := (List.range (len / 64)).map fun k => c.arg 32 8 + 64 * k
     Started s.dev n i 1 c → c.begun = false → 1 ≤ cnt → base + cnt ≤ 128 → len ≤ 4096 → len % 64 = 0 →
       addrOk (c.arg 24 8) 32 = true → addrOk (c.arg 32 8) 64 = true → s.dev.rangesStatus c.access [(c.arg 32 8, len, false)] = 0 →
       s.dev.semOk c = true → (∀ f ∈ c.launchSet, s.dev.floeOwned c f = true ∧
         ∃ p, s.dev.slotOf f = some p ∧ ((s.dev.floe p).st = .idle ∨ (s.dev.floe p).st = .halted)) →
       (∀ a ∈ as, s.dev.regionHeld a = false) → (∃ ws, (s.dev.tsvReads c.mover as).1 = some ws) →
       Runs (.launch n i) s fun d =>
         (∀ k p, k < cnt → s.dev.slotOf (base + k) = some p →
           (d.floe p).st = .running ∧ (d.floe p).pc = BitVec.ofNat 36 (c.arg 24 8) ∧ (d.floe p).launch = some (n, i) ∧
             (d.floe p).n = [BitVec.ofNat 48 (base + k), BitVec.ofNat 48 k, BitVec.ofNat 48 cnt, BitVec.ofNat 48 len, 0, 0, 0, 0] ∧
             (d.logi (base + k)).flags = 0 ∧ (d.logi (base + k)).counters = [] ∧ (d.logi (base + k)).mark = none) ∧
         ∃ c', d.cmd n i = some c' ∧ c'.begun = true ∧ c'.done = none ∧ c'.floes = c.launchSet.map (BitVec.ofNat 7)) ∧
  (∀ (s : State) (n : Fin 1024) (i : BitVec 32) (c : Cmd) (w : WordRead),
     let a := c.arg 24 8 + 64 * c.pos
     let k := (nboDesc w.data).ch
     Started s.dev n i 2 c → (c.begun = false → 1 ≤ c.arg 16 4 ∧ c.arg 16 4 ≤ 4096 ∧ addrOk (c.arg 24 8) 64 = true ∧
         s.dev.rangesStatus c.access [(c.arg 24 8, 64 * c.arg 16 4, false)] = 0 ∧ s.dev.semOk c = true) →
       c.pos < c.arg 16 4 → (∀ x ∈ s.dev.nbos, ∀ m j p, x.poster = .ring m j p → m = n → x.accepted = true) →
       s.dev.regionHeld a = false → (s.dev.tsvRead c.mover (s.dev.wordOf a)).1 = some w →
       Runs (.nboPost n i) s fun d =>
         (∃ y : Nbo, d.nbos = s.dev.nbos ++ [y] ∧ y.id = s.dev.nextNbo ∧ y.desc = w.data ∧ y.poster = .ring c.ring i c.pos ∧
           y.field = some c.field ∧ y.secure = c.secure ∧ y.accepted = false) ∧
         (d.chan k).nearWait = (s.dev.chan k).nearWait ++ [s.dev.nextNbo] ∧ d.nextNbo = s.dev.nextNbo + 1 ∧
         ∃ c', d.cmd n i = some c' ∧ c'.pos = c.pos + 1 ∧ c'.begun = true)

/-- R107: the last word of a COPY or FILL reaches its destination, and the command ends: with OK when no word was poisoned, else
with POISON and their number.

The words of one execution are an operand (log entry 134). -/
def Obligations.CopyAndFillEnd : Prop :=
  ∀ (s : State) (n : Fin 1024) (i : BitVec 32) (c : Cmd) (words : Nat),
    let dst := c.arg 24 8 + 64 * c.pos
    let len := c.arg 32 8
    1 ≤ words → c.begun = true → len = 64 * (c.pos + 1) → s.dev.cpWaits c.mover dst = false → s.dev.wordDown (s.dev.wordOf dst) = false →
      (∀ w, Started s.dev n i 3 c → let src := c.arg 16 8 + 64 * c.pos
        s.dev.rangesStatus c.access [(src, 64, false), (dst, 64, true)] = 0 → s.dev.regionHeld src = false →
        (s.dev.tsvRead c.mover (s.dev.wordOf src)).1 = some w → Runs (.copy n i words) s fun d =>
          (d.seen (s.dev.wordOf dst)).data = w.data ∧ (d.seen (s.dev.wordOf dst)).poison = w.poison ∧
            (if c.count + w.poison.toNat = 0 then Ended d n i 0 0 0 else Ended d n i 0xB (c.count + w.poison.toNat) 0)) ∧
      (Started s.dev n i 4 c → s.dev.rangesStatus c.access [(dst, 64, true)] = 0 → Runs (.fill n i words) s fun d =>
        (∀ j, j < 8 → (d.seen (s.dev.wordOf dst)).data.extractLsb' (64 * j) 64 = BitVec.ofNat 64 (c.arg 40 8)) ∧
          (d.seen (s.dev.wordOf dst)).poison = false ∧ (if c.count = 0 then Ended d n i 0 0 0 else Ended d n i 0xB c.count 0))

/-- R560: a QUERY whose checks pass writes its report to DEST and ends with OK; of the 64 words of QUERY_FLOES the last is
stated.

Who may name an unconfigured ring is log entry 52. -/
def Obligations.QueriesReport : Prop :=
  ∀ (s : State) (n : Fin 1024) (i : BitVec 32) (c : Cmd),
    let dest := c.arg 24 8
    let last := dest + 64 * 63
    let ready := fun (words : Nat) => Started s.dev n i 6 c ∧ addrOk dest 4096 = true ∧
      s.dev.rangesStatus c.access [(dest, 64 * words, true)] = 0 ∧ s.dev.semOk c = true ∧
      (∀ k, k < words → s.dev.cpWaits c.mover (dest + 64 * k) = false) ∧ s.dev.wordDown (s.dev.wordOf (dest + 64 * (words - 1))) = false
    (ready 1 → c.arg 16 1 = 0 → c.arg 18 2 < 1024 → (s.dev.ring (c.arg 18 2)).ownedBy c.field = true →
      Runs (.queryRing n i) s fun d => (d.seen (s.dev.wordOf dest)).data = s.dev.queryRing (c.arg 18 2) ∧ Ended d n i 0 0 0) ∧
    (ready 1 → c.arg 16 1 = 2 → c.arg 18 2 = 0 →
      Runs (.queryUsage n i) s fun d => (d.seen (s.dev.wordOf dest)).data = s.dev.queryUsage c.field ∧ Ended d n i 0 0 0) ∧
    (ready 64 → c.arg 16 1 = 1 → c.arg 18 2 = 0 →
      Runs (.queryFloes n i) s fun d => (d.seen (s.dev.wordOf last)).data =
        BitVec.ofNat 512 (s.dev.queryFloe c.field 126 + s.dev.queryFloe c.field 127 * 2 ^ 256) ∧ Ended d n i 0 0 0)

/-- R119, R122: MSG posts its message at the end of an inbox that has room.

R108, R266, R380, R383: FREEZE freezes a floe with cause 1 and waits for its fence; THAW returns a fenced floe of a slot in
service to IDLE with its objects cleared, and ends with OK. -/
def Obligations.FloeCommands : Prop :=
  (∀ (s : State) (n : Fin 1024) (i : BitVec 32) (c : Cmd),
     let f := c.arg 16 2
     Started s.dev n i 7 c → c.posted = false → f < 128 → s.dev.floeOwned c f = true → s.dev.semOk c = true →
       s.dev.frozenFloe f = false → (s.dev.logi f).data.length < 64 →
       Runs (.msg n i) s fun d =>
         (∃ m : Msg, (d.logi f).data = (s.dev.logi f).data ++ [m] ∧ m.cmd = some (c.ring, i) ∧
           m.bytes = msgBytes (2 ^ 15 + n) (s.dev.ring n).epoch.toNat c.ticket.toNat 0 (c.arg 24 24)) ∧
         (∃ c', d.cmd n i = some c' ∧ c'.posted = true ∧ c'.done = none) ∧
         d = ({ s.dev with cmds := d.cmds, logical := d.logical } : Dev).settle) ∧
  (∀ (s : State) (n : Fin 1024) (i : BitVec 32) (c : Cmd) (p : Nat),
     let f := c.arg 16 2
     f < 128 → s.dev.floeOwned c f = true → s.dev.semOk c = true → s.dev.slotOf f = some p →
       (Started s.dev n i 8 c → c.begun = false → (s.dev.floe p).st ≠ .frozen → (s.dev.floe p).st ≠ .unassigned →
         Runs (.freeze n i) s fun d =>
           (d.floe p).st = .frozen ∧ (d.floe p).fencing = true ∧ (d.floe p).ident = (s.dev.floe p).ident ∧
             rbit (d.reg (rFreeze p)) 31 = true ∧ fld (d.reg (rFreeze p)) 27 24 = 1 ∧ d.reg64 (rFreezeTime p) = s.dev.time ∧
             ∃ c', d.cmd n i = some c' ∧ c'.begun = true ∧ c'.done = none) ∧
       (Started s.dev n i 9 c → (s.dev.floe p).st = .frozen → (s.dev.floe p).fencing = false → (s.dev.floe p).retired = false →
         Runs (.thaw n i) s fun d =>
           (d.floe p).st = .idle ∧ (d.floe p).ident = some (BitVec.ofNat 7 f) ∧ (d.floe p).desc = [] ∧ (d.floe p).halt = none ∧
             (d.logi f).flags = 0 ∧ (d.logi f).counters = [] ∧ (d.logi f).limits = [] ∧ (d.logi f).data = [] ∧ Ended d n i 0 0 0))

/-- R88, R109: RING_CREATE, whose checks pass, goes on through the words of its fills while the next finds room, and writes the
last of them; once all are written it sets the ring running from its beginning. RING_DESTROY takes a ring out of service.

R90, R109: a secure write of ADM_CFG with EN creates the field's administrative ring from its registers, when the ring
number is free and the parameters hold.

The range checks of RING_CREATE are log entry 76. -/
def Obligations.RingsAreCreated : Prop :=
  (∀ (s : State) (n : Fin 1024) (i : BitVec 32) (c : Cmd),
     let k := c.arg 16 2
     let t := s.dev.ring k
     let log2 := c.arg 18 1
     k < 1024 → s.dev.semOk c = true →
       (Started s.dev n i 0x10 c → t.heldRecs = [] → c.pos < fillWords log2 →
         (c.begun = true ∨ c.arg 19 1 < 4 ∧ ringParamsOk log2 (c.arg 24 8) (c.arg 32 8) (c.arg 40 8) = true ∧
           s.dev.rangesStatus { field := some c.field, secure := (c.arg 19 1).testBit 1, host := false }
             (ringRanges log2 (c.arg 24 8) (c.arg 32 8) (c.arg 40 8)) = 0 ∧
           (t.state = 0 ∨ (t.field = c.field ∧ t.state ≠ 1 ∧ s.dev.ringActive k = []))) →
         let x := fillAt log2 (c.arg 24 8) (c.arg 32 8) (BitVec.ofNat 32 (c.arg 20 4)) c.pos
         s.dev.cpWaits (fillMover c.mover.origin c.field) x.1 = false → Runs (.ringCreate n i) s fun d =>
           (∃ c', d.cmd n i = some c' ∧ c'.begun = true ∧ c.pos < c'.pos) ∧
             (c.pos + 1 = fillWords log2 → s.dev.wordDown (s.dev.wordOf x.1) = false → (d.seen (s.dev.wordOf x.1)).data = x.2)) ∧
       (Started s.dev n i 0x10 c → c.begun = true → fillWords log2 ≤ c.pos → t.heldRecs = [] →
         (t.state = 0 ∨ (t.field = c.field ∧ t.state ≠ 1)) → Runs (.ringCreate n i) s fun d =>
           (d.ring k).state = 1 ∧ (d.ring k).field = c.field ∧ (d.ring k).secure = (c.arg 19 1).testBit 1 ∧ (d.ring k).admin = false ∧
             (d.ring k).log2 = log2 ∧ (d.ring k).base = BitVec.ofNat 36 (c.arg 24 8) ∧ (d.ring k).cpl = BitVec.ofNat 36 (c.arg 32 8) ∧
             (d.ring k).hist = BitVec.ofNat 36 (c.arg 40 8) ∧ (d.ring k).tail = 0 ∧ (d.ring k).head = 0 ∧ (d.ring k).ctail = 0 ∧
             (d.ring k).chead = 0 ∧ (d.ring k).hticket = BitVec.ofNat 32 (c.arg 20 4) - 1 ∧ (d.ring k).nacc = 0 ∧
             (d.ring k).epoch = t.epoch + 1 ∧ Ended d n i 0 0 0) ∧
       (Started s.dev n i 0x11 c → t.ownedBy c.field = true → t.admin = false → s.dev.ringActive k = [] → t.heldRecs = [] →
         Runs (.ringDestroy n i) s fun d => (d.ring k).state = 0 ∧ Ended d n i 0 0 0)) ∧
  (∀ (s : State) (ag : Agent) (f : Fin 16) (cfg : Reg),
     let v := (cfg ||| 0x80000000) &&& 0xE01F03FF
     let k := fld v 9 5 * 32 + fld v 4 0
     s.dev.reaches ag = true → ag.kind ≠ 1 → (s.dev.rights ag).secure = true → rbit (s.dev.reg (rAdmCfg f)) 31 = false →
       rbit (s.dev.reg rCpStat) 31 = true → s.dev.admOk f v = true →
       Runs (.admRingEnable ag f cfg) s fun d =>
         d.reg (rAdmCfg f) = v ∧ (d.ring k).state = 1 ∧ (d.ring k).admin = true ∧ (d.ring k).field = BitVec.ofNat 4 f.val ∧
           (d.ring k).secure = rbit cfg 30 ∧ (d.ring k).log2 = fld cfg 20 16 ∧ (d.ring k).tail = 0 ∧ (d.ring k).head = 0 ∧
           (d.ring k).ctail = 0 ∧ (d.ring k).chead = 0 ∧ (d.ring k).hticket = s.dev.reg (rAdmTicket f) - 1 ∧
           (d.ring k).epoch = (s.dev.ring k).epoch + 1 ∧ (∀ m, m ≠ k → d.ring m = s.dev.ring m))

/-- R446, R453, R454, R460, R461: at its switch point a FIELD_CFG changes the owner of drifts, regions and semaphores, and stops
or starts a field's rings.

R313, R454, R455: once the accesses and NBOs of the old state and the commands on the entries that it invalidated have ended, a
FIELD_CFG ends with OK; each region to be zeroed then holds zeros and is held no longer. The zeros of a mirrored region are
written word by word before (log entry 139). -/
def Obligations.FieldCfgSwitches : Prop :=
  (∀ (s : State) (n : Fin 1024) (i : BitVec 32) (c : Cmd) (x : Nat),
     let field := fieldAt x 0 1
     (CfgPasses s.dev n i c 0 true x → Runs (.fieldCfgDriftsAssign n i) s fun d =>
       ∀ k, k < 32 → (fieldAt x 8 4).testBit k = true →
         d.reg (rDriftField k) = BitVec.ofNat 32 (2 ^ 31 + fieldAt x 12 1 / 2 * 2 ^ 30 + field) ∧
         ∀ p, p < 4 → (d.logi (4 * k + p)).flags = 0 ∧ (d.logi (4 * k + p)).mark = none) ∧
     (CfgPasses s.dev n i c 0 false x → Runs (.fieldCfgDriftsRelease n i) s fun d =>
       ∀ k, k < 32 → (fieldAt x 8 4).testBit k = true → d.reg (rDriftField k) = 0) ∧
     (CfgPasses s.dev n i c 1 true x → Runs (.fieldCfgLease n i) s fun d =>
       (∀ k, k < fieldAt x 12 4 → d.reg (rRegion (fieldAt x 8 4 + k)) =
         if rbit (BitVec.ofNat 32 (fieldAt x 16 4)) 31 then BitVec.ofNat 32 (fieldAt x 16 4) ||| BitVec.ofNat 32 (field * 2 ^ 24)
         else BitVec.ofNat 32 (fieldAt x 16 4)) ∧
       ∀ r, (r < fieldAt x 8 4 ∨ fieldAt x 8 4 + fieldAt x 12 4 ≤ r) → r < 32768 → d.reg (rRegion r) = s.dev.reg (rRegion r)) ∧
     (CfgPasses s.dev n i c 2 true x → Runs (.fieldCfgSemsGrant n i) s fun d =>
       ∀ k, k < fieldAt x 10 2 → let m := fieldAt x 8 2 + k
         d.semOwned (some (BitVec.ofNat 4 field)) m = true ∧ d.sem m = 0 ∧ d.semPoisoned m = false) ∧
     (CfgPasses s.dev n i c 2 false x → Runs (.fieldCfgSemsWithdraw n i) s fun d =>
       ∀ k, k < fieldAt x 10 2 → ∀ f, d.semOwned f (fieldAt x 8 2 + k) = false) ∧
     (CfgPasses s.dev n i c 3 true x → Runs (.fieldCfgRingsStop n i) s fun d =>
       ∀ k, d.ring k = if (s.dev.ring k).field = BitVec.ofNat 4 field ∧ (s.dev.ring k).state = 1 ∧ (s.dev.ring k).admin = false
         then { s.dev.ring k with state := 3 } else s.dev.ring k) ∧
     (CfgPasses s.dev n i c 3 false x → Runs (.fieldCfgRingsStart n i) s fun d =>
       ∀ k, d.ring k = if (s.dev.ring k).field = BitVec.ofNat 4 field ∧ (s.dev.ring k).state = 3
         then { s.dev.ring k with state := 1 } else s.dev.ring k)) ∧
  (∀ (s : State) (n : Fin 1024) (i : BitVec 32) (c : Cmd),
     let x := (c.buffer.head?.getD 0).toNat
     let rs := if c.arg 16 1 = 1 then (List.range (fieldAt x 12 4)).map fun k => fieldAt x 8 4 + k else []
     let port := fun (r : PortReq) => r.old && rs.contains (r.addr.toNat / 2 ^ 21)
     let sched := fun (r : SchedReq) => r.port != 4 && decide (r.since ≤ c.pos) && rs.contains (s.dev.addrOf r.word / 2 ^ 21)
     Started s.dev n i 0x12 c → c.begun = true → (∀ k ∈ c.nboWaits, s.dev.nbo k = none) → (∀ w ∈ c.entryWaits, s.dev.entryOpen w = false) →
       ((fieldAt x 16 4).testBit 19 = true → 32768 * (rs.filter s.dev.zeroing.contains).length ≤ c.count) →
       (∀ e ∈ s.dev.chans, e.2.hostIn.any port = false ∧ e.2.driftIn.any port = false ∧ e.2.peerIn.any port = false ∧
         e.2.reqs.any sched = false ∧ (e.2.recovery.any fun v => v.waiting.any sched) = false) →
       Runs (.fieldCfgSwitchDone n i) s fun d =>
         Ended d n i 0 0 0 ∧ (∀ r ∈ rs, r ∉ d.zeroing) ∧
           ((fieldAt x 16 4).testBit 19 = false → ∀ b, s.dev.addrOf (b / 64) / 2 ^ 21 ∈ rs → s.dev.addrOf (b / 64) / 2 ^ 21 ∈ s.dev.zeroing → d.dram.byte b = 0))

namespace Sys2Proof.Claims

/-- The record of a command that ends so (R111, R114). -/
def recordFor (c : Cmd) (i : BitVec 32) (e : CmdEnd) : HeldRec :=
  { idx := i, bytes := recordBytes c.ticket.toNat c.opcode e.status.toNat false e.r0.toNat e.r1.toNat, dupOf := none
    hist := some c.ticket.toNat, noattn := c.flags.testBit 1, sem := some c.sem }

/-- The ring may write 32 bytes at an address now (R109, R115, R371). -/
def MayWrite (d : Dev) (r : Ring) (a : Nat) : Prop := a % 32 = 0 ∧ d.mayAccess r.access a true = true ∧ d.wordDown (d.wordOf a) = false

/-- A record, and its history, can be written now (R113, R114). -/
def RecordOpen (d : Dev) (n : Nat) (h : HeldRec) : Prop :=
  let r := d.ring n
  r.cplDead = false ∧ d.recordWaits n h = false ∧ MayWrite d r (r.cplAddr h.idx)
    ∧ ∀ t, h.hist = some t → MayWrite d r (r.histAddr t) ∧ d.wordOf (r.histAddr t) ≠ d.wordOf (r.cplAddr h.idx)

/-- Every agent reads these 32 bytes at an address (R149). -/
def Reads32 (d : Dev) (a : Nat) (x : BitVec 256) : Prop :=
  ∀ j, j < 32 → fieldAt (d.seen (d.wordOf a)).data.toNat (a % 64 + j) 1 = fieldAt x.toNat j 1

/-- The record of a ring has been written with its PHASE and TIME, CTAIL has moved on, then its history, then its SEM increment
(R111, R114, R118). -/
def RecordIn (d d' : Dev) (n : Nat) (h : HeldRec) : Prop :=
  let r := d.ring n
  let x := h.bytes ||| BitVec.ofNat 256 (r.phase h.idx * 2 ^ 49 + d.time.toNat * 2 ^ 64)
  Reads32 d' (r.cplAddr h.idx) x ∧ (d'.ring n).ctail = r.ctail + 1 ∧ (∀ t, h.hist = some t → Reads32 d' (r.histAddr t) x)
    ∧ (d'.ring n).attnRecs = (if h.noattn then r.attnRecs else r.attnRecs ++ [h.idx])
    ∧ ∀ q, h.sem = some q → q < 4096 → d.semOwned (some r.field) q = true → d.semPoisoned q = false → d'.sem q = d.sem q + 1

end Sys2Proof.Claims

/-- R111, R113, R114: a command that has ended leaves; its record is written when it is the next of its ring, with its history and
its SEM increment, and is held otherwise; a held record that is no duplicate's is written when its turn has come. -/
def Obligations.RecordsAreWritten : Prop :=
  ∀ (s : State) (n : Fin 1024) (i : BitVec 32), s.dev.sys.phase.live = true →
    let r := s.dev.ring n
    (∀ c e, s.dev.cmd n i = some c → s.dev.outcome c = some e → i = r.ctail → RecordOpen s.dev n (recordFor c i e) →
      Runs (.commandEnd n i) s fun d =>
        d.cmd n i = none ∧ (d.ring n).heldRecs = r.heldRecs ∧ RecordIn s.dev d n (recordFor c i e)) ∧
    (∀ c e, s.dev.cmd n i = some c → s.dev.outcome c = some e → r.cplDead = false → i ≠ r.ctail →
      Runs (.commandEnd n i) s fun d =>
        d.cmd n i = none ∧ (d.ring n).ctail = r.ctail ∧ (d.ring n).heldRecs = r.heldRecs ++ [recordFor c i e]) ∧
    (∀ k h, findPos (fun h : HeldRec => h.idx == r.ctail) r.heldRecs 0 = some (k, h) → h.dupOf = none → RecordOpen s.dev n h →
      Runs (.heldRecordWrite n) s fun d => (d.ring n).heldRecs = dropAt r.heldRecs k ∧ RecordIn s.dev d n h)

/-- R103, R104: a NOP ends with status OK; a FENCE ends with OK once no command that it waits for is active, and waits till
then; a NOP whose SEM the field does not own ends with NOT_OWNED.

R103, R116, R117: at its timeout, without the time in which its clock paused, a LAUNCH freezes its floes and ends with TIMEOUT and their number, an NBO_POST posts no
more, and every other timed command ends with TIMEOUT. -/
def Obligations.CommandsEndAndTimeOut : Prop :=
  (∀ (s : State) (n : Fin 1024) (i : BitVec 32) (c : Cmd),
     (Started s.dev n i 0 c → s.dev.semOk c = true → Runs (.nop n i) s fun d =>
       Ended d n i 0 0 0 ∧ d = ({ s.dev.forget (fun o => o == .ring n i) with cmds := d.cmds } : Dev).settle) ∧
     (Started s.dev n i 0 c → s.dev.semOk c = false → Runs (.nop n i) s fun d => Ended d n i 5 0 0) ∧
     (Started s.dev n i 5 c → s.dev.semOk c = true → c.arg 16 1 ≤ 1 →
       ((∀ w ∈ c.awaits, s.dev.cmdOpen w.1 w.2 = false) → Runs (.fence n i) s fun d =>
         Ended d n i 0 0 0 ∧ d = ({ s.dev.forget (fun o => o == .ring n i) with cmds := d.cmds } : Dev).settle) ∧
       ((∃ w ∈ c.awaits, s.dev.cmdOpen w.1 w.2 = true) → Runs (.fence n i) s fun d =>
         ∃ c', d.cmd n i = some c' ∧ c'.done = none ∧ c'.begun = true))) ∧
  (∀ (s : State) (n : Fin 1024) (i : BitVec 32) (c : Cmd),
     s.dev.sys.phase.live = true → s.dev.cmd n i = some c → timedOp c.opcode = true → s.dev.timeoutMs c ≠ 0xFFFF →
       s.dev.outcome c = none → c.timedOut = false → s.dev.clockPaused c = false → c.since ≤ s.dev.clock →
       (c.opcode = 0x26 → ∀ x ∈ s.dev.colls, x.ring = c.ring → x.idx = c.idx → x.commit = false) →
       Runs (.commandTimeout n i) s fun d =>
         c.since + covered c.since s.dev.clock (s.dev.cmdPauses c) + 2000000 * s.dev.timeoutMs c ≤ d.clock ∧
         (c.opcode = 1 → Ended d n i 7 c.floes.length 0) ∧
         (c.opcode = 2 → ∃ c', d.cmd n i = some c' ∧ c'.timedOut = true) ∧
         (c.opcode ≠ 1 → c.opcode ≠ 2 → Ended d n i 7 0 0))

/-! ## Links, the group, collectives and the twin (chapter 12) -/

/-- R397, R404 to R407: what a LINK packet, a corrupt packet, the timers, the failure and the training of a link do to it. After a
NAK nothing is read until a code word with START = 1.

R407: HELLO ends the start of a link, in service with the other end known; LNK_CTRL asks for retraining and revives a link
that is down.

Training in service without a HELLO is log entry 116. -/
def Obligations.LinkLayer : Prop :=
  (∀ (s : State) (l : Fin 5), s.dev.sys.phase.live = true →
     let k := s.dev.link l
     let reads := fun (cw : CodeWord) => k.discard = false ∨ cw.start = true
     (k.up = true → ∀ cw hdr p seq, reads cw → parsePacket hdr 0 = (p, seq, true) → p.typ = 14 →
       Runs (.linkPacket l cw hdr) s fun d =>
       (d.link l).given = [BitVec.ofNat 16 (bits hdr.toNat 111 96), BitVec.ofNat 16 (bits hdr.toNat 127 112), BitVec.ofNat 16 (bits hdr.toNat 143 128)] ∧
         (k.outq = [] → (d.link l).held = k.held.filter fun e => decide (512 ≤ (BitVec.ofNat 10 (bits hdr.toNat 169 160) - e.1).toNat)) ∧
         (bit hdr.toNat 177 = true → rbit (s.dev.reg (rLnkCtrl l)) 29 = false → (d.link l).training = some .service)) ∧
     (k.up = true → ∀ cw hdr, k.discard = true → cw.start = false → cw.fixed = 0 →
       Runs (.linkPacket l cw hdr) s fun d => d = s.dev.settle) ∧
     (k.up = true → ∀ cw, reads cw → Runs (.peerCorruptPacket l cw 0) s fun d =>
       (d.link l).inError = true ∧ (d.link l).discard = true ∧ d.reg64 (rLnkCrc l) = s.dev.reg64 (rLnkCrc l) + 1 ∧ (d.link l).expSeq = k.expSeq ∧
         (d.link l).links.getLast? = some (k.expSeq - 1, true, k.askTrain, k.granted)) ∧
     (k.up = true → ∀ cw, reads cw → Runs (.peerCorruptPacket l cw 1) s fun d =>
       (d.link l).inError = true ∧ (d.link l).expSeq = k.expSeq ∧ d.reg64 (rLnkCrc l) = s.dev.reg64 (rLnkCrc l)) ∧
     (k.up = true → ∀ cw, k.discard = false → Runs (.peerCorruptPacket l cw 2) s fun d =>
       (d.link l).inError = true ∧ (d.link l).discard = true ∧ d.reg64 (rLnkFecUncorr l) = s.dev.reg64 (rLnkFecUncorr l) + 1) ∧
     (k.up = true → Runs (.peerAckTimer l) s fun d =>
       (d.link l).unacked = 0 ∧ k.ackAt ≤ d.clock ∧ (d.link l).links.getLast? = some (k.expSeq - 1, false, k.askTrain, k.granted)) ∧
     (k.up = true → k.held ≠ [] → Runs (.peerResendTimeout l) s fun d =>
       k.quietFrom + 4000 ≤ d.clock ∧ (d.link l).held = k.held ∧
         (k.rounds < 8 → (d.link l).replay = true ∧ (d.link l).rounds = k.rounds + 1) ∧ (8 ≤ k.rounds → (d.link l).rounds = 9)) ∧
     (k.up = true → 8 < k.rounds → rbit (s.dev.reg (rLnkCtrl l)) 29 = false → Runs (.peerLinkFail l) s fun d =>
       (d.link l).up = false ∧ (d.link l).training = some .linkFail ∧ (d.link l).rounds = 0 ∧ rbit (d.reg (rLnkErr l)) 31 = true) ∧
     (∀ ok laneOk rev pol cause, k.training = some cause → Runs (.linkTrainingAttempt l ok laneOk rev pol) s fun d =>
       (ok = true → (d.link l).reversed = rev ∧ (d.link l).polarity = pol) ∧
       (ok = true → cause = .start → (d.link l).expSeq = 0 ∧ (d.link l).nextSeq = 1 ∧ (d.link l).held.length = 1 ∧
         (d.link l).granted = [128, 128, 64] ∧ (d.link l).laneOk = laneOk) ∧
       (ok = true → cause ≠ .start → (d.link l).up = true ∧ (d.link l).training = none ∧ (d.link l).expSeq = k.expSeq) ∧
       (ok = false → (∀ p ∈ k.outq, 4 < p.typ) → cause = .linkFail ∨ 2 ≤ k.attempts → (d.link l).down = true ∧ (d.link l).up = false ∧ (d.link l).training = none))) ∧
  (∀ (s : State) (l : Fin 5),
     let k := s.dev.link l
     (∀ cw hdr data p, s.dev.sys.phase.live = true → k.up = false → k.training = some .start → k.held ≠ [] → k.discard = false ∨ cw.start = true →
       parsePacket hdr data = (p, 0, true) → p.typ = 9 → p.arg.toNat % 256 = 1 → ((idOf p.data).link = 4 ↔ l = 4) →
       Runs (.mgmtHello l cw hdr data) s fun d =>
         (d.link l).up = true ∧ (d.link l).training = none ∧ (d.link l).peer = some (idOf p.data) ∧ (d.link l).expSeq = k.expSeq + 1) ∧
     (∀ ag, Writes s.dev ag (rLnkCtrl l) → k.up = true → rbit (s.dev.reg (rLnkCtrl l)) 29 = false →
       Runs (.lnkCtrlRetrain ag l) s fun d => (d.link l).training = some .service ∧ (d.link l).up = false ∧
         (d.link l).links.getLast? = some (k.expSeq - 1, false, true, k.granted)) ∧
     (∀ ag, Writes s.dev ag (rLnkCtrl l) → k.up = false → k.down = true → rbit (s.dev.reg (rLnkCtrl l)) 29 = false →
       Runs (.lnkCtrlRevive ag l) s fun d => (d.link l).training = some .start ∧ (d.link l).down = false))

/-- R415, R418: an answer to a floe's request frees its tag and brings the read's word to the command; a request that has no
answer in time halts the floe with code 5. -/
def Obligations.AnswersReachFloes : Prop :=
  ∀ (s : State) (l : Fin 5) (cw : CodeWord) (hdr : BitVec 256) (data : Line) (p : Packet) (r : Remote) (f : BitVec 7) (e k a n : Nat) (c : ECmd),
    s.dev.slotOf f.toNat = some n → r.who = .floe f e k a → e < 6 → (s.dev.floe n).engines.length = 6 →
      (((s.dev.floe n).engine e).find? fun x => x.number == k && x.tags.contains r.tag.toNat) = some c →
      (NextPacket s.dev l cw hdr data p → l ≠ 4 → p.dst.toNat = s.dev.gdev → p.tag = r.tag →
        s.dev.remotes.find? (fun x => x.tag == r.tag) = some r →
        (p.typ = 5 → Runs (.rspData l cw hdr data) s fun d =>
          d.remotes = (s.dev.remotes.filter fun x => x.tag != r.tag) ∧
            ∃ c' ∈ (d.floe n).engine e, c'.number = k ∧ c'.got = c.got ++ [(a, p.data, p.poison)] ∧ r.tag.toNat ∉ c'.tags) ∧
        (p.typ = 6 → p.status = 0 → data = 0 → Runs (.rspStatus l cw hdr) s fun d =>
          d.remotes = (s.dev.remotes.filter fun x => x.tag != r.tag) ∧
            ∃ c' ∈ (d.floe n).engine e, c'.number = k ∧ c'.got = c.got ∧ r.tag.toNat ∉ c'.tags)) ∧
      (s.dev.sys.phase.live = true → s.dev.remotes.find? (fun x => x.tag == r.tag) = some r → (s.dev.floe n).st = .running →
        (∀ j, s.dev.route r.dst.toNat = some j → (s.dev.link j).pauseFrom = none) → ∀ t0, r.since = some t0 → t0 ≤ s.dev.clock →
        Runs (.remoteTimeout r.tag) s fun d =>
          d.remotes = (s.dev.remotes.filter fun x => x.tag != r.tag) ∧ (d.floe n).st = .halting ∧
            (d.floe n).halt = some (5, c.pc, Fin.ofNat 8 e) ∧ t0 + 2000 * fld (s.dev.reg rGrpCfg) 15 0 ≤ d.clock)

/-- R409, R411, R412, R413: how the founder admits, loses and replaces members, and how the others follow.

R419, R420: a TIME request is answered; a member sends one 1 ms after its last exchange, or 10 µs after it while it realigns; from
the stamps of the answer it steps its timebase forward, holds it at half rate or changes nothing, and more than 50 ns away it
realigns until it is within 8 ns.

Where a clause names bytes of a management packet or of its reply, their places are the model's choice (log entry 110); when
GROUP_ALIGNED is 1 is log entry 156. -/
def Obligations.GroupPackets : Prop :=
  (∀ (s : State) (l : Fin 5) (cw : CodeWord) (hdr : BitVec 256) (data : Line) (p : Packet),
     let g := s.dev.group
     (NextMgmt s.dev l cw hdr data p 0x02 → s.dev.isFounder = true → s.dev.joinReason p = 0 → Runs (.mgmtJoin l cw hdr data) s fun d =>
       d.group.set = g.set ||| BitVec.ofNat 64 (2 ^ p.dev.toNat) ∧ d.group.epoch = nextEpoch g.epoch) ∧
     (∀ n i, NextMgmt s.dev l cw hdr data p 0x03 → Waiting s.dev g.joining n i → Runs (.mgmtAdmit l cw hdr data) s fun d =>
       d.group.joining = none ∧ Ended d n i 0 0 0) ∧
     (∀ n i, NextMgmt s.dev l cw hdr data p 0x04 → Waiting s.dev g.joining n i → Runs (.mgmtRefuse l cw hdr data) s fun d =>
       d.group.joining = none ∧ Ended d n i 0x10 (fieldAt p.data.toNat 0 1) 0) ∧
     (NextMgmt s.dev l cw hdr data p 0x06 → (BitVec.ofNat 64 (fieldAt p.data.toNat 0 8)).getLsbD s.dev.gdev = true →
       Runs (.mgmtMembers l cw hdr data) s fun d => d.group.member = true ∧ d.group.set = BitVec.ofNat 64 (fieldAt p.data.toNat 0 8) ∧
         d.group.epoch = BitVec.ofNat 16 (fieldAt p.data.toNat 8 2) ∧ d.group.founder = BitVec.ofNat 6 (fieldAt p.data.toNat 10 1)) ∧
     (NextMgmt s.dev l cw hdr data p 0x07 → s.dev.isFounder = true → g.set.getLsbD p.dev.toNat = true → p.dev.toNat ≠ s.dev.gdev →
       Runs (.mgmtLeave l cw hdr data) s fun d =>
         d.group.set = g.set &&& ~~~(BitVec.ofNat 64 (2 ^ p.dev.toNat)) ∧ d.group.epoch = nextEpoch g.epoch) ∧
     (NextMgmt s.dev l cw hdr data p 0x10 → s.dev.isFounder = true → g.set.getLsbD p.dev.toNat = true → Runs (.mgmtAlive l cw hdr data) s fun d =>
       tabGet (fun _ => 0) d.group.heard p.dev.toNat = s.dev.clock ∧ d.group.set = g.set) ∧
     (∀ dev : BitVec 6, s.dev.sys.phase.live = true → s.dev.isFounder = true → dev.toNat ≠ s.dev.gdev → g.set.getLsbD dev.toNat = true →
       Runs (.memberAbsent dev) s fun d =>
         d.group.set = g.set &&& ~~~(BitVec.ofNat 64 (2 ^ dev.toNat)) ∧ d.group.epoch = nextEpoch g.epoch) ∧
     (∀ reach : BitVec 64, let set := (g.set &&& reach &&& ~~~(BitVec.ofNat 64 (2 ^ g.founder.toNat))) ||| BitVec.ofNat 64 (2 ^ s.dev.gdev)
       s.dev.sys.phase.live = true → g.member = true → s.dev.isFounder = false → (memberList set).head? = some s.dev.gdev →
       Runs (.founderTaken reach) s fun d => d.group.founder.toNat = s.dev.gdev ∧ d.group.set = set ∧ d.group.epoch = nextEpoch g.epoch)) ∧
  (∀ (s : State), s.dev.sys.phase.live = true →
     (∀ l cw hdr data p, NextMgmt s.dev l cw hdr data p 0x08 → fieldAt p.data.toNat 24 1 = 0 → (s.dev.link l).down = false →
       Runs (.mgmtTime l cw hdr data) s fun d => ∃ q ∈ sent (d.link l), q.typ = 9 ∧ q.arg = 0x08 ∧ q.dst = p.dev ∧
         fieldAt q.data.toNat 0 8 = fieldAt p.data.toNat 0 8 ∧ fieldAt q.data.toNat 8 8 = s.dev.time.toNat ∧
         fieldAt q.data.toNat 16 8 = s.dev.time.toNat) ∧
     (∀ l cw hdr data p, NextMgmt s.dev l cw hdr data p 0x09 → s.dev.group.set.getLsbD p.dev.toNat = true →
       Runs (.mgmtRealign l cw hdr data) s fun d => d.group.realign = s.dev.group.realign ||| BitVec.ofNat 64 (2 ^ p.dev.toNat)) ∧
     (∀ l cw hdr data p, NextMgmt s.dev l cw hdr data p 0x0A → s.dev.group.set.getLsbD p.dev.toNat = true →
       Runs (.mgmtAligned l cw hdr data) s fun d => d.group.realign = s.dev.group.realign &&& ~~~(BitVec.ofNat 64 (2 ^ p.dev.toNat))) ∧
     (s.dev.group.member = true → s.dev.isFounder = false →
       let asks := fun (l : Nat) (d : Dev) => d.group.exchanging = true ∧ d.group.exchangeAt = d.clock ∧
         ∃ q ∈ sent (d.link l), q.typ = 9 ∧ q.arg = 0x08 ∧ fieldAt q.data.toNat 0 8 = d.time.toNat ∧ fieldAt q.data.toNat 24 1 = 0
       (∀ l, s.dev.workingRoute s.dev.group.founder.toNat = some l → Runs .timeAlignment s fun d =>
         asks l d ∧ s.dev.group.exchangeAt + 2000000 ≤ d.clock) ∧
       (s.dev.workingRoute s.dev.group.founder.toNat = none → Runs .timeAlignment s fun d => rbit (d.reg rTimeStat) 30 = false) ∧
       (∀ l, rbit (s.dev.reg rTimeStat) 29 = true → s.dev.workingRoute s.dev.group.founder.toNat = some l → Runs .realignRepeat s fun d =>
         asks l d ∧ s.dev.group.exchangeAt + 20000 ≤ d.clock) ∧
       (∀ l cw hdr data p, NextMgmt s.dev l cw hdr data p 0x08 → fieldAt p.data.toNat 24 1 ≠ 0 → s.dev.group.exchanging = true →
         let stamp := fun (k : Nat) => BitVec.ofNat 64 (fieldAt p.data.toNat k 8)
         let theta := thetaOf (stamp 0) (stamp 8) (stamp 16) s.dev.time
         let forced := rbit (s.dev.reg rTimeStat) 29
         Runs (.mgmtTime l cw hdr data) s fun d =>
           d.group.exchanging = false ∧
           d.time = (if theta < 0 then s.dev.time + BitVec.ofNat 64 theta.natAbs else s.dev.time) ∧
           d.halfRate = (if theta < 0 then s.dev.halfRate else s.dev.halfRate + 2 * theta.toNat) ∧
           rbit (d.reg rTimeStat) 30 = decide (theta.natAbs ≤ if forced then 8 else 50) ∧
           rbit (d.reg rTimeStat) 29 = decide ((if forced then 8 else 50) < theta.natAbs) ∧
           (forced = false → 50 < theta.natAbs → d.group.realign.getLsbD s.dev.gdev = true) ∧
           (forced = true → theta.natAbs ≤ 8 → d.group.realign.getLsbD s.dev.gdev = false))))

/-- R409, R413, R435: the group commands whose checks pass.

The layout of the report is the model's choice (log entry 112); that the founder's leave ends at once is log entry 121. -/
def Obligations.GroupCommands : Prop :=
  ∀ (s : State) (n : Fin 1024) (i : BitVec 32) (c : Cmd), s.dev.semOk c = true →
    (Started s.dev n i 0x20 c → s.dev.group.member = false → Runs (.groupFound n i) s fun d =>
      d.group.member = true ∧ d.group.founder.toNat = s.dev.gdev ∧ d.group.epoch = 1 ∧
        d.group.set = BitVec.ofNat 64 (2 ^ s.dev.gdev) ∧ Ended d n i 0 0 0) ∧
    (∀ l, Started s.dev n i 0x21 c → c.begun = false → s.dev.group.joining = none → s.dev.group.member = false → c.arg 16 1 < 64 →
      s.dev.workingRoute (c.arg 16 1) = some l → (s.dev.link l).down = false → Runs (.groupJoin n i) s fun d =>
        d.group.joining = some (c.ring, c.idx) ∧ (∃ q ∈ sent (d.link l), q.typ = 9 ∧ q.arg = 0x02 ∧ q.dst.toNat = c.arg 16 1) ∧
          ∃ c', d.cmd n i = some c' ∧ c'.begun = true ∧ c'.done = none) ∧
    (Started s.dev n i 0x22 c → c.begun = false → s.dev.isFounder = true → Runs (.groupLeave n i) s fun d =>
      d.group.member = false ∧ d.group.set = 0 ∧ d.group.epoch = 0 ∧ d.colls = [] ∧ Ended d n i 0 0 0) ∧
    (Started s.dev n i 0x22 c → c.begun = false → s.dev.group.member = true → s.dev.isFounder = false → Runs (.groupLeave n i) s fun d =>
      d.group.leaving = some (c.ring, c.idx) ∧ d.colls = []) ∧
    (Started s.dev n i 0x22 c → s.dev.group.leaving = some (c.ring, c.idx) → Runs (.leaveTimeout n i) s fun d =>
      d.group.member = false ∧ Ended d n i 0 0 0 ∧ c.since + 2000000 ≤ d.clock) ∧
    (Started s.dev n i 0x27 c → addrOk (c.arg 24 8) 4096 = true → s.dev.rangesStatus c.access [(c.arg 24 8, 64, true)] = 0 →
      s.dev.cpWaits c.mover (c.arg 24 8) = false → s.dev.wordDown (s.dev.wordOf (c.arg 24 8)) = false → Runs (.groupQuery n i) s fun d =>
        (d.seen (s.dev.wordOf (c.arg 24 8))).data = s.dev.groupReport ∧ Ended d n i 0 0 0)

/-- R428, R432, R433, R434: how a pairing is made, used and lost.

TWIN_NOTICE's kind byte and the place of its UID are the model's choice (log entry 111). -/
def Obligations.Twins : Prop :=
  ∀ (s : State) (n : Fin 1024) (i : BitVec 32) (c : Cmd), s.dev.semOk c = true →
    let uid := BitVec.ofNat 64 (c.arg 24 8)
    (∀ h, Started s.dev n i 0x23 c → c.begun = false → s.dev.twin.paired = false → s.dev.twin.wants = none → (s.dev.link 4).up = true →
      (s.dev.link 4).peer = some h → s.dev.idReason h = 0 → h.uid = uid → s.dev.twin.offered = some s.dev.fuses.uid →
      Runs (.twinPair n i) s fun d => d.twin.paired = true ∧ d.twin.partner = uid ∧ d.twin.partnerHolds = true ∧ Ended d n i 0 0 0) ∧
    (Started s.dev n i 0x24 c → Runs (.twinUnpair n i) s fun d =>
      d.twin.paired = false ∧ Ended d n i 0 0 0) ∧
    (Started s.dev n i 0x25 c → c.begun = false → 1 ≤ c.arg 20 4 → c.arg 16 4 + c.arg 20 4 ≤ 32768 → s.dev.twin.paired = true →
      s.dev.twin.resync = none → Runs (.twinResync n i) s fun d =>
        d.twin.resync = some (c.ring, c.idx, c.arg 16 4, 0, c.arg 20 4) ∧ ∃ c', d.cmd n i = some c' ∧ c'.begun = true ∧ c'.done = none) ∧
    (s.dev.sys.phase.live = true → s.dev.twin.paired = true → Runs .twinLoss s fun d =>
      d.twin.outSync = s.dev.mirroredRegions ∧ d.twin.partnerHolds = false ∧ d.twin.paired = true ∧ d.dram = s.dev.dram) ∧
    (∀ cw hdr data p u, NextPacket s.dev 4 cw hdr data p → p.typ = 9 → p.arg.toNat % 256 = 5 → fieldAt p.data.toNat 0 1 = 0x80 →
      BitVec.ofNat 64 (fieldAt p.data.toNat 8 8) = s.dev.fuses.uid → s.dev.twin.paired = false → s.dev.twin.wants = some (u, n, i) →
      Waiting s.dev (some (n, i)) n i → Runs (.mgmtTwinNotice 4 cw hdr data) s fun d =>
        d.twin.paired = true ∧ d.twin.partner = u ∧ Ended d n i 0 0 0) ∧
    (∀ cw hdr data p, NextPacket s.dev 4 cw hdr data p → (p.typ = 2 ∨ p.typ = 3) → s.dev.twinHeld = [] → s.dev.mirrorBehind p = false →
      s.dev.mirrorCopy p.addr = true → s.dev.wordDown (s.dev.wordOf p.addr) = false →
      let ch := (s.dev.place p.addr).ch
      Runs (.mirrorStreamItem 4 cw hdr data) s fun d => ∃ r, (d.chan ch).peerIn = (s.dev.chan ch).peerIn ++ [r] ∧ r.write = true ∧
        r.origin = .twinRead 4 p.tag ∧ r.data = [p.data] ∧ r.mask = p.arg ∧ r.masked = (p.typ == 3) ∧ r.poison = p.poison)

/-- R421, R435: a collective whose checks pass is issued: it is pending under its field, its identity and the group's epoch, and
its command has begun.

R421, R423 to R426: a contribution is kept under its source's rank and word; STAGED is counted; COMMIT, ABORT and FENCE end
what they name.

The index in ARG and the places of the bytes of STAGED, COMMIT, ABORT and FENCE are the model's choice (log entries 108 to 110). -/
def Obligations.Collectives : Prop :=
  (∀ (s : State) (n : Fin 1024) (i : BitVec 32) (c : Cmd),
     let x := s.dev.collOf c
     Started s.dev n i 0x26 c → c.begun = false → s.dev.group.realign = 0 → s.dev.semOk c = true → x.argsOk = true →
       s.dev.rangesStatus c.access x.ranges = 0 → s.dev.notMember x = none → (∀ y ∈ s.dev.colls, y.field ≠ c.field) →
       (∀ e ∈ s.dev.collHeld, ¬ (e.2.field = c.field ∧ e.2.collId = x.id)) → s.dev.collLost x.field x.id = false →
       let issued := fun (d : Dev) => d.colls = s.dev.colls ++ [x] ∧ ∃ c', d.cmd n i = some c' ∧ c'.begun = true ∧ c'.done = none
       (c.arg 16 1 = 0 → Runs (.collBarrier n i) s issued) ∧ (c.arg 16 1 = 1 → Runs (.collBroadcast n i) s issued) ∧
       (c.arg 16 1 = 2 → Runs (.collAllReduce n i) s issued) ∧ (c.arg 16 1 = 3 → Runs (.collReduceScatter n i) s issued) ∧
       (c.arg 16 1 = 4 → Runs (.collAllGather n i) s issued)) ∧
  (∀ (s : State) (l : Fin 5) (cw : CodeWord) (hdr : BitVec 256) (data : Line) (p : Packet) (c : Coll),
     (NextPacket s.dev l cw hdr data p → l ≠ 4 → p.typ = 8 → p.dst.toNat = s.dev.gdev → s.dev.collLost p.field p.collId = false →
       (s.dev.colls.find? fun x => x.field == p.field) = some c → c.id = p.arg.truncate 32 → c.epoch = p.epoch → c.staged = false →
       c.members.getLsbD p.dev.toNat = true → Runs (.collContribution l cw hdr data) s fun d =>
         ∃ c' ∈ d.colls, c'.ring = c.ring ∧ c'.idx = c.idx ∧
           c'.word (rankOf c.members p.dev.toNat) ((p.arg >>> 32).toNat % 2 ^ 25) = some (p.data, p.poison)) ∧
     (NextMgmt s.dev l cw hdr data p 0x0B → s.dev.collLost p.field p.collId = false → (s.dev.colls.find? fun x => x.field == p.field) = some c → c.id = p.data.truncate 32 →
       c.epoch = p.epoch → c.staged = false → Runs (.mgmtStaged l cw hdr data) s fun d =>
         ∃ c' ∈ d.colls, c'.ring = c.ring ∧ c'.idx = c.idx ∧ c'.stagedBy = c.stagedBy ||| BitVec.ofNat 64 (2 ^ p.dev.toNat)) ∧
     (NextMgmt s.dev l cw hdr data p 0x0C → s.dev.collNamed p = some c → c.coordinator = p.dev.toNat → c.staged = true → c.commit = false →
       c.kind = 0 → c.poisoned = 0 → s.dev.group.realign = 0 → Waiting s.dev (some (c.ring, c.idx)) c.ring c.idx → Runs (.mgmtCommit l cw hdr data) s fun d =>
         Ended d c.ring c.idx 0 0 0 ∧ d.coll c.ring c.idx = none) ∧
     (NextMgmt s.dev l cw hdr data p 0x0D → s.dev.collNamed p = some c → c.commit = false → Waiting s.dev (some (c.ring, c.idx)) c.ring c.idx →
       Runs (.mgmtAbort l cw hdr data) s fun d => Ended d c.ring c.idx 0x11 (fieldAt p.data.toNat 4 1) 0 ∧ d.coll c.ring c.idx = none) ∧
     (NextMgmt s.dev l cw hdr data p 0x0E → s.dev.group.set.getLsbD p.dev.toNat = true → Runs (.mgmtFence l cw hdr data) s fun d =>
       (∀ x ∈ d.colls, (p.data.truncate 16 : BitVec 16).toNat ≤ x.epoch.toNat) ∧
         d.group.epoch.toNat = max s.dev.group.epoch.toNat (p.data.truncate 16 : BitVec 16).toNat))

namespace Sys2Proof.Claims

/-- A reset other than power-on has run: its cause is recorded, the engines and every register that is not sticky stand as after
power-on, and the clock, the fuses, the flash and the moraine are kept (R11, R463, R464, R502). -/
def HasReset (d d' : Dev) (cause : Nat) (p : Phase) : Prop :=
  rbit (d'.reg rRstCause) cause = true ∧ rbit (d'.reg rRstStat) 29 = true ∧ d'.sys.phase = p ∧ d'.timeRun = false ∧ d'.time = 0
    ∧ d'.cmds = [] ∧ d'.rings = [] ∧ d'.hosts = [] ∧ d'.links = [] ∧ d'.logical = [] ∧ d'.sems = [] ∧ d'.nbos = [] ∧ d'.remotes = []
    ∧ (∀ o, o ≠ rRstCause → o ≠ rRstStat → ((regRow o).map (·.sticky)).getD 0 = 0 → d'.reg o = regReset o)
    ∧ (∀ j, j < 9 → rbit (d.reg rRstCause) j = true → rbit (d'.reg rRstCause) j = true)
    ∧ d'.fuses = d.fuses ∧ d'.flash = d.flash

/-- No atom runs, and no write that a channel has accepted waits to reach the array. -/
def Quiet (d : Dev) : Prop :=
  ∀ c, c < 32 → (d.chan c).wbuf = [] ∧ (∀ b, b < 64 → (d.bankNear c b).atom = none) ∧
    ∀ r, r ∈ (d.chan c).hostIn ∨ r ∈ (d.chan c).driftIn ∨ r ∈ (d.chan c).peerIn → r.write = false

end Sys2Proof.Claims

/-- R110, R464, R465, R502: a WARM_RESET with its key resets the device, with every die-slice in self-refresh; where no atom runs and
no accepted write waits, it keeps DRAM, its check bits and the moraine as they are. With another key it ends in BAD_ARGS.

R464, R466, R502: a reset request of the founder, with the key and this device's UID, resets the device without retention and
keeps the moraine; one with another UID or key changes nothing of the memories, the rings or the phase. -/
def Obligations.CommandedResets : Prop :=
  ∀ (s : State),
    (∀ n i c, Started s.dev n i 0x13 c → s.dev.semOk c = true →
      (c.arg 16 4 = 0x6440A5A5 →
        (Runs (.warmReset n i) s fun d =>
          rbit (d.reg rRstCause) 2 = true ∧ rbit (d.reg rRstStat) 29 = true ∧ d.sys.phase.live = false ∧ d.timeRun = false ∧ d.time = 0 ∧
            d.cmds = [] ∧ d.rings = [] ∧ d.hosts = [] ∧ d.links = [] ∧ d.logical = [] ∧ d.sems = [] ∧ d.nbos = [] ∧ d.remotes = [] ∧
            (∀ o, o ≠ rRstCause → o ≠ rRstStat → ((regRow o).map (·.sticky)).getD 0 = 0 → d.reg o = regReset o) ∧
            d.sys.retaining = true ∧ ∀ k, k < 32 → (d.chan k).selfRef = true) ∧
        (Quiet s.dev → Runs (.warmReset n i) s fun d =>
          HasReset s.dev d 2 s.dev.afterReset ∧ d.dram = s.dev.dram ∧ d.mor = s.dev.mor ∧ d.sys.saved = some s.dev.order)) ∧
      (c.arg 16 4 ≠ 0x6440A5A5 → Runs (.warmReset n i) s fun d => Ended d n i 2 0 0 ∧ d.sys.phase = s.dev.sys.phase)) ∧
    (∀ l cw hdr data p, NextMgmt s.dev l cw hdr data p 0x0F →
      let obeyed := s.dev.sys.peerReset = true ∧ s.dev.group.member = true ∧ s.dev.group.founder = p.dev ∧
        fieldAt p.data.toNat 0 8 = s.dev.fuses.uid.toNat ∧ fieldAt p.data.toNat 8 4 = 0x6440A5A5
      (obeyed → Runs (.mgmtResetReq l cw hdr data) s fun d =>
        HasReset s.dev d 6 s.dev.afterReset ∧ d.sys.retaining = false ∧ d.mor = s.dev.mor) ∧
      (¬ obeyed → Runs (.mgmtResetReq l cw hdr data) s fun d =>
        d.sys.phase = s.dev.sys.phase ∧ d.rings = s.dev.rings ∧ d.dram = s.dev.dram ∧ d.chans = s.dev.chans))

/-- R414: a member's request for memory that passes its checks enters the peer port of its channel as one request.

R416: a read through an enabled relay window whose field is the source's goes out as a request with a tag of its own, and
takes the read tag. -/
def Obligations.PeerRequests : Prop :=
  (∀ (s : State) (l : Fin 5) (cw : CodeWord) (hdr : BitVec 256) (data : Line) (p : Packet),
     let ch := (s.dev.place (p.addr / 64 * 64)).ch
     let enters := fun (d : Dev) =>
       (d.chan ch).peerIn = (s.dev.chan ch).peerIn ++
         [{ origin := .peer { link := l, dev := p.dev, tag := p.tag, cls := p.cls }, write := p.typ != 1, masked := p.typ == 3
            addr := BitVec.ofNat 36 (p.addr / 64 * 64), len := 0, cls := p.cls, field := some p.field, secure := p.world, mask := p.arg
            data := if p.typ = 1 then [] else [p.data], poison := p.poison, since := s.dev.clock
            words := [s.dev.wordOf (p.addr / 64 * 64)], arr := (s.dev.chan ch).nextId }]
         ∧ (d.link l).expSeq = (s.dev.link l).expSeq + 1 ∧ d.dram = s.dev.dram ∧ (cw.fixed = 0 → d.cs = s.dev.cs)
     NextPacket s.dev l cw hdr data p → l ≠ 4 → p.dst.toNat = s.dev.gdev → s.dev.requestStatus p = 0 → p.addr < 2 ^ 36 →
       (p.typ = 2 → Runs (.peerWr l cw hdr data) s enters) ∧ (p.typ = 3 → Runs (.peerWrm l cw hdr data) s enters) ∧
       (p.typ = 1 → data = 0 → Runs (.peerRd l cw hdr) s enters)) ∧
  (∀ (s : State) (ag : Agent) (w : Fin 16) (off : BitVec 11) (cls : BitVec 2) (tag : BitVec 9) (data : Line) (mask : BitVec 64)
     (l : Nat) (t : BitVec 12),
     let ctrl := s.dev.reg (rRlyCtrl w)
     ag.kind = 0 → s.dev.reaches ag = true → off.toNat % 64 = 0 → (∀ x ∈ (s.dev.host ag.ch).tags, x.1 ≠ tag) →
       s.dev.relayedWrites ag.ch ag.srcid.toNat = false → rbit ctrl 31 = true →
       s.dev.hstField ag.ch ag.srcid.toNat = some (BitVec.ofNat 4 (fld ctrl 19 16)) → s.dev.workingRoute (fld ctrl 5 0) = some l →
       s.dev.freeTag = some t → (s.dev.link l).down = false →
       Runs (.relayWindowAccess ag w off 0 cls tag data mask) s fun d =>
         (d.remotes.map (·.tag) = s.dev.remotes.map (·.tag) ++ [t] ∧ ∃ r ∈ d.remotes, r.tag = t ∧ r.write = false ∧ r.dst.toNat = fld ctrl 5 0) ∧
           (∃ q ∈ sent (d.link l), q.typ = 1 ∧ q.tag = t ∧ q.addr = ((s.dev.reg64 (rRlyBase w)).toNat + off.toNat) % 2 ^ 37) ∧
           (d.host ag.ch).tags = (s.dev.host ag.ch).tags ++ [(tag, 1)])

/-! ## Channels and bank units (chapters 4 to 6) -/

namespace Sys2Proof.Claims

/-- A channel in service whose scheduler may issue in the present slot, with no NBO in its banks (R146). -/
def SlotFree (d : Dev) (c : Nat) : Prop :=
  let k := d.chan c
  d.sys.phase.live = true ∧ k.ready = true ∧ k.down = false ∧ k.selfRef = false ∧ k.powerDown = false ∧ k.refUntil = none
    ∧ k.pauseUntil = none ∧ k.retrain = false ∧ k.wakeAt ≤ d.clock ∧ (∀ l, k.lastSlot = some l → l < d.clock)
    ∧ (∀ b, b < 64 → (d.bankNear c b).exec = none) ∧ rbit (d.reg rCfgStat) 30 = false

/-- A channel whose memory can be used (R166, R371). -/
def ChanUp (d : Dev) (c : Nat) : Prop :=
  d.sys.phase.live = true ∧ (d.chan c).ready = true ∧ (d.chan c).down = false ∧ (d.chan c).selfRef = false

/-- A bank executes an NBO in every bank of its range, and this is the NBO and its unit there (R196). -/
def Executing (d : Dev) (c b : Nat) (x : Nbo) (u : BankUnit) : Prop :=
  d.sys.phase.live = true ∧ (d.bankNear c b).exec.bind d.nbo = some x ∧ x.unit b = some u ∧ d.nboRuns x = true

/-- A bank runs an atom of this operation whose work is not done, and the column words that it uses (R189, R193). -/
def AtomOf (d : Dev) (c b op : Nat) (a : Atom) (x : Nbo) (u : BankUnit) : Prop :=
  d.sys.phase.live = true ∧ (d.bankNear c b).atom = some a ∧ a.worked = false ∧ d.nbo a.nbo = some x ∧ x.unit b = some u
    ∧ x.d.op = op ∧ x.d.ch = c

/-- What the near path reads of the column words of an atom (R193). -/
def colReads (d : Dev) (c b : Nat) (a : Atom) (n : NboDesc) : List (BitVec 256 × BitVec 4 × Nat × Nat) :=
  (List.range (atomCols n a.kind)).map fun k =>
    if atomForm n a.kind = 2 then (0, 0, 0, 0) else d.nearRead c b a.row (atomFirst n a.kind + k)

/-- The atom of a bank when its work is done: what it will write. -/
def atomOut (d : Dev) (c b : Nat) : List (Nat × BitVec 256 × BitVec 4) := (((d.bankNear c b).atom).map (·.out)).getD []

end Sys2Proof.Claims

/-- R137, R139, R149: the drift port takes a floe's read, which becomes an entry of the scheduler, and its write, which every
agent then sees, the array does not yet hold, and the engine no longer waits for; the near-bank port does what NBO_ACCEPT of its
first NBO does; the host port and the peer port take their next read.

What brings a request to the drift port is log entry 44. -/
def Obligations.ChannelRequests : Prop :=
  ∀ (s : State) (c : Fin 32), s.dev.sys.phase.live = true →
    let k := s.dev.chan c
    (∀ r rest f e cmd w, k.driftIn = r :: rest → r.origin = .floe f e cmd → r.words = [w] → (wordPlace w).ch = c.val →
      (s.dev.place r.addr.toNat).ch = c.val → (∀ x ∈ rest, x.origin.same r.origin = true → r.arr ≤ x.arr) →
      s.dev.regionHeld r.addr.toNat = false → s.dev.permafrost = false → k.down = false →
      (r.write = false → s.dev.buffered w = none → (∀ v ∈ k.recovery, v.word ≠ w) → s.dev.portLoad c 1 < 256 →
        Runs (.channelRequestAccept c 1) s fun d =>
          (d.chan c).driftIn = rest
            ∧ (d.chan c).reqs = k.reqs ++ [{ id := k.nextId, origin := r.origin, port := 1, cls := r.cls, promoted := r.promoted, word := w
                                             index := 0, field := r.field, since := s.dev.clock, arr := r.arr }]
            ∧ (d.chan c).wbuf = k.wbuf ∧ (∀ j, j ≠ c.val → d.chan j = s.dev.chan j) ∧ d = ({ s.dev with chans := d.chans } : Dev).settle) ∧
      (∀ x, r.write = true → r.masked = false → r.keep = 0 → r.poison = false → r.data = [x] → s.dev.writeWaits r = false →
        Runs (.channelRequestAccept c 1) s fun d =>
          (d.chan c).driftIn = rest ∧ (d.seen w).data = x ∧ (d.seen w).poison = false ∧ d.dram = s.dev.dram ∧
            ∀ p, s.dev.slotOf f.toNat = some p → e < 6 → (s.dev.floe p).engines.length = 6 →
              (d.floe p).engines[e]? = ((s.dev.floe p).engines[e]?).map (·.map fun y =>
                if y.number = cmd then { y with words := y.words.erase r.addr.toNat } else y))) ∧
    exec (.channelRequestAccept c 2) s = exec (.nboAccept c 0) s ∧
    (∀ r rest n, let entry := fun (port : Fin 5) (t : Nat) =>
        ({ id := k.nextId, origin := r.origin, port := port, cls := r.cls, promoted := r.promoted, word := n
           index := 0, field := r.field, since := t, arr := r.arr } : SchedReq)
      r.write = false → r.words = [n] → (wordPlace n).ch = c.val → s.dev.regionHeld r.addr.toNat = false → k.down = false →
      (∀ v ∈ k.recovery, v.word ≠ n) → s.dev.buffered n = none →
      (k.hostIn = r :: rest → Runs (.channelRequestAccept c 0) s fun d =>
        (d.chan c).hostIn = rest ∧ (d.chan c).reqs = k.reqs ++ [entry 0 r.since] ∧ d.dram = s.dev.dram) ∧
      (k.peerIn = r :: rest → s.dev.twinHeld = [] → s.dev.portLoad c 3 < 64 → Runs (.channelRequestAccept c 3) s fun d =>
        (d.chan c).peerIn = rest ∧ (d.chan c).reqs = k.reqs ++ [entry 3 s.dev.clock] ∧ d.dram = s.dev.dram))

/-- R129, R142, R146: in a slot in which one class-0 read waits, the scheduler activates its row, precharges the row that stands
open in its place, or reads the word and hands it to its port; a class-0 word of the write buffer goes to the array. -/
def Obligations.SchedulerIssues : Prop :=
  ∀ (s : State) (c : Fin 32), SlotFree s.dev c →
    let k := s.dev.chan c
    let t := s.dev.clock
    (∀ r, k.reqs = [r] → k.wbuf = [] → r.cls = 0 → (wordPlace r.word).ch = c.val →
      ((∃ h, r.origin = .host h) ∨ ∃ n, r.origin = .fetch n) → (∀ v ∈ k.recovery, v.word ≠ r.word) →
      let p := wordPlace r.word
      ((k.bank p.bank).row = none → s.dev.timingOk c t (.activate p.bank p.row) = true → Runs (.schedulerSlot c) s fun d =>
        ((d.chan c).bank p.bank).row = some p.row ∧ ((d.chan c).bank p.bank).lastAct = some t ∧ (d.chan c).reqs = [r] ∧
          d.reg64 (rChAct c) = s.dev.reg64 (rChAct c) + 1 ∧ d.dram = s.dev.dram) ∧
      (∀ x, (k.bank p.bank).row = some x → x ≠ p.row → s.dev.timingOk c t (.precharge p.bank) = true →
        Runs (.schedulerSlot c) s fun d =>
          ((d.chan c).bank p.bank).row = none ∧ ((d.chan c).bank p.bank).lastPre = some t ∧ (d.chan c).reqs = [r] ∧ d.dram = s.dev.dram) ∧
      ((k.bank p.bank).row = some p.row → s.dev.timingOk c t (.column p.bank false) = true →
        ((s.dev.dram.readWord r.word).uncorr = 0 ∨ s.dev.mirrored r.word = false) → Runs (.schedulerSlot c) s fun d =>
          (d.chan c).readyQ = k.readyQ ++ [{ origin := r.origin, word := r.word, cls := 0, index := r.index
                                             data := (s.dev.dram.readWord r.word).data
                                             poison := (s.dev.dram.readWord r.word).poison, since := r.since }]
            ∧ r ∉ (d.chan c).reqs ∧ d.dram = s.dev.dram
            ∧ ((d.chan c).bank p.bank).row = if fld (s.dev.reg (rChPage c)) 10 0 = 0 then none else some p.row)) ∧
    (∀ b, k.reqs = [] → k.wbuf = [b] → b.cls = 0 → b.held = [] → (∀ v ∈ k.recovery, v.word ≠ b.word) → (wordPlace b.word).ch = c.val →
      (b.whole = true ∨ s.dev.mirrored b.word = false ∨ (s.dev.dram.readWord b.word).uncorr = 0) →
      let p := wordPlace b.word
      (k.bank p.bank).row = some p.row → s.dev.timingOk c t (.column p.bank true) = true → Runs (.schedulerSlot c) s fun d =>
        (d.chan c).wbuf = [] ∧ d.dram = s.dev.dram.writeWord b.word (b.onto s.dev.dram).1 (b.onto s.dev.dram).2)

/-- R141, R151: at the age of 2,000 ns a read, a buffered word, a request that waits at the host port and the next atom of a bank
become class 0 with the slot of their promotion, and are counted; an open row that has been idle for CH_PAGE.IDLE_NS is due to be closed.

R153, R155 to R157, R160: power-down and its exit, the end of a tREFI, the start and the end of an all-bank refresh, and the
return of the activate tables to empty. -/
def Obligations.ChannelMaintenance : Prop :=
  (∀ (s : State) (c : Fin 32), s.dev.sys.phase.live = true →
     let k := s.dev.chan c
     let counted := fun (d : Dev) => d.reg64 (rChPromote c) = s.dev.reg64 (rChPromote c) + 1
     (∀ id i r, findPos (fun r : SchedReq => r.id == id && r.cls != 0 && r.port != 4) k.reqs 0 = some (i, r) →
       Runs (.class0Promotion c none id) s fun d =>
         (d.chan c).reqs = putAt k.reqs i { r with cls := 0, promoted := some d.clock } ∧ counted d ∧ r.since + 4000 ≤ d.clock) ∧
     (∀ id i w, (∀ r ∈ k.reqs, r.id ≠ id) → findPos (fun w : BufWord => w.id == id && w.cls != 0) k.wbuf 0 = some (i, w) →
       Runs (.class0Promotion c none id) s fun d =>
         (d.chan c).wbuf = putAt k.wbuf i { w with cls := 0, promoted := some d.clock } ∧ counted d ∧ w.since + 4000 ≤ d.clock) ∧
     (∀ id i r, (∀ r ∈ k.reqs, r.id ≠ id) → (∀ w ∈ k.wbuf, w.id ≠ id) →
       findPos (fun r : PortReq => r.arr == id && r.cls != 0) k.hostIn 0 = some (i, r) → Runs (.class0Promotion c none id) s fun d =>
         (d.chan c).hostIn = putAt k.hostIn i (r.promote d.clock) ∧ counted d ∧ r.since + 4000 ≤ d.clock) ∧
     (∀ (b : Fin 64) id x kind row u, s.dev.nextAtom c b = some (x, kind, row) → x.unit b = some u → u.promo = none →
       Runs (.class0Promotion c (some b) id) s fun d =>
         (∃ y ∈ d.nbos, y.id = x.id ∧ ∃ v ∈ y.units, v.bank = b.val ∧ v.promo = some (u.since x.d kind, d.clock)) ∧ counted d ∧
           u.since x.d kind + 4000 ≤ d.clock) ∧
     (∀ (b : Fin 64) r f, (k.bank b).row = some r → (k.bank b).idleFrom = some f → Runs (.pageIdleTimeout c b) s fun d =>
       ((d.chan c).bank b).idleDue = true ∧ ((d.chan c).bank b).row = some r ∧ f + 2 * fld (s.dev.reg (rChPage c)) 10 0 ≤ d.clock)) ∧
  (∀ (s : State) (c : Fin 32), ChanUp s.dev c →
     let k := s.dev.chan c
     (k.powerDown = false → rbit (s.dev.reg (rChCtrl c)) 0 = true → s.dev.channelIdle c = true → Runs (.powerDownEntry c) s fun d =>
       (d.chan c).powerDown = true ∧ ∀ t, k.idleFrom = some t → t + 400 ≤ d.clock) ∧
     (k.powerDown = true → (s.dev.channelIdle c = false ∨ 1 ≤ k.owed ∨ k.visitDue = true) → Runs (.powerDownExit c) s fun d =>
       (d.chan c).powerDown = false ∧ (d.chan c).wakeAt = s.dev.clock + 24) ∧
     (Runs (.refreshInterval c) s fun d =>
       (d.chan c).owed = k.owed + 1 ∧ (d.chan c).forced = (k.forced || decide (5 ≤ k.owed + 1)) ∧ k.nextRefi ≤ d.clock ∧
         (d.chan c).nextRefi = d.clock + refiSlots (s.dev.band (c / 2))) ∧
     (k.refUntil = none → (k.forced = true ∨ (1 ≤ k.owed ∧ ∀ e ∈ s.dev.entries c, e.cls ≠ 0)) → s.dev.atomRuns c = false →
       (∀ t, k.lastRef = some t → t + 1600 ≤ s.dev.clock) → s.dev.staggerFree c = true → Runs (.refreshStart c) s fun d =>
         d.clock = s.dev.refreshSlot c ∧ (d.chan c).refUntil = some (d.clock + 760) ∧ (d.chan c).owed = max (-4) (k.owed - 1) ∧ (d.chan c).forced = false ∧
           (d.chan c).powerDown = false ∧ (∀ b, ((d.chan c).bank b).row = none) ∧
           (k.visitDue = true → (d.chan c).pauseUntil = some (d.clock + 800)) ∧
           d.reg64 (rChRef c) = s.dev.reg64 (rChRef c) + 1 ∧
           d.reg64 (rChRefForced c) = s.dev.reg64 (rChRefForced c) + (if k.forced then 1 else 0)) ∧
     (∀ t, k.refUntil = some t → Runs (.refreshEnd c) s fun d =>
       (d.chan c).refUntil = none ∧ (d.chan c).refCount = k.refCount + 1 ∧ t ≤ d.clock ∧
         (k.refForced = true → ∀ b, ((d.chan c).bank b).events = [])) ∧
     (8192 ≤ k.refCount → Runs (.trrTableReset c) s fun d => (d.chan c).refCount = 0 ∧ ∀ b, ((d.chan c).bank b).acts = []))

/-- R134, R163, R166, R167, R371: a visit falls due 50 ms after the last, measures in its pause and moves each
setting by at most 2 steps toward the centre, or calls for a full retrain; the retrain trains, fails on a window narrower than 16
steps, or takes the channel down at its third failure; CH_CTRL calls for one, and a TAP write at VENDOR level changes the granularity of the interleave mode.

When a full retrain is counted is log entry 46. -/
def Obligations.ChannelTraining : Prop :=
  ∀ (s : State) (c : Fin 32), ChanUp s.dev c →
    let k := s.dev.chan c
    (∀ ls : List LaneMeas, ls.length = 39 →
      let cur := fun (i : Nat) => fld (s.dev.reg (rChTsvLane c i)) 21 16
      (k.pauseUntil = none → Runs (.periodicRetrain c ls) s fun d => (d.chan c).visitDue = true ∧ (d.chan c).retrain = k.retrain ∧
        k.nextVisit ≤ d.clock ∧ (d.chan c).nextVisit = k.nextVisit + 100000000) ∧
      (∀ t, k.pauseUntil = some t → Runs (.periodicRetrain c ls) s fun d =>
        (d.chan c).pauseUntil = none ∧ t ≤ d.clock ∧
          (∀ i m, i < 39 → ls[i]? = some m → let x := fld (d.reg (rChTsvLane c i)) 21 16
            (cur i ≤ m.centre.toNat → x = min m.centre.toNat (cur i + 2)) ∧ (m.centre.toNat ≤ cur i → x = max m.centre.toNat (cur i - 2)) ∧
              fld (d.reg (rChTsvLane c i)) 13 8 = m.eye.toNat) ∧
          ((∃ i m, i < 39 ∧ ls[i]? = some m ∧ (cur i + 8 < m.centre.toNat ∨ m.centre.toNat + 8 < cur i ∨ m.eye.toNat < 16)) →
            (d.chan c).retrain = true) ∧
          ((∀ i m, i < 39 → ls[i]? = some m → cur i ≤ m.centre.toNat + 8 ∧ m.centre.toNat ≤ cur i + 8 ∧ 16 ≤ m.eye.toNat) →
            (d.chan c).retrain = k.retrain)) ∧
      (k.retrain = true → k.refUntil = none → s.dev.atomRuns c = false → (∀ m ∈ ls, 16 ≤ m.eye.toNat) →
        Runs (.fullRetrain c true ls) s fun d =>
        (d.chan c).retrain = false ∧ (d.chan c).training = false ∧ (d.chan c).down = false ∧
          ∀ i m, i < 39 → ls[i]? = some m → fld (d.reg (rChTsvLane c i)) 21 16 = m.centre.toNat) ∧
      (∀ ok, (ok = false ∨ ∃ m ∈ ls, m.eye.toNat < 16) → k.retrain = true → k.refUntil = none → s.dev.atomRuns c = false →
       (k.retrainFails < 2 → Runs (.fullRetrain c ok ls) s fun d =>
        (d.chan c).retrain = true ∧ (d.chan c).retrainFails = k.retrainFails + 1 ∧ (d.chan c).down = false) ∧
       (2 ≤ k.retrainFails → Runs (.fullRetrain c ok ls) s fun d =>
        (d.chan c).down = true ∧ (d.chan c).ready = false ∧ (d.chan c).wbuf = [] ∧ d.dram = s.dev.dram))) ∧
    (∀ ag, Writes s.dev ag (rChCtrl c) → k.retrain = false → Runs (.chCtrlRetrain ag c) s fun d =>
      (d.chan c).retrain = true ∧ (d.chan c).training = true ∧ (d.chan c).retrainFails = 0 ∧
        d.reg64 (rChRetrain c) = s.dev.reg64 (rChRetrain c) + 1) ∧
    (∀ g : BitVec 5, s.dev.tapLevel = 2 → rbit (s.dev.reg (rChCfg 0)) 31 = true → Runs (.intlvLog2Write g) s fun d =>
      ∀ j, j < 32 → fld (d.reg (rChCfg j)) 20 16 = max 8 (min 21 g.toNat))

/-- R178, R182, R183, R198: the work of an atom of each operation on column words that hold no uncorrectable code word. -/
def Obligations.NearBankOperations : Prop :=
  ∀ (s : State) (c : Fin 32) (b : Fin 64) (a : Atom) (x : Nbo) (u : BankUnit),
    let n := x.d
    let reads := colReads s.dev c b a n
    let clean := ∀ r ∈ reads, r.2.2.2 = 0
    let out := fun (d : Dev) (first : Nat) (word : Nat → BitVec 256 → BitVec 256) => d.dram = s.dev.dram ∧
      (atomOut d c b).map (fun o => (o.1, o.2.1)) = (reads.zipIdx).map fun p => (first + p.2, word p.2 p.1.1)
    let folded := fun (i : Nat) (d : Dev) =>
      let r := (reads.zipIdx).foldl (fun acc p => reduceCol n acc.1 acc.2 p.1.1 (u.wOf n p.2).1) (u.ac0, u.ac1)
      d.dram = s.dev.dram ∧ ∃ y ∈ d.nbos, y.id = x.id ∧ ∃ v ∈ y.units, v.bank = b.val ∧ v.atoms = u.atoms ∧
        (n.perRow = false → v.ac0 = r.1 ∧ v.ac1 = r.2) ∧
        (n.perRow = true → v.ac0 = identityVec n ∧ ∀ l, l < 16 → lane v.ac1 l = if l = i then hred n r.1 r.2 % 2 ^ 32 else lane u.ac1 l)
    let stored := fun (d : Dev) => out d n.dcol fun k old => resultCol n u k old
    (∀ i, a.kind = .compute i → clean →
      (AtomOf s.dev c b 1 a x u → Runs (.nboRsum c b) s (folded i)) ∧
      (AtomOf s.dev c b 2 a x u → Runs (.nboRmax c b) s (folded i)) ∧
      (AtomOf s.dev c b 3 a x u → Runs (.nboDotw c b) s (folded i)) ∧
      (AtomOf s.dev c b 4 a x u →
        let vec := if n.firnSrc = 1 ∧ n.ordered = false ∧ n.sat = false ∧ x.folds ≠ [] then some x.vec else none
        Runs (.nboAccw c b) s fun d => out d n.colFirst fun k old => updateCol n old (u.wOf n k).1 vec) ∧
      (AtomOf s.dev c b 5 a x u → Runs (.nboSetw c b) s fun d =>
        (out d n.colFirst fun k old => updateCol n old (u.wOf n k).1 none) ∧
        (n.fullMask = true → ∀ k o, (atomOut d c b)[k]? = some o → ∀ e, e < 256 / bankBits n.fmt →
          colElem n.fmt o.2.1 e = colElem n.fmt (u.wOf n k).1 e))) ∧
    (a.kind = .result → clean →
      (AtomOf s.dev c b 1 a x u → Runs (.nboRsum c b) s stored) ∧ (AtomOf s.dev c b 2 a x u → Runs (.nboRmax c b) s stored) ∧
      (AtomOf s.dev c b 3 a x u → Runs (.nboDotw c b) s stored)) ∧
    (∀ v, AtomOf s.dev c b 6 a x u → clean → a.kind = .shiftSend → x.unit (n.nextBank b) = some v → n.nextBank b ≠ b.val →
      Runs (.nboCshift c b) s fun d => d.dram = s.dev.dram ∧ ∃ y ∈ d.nbos, y.id = x.id ∧ ∃ v' ∈ y.units, v'.bank = n.nextBank b ∧
        ∀ k, k < 16 → v'.w[k]? = some (((reads[k]?).map (·.1)).getD ((v.w[k]?).getD 0))) ∧
    (AtomOf s.dev c b 6 a x u → a.kind = .shiftRecv → Runs (.nboCshift c b) s fun d =>
      out d n.colFirst fun k _ => (u.w[k]?).getD 0)

/-- R186, R188, R192, R197, R203: an NBO whose checks pass takes a slot in each of its banks; one whose checks fail is rejected,
counted and writes nothing; a firn word fills two W registers of a unit; a hop of a chain combines two units.

R190, R193, R203: at its end an atom writes what it has worked out, into its own row and column words and nowhere else, its
bank is free again with its row closed, and the atom is counted. -/
def Obligations.NearBankFlow : Prop :=
  (∀ (s : State) (c : Fin 32),
     let wait := (s.dev.chan c).nearWait
     (∀ pos id x, s.dev.sys.phase.live = true → wait[pos]? = some id → s.dev.nbo id = some x → x.d.ch = c.val → s.dev.order ≠ none →
       (∀ r ∈ (s.dev.chan c).driftIn, x.poster.isSource r.origin = true → x.arr ≤ r.arr) →
       (s.dev.nboStatus x = 0 → (s.dev.nboMirrored x && s.dev.mirrorStalls) = false → s.dev.nboResyncs x = false →
         (∀ b ∈ x.d.banks, (s.dev.bankNear c b).used = 0) →
         (∀ j y, j ∈ wait.take pos → s.dev.nbo j = some y →
           (∀ b ∈ x.d.banks, b ∉ y.d.banks) ∧ (x.poster.isMirror = true → y.poster.isMirror = false)) → Runs (.nboAccept c pos) s fun d =>
           (∀ b ∈ x.d.banks, (d.bankNear c b).exec = some id) ∧ id ∉ (d.chan c).nearWait ∧ d.dram = s.dev.dram ∧
             ∃ y ∈ d.nbos, y.id = id ∧ y.accepted = true ∧ y.desc = x.desc ∧ y.units = x.d.banks.map fun b => BankUnit.start x b s.dev.clock) ∧
       (s.dev.nboStatus x ≠ 0 → Runs (.nboAccept c pos) s fun d =>
         d.nbo id = none ∧ id ∉ (d.chan c).nearWait ∧ d.dram = s.dev.dram ∧ d.reg64 (rNbRej c) = s.dev.reg64 (rNbRej c) + 1)) ∧
     (∀ (b : Fin 64) x u r, Executing s.dev c b x u → u.firnDone x.d = false →
       (s.dev.tsvRead { origin := .firn x.id b.val, port := 2, cls := x.cls, field := x.field } ((((c.val * 64 + x.d.fbank) * 32768 + x.d.frow) * 16) + x.d.fword + u.loaded)).1 = some r →
       Runs (.firnLoad c b) s fun d => d.dram = s.dev.dram ∧ ∃ y ∈ d.nbos, y.id = x.id ∧ ∃ v ∈ y.units, v.bank = b.val ∧
         v.loaded = u.loaded + 1 ∧ v.w = putAt (putAt u.w (2 * u.loaded) (BitVec.ofNat 256 r.data.toNat)) (2 * u.loaded + 1)
           (BitVec.ofNat 256 (r.data.toNat / 2 ^ 256))) ∧
     (∀ (b : Fin 64) x u v, Executing s.dev c b x u → x.unit (x.d.nextBank b) = some v → x.d.nextBank b ≠ b.val →
       x.d.reduces = true → x.d.chain = true → b.val ≠ x.d.endBank → u.sent = false → x.d.rowCount ≤ u.atoms → x.d.rowCount ≤ v.atoms →
       (b.val ≠ x.d.startBank → u.received.isSome = true) → (s.dev.chan c).stallFrom = none →
       Runs (.chainHop c b) s fun d => d.dram = s.dev.dram ∧ ∃ y ∈ d.nbos, y.id = x.id ∧
         (∃ v' ∈ y.units, v'.bank = x.d.nextBank b ∧ v'.received.isSome = true ∧ v'.vPoison = (u.vPoison || v.vPoison) ∧
           (x.d.perRow = false → ∀ l, l < 16 → lane v'.ac0 l = comb x.d (lane u.ac0 l) (lane v.ac0 l) % 2 ^ 32)) ∧
         ∃ u' ∈ y.units, u'.bank = b.val ∧ u'.sent = true)) ∧
  (∀ (s : State) (c : Fin 32) (b : Fin 64) (a : Atom) (x : Nbo),
     s.dev.sys.phase.live = true → (s.dev.bankNear c b).atom = some a → a.worked = true → a.abandon = false →
       s.dev.nbo a.nbo = some x →
       Runs (.atomEnd c b) s fun d =>
         (d.bankNear c b).atom = none ∧ a.ends ≤ d.clock ∧ d.reg64 (rNbAtom c) = s.dev.reg64 (rNbAtom c) + 1 ∧
           ((d.chan c).bank b).row = none ∧
           (a.kind = .shiftSend → d.dram = s.dev.dram) ∧
           (a.kind ≠ .shiftSend →
             d.dram = (a.out.foldl (fun (y : Dev) o => y.nearWrite c b a.row o.1 o.2.1 o.2.2) s.dev).dram ∧
             ∀ p, (∀ o ∈ a.out, let w := colCode c b a.row o.1; p < 8 * w ∨ 8 * w + 32 ≤ p) → d.dram.byte p = s.dev.dram.byte p))

/-! ## Floes: the front end and the scalar slot (chapters 7 and 8) -/

namespace Sys2Proof.Claims

/-- The line at a floe's pc is in its cache, sound and readable, and this is the bundle there (R238, R253, R255). -/
def CachedBundle (f : Floe) (b : Nat) : Prop :=
  ∃ x, f.icache.find? (fun x => x.line == BitVec.ofNat 29 (f.pc.toNat / 128)) = some x ∧ x.parity = false ∧ x.bad = 0
    ∧ b = bits x.data.toNat (256 * (f.pc.toNat / 32 % 4) + 255) (256 * (f.pc.toNat / 32 % 4))

/-- The scalar command of a slot changes only its floe, and of it only the counters, which then read as given (R244). -/
def Counters (d d' : Dev) (n : Nat) (v : Nat → BitVec 48) : Prop :=
  (∀ k, k < 8 → (d'.floe n).nreg k = v k) ∧ { d'.floe n with n := (d.floe n).n } = d.floe n
    ∧ (∀ m, m ≠ n → d'.floe m = d.floe m) ∧ d' = ({ d with floes := d'.floes } : Dev).settle

/-- A bundle without a scalar command and without a wait, that the front end passes (R247). -/
def Passes (d : Dev) (n : Nat) (b : Nat) : Prop :=
  let f := d.floe n
  d.sys.phase.live = true ∧ f.st = .running ∧ f.hold = 0 ∧ CachedBundle f b ∧ bundleLegal b = none ∧ f.guardTrue (bundleHeader b) = true
    ∧ f.badEnds b = none ∧ f.bundles.length < 512 ∧ (∀ e, 1 ≤ e → e ≤ 5 → bundleSlot b e ≠ 0 → (f.engine e).length < 256)
    ∧ hdrWaitCond (bundleHeader b) = 0 ∧ bundleSlot b 0 = 0

end Sys2Proof.Claims

/-- R239, R245, R247, R253, R264: a floe cycle dispatches the bundle at pc and goes on to the next, passes while a scalar command
holds the front end, skips a bundle whose guard is false, halts on one that is not legal, and asks for a line that is not cached; it is counted. -/
def Obligations.DispatchCycles : Prop :=
  ∀ (s : State) (n : Fin 136) (b : Nat),
    let f := s.dev.floe n
    let counted := fun (d : Dev) => d.reg64 (rFloeCycles n) = s.dev.reg64 (rFloeCycles n) + 1 ∧ d.dram = s.dev.dram ∧ d.ls = s.dev.ls
    (Passes s.dev n b → Runs (.dispatchCycle n) s fun d =>
      counted d ∧ (d.floe n).pc = f.pc + 32 ∧ (d.floe n).st = .running ∧ (d.floe n).n = f.n ∧
        ∃ k : BundleRec, (d.floe n).bundles = f.bundles ++ [k] ∧ k.pc = f.pc ∧ k.header = bundleHeader b ∧ k.released = true ∧
          k.skipped = false ∧ ∀ e, 1 ≤ e → e ≤ 5 → k.open_.getLsbD e = decide (bundleSlot b e ≠ 0) ∧
            (bundleSlot b e = 0 → (d.floe n).engine e = f.engine e) ∧
            (bundleSlot b e ≠ 0 → ∃ c : ECmd, (d.floe n).engine e = f.engine e ++ [c] ∧ c.bundle = k.number ∧ c.pc = f.pc ∧
              c.word = BitVec.ofNat 48 (bundleSlot b e) ∧ c.nregs = f.n ∧ c.issued = false ∧ c.performed = false)) ∧
    (s.dev.sys.phase.live = true → f.st = .running → f.hold = 0 → CachedBundle f b → f.bundles.length < 512 → bundleLegal b = none →
      f.guardTrue (bundleHeader b) = false → Runs (.dispatchCycle n) s fun d =>
        counted d ∧ (d.floe n).pc = f.pc + 32 ∧ (d.floe n).engines = f.engines ∧ (d.floe n).n = f.n ∧
          d.reg64 (rFloeSkipped n) = s.dev.reg64 (rFloeSkipped n) + 1) ∧
    (∀ slot code, s.dev.sys.phase.live = true → f.st = .running → f.hold = 0 → CachedBundle f b → f.bundles.length < 512 →
      bundleLegal b = some (slot, code) → Runs (.dispatchCycle n) s fun d =>
        counted d ∧ (d.floe n).st = .halting ∧ (d.floe n).halt = some (BitVec.ofNat 8 code, f.pc, Fin.ofNat 8 slot) ∧
          (d.floe n).pc = f.pc ∧ (d.floe n).engines = f.engines ∧ (d.floe n).haltAtDispatch = true) ∧
    (s.dev.sys.phase.live = true → f.st = .running → 0 < f.hold → Runs (.dispatchCycle n) s fun d =>
      counted d ∧ d.floe n = { f with hold := f.hold - 1 }) ∧
    (s.dev.sys.phase.live = true → f.st = .running → f.hold = 0 → (∀ x ∈ f.icache, x.line ≠ BitVec.ofNat 29 (f.pc.toNat / 128)) →
      Runs (.dispatchCycle n) s fun d => counted d ∧ BitVec.ofNat 29 (f.pc.toNat / 128) ∈ (d.floe n).fetching ∧
        (d.floe n).pc = f.pc ∧ (d.floe n).bundles = f.bundles ∧ (d.floe n).engines = f.engines)

/-- R243, R248, R249, R250, R251, R253, R258, R263: the units behind dispatch. A line arrives; the oldest wait-list entry is
released; a due signal is applied once; an engine issues and completes in order; bundles retire in order; a drained floe halts. -/
def Obligations.FrontEndUnits : Prop :=
  ∀ (s : State) (n : Fin 136), s.dev.sys.phase.live = true →
    let f := s.dev.floe n
    let me := s.dev.logicalOf n
    (∀ (l : BitVec 29) x y, l ∈ f.fetching → s.dev.mayAccess (s.dev.floeAccess me) (l.toNat * 128) false = true →
      s.dev.regionHeld (l.toNat * 128) = false →
      (s.dev.tsvReads { origin := .floe (BitVec.ofNat 7 me) 0 l.toNat, port := 1, cls := 1, field := (s.dev.floeAccess me).field }
        [l.toNat * 128, l.toNat * 128 + 64]).1 = some [x, y] →
      x.poison = false → y.poison = false → Runs (.icacheLineFill n l) s fun d =>
        l ∉ (d.floe n).fetching ∧ ∃ e ∈ (d.floe n).icache, e.line = l ∧ e.bad = 0 ∧ e.parity = false ∧
          e.data = BitVec.ofNat 1024 (x.data.toNat + 2 ^ 512 * y.data.toNat)) ∧
    (∀ w rest l, f.waits = true → f.waitList = w :: rest →
      (s.dev.logi me).test (hdrWaitCounter w.header) (hdrWaitIndex w.header) (hdrWaitCond w.header) = some l →
      Runs (.waitRelease n) s fun d => d.logi me = l ∧ (d.floe n).waitList = rest ∧
        ∀ b ∈ (d.floe n).bundles, b.number = w.number → b.released = true) ∧
    (∀ k b, f.bundle k = some b → b.due = true → f.active = true → Runs (.headerSignal n k) s fun d =>
      d.logi me = (s.dev.logi me).signal (hdrSigCounter b.header) (hdrSigIndex b.header) (hdrSigOp b.header) ∧
        (∃ b', (d.floe n).bundle k = some b' ∧ b'.signalled = true) ∧ ∀ g, g ≠ me → d.logi g = s.dev.logi g) ∧
    (∀ (e : Fin 6) c, e ≠ 0 → f.mayIssue = true → (f.engine e).find? (fun c => !c.issued) = some c →
      (∀ x ∈ f.engine e, x.issued = true → x.performed = true) → ((f.bundle c.bundle).map (·.released)).getD true = true →
      let ops := slotQueues e c.word.toNat
      (ops.map (·.q)).Nodup → (∀ o ∈ ops, f.operandWait o = none ∧ (f.queue o.q).isSome) → Runs (.engineIssue n e) s fun d =>
        (∃ c' ∈ (d.floe n).engine e, c'.number = c.number ∧ c'.word = c.word ∧ c'.issued = true ∧ c'.waiting = none) ∧
          ∀ o ∈ ops, ∃ q q', f.queue o.q = some q ∧ (d.floe n).queue o.q = some q' ∧
            (o.push = true → q'.slot q.fill = .filling ∧ q'.fill = (q.fill + 1) % q.depth ∧ q'.head = q.head) ∧
            (o.push = false → q'.slot q.head = .reading ∧ q'.fill = q.fill ∧ q'.head = q.head)) ∧
    (∀ (e : Fin 6) c rest, f.engine e = c :: rest → f.active = true → c.performed = true → c.faulted = false → c.nbos = [] →
      c.tags = [] → c.words = [] → Runs (.engineCommandComplete n e) s fun d =>
        (d.floe n).engine e = rest ∧ (∀ b ∈ (d.floe n).bundles, b.number = c.bundle → b.open_.getLsbD e = false) ∧
          (d.floe n).storesDone = f.storesDone + (if e = 4 then 1 else 0) ∧ ∀ k, k < 6 → k ≠ e.val → (d.floe n).engine k = f.engine k) ∧
    (∀ b rest, f.bundles = b :: rest → f.active = true → b.released = true → b.open_ = 0 → (b.signalled || b.skipped) = true →
      Runs (.bundleRetire n) s fun d => (d.floe n).bundles = rest ∧ d.reg64 (rFloeBundles n) = s.dev.reg64 (rFloeBundles n) + 1 ∧
        (d.floe n).st = if f.st = .ending ∧ rest = [] then .idle else f.st) ∧
    (∀ h, f.st = .halting → f.halt = some h → (f.haltAtDispatch = true → f.bundles = []) →
      (f.haltAtDispatch = false → ∀ es ∈ f.engines, ∀ c ∈ es, c.faulted = true ∧ c.nbos = [] ∧ c.tags = [] ∧ c.words = []) →
      (f.haltAtDispatch = false → ∀ b ∈ f.bundles, b.due = false) →
      Runs (.floeHalted n) s fun d => (d.floe n).st = .halted ∧ (d.floe n).halt = some h ∧ (∀ k, (d.floe n).engine k = []) ∧
        (d.floe n).queues = f.queues ∧ (d.floe n).n = f.n)

/-- R278: the scalar commands that write a counter, with all that they leave. -/
def Obligations.ScalarCounters : Prop :=
  ∀ (s : State) (n : Fin 136) (a b : Fin 8) (imm : BitVec 16) (p : Fin 3) (sh : BitVec 6),
    let f := s.dev.floe n
    let writes := fun (v : BitVec 48) (d : Dev) => Counters s.dev d n fun k => if k = a then v else f.nreg k
    s.dev.sys.phase.live = true → f.st = .running →
      Runs (.movi n a imm) s (writes (imm.zeroExtend 48)) ∧
      (∀ v : BitVec 48, (∀ j, j < 48 → v.getLsbD j =
          if 16 * p.val ≤ j ∧ j < 16 * p.val + 16 then imm.getLsbD (j - 16 * p.val) else (f.nreg a).getLsbD j) →
        Runs (.insi n a p imm) s (writes v)) ∧
      Runs (.mov n a b) s (writes (f.nreg b)) ∧
      Runs (.addi n a imm) s (writes (f.nreg a + imm.signExtend 48)) ∧
      Runs (.scalarAdd n a b) s (writes (f.nreg a + f.nreg b)) ∧
      Runs (.scalarSub n a b) s (writes (f.nreg a - f.nreg b)) ∧
      Runs (.shli n a sh) s (writes (f.nreg a <<< sh.toNat)) ∧
      Runs (.shri n a sh) s (writes (f.nreg a >>> sh.toNat)) ∧
      Runs (.andi n a imm) s (writes (f.nreg a &&& imm.zeroExtend 48)) ∧
      Runs (.epoch n a) s (writes ((s.dev.logi (s.dev.logicalOf n)).epoch.zeroExtend 48)) ∧
      (Runs (.time n a b) s fun d => Counters s.dev d n fun k =>
        if k = b then (s.dev.time >>> 48).truncate 48 else if k = a then s.dev.time.truncate 48 else f.nreg k) ∧
      (∀ rec : BitVec 18, let w := s.dev.ls.readWord (lsIndex n (8 * rec.toNat))
        f.inQueue (8 * rec.toNat) 8 = false → w.poison = false → w.corrected = 0 → w.uncorr = 0 →
        Runs (.ldr n a rec) s (writes (BitVec.ofNat 48 (fieldAt w.data.toNat (8 * rec.toNat % 64) 8))))

/-- R244, R245, R246, R254, R256, R257, R278: comparators, branches, END, ICINV and the configuration of tile queues. -/
def Obligations.ScalarControl : Prop :=
  ∀ (s : State) (n : Fin 136) (k : Fin 4) (a b : Fin 8) (byReg : Bool) (imm : BitVec 16) (off : BitVec 26) (q : Fin 32),
    let f := s.dev.floe n
    let others := fun (d : Dev) => (∀ m, m ≠ n.val → d.floe m = s.dev.floe m) ∧ d = ({ s.dev with floes := d.floes } : Dev).settle
    s.dev.sys.phase.live = true → f.st = .running →
      (let y := if byReg then f.nreg b else imm.zeroExtend 48
       Runs (.cmp n k a byReg b imm) s fun d => others d ∧ (d.floe n).guard (2 * k.val) = (f.nreg a == y) ∧
         (d.floe n).guard (2 * k.val + 1) = decide (f.nreg a < y) ∧ { d.floe n with cmps := f.cmps } = f ∧
         ∀ i, i < 8 → i / 2 ≠ k.val → (d.floe n).guard i = f.guard i) ∧
      (Runs (.cmpx n k) s fun d => others d ∧ (d.floe n).guard (2 * k.val) = false ∧ (d.floe n).guard (2 * k.val + 1) = false ∧
        { d.floe n with cmps := f.cmps } = f) ∧
      (Runs (.br n off) s fun d => others d ∧ d.floe n = { f with pc := f.pc + off.signExtend 36 * 32 }) ∧
      (Runs (.endProgram n) s fun d => others d ∧ d.floe n = { f with st := .ending }) ∧
      (Runs (.icinv n) s fun d => others d ∧ d.floe n = { f with icache := [] }) ∧
      (f.queueIdle q = true → Runs (.qfree n q) s fun d => others d ∧ (d.floe n).queue q = none ∧
        (∀ r, r ≠ q.val → (d.floe n).queue r = f.queue r) ∧ { d.floe n with queues := f.queues } = f) ∧
      (∀ rec : BitVec 18, let w := s.dev.ls.readWord (lsIndex n (8 * rec.toNat))
        let x := fieldAt w.data.toNat (8 * rec.toNat % 64) 8
        let base := bits x 14 0 * 64
        let tile := (bits x 22 16 + 1) * 64
        let depth := bits x 41 32 + 1
        f.queueIdle q = true → f.inQueue (8 * rec.toNat) 8 = false → w.poison = false → w.corrected = 0 → w.uncorr = 0 →
        x.testBit 15 = false → x.testBit 23 = false → x.testBit 27 = false → x.testBit 31 = false → bits x 47 42 = 0 → bits x 63 48 = 0 →
        1 ≤ bits x 26 24 → bits x 26 24 ≤ 3 → 1 ≤ bits x 30 28 → bits x 30 28 ≤ 4 → base + depth * tile ≤ 2 ^ 21 →
        ({ f with queues := tabErase f.queues q.val } : Floe).inQueue base (depth * tile) = false →
        Runs (.qcfg n q rec) s fun d => others d ∧ { d.floe n with queues := f.queues } = f ∧
          (∀ r, r ≠ q.val → (d.floe n).queue r = f.queue r) ∧
          (d.floe n).queue q = some { base := base, tile := tile, producer := bits x 26 24, consumer := bits x 30 28
                                      depth := depth, head := 0, fill := 0, slots := [] })

/-! ## The engines (chapters 7 to 9) -/

namespace Sys2Proof.Claims

/-- The engine of an active floe has this command of an opcode to perform (R249). -/
def Performs (d : Dev) (n e op : Nat) (c : ECmd) : Prop :=
  d.sys.phase.live = true ∧ (d.floe n).active = true ∧ (d.floe n).current e = some c ∧ engineOp e c.word = op

/-- The command has been performed: it has given back its operands. -/
def DonePerforming (d : Dev) (n e : Nat) (c : ECmd) : Prop :=
  ∃ c' ∈ (d.floe n).engine e, c'.number = c.number ∧ c'.performed = true ∧ c'.srcs = [] ∧ c'.dst = none

/-- The words of a local store from an offset hold a tile and its poison, and every other word of every local store reads as
before (R261, R366). -/
def HoldsTile (d d' : Dev) (n off size : Nat) (t : Tile) : Prop :=
  (∀ k, k < size / 64 → (d'.ls.readWord (lsIndex n (off + 64 * k))).data = BitVec.ofNat 512 (t.data >>> (512 * k)) ∧
    (d'.ls.readWord (lsIndex n (off + 64 * k))).poison = t.poison.testBit k)
    ∧ ∀ w, (∀ k, k < size / 64 → w ≠ lsIndex n (off + 64 * k)) → d'.ls.readWord w = d.ls.readWord w

/-- The k-th source tile of a command. -/
def source (d : Dev) (n : Nat) (c : ECmd) (k : Nat) : Tile := (d.srcTile n c k).1

/-- What a load has of the words of a space: address, data, poison. A local store is read at once while a tracker entry is open; the
words of device memory, here or on another device, have been asked for and have come (R306, R329, R331, R333, R334). -/
def Readable (d : Dev) (n : Nat) (c : ECmd) (t : TDesc) (as : List Nat) (ws : List (Nat × Line × Bool)) : Prop :=
  let local_ := fun (m : Nat) => (∀ a ∈ as, (d.floe m).inQueue a 64 = false) ∧
    ws = as.map fun a => (a, (d.ls.readWord (lsIndex m a)).data, (d.ls.readWord (lsIndex m a)).poison)
  t.space < 4 ∧ (t.space = 1 → local_ n) ∧ (t.space = 2 → ∃ m, d.remoteSlot t.remote = some m ∧ local_ m)
    ∧ (t.space = 1 ∨ t.space = 2 → (d.floe n).trkOpen 3 ≠ 0)
    ∧ (t.space = 0 ∨ t.space = 3 → (as = [] → ws = []) ∧ (as ≠ [] → c.sent = true ∧ c.tags = [] ∧ c.words = [] ∧ ws = c.got))

/-- The request of an engine for a word of device memory stands in the fabric, at the channel of the word (R26, R27, R306). -/
def InFabric (d : Dev) (n e : Nat) (c : ECmd) (w : StoreW) : Prop :=
  ∃ r ∈ (d.chan (d.place w.addr).ch).driftIn, r.origin = .floe (BitVec.ofNat 7 (d.logicalOf n)) e c.number ∧
    r.addr = BitVec.ofNat 36 w.addr ∧ r.write = decide (e = 4) ∧ r.masked = !w.whole ∧ r.mask = w.mask ∧ r.keep = w.keep ∧
    r.poison = w.poison ∧ (e = 4 → r.data = [w.data])

end Sys2Proof.Claims

/-- R261, R276, R281, R282, R365: a vector command pushes the tile of its opcode on its source tiles: of an element-wise opcode
each element is the opcode's result on the elements of its place. Nothing else of local store or device memory changes.

The sign of zero products, the guard bits of EXP2 and LOG2, and the rule of MAX and MIN are log entries 17, 20 and 56. -/
def Obligations.VectorCommands : Prop :=
  ∀ (s : State) (n : Fin 136) (c : ECmd) (q i : Nat) (row : Instr) (op : Nat),
    (row, op) ∈ [(Instr.vecAdd n, 0x01), (.vecSub n, 0x02), (.vecMul n, 0x03), (.vecFma n, 0x04), (.vecMax n, 0x05), (.vecMin n, 0x06),
      (.vecAbs n, 0x07), (.vecNeg n, 0x08), (.vecRcp n, 0x09), (.vecRsqrt n, 0x0A), (.vecExp2 n, 0x0B), (.vecLog2 n, 0x0C),
      (.vecCvt n, 0x0D), (.vecMxq n, 0x0E), (.vecRsum n, 0x0F), (.vecRmax n, 0x10), (.vecAnd n, 0x11), (.vecOr n, 0x12),
      (.vecXor n, 0x13), (.vecShl n, 0x14), (.vecShr n, 0x15), (.vecCmplt n, 0x16), (.vecCmpeq n, 0x17), (.vecSel n, 0x18),
      (.vecCopy n, 0x19)] →
    Performs s.dev n 1 op c → c.dst = some (q, i) → (s.dev.floe n).queue q ≠ none →
      let v := vslot c.word.toNat
      let f := vfmtOf v.fmt
      let useB := vecUsesB v.op && v.bmode != 1
      let none' : Tile := { size := 0, data := 0, poison := 0 }
      let ta := source s.dev n c 0
      let tb := if useB then source s.dev n c 1 else none'
      let tc := if vecUsesC v.op then source s.dev n c (if useB then 2 else 1) else none'
      let at_ := (s.dev.floe n).slotPlace q i
      let t := vecTile v ta tb tc at_.2
      (Runs row s fun d => HoldsTile s.dev d n at_.1 at_.2 t ∧ DonePerforming d n 1 c ∧ d.dram = s.dev.dram ∧
        ∃ x, (d.floe n).queue q = some x ∧ x.slot i = .ready) ∧
      ((op ≤ 0x0C ∨ 0x11 ≤ op) → ta.size ≤ at_.2 → ∀ k, k < ta.size * 8 / f.bits →
        let y := if v.bmode == 1 then immB f v.imm else tb.elem f.bits (bIndex v k)
        t.elem f.bits k = vecElem op f (ta.elem f.bits k) y (tc.elem f.bits k) % 2 ^ f.bits)

/-- R289, R291, R365: MMA, DRAIN, ACCLD and ACCZ on the accumulator that they name; the others stay. -/
def Obligations.MatrixCommands : Prop :=
  ∀ (s : State) (n : Fin 136) (c : ECmd),
    let m := mslot c.word.toNat
    let acc := fun (d : Dev) (k : Nat) => ((d.floe n).acc[k]?).getD 0
    let flag := fun (d : Dev) => (d.floe n).accPoison.getLsbD m.acc
    let ta := source s.dev n c 0
    let tb := source s.dev n c 1
    let frame := fun (d : Dev) => (∀ k, k < 4 → k ≠ m.acc → acc d k = acc s.dev k) ∧ DonePerforming d n 2 c ∧ d.dram = s.dev.dram
    (Performs s.dev n 2 1 c → Runs (.mma n) s fun d => frame d ∧ acc d m.acc = mma m (acc s.dev m.acc) ta tb ∧ d.ls = s.dev.ls ∧
      flag d = ((flag s.dev && !m.z) || ta.anyPoison || tb.anyPoison)) ∧
    (∀ q i, Performs s.dev n 2 2 c → c.dst = some (q, i) → ((s.dev.floe n).slotPlace q i).2 = 4096 → Runs (.drain n) s fun d =>
      frame d ∧ HoldsTile s.dev d n ((s.dev.floe n).slotPlace q i).1 4096
          { size := 4096, data := (acc s.dev m.acc).toNat, poison := if flag s.dev then 2 ^ 64 - 1 else 0 } ∧
        acc d m.acc = (if m.z then 0 else acc s.dev m.acc) ∧ flag d = (if m.z then false else flag s.dev)) ∧
    (Performs s.dev n 2 3 c → Runs (.accld n) s fun d => frame d ∧ acc d m.acc = BitVec.ofNat 32768 ta.data ∧
      flag d = (flag s.dev || ta.anyPoison) ∧ d.ls = s.dev.ls) ∧
    (Performs s.dev n 2 4 c → Runs (.accz n) s fun d => frame d ∧ acc d m.acc = 0 ∧ flag d = false ∧ d.ls = s.dev.ls)

/-- R295, R304, R314, R317, R323: LDT and LDG push the tile of the elements at the bit addresses of their tile, elements outside
the tensor being 0; LDL puts it at its offset; LDQ pushes bytes of local store. Words of device memory are asked for first, in the
order of the tile, of this device through the fabric and of another by packets.

When requests go out is log entries 28 and 61. -/
def Obligations.LoadCommands : Prop :=
  ∀ (s : State) (n : Fin 136) (c : ECmd) (q i : Nat) (t : TDesc) (ws : List (Nat × Line × Bool)),
    let w := c.word.toNat
    let x := bits w 19 16
    let nx := if w.testBit 20 then (c.nx (bits w 23 21)).toNat else 0
    let off := 64 * bits w 14 0
    let at_ := (s.dev.floe n).slotPlace q i
    let pushes := fun (t : Tile) (d : Dev) => HoldsTile s.dev d n at_.1 at_.2 t ∧ DonePerforming d n 3 c ∧ d.dram = s.dev.dram
    (Performs s.dev n 3 1 c → c.dst = some (q, i) → c.descOf false = .ok t → t.xformOk x = true → t.tb ≤ at_.2 →
      ∀ bs os, t.tileBits ((nx + bits w 15 0) % 2 ^ 48) x = some bs → t.tileBits ((nx + bits w 15 0) % 2 ^ 48) 0 = some os →
      Readable s.dev n c t (bitWords os) ws →
        Runs (.ldt n) s (pushes (tileOf at_.2 t.eb (bs.map (elemAt ws t.eb))))) ∧
    (Performs s.dev n 3 1 c → c.descOf false = .ok t → t.xformOk x = true → t.tb ≤ s.dev.dstSize n c →
      ∀ bs os, t.tileBits ((nx + bits w 15 0) % 2 ^ 48) x = some bs → t.tileBits ((nx + bits w 15 0) % 2 ^ 48) 0 = some os →
        bitWords os ≠ [] → c.sent = false → c.pos = 0 → (bitWords os).length ≤ (s.dev.floe n).trkOpen 3 →
        (∀ l, t.space = 3 → s.dev.workingRoute t.remote = some l → s.dev.remotes.length + (bitWords os).length ≤ 4096 →
          Runs (.ldt n) s fun d =>
            d.remotes.length = s.dev.remotes.length + (bitWords os).length ∧ d.ls = s.dev.ls ∧ d.dram = s.dev.dram) ∧
        (t.space = 0 → (∀ a ∈ bitWords os, s.dev.mayAccess (s.dev.floeAccess (s.dev.logicalOf n)) a false = true) →
          Runs (.ldt n) s fun d => (∀ a ∈ bitWords os, InFabric d n 3 c (readOf a)) ∧ d.ls = s.dev.ls ∧ d.dram = s.dev.dram ∧
            ∃ c' ∈ (d.floe n).engine 3, c'.number = c.number ∧ c'.sent = true ∧ c'.words = c.words ++ bitWords os)) ∧
    (Performs s.dev n 3 2 c → c.dst = some (q, i) → c.descOf false = .ok t → t.xformOk x = true →
      let it := source s.dev n c 0
      let idx := (List.range (it.size / 4)).map it.index
      let live := idx.map fun v => if t.indexUse v = some true then some v else none
      let bs := t.gatherBits live x
      let order := (live.zipIdx).flatMap fun p => match p.1 with
        | some v => (t.sliceElems (it.size / 4) p.2 v).map fun q => some q.2
        | none => []
      it.anyPoison = false → t.gatherBytes (it.size / 4) ≤ at_.2 → (∀ v ∈ idx, t.indexUse v ≠ none) →
      Readable s.dev n c t (bitWords order) ws → Runs (.ldg n) s (pushes (tileOf at_.2 t.eb (bs.map (elemAt ws t.eb))))) ∧
    (Performs s.dev n 3 3 c → c.descOf false = .ok t → t.xformOk x = true → s.dev.ownRange n off t.tb = true →
      ∀ bs os, t.tileBits nx x = some bs → t.tileBits nx 0 = some os → Readable s.dev n c t (bitWords os) ws → Runs (.ldl n) s fun d =>
        let tile := tileOf (ceilDiv t.tb 64 * 64) t.eb (bs.map (elemAt ws t.eb))
        (∀ j, j < t.tb → d.ls.byte (n.val * 2 ^ 21 + off + j) = BitVec.ofNat 8 (tile.data >>> (8 * j))) ∧
          (∀ k, (k < n.val * 2 ^ 21 + off ∨ n.val * 2 ^ 21 + off + (t.tb + 63) / 64 * 64 ≤ k) → d.ls.byte k = s.dev.ls.byte k) ∧
          DonePerforming d n 3 c ∧ d.dram = s.dev.dram) ∧
    (Performs s.dev n 3 4 c → c.dst = some (q, i) → s.dev.ownRange n off at_.2 = true →
      Runs (.ldq n) s (pushes (s.dev.tileRead n off at_.2).1))

/-- R297, R298, R324, R327, R328: STT and STS without ACC store their elements where the tensor has them: in local store, and by
requests in the fabric to their channels in device memory; STS with ACC and NBOP post NBOs; STL copies its tile into the floe's own local store.

One NBO for each execution, and when requests go out, are log entries 27, 28 and 61. -/
def Obligations.StoreCommands : Prop :=
  ∀ (s : State) (n : Fin 136) (c : ECmd) (t : TDesc),
    let w := c.word.toNat
    let off := 64 * bits w 20 6
    let me := s.dev.logicalOf n
    let src := source s.dev n c 0
    let stores := fun (row : Instr) (ws : List StoreW) =>
      (t.space = 0 → c.sent = false → c.pos = 0 → ws.length ≤ (s.dev.floe n).trkOpen 4 →
        (∀ x ∈ ws, s.dev.mayAccess (s.dev.floeAccess me) x.addr true = true) → Runs row s fun d =>
          (∀ x ∈ ws, InFabric d n 4 c x) ∧ DonePerforming d n 4 c ∧ d.ls = s.dev.ls ∧ d.dram = s.dev.dram) ∧
      (∀ m, (t.space = 1 ∧ m = n.val) ∨ (t.space = 2 ∧ s.dev.remoteSlot t.remote = some m) →
        (s.dev.floe n).trkOpen 4 ≠ 0 → (∀ x ∈ ws, (s.dev.floe m).inQueue x.addr 64 = false) → (ws.map fun x => lsIndex m x.addr).Nodup →
        Runs row s fun d => DonePerforming d n 4 c ∧ d.dram = s.dev.dram ∧
          (∀ x ∈ ws, let old := (s.dev.ls.readWord (lsIndex m x.addr)).data
            ∀ j, j < 64 → lineByte (d.ls.readWord (lsIndex m x.addr)).data j =
              if x.mask.getLsbD j then lineByte (keepBits old x.data x.keep) j else lineByte old j) ∧
          ∀ k, (∀ x ∈ ws, k ≠ lsIndex m x.addr) → d.ls.readWord k = s.dev.ls.readWord k) ∧
      (∀ l, t.space = 3 → c.sent = false → c.pos = 0 → s.dev.workingRoute t.remote = some l →
        ws.length ≤ (s.dev.floe n).trkOpen 4 → s.dev.remotes.length + ws.length ≤ 4096 → Runs row s fun d =>
          d.remotes.length = s.dev.remotes.length + ws.length ∧ d.ls = s.dev.ls ∧ d.dram = s.dev.dram)
    let waiting := s.dev.nbos.any fun x => !x.accepted && (match x.poster with
      | .floe f _ => f.toNat == me
      | _ => false)
    let posts := fun (row : Instr) (desc : Line) => Runs row s fun d =>
      (∃ y : Nbo, d.nbos = s.dev.nbos ++ [y] ∧ y.desc = desc ∧ y.poster = .floe (BitVec.ofNat 7 me) c.number ∧ y.accepted = false ∧
        y.field = (s.dev.floeAccess me).field ∧ y.secure = (s.dev.floeAccess me).secure) ∧ d.dram = s.dev.dram ∧ d.ls = s.dev.ls ∧
        ∃ c' ∈ (d.floe n).engine 4, c'.number = c.number ∧ c'.pos = c.pos + 1 ∧ c'.performed = false
    (∀ bs, Performs s.dev n 4 1 c → c.descOf true = .ok t → t.tb ≤ src.size →
      t.tileBits (((if w.testBit 9 then (c.nx (bits w 12 10)).toNat else 0) + bits w 8 0) % 2 ^ 48) 0 = some bs →
      stores (.stt n) (storeGroup t.eb ((bs.zipIdx).filterMap fun p => p.1.map fun b => (b, src.elem t.eb p.2, src.elemPoison t.eb p.2)))) ∧
    (Performs s.dev n 4 2 c → c.descOf true = .ok t →
      let it := source s.dev n c 1
      let count := it.size / 4
      let idx := (List.range count).map it.index
      let slices := ((idx.zipIdx).filter fun p => t.indexUse p.1 = some true).map fun p =>
        (p.2, (t.sliceElems count p.2 p.1).map fun e => (e.2, src.elem t.eb e.1, src.elemPoison t.eb e.1))
      t.gatherBytes count ≤ src.size → it.anyPoison = false → (∀ v ∈ idx, t.indexUse v ≠ none) →
      (w.testBit 6 = false → stores (.sts n) (storeGroup t.eb (slices.flatMap (·.2)))) ∧
      (∀ fmt desc p, w.testBit 6 = true → scatFmt t.fmt = some fmt → t.space = 0 → waiting = false → (s.dev.floe n).trkOpen 4 ≠ 0 →
        (s.dev.scatNbos t fmt (w.testBit 5) slices)[c.pos]? = some (desc, p) → posts (.sts n) desc) ∧
      (∀ fmt e, w.testBit 6 = true → scatFmt t.fmt = some fmt → t.space = 1 → slices.flatMap (·.2) = [e] → e.1 % t.eb = 0 →
        let a := e.1 / 512 * 64
        let element := fun (d : Dev) => ((d.ls.readWord (lsIndex n a)).data.toNat >>> (e.1 % 512)) % 2 ^ t.eb
        let nd := nboDesc (BitVec.ofNat 512 (scatCtrl fmt false))
        (s.dev.floe n).trkOpen 4 ≠ 0 → (s.dev.floe n).inQueue a 64 = false → Runs (.sts n) s fun d => DonePerforming d n 4 c ∧ d.dram = s.dev.dram ∧
          element d = accwElem nd (element s.dev) (bankVal nd e.2.1) % 2 ^ t.eb)) ∧
    (Performs s.dev n 4 3 c → s.dev.ownRange n off src.size = true → Runs (.stl n) s fun d =>
      HoldsTile s.dev d n off src.size src ∧ DonePerforming d n 4 c ∧ d.dram = s.dev.dram) ∧
    (Performs s.dev n 4 4 c → s.dev.ownRange n off (src.size / 16) = true → c.pos < src.size / 64 → src.poison.testBit c.pos = false →
      waiting = false → posts (.nbop n) (BitVec.ofNat 512 (src.data >>> (512 * c.pos))))

/-! ## Synchronisation and descriptors (chapters 9 and 10) -/

namespace Sys2Proof.Claims

/-- The sync slot of an active floe has this command of an opcode to perform (R299). -/
def Syncs (d : Dev) (n op : Nat) (c : ECmd) : Prop :=
  d.sys.phase.live = true ∧ (d.floe n).active = true ∧ (d.floe n).current 5 = some c ∧ syncOp c.word = op

/-- The sync command has been performed. -/
def Synced (d : Dev) (n : Nat) (c : ECmd) : Prop :=
  ∃ c' ∈ (d.floe n).engine 5, c'.number = c.number ∧ c'.performed = true

/-- The sync command still waits, as a synchronisation wait (R301). -/
def SyncHeld (d : Dev) (n : Nat) (c : ECmd) : Prop :=
  ∃ c' ∈ (d.floe n).engine 5, c'.number = c.number ∧ c'.performed = false ∧ c'.waiting.isSome = true

/-- The semaphore that a command names is its field's own and sound (R300, R339, R368). -/
def OwnsSem (d : Dev) (n : Nat) (c : ECmd) : Prop :=
  d.semOwned (d.floeField n) (syncSem c.word) = true ∧ d.semPoisoned (syncSem c.word) = false

/-- Nothing of a slot waits for its hub. -/
def HubIdle (d : Dev) (n : Nat) : Prop := (d.floe n).waitList = [] ∧ ∀ b ∈ (d.floe n).bundles, b.due = false

end Sys2Proof.Claims

/-- R119, R120, R122, R242, R300, R340: the sync commands that update an object or a message queue at once.

That a command's own row applies it at once is log entry 24. -/
def Obligations.SyncObjects : Prop :=
  ∀ (s : State) (n : Fin 136) (c : ECmd),
    let w := c.word.toNat
    let me := s.dev.logicalOf n
    let sem := syncSem c.word
    let nx := c.nx (bits w 6 4)
    let only := fun (f : Nat) (l : Logical) (d : Dev) => Synced d n c ∧ d.logi f = l ∧ (∀ g, g ≠ f → d.logi g = s.dev.logi g) ∧
      d.sems = s.dev.sems ∧ d.dram = s.dev.dram
    let semIs := fun (v : BitVec 64) (d : Dev) => Synced d n c ∧ d.sem sem = v ∧ (∀ k, k ≠ sem → d.sem k = s.dev.sem k) ∧
      d.logical = s.dev.logical ∧ d.dram = s.dev.dram
    let target := bits w 18 12
    (Syncs s.dev n 1 c →
      (s.dev.sameField me target = true → Runs (.sigr n) s (only target
        ((s.dev.logi target).signal (w.testBit 11) (bits w 10 5) (bits w 4 2)))) ∧
      (s.dev.sameField me target = false → Runs (.sigr n) s fun d => (d.floe n).st = .halting ∧ d.logical = s.dev.logical)) ∧
    (Syncs s.dev n 2 c → Runs (.tlset n) s (only me ((s.dev.logi me).setLimit (bits w 18 13) ((c.nx (bits w 12 10)).truncate 32)))) ∧
    (Syncs s.dev n 3 c → Runs (.tadd n) s (only me ((s.dev.logi me).setCounter (bits w 18 13)
      ((s.dev.logi me).counter (bits w 18 13) + (c.nx (bits w 12 10)).truncate 32)))) ∧
    (Syncs s.dev n 4 c → OwnsSem s.dev n c → Runs (.semadd n) s (semIs (s.dev.sem sem + nx.zeroExtend 64))) ∧
    (Syncs s.dev n 4 c → s.dev.semOwned (s.dev.floeField n) sem = false → Runs (.semadd n) s fun d =>
      (d.floe n).st = .halting ∧ d.sems = s.dev.sems) ∧
    (Syncs s.dev n 5 c → OwnsSem s.dev n c → Runs (.seminc n) s (semIs (s.dev.sem sem + 1))) ∧
    (Syncs s.dev n 5 c → s.dev.semOwned (s.dev.floeField n) sem = true → s.dev.semPoisoned sem = true → Runs (.seminc n) s fun d =>
      (d.floe n).st = .frozen ∧ fld (d.reg (rFreeze n)) 27 24 = 6 ∧ d.sems = s.dev.sems) ∧
    (Syncs s.dev n 6 c → OwnsSem s.dev n c → Runs (.semset n) s (semIs (nx.zeroExtend 64))) ∧
    (Syncs s.dev n 9 c → s.dev.sameField me target = true → (s.dev.logi me).allowance < 64 →
      (s.dev.frozenFloe target = false → (s.dev.logi target).data.length < 64 → Runs (.send n) s fun d => Synced d n c ∧
        (d.logi me).sent = (s.dev.logi me).sent + 1 ∧ (d.logi me).allowance = (s.dev.logi me).allowance + 1 ∧
        ∃ m : Msg, (d.logi target).data = (s.dev.logi target).data ++ [m] ∧ m.cmd = none ∧
          m.bytes = msgBytes me (s.dev.logi me).epoch.toNat (s.dev.logi me).sent.toNat 0
            ((List.range 4).foldr (fun k x => (c.nx (4 * bits w 11 11 + k)).toNat + 2 ^ 48 * x) 0)) ∧
      (s.dev.frozenFloe target = true → target ≠ me → (s.dev.logi me).statuses.length < 64 → Runs (.send n) s fun d => Synced d n c ∧
        (d.logi target).data = (s.dev.logi target).data ∧ ∃ m : Msg, (d.logi me).statuses = (s.dev.logi me).statuses ++ [m] ∧ m.kind = 1)) ∧
    (∀ x rest, Syncs s.dev n 0xA c →
      let got := fun (d : Dev) => Synced d n c ∧ ∀ j, j < 8 →
        (d.logi me).counter (8 * bits w 18 16 + j) = BitVec.ofNat 32 (fieldAt x.bytes.toNat (4 * j) 4)
      ((s.dev.logi me).statuses = x :: rest → Runs (.recv n) s fun d => got d ∧ (d.logi me).statuses = rest ∧
        (d.logi me).data = (s.dev.logi me).data) ∧
      ((s.dev.logi me).statuses = [] → (s.dev.logi me).data = x :: rest → Runs (.recv n) s fun d => got d ∧ (d.logi me).data = rest ∧
        ∀ r i c', x.cmd = some (r, i) → s.dev.cmd r i = some c' → c'.done = none → Ended d r i 0 0 0) ∧
      ((s.dev.logi me).statuses = [] → (s.dev.logi me).data = [] → Runs (.recv n) s fun d => SyncHeld d n c ∧ d.logical = s.dev.logical))

/-- R301, R341, R342, R345, R353, R354: waits on semaphores in the order of their queue, COMMIT and its mark, one cycle of a hub
and the watchdog.

That a command's own row applies it at once, and the queue's form, are log entries 24 and 25; that a cycle ends the commands that
can end is log entry 151. -/
def Obligations.SyncWaits : Prop :=
  ∀ (s : State) (n : Fin 136) (c : ECmd),
    let f := s.dev.floe n
    let me := s.dev.logicalOf n
    let sem := syncSem c.word
    let need := (c.nx (bits c.word.toNat 6 4)).zeroExtend 64
    let queue := fun (d : Dev) => tabGet (fun _ => []) d.semQ sem
    let mine := (BitVec.ofNat 7 me, c.number)
    (Syncs s.dev n 7 c → OwnsSem s.dev n c → (need ≤ s.dev.sem sem → Runs (.semwait n) s fun d => Synced d n c ∧ d.sems = s.dev.sems) ∧
      (¬ need ≤ s.dev.sem sem → Runs (.semwait n) s fun d => SyncHeld d n c ∧ d.sems = s.dev.sems)) ∧
    (Syncs s.dev n 8 c → OwnsSem s.dev n c →
      (∀ rest, (queue s.dev = mine :: rest ∨ (queue s.dev = [] ∧ rest = [])) →
        (need ≤ s.dev.sem sem → Runs (.semtake n) s fun d => Synced d n c ∧ d.sem sem = s.dev.sem sem - need ∧ queue d = rest ∧
          ∀ k, k ≠ sem → d.sem k = s.dev.sem k) ∧
        (¬ need ≤ s.dev.sem sem → Runs (.semtake n) s fun d => SyncHeld d n c ∧ queue d = mine :: rest ∧ d.sems = s.dev.sems)) ∧
      (∀ x rest, queue s.dev = x :: rest → mine ∉ queue s.dev → Runs (.semtake n) s fun d =>
        SyncHeld d n c ∧ queue d = x :: rest ++ [mine] ∧ d.sems = s.dev.sems)) ∧
    (Syncs s.dev n 0xB c → Runs (.commit n) s fun d => (∃ c' ∈ (d.floe n).engine 5, c'.number = c.number ∧ c'.sent = true ∧
        c'.performed = false) ∧ d.logical = s.dev.logical) ∧
    (Syncs s.dev n 0xB c → c.sent = true → f.storesDoneTo c.bundle = true → (f.st = .halting → f.haltAtDispatch = true) →
      Runs (.commitMarkWrite n) s fun d => Synced d n c ∧ ∃ m : Mark, (d.logi me).mark = some m ∧ m.resume = c.next ∧
        m.n = c.nafter ∧ m.epoch = (s.dev.logi me).epoch ∧ m.time = s.dev.time ∧
        m.seq = (match (s.dev.logi me).mark with
          | some o => o.seq + 1
          | none => 1)) ∧
    (∀ drift : Fin 32, (∀ x ∈ s.dev.cmds, x.sem / 128 ≠ drift.val) → tabGet (fun _ => 0) s.dev.sram (7 * 2 ^ 24 + drift.val) ≠ 1 →
      n.val ∈ s.dev.slotsByFloe →
      (∀ m ∈ s.dev.slotsByFloe, m ≠ n → HubIdle s.dev m ∧ (s.dev.floe m).current 5 = none) →
      (∀ x ∈ f.engine 5, x.issued = true → x.performed = false → x = c) →
      (∀ row op, (row, op) ∈ [(Instr.sigr n, 1), (.tlset n, 2), (.tadd n, 3), (.semadd n, 4), (.seminc n, 5), (.semset n, 6)] →
        Syncs s.dev n op c → HubIdle s.dev n → s.dev.syncHub n c = some drift.val → exec (.hubCycle drift) s = exec row s) ∧
      (Syncs s.dev n 5 c → OwnsSem s.dev n c → HubIdle s.dev n → s.dev.syncHub n c = some drift.val → Runs (.hubCycle drift) s fun d =>
        Synced d n c ∧ d.sem sem = s.dev.sem sem + 1 ∧ ∀ k, k ≠ sem → d.sem k = s.dev.sem k) ∧
      (∀ x, f.waitList = [x] → (∀ b ∈ f.bundles, b.due = false) → f.current 5 = none → me / 4 = drift →
        exec (.hubCycle drift) s = exec (.waitRelease n) s)) ∧
    (∀ (drift : Fin 32) r i, s.dev.hubEnds drift.val = [(r.val, i)] → tabGet (fun _ => 0) s.dev.sram (7 * 2 ^ 24 + drift.val) ≠ 1 →
      (∀ m ∈ s.dev.slotsByFloe, HubIdle s.dev m ∧ (s.dev.floe m).current 5 = none) →
      exec (.hubCycle drift) s = exec (.commandEnd r i) s) ∧
    (∀ t p pc sl, s.dev.sys.phase.live = true → f.active = true → f.oldestWait = some (t, p, pc, sl) → p ≠ 0 →
      Runs (.syncWatchdogExpiry n) s fun d => (d.floe n).st = .halting ∧ t + 2000 * p ≤ d.clock ∧
        (f.st ≠ .halting → (d.floe n).halt = some (6, pc, Fin.ofNat 8 sl)) ∧ d.dram = s.dev.dram)

/-- R307, R309, R311, R312: the operations of DT_CMD on the table of a slot, and the status that they leave.

That DT_CMD is done at once is log entry 31. -/
def Obligations.DescriptorCommands : Prop :=
  ∀ (s : State) (n : Fin 136) (ag : Agent) (i : Fin 256),
    let f := s.dev.floe n
    let status := fun (code : Nat) (d : Dev) => d.reg (rDtStatus n) = BitVec.ofNat 32 (i.val * 256 + code)
    let same := fun (d : Dev) => d.floe n = f
    s.dev.reaches ag = true → ag.kind ≠ 1 → s.dev.letIn (s.dev.rights ag) (rDtCmd n) = .ok →
      (f.st = .idle ∨ f.st = .halted →
        (∀ a b, s.dev.dtCheck n = (0, a, b) → Runs (.dtCreate ag n i) s fun d => status 0 d ∧
          (d.floe n).entry i = some { bytes := s.dev.dtStage n ||| BitVec.ofNat 1024 (a * 2 ^ 896 + b * 2 ^ 960), poison := false } ∧
          (∀ k, k ≠ i.val → (d.floe n).entry k = f.entry k) ∧ d.reg64 (rDtFirst n) = BitVec.ofNat 64 a ∧
          d.reg64 (rDtLast n) = BitVec.ofNat 64 b) ∧
        (∀ code a b, code ≠ 0 → s.dev.dtCheck n = (code, a, b) → Runs (.dtCreate ag n i) s fun d => status code d ∧ same d) ∧
        (Runs (.dtInvalidate ag n i) s fun d => status 0 d ∧ (d.floe n).entry i = none ∧ ∀ k, k ≠ i.val → (d.floe n).entry k = f.entry k)) ∧
      (f.st ≠ .idle → f.st ≠ .halted → (Runs (.dtCreate ag n i) s fun d => status 6 d ∧ same d) ∧
        (Runs (.dtInvalidate ag n i) s fun d => status 6 d ∧ same d)) ∧
      (f.st = .idle ∨ f.st = .halted ∨ f.st = .frozen → Runs (.dtInvalidateAll ag n) s fun d =>
        (∀ k, (d.floe n).entry k = none) ∧ d.reg (rDtStatus n) = 0) ∧
      (∀ e, f.entry i = some e → Runs (.dtReadBack ag n i) s fun d => status 0 d ∧ same d ∧ d.dtStage n = e.bytes ∧
        d.reg64 (rDtFirst n) = BitVec.ofNat 64 (fieldAt e.bytes.toNat 112 8) ∧
        d.reg64 (rDtLast n) = BitVec.ofNat 64 (fieldAt e.bytes.toNat 120 8)) ∧
      (f.entry i = none → Runs (.dtReadBack ag n i) s fun d => status 7 d ∧ same d)

/-! ## Errors, freezes and the moraine (chapter 11) -/

namespace Sys2Proof.Claims

/-- A word of a channel waits to be recovered from the twin: this is its place in the list, and its entry (R387). -/
def Recovering (d : Dev) (c n i : Nat) (v : Recovery) : Prop :=
  d.sys.phase.live = true ∧ findPos (fun v : Recovery => v.word == n) (d.chan c).recovery 0 = some (i, v) ∧ v.sent = true

/-- Only the test access port has changed. -/
def TapOnly (d d' : Dev) : Prop := d' = ({ d with sys := { d.sys with tap := d'.sys.tap } } : Dev).settle

/-- An instruction of the TAP is in force and has captured a value of a width; its bumps are driven or not (R552). -/
def Scanned (d : Dev) (ir captured width : Nat) (driving : Bool) : Prop :=
  let t := d.sys.tap
  t.ir = BitVec.ofNat 8 ir ∧ t.captured = captured ∧ t.width = width ∧ t.driving = driving

/-- The stack-test instructions are available: VENDOR level, RESET_n low, and power (R457, R552). -/
def StackTest (d : Dev) : Prop := d.powered = true ∧ d.tapLevel = 2 ∧ d.pinLow = true

end Sys2Proof.Claims

/-- R368, R379, R380, R382: a fault of a floe freezes it with its cause, and keeps its counters and queues; a poisoned semaphore
freezes the floe that found it; the freeze discards what has not left the floe; fencing raises the epoch, discards the inbox and
retires the slot of a LOGIC fault or of a third CTRL_UE.

When statuses drop and the counts are taken are log entries 35 and 36. -/
def Obligations.FloesFreeze : Prop :=
  ∀ (s : State) (n : Fin 136) (lf : BitVec 7),
    let f := s.dev.floe n
    let r := s.dev.reg (rFreeze n)
    let frozen := fun (cause : Nat) (d : Dev) => (d.floe n).st = .frozen ∧ (d.floe n).fencing = true ∧ (d.floe n).ident = some lf ∧
      (d.logi lf.toNat).statuses = [] ∧ d.reg64 (rFreezeTime n) = s.dev.time ∧
      d.reg (rFreeze n) = BitVec.ofNat 32 (0xC0000000 + cause * 2 ^ 24 + if cause = 3 then min 3 (fld r 1 0 + 1) else fld r 1 0) ∧
      d.dram = s.dev.dram ∧ d.ls = s.dev.ls
    s.dev.sys.phase.live = true → f.ident = some lf →
      (f.st ≠ .frozen → f.st ≠ .unassigned →
        (∀ cause : Fin 16, (cause = 3 ∨ cause = 4 ∨ cause = 5 ∨ cause = 7) → Runs (.floeFault n cause) s fun d =>
          frozen cause.val d ∧ (d.floe n).n = f.n ∧ (d.floe n).queues = f.queues ∧ (d.floe n).engines = f.engines ∧
            (cause = 5 → (d.logi lf.toNat).ue = true) ∧ ∀ m, m ≠ n.val → d.floe m = s.dev.floe m) ∧
        (∀ sm, f.semOf = some sm → Runs (.floeFault n 6) s fun d => frozen 6 d ∧ d.semPoisoned sm = true ∧ d.sems = s.dev.sems)) ∧
      (f.fencing = true → Runs (.floeFreezeStart n) s fun d =>
        (∀ k, k < 6 → (d.floe n).engine k = []) ∧ (d.floe n).waitList = [] ∧ (d.floe n).bundles = [] ∧ (d.floe n).fetching = [] ∧
          (∀ k x, x ∈ tabGet (fun _ => []) d.semQ k → x.1 ≠ lf) ∧ (d.floe n).st = f.st ∧ (d.floe n).n = f.n ∧
          (d.floe n).queues = f.queues ∧ d.dram = s.dev.dram ∧ d.ls = s.dev.ls) ∧
      (f.fencing = true → f.emptied = true → s.dev.floeRequests lf = false → f.openStores < 2 ^ 16 →
        let bad := fld r 27 24 = 4 ∨ (fld r 27 24 = 3 ∧ fld r 1 0 = 3)
        Runs (.floeFenced n) s fun d =>
          (d.floe n).fencing = false ∧ (d.floe n).st = f.st ∧ (d.floe n).ident = some lf ∧
            (d.logi lf.toNat).epoch = (s.dev.logi lf.toNat).epoch + 1 ∧ (d.logi lf.toNat).data = [] ∧
            fld (d.reg (rFreezeStores n)) 31 16 = min 65535 f.storesDone ∧ fld (d.reg (rFreezeStores n)) 15 0 = f.openStores ∧
            (d.floe n).retired = (f.retired || decide bad) ∧
            (bad → s.dev.sys.repairRec = true → s.dev.fuses.repair.length < 16 → n ∉ s.dev.fuses.repair →
              d.fuses.repair = s.dev.fuses.repair ++ [n]) ∧
            (¬ bad → d.fuses = s.dev.fuses) ∧ d.dram = s.dev.dram)

/-- R363, R370, R387: a repair write whose column command can issue makes a corrected word good; a scrub visit, at its moment, asks
for the words of the next row; the twin's answer, or its silence, ends a recovery.

That REPAIR_WRITE does the oldest repair, and that all eight code words are marked, are log entries 40 and 41. -/
def Obligations.WordsAreRepaired : Prop :=
  ∀ (s : State) (c : Fin 32), s.dev.sys.phase.live = true →
    let k := s.dev.chan c
    (∀ r e, s.dev.slotOpen c = true → (∀ x ∈ s.dev.entries c, x.class0 = false) → s.dev.entries c = [e] → e.kind = .repair r.id →
      s.dev.nextCmd c e = .column e.bank true → s.dev.timingOk c s.dev.clock (.column e.bank true) = true →
      k.reqs.find? (fun x => x.id == r.id) = some r → s.dev.buffered r.word = none →
      let w := s.dev.dram.readWord r.word
      (w.uncorr = 0 → Runs (.repairWrite c) s fun d =>
        (d.dram.readWord r.word).data = w.data ∧ (d.dram.readWord r.word).corrected = 0 ∧ (d.dram.readWord r.word).marks = w.marks ∧
          (d.chan c).reqs = k.reqs.filter (fun x => x.id != r.id) ∧ (∀ j, j ≠ r.word → d.dram.readWord j = s.dev.dram.readWord j))) ∧
    (rbit (s.dev.reg rErrScrub) 31 = true → ChanUp s.dev c → (∀ r ∈ k.reqs, r.origin ≠ .scrub) →
      Runs (.patrolScrubVisit c) s fun d =>
        k.scrubAt + s.dev.scrubSlots ≤ d.clock ∧ (d.chan c).scrubAt = k.scrubAt + s.dev.scrubSlots ∧
          (d.chan c).scrubNext = (k.scrubNext + 1) % 2097152 ∧ (d.chan c).reqs.take k.reqs.length = k.reqs ∧
          (d.chan c).reqs.length = k.reqs.length + 16 ∧
          (∀ j, j < 16 → ∃ r ∈ (d.chan c).reqs, r.origin = .scrub ∧ r.cls = 3 ∧ r.word = (c.val * 2097152 + k.scrubNext) * 16 + j) ∧
          d.reg64 (rErrScrubRows c) = s.dev.reg64 (rErrScrubRows c) + 1 ∧ d.dram = s.dev.dram) ∧
    (∀ (n : BitVec 30) i v data, Recovering s.dev c n.toNat i v → k.down = false →
      (s.dev.bankNear c (wordPlace n.toNat).bank).atom = none →
      let rest := fun (d : Dev) => (d.chan c).recovery = dropAt k.recovery i ∧
        ∀ j, j ≠ n.toNat → d.dram.readWord j = s.dev.dram.readWord j
      let answers := fun (d : Dev) (x : Line) (p : Bool) => (v.waiting = [] → (d.chan c).readyQ = k.readyQ) ∧
        ∀ r, v.waiting = [r] → r.port ≠ 4 → ((∃ h, r.origin = .host h) ∨ ∃ m, r.origin = .fetch m) → (d.chan c).readyQ = k.readyQ ++
          [{ origin := r.origin, word := r.word, cls := r.cls, index := r.index, data := x, poison := p, since := r.since }]
      let old := (s.dev.dram.readWord n.toNat).data
      (Runs (.twinReadResponse c n data false) s fun d =>
        (d.dram.readWord n.toNat).data = data ∧ (d.dram.readWord n.toNat).marks = 0 ∧ rest d ∧ answers d data false ∧
          d.reg64 (rErrTwinOk c) = s.dev.reg64 (rErrTwinOk c) + 1) ∧
      (Runs (.twinReadResponse c n data true) s fun d =>
        (d.dram.readWord n.toNat).data = old ∧ (d.dram.readWord n.toNat).marks = 0xFF ∧ rest d ∧ answers d old true ∧
          d.reg64 (rErrTwinFail c) = s.dev.reg64 (rErrTwinFail c) + 1) ∧
      ((s.dev.link 4).down = false → (s.dev.link 4).pauseFrom = none → v.since ≤ s.dev.clock →
        Runs (.twinReadTimeout c n) s fun d =>
          (d.dram.readWord n.toNat).data = old ∧ (d.dram.readWord n.toNat).marks = 0xFF ∧ rest d ∧ answers d old true ∧
            v.since + 2000 * fld (s.dev.reg rErrTwin) 15 0 ≤ d.clock))

/-- R376, R377, R392: a coalescing window ends in one entry with its count; the ring takes the entry at MOR_TAIL, or counts one
that is gone; MOR_HEAD moves forward to MOR_TAIL at most; all ones clear MOR_FIRST_FATAL and FATAL. -/
def Obligations.MoraineKeeps : Prop :=
  ∀ (s : State),
    let seq := s.dev.reg rMorSeq
    let tail := s.dev.reg rMorTail
    let head := s.dev.reg rMorHead
    let k := fld (s.dev.reg rMorCfg) 20 16
    (∀ code ukind unit i w, s.dev.sys.phase.live = true →
      findPos (fun w : MorWindow => w.code == code && w.ukind == ukind && w.unit == unit) s.dev.wins 0 = some (i, w) →
      Runs (.coalesceWindowClose code ukind unit) s fun d =>
        d.wins = dropAt s.dev.wins i ∧ w.opened + 2000 * fld (s.dev.reg rMorCfg) 15 0 ≤ d.clock ∧
          (w.count = 0 → d.reg rMorSeq = seq ∧ d.mor = s.dev.mor) ∧
          (w.count ≠ 0 → d.reg rMorSeq = seq + 1 ∧ tabGet (fun _ => 0) d.mor (seq.toNat % 4096) =
            morBytes seq.toNat { w.last with rept := true, info := BitVec.ofNat 32 w.count })) ∧
    (s.dev.sys.phase.live = true → rbit (s.dev.reg rMorCfg) 31 = true → (tail - head).toNat < 2 ^ k → tail ≠ seq →
      let a := (s.dev.reg64 rMorBase).toNat % 2 ^ 36 + 32 * (tail.toNat % 2 ^ k)
      let w := s.dev.wordOf a
      ((seq - tail).toNat ≤ 4096 → a % 32 = 0 → s.dev.wordDown w = false →
        s.dev.cpWaits { origin := .moraine, port := 4, cls := 3, field := none } a (bytesMask a 32) = false → tabGet (fun _ => false) s.dev.morUe (tail.toNat % 4096) = false →
        Runs .moraineRingCopy s fun d => d.reg rMorTail = tail + 1 ∧ d.reg rMorHead = head ∧
          (∀ j, j < 64 → lineByte (d.seen w).data j = if a % 64 ≤ j ∧ j < a % 64 + 32
            then BitVec.ofNat 8 (fieldAt (tabGet (fun _ => 0) s.dev.mor (tail.toNat % 4096)).toNat (j - a % 64) 1)
            else lineByte (s.dev.seen w).data j) ∧ ∀ m, m ≠ w → d.seen m = s.dev.seen m) ∧
      (4096 < (seq - tail).toNat → Runs .moraineRingCopy s fun d => d.reg rMorTail = tail + 1 ∧
        d.reg64 rMorDrop = s.dev.reg64 rMorDrop + 1 ∧ d.dram = s.dev.dram ∧ d.chans = s.dev.chans)) ∧
    (∀ ag v, Writes s.dev ag rMorHead → (s.dev.rights ag).secure = true →
      ((v - head).toNat ≤ (tail - head).toNat → Runs (.morHeadWrite ag v) s fun d =>
        d.reg rMorHead = v ∧ (∀ o, o ≠ rMorHead → d.reg o = s.dev.reg o) ∧ d = ({ s.dev with cs := d.cs } : Dev).settle) ∧
      ((tail - head).toNat < (v - head).toNat → Runs (.morHeadWrite ag v) s fun d =>
        d.reg rMorHead = head ∧ rbit (d.reg rMorStat) 28 = true ∧ (∀ o, o ≠ rMorStat → d.reg o = s.dev.reg o) ∧
          d = ({ s.dev with cs := d.cs } : Dev).settle)) ∧
    (∀ ag, Writes s.dev ag rMorFatal → (s.dev.rights ag).secure = true → Runs (.morFirstFatalClear ag) s fun d =>
      d.reg rMorFatal = 0 ∧ rbit (d.reg rMorStat) 29 = false ∧ (∀ o, o ≠ rMorFatal → o ≠ rMorStat → d.reg o = s.dev.reg o) ∧
        d = ({ s.dev with cs := d.cs } : Dev).settle)

/-! ## The test access port (chapters 13 and 16) -/

/-- R457 to R459, R552 to R556: each instruction of the test access port.

Model's choices: which accesses CS_ACCESS does not make (log entry 128), and the order of key and password bytes (log entry 126). -/
def Obligations.TestAccessPort : Prop :=
  ∀ (s : State),
    let t := s.dev.sys.tap
    let locked := rbit (s.dev.reg rDbgStat) 28
    let fails := fld (s.dev.reg rDbgStat) 1 0
    let uid := s.dev.fuses.uid.toNat
    (Runs .testLogicReset s fun d => TapOnly s.dev d ∧ d.sys.tap.ir = 1 ∧ d.sys.tap.driving = false) ∧
    (s.dev.powered = true →
      (Runs .idcode s fun d => TapOnly s.dev d ∧ Scanned d 1 0x16440A43 32 false) ∧
      (∀ code tdi, s.dev.tapAvailable (code : BitVec 8).toNat = false → Runs (.bypass code tdi) s fun d =>
        TapOnly s.dev d ∧ Scanned d code.toNat (2 * tdi.toNat) 2 false) ∧
      (∀ levels shifted,
        let captured := fun (d : Dev) => ∀ u : Fin 2671, d.sys.tap.captured.testBit (2 * u.val) = levels.getLsbD u.val ∧
          d.sys.tap.captured.testBit (2 * u.val + 1) = false
        let scan := fun (ir : Nat) (driving : Bool) (d : Dev) => TapOnly s.dev d ∧ d.sys.tap.ir = BitVec.ofNat 8 ir ∧
          d.sys.tap.width = 5342 ∧ d.sys.tap.boundary = shifted ∧ d.sys.tap.driving = driving ∧ captured d
        Runs (.samplePreload levels shifted) s (scan 2 false) ∧
          (1 ≤ s.dev.tapLevel → s.dev.pinLow = true → Runs (.extest levels shifted) s (scan 3 true))) ∧
      (∀ nonce, Runs (.dbgChal nonce) s fun d => TapOnly s.dev d ∧ Scanned d 0x10 (nonce.toNat + uid * 2 ^ 256) 320 false ∧
        d.sys.tap.nonce = some nonce) ∧
      (∀ resp : BitVec 776, locked = false → s.dev.unlockOk resp.toNat = true → Runs (.dbgUnlock resp) s fun d =>
        fld (d.reg rDbgStat) 31 30 = resp.toNat % 256 ∧ rbit (d.reg rDbgStat) 29 = true ∧
          fld (d.reg rDbgStat) 1 0 = fails ∧ d.sys.tap.nonce = none) ∧
      (∀ resp : BitVec 776, (locked = true ∨ s.dev.unlockOk resp.toNat = false) → Runs (.dbgUnlock resp) s fun d =>
        fld (d.reg rDbgStat) 31 30 = s.dev.tapLevel ∧ fld (d.reg rDbgStat) 1 0 = min 3 (fails + 1) ∧
          (fails = 2 → rbit (d.reg rDbgStat) 28 = true) ∧ d.sys.tap.nonce = none) ∧
      (Runs .dbgClose s fun d => fld (d.reg rDbgStat) 31 30 = 0 ∧ d.sys.tap.driving = false ∧
        ∀ o, o ≠ rDbgStat → d.reg o = s.dev.reg o)) ∧
    (∀ ag, s.dev.reaches ag = true → ag.kind ≠ 1 → (s.dev.rights ag).secure = true → Runs (.dbgCtrlClose ag) s fun d =>
      fld (d.reg rDbgStat) 31 30 = 0 ∧ d.sys.tap.driving = false ∧ ∀ o, o ≠ rDbgStat → d.reg o = s.dev.reg o) ∧
    (∀ x : BitVec 64, s.dev.sys.phase.live = true → 1 ≤ s.dev.tapLevel →
      let o := bits x.toNat 55 32
      let v := BitVec.ofNat 32 x.toNat
      let r := s.dev.tapRights
      let scanned := fun (d : Dev) => Scanned d 0x20 (t.csData.toNat + t.csDone.toNat * 2 ^ 32 + t.csDenied.toNat * 2 ^ 33) 64 false
      bits x.toNat 63 57 = 0 → o % 4 = 0 →
      (∀ row, regRow o = some row → row.half = 0 → s.dev.letIn r o = .ok →
        (bit x.toNat 56 = false → Runs (.csAccess x) s fun d => TapOnly s.dev d ∧ scanned d ∧ d.sys.tap.csDone = true ∧
          d.sys.tap.csDenied = false ∧ d.sys.tap.csData = s.dev.regValue o) ∧
        (bit x.toNat 56 = true → (row.rws ≠ 0 → r.secure = true) → s.dev.wordClosed r (o - o % 64) true = false →
          s.dev.writeAction r o v = none → Runs (.csAccess x) s fun d => scanned d ∧ d.sys.tap.csDone = true ∧
            d.sys.tap.csDenied = false ∧ d.sys.tap.csData = t.csData ∧ (∀ p, p ≠ o → d.reg p = s.dev.reg p) ∧
            d.reg o = (let y := writeValue row (s.dev.reg o) v r.secure
              if row.rw ||| (if r.secure then row.rws else 0) = 0 then y else storeLimit o y))) ∧
      (bit x.toNat 56 = false → s.dev.letIn r o = .closed → Runs (.csAccess x) s fun d => scanned d ∧ d.sys.tap.csDone = true ∧
        d.sys.tap.csDenied = true ∧ d.sys.tap.csData = t.csData)) ∧
    (StackTest s.dev →
      (∀ dies, Runs (.stackSel dies) s fun d => TapOnly s.dev d ∧ Scanned d 0x40 t.stack.toNat 17 false ∧ d.sys.tap.stack = dies) ∧
      (∀ codes : List (BitVec 8), codes.length = t.dies.length → Runs (.wrapIr codes) s fun d => TapOnly s.dev d ∧
        d.sys.tap.ir = 0x41 ∧ d.sys.tap.width = 8 * codes.length ∧ (∀ j k : Nat, t.dies[j]? = some k → d.sys.tap.wir[k]? = codes[j]?) ∧
        ∀ k, k ∉ t.dies → (d.sys.tap.wir[k]?).getD 0 = (t.wir[k]?).getD 0) ∧
      (∀ cells : List Bool, cells.length = (t.dies.map t.cellCount).foldl (· + ·) 0 → Runs (.wrapDr cells) s fun d =>
        d.sys.tap.ir = 0x42 ∧ d.sys.tap.width = cells.length ∧ d.sys.tap.wir = t.wir ∧ d.dram = s.dev.dram ∧ d.cs = s.dev.cs ∧
          ((∀ k ∈ t.dies, (t.wir[k]?).getD 0 = 0) → d.sys.tap.captured = 0 ∧ d.sys.tap.cells = t.cells) ∧
          ∀ k, t.dies = [k] → t.cellCount k ≠ 1 → tabGet (fun _ => []) d.sys.tap.cells k = cells))

/-! ## Reset, start-up, flash and the sideband (chapter 14) -/

namespace Sys2Proof.Claims

/-- Nothing keeps the device from starting again: power, a high RESET_n, no trip to cool from (R463, R467, R521). -/
def MayRestart (d : Dev) : Prop :=
  d.powered = true ∧ d.pinLow = false ∧ d.sys.cooling = none ∧ d.sys.phase ≠ .dead

/-- A start ended with the release of every floe and every host channel trained (R469, R472). -/
def Released (d : Dev) : Prop :=
  d.sys.phase = .running ∧ d.released = true ∧ rbit (d.reg rCpStat) 31 = true ∧ fld (d.reg rRstStat) 19 18 = 0
    ∧ fld (d.reg rCfgStat) 18 16 = 7

/-- Steps 4 to 6 meet no failure, the windows of step 4 among them, and every host drives CK train and trains (R163). -/
def GoodTail (env : StartEnv) : Prop :=
  env.tsvDown = 0 ∧ (∀ c, c < 32 → tsvFails env.tsvDown env.lanes c = false) ∧ env.dramBad = false ∧ env.ckSeen = BitVec.allOnes 32 ∧ env.hostOk = BitVec.allOnes 32

/-- Image selection, in step 2 of this start, chooses an image, and this is the device with it loaded (R478 to R489). -/
def Selects (d : Dev) (env : StartEnv) (d' : Dev) : Prop :=
  let x : Dev := { d with sys := { d.sys with startMs := env.startMs.toNat } }
  ((((x.stepOne).step_ 2).setRegFld rFlStat 23 16 env.density.toNat).selectImage env.readOk).1 = some d'

/-- Only the sideband has changed. -/
def SbOnly (d d' : Dev) : Prop := d' = ({ d with sys := { d.sys with sb := d'.sys.sb } } : Dev).settle

end Sys2Proof.Claims

/-- R382, R463, R464, R467, R468, R502, R541: every source of a reset, the RESET_n pin, power-good, and the FAILS count.

The pin and power-good at power-on are log entry 92. -/
def Obligations.Resets : Prop :=
  ∀ (s : State) (ag : Agent),
    (Runs .powerOnReset s fun d =>
      d.sys.phase = .rising ∧ d.reg rRstCause = 1 ∧ rbit (d.reg rRstStat) 29 = true ∧ rbit (d.reg rRstStat) 31 = s.dev.pinLow ∧
        (∀ o, o ∉ [rRstCause, rRstStat, rDbgPolicy] → d.reg o = regReset o) ∧ d.dram = { bytes := [], synd := [] } ∧ d.mor = [] ∧
        d.cmds = [] ∧ d.rings = [] ∧ d.hosts = [] ∧ d.chans = [] ∧ d.links = [] ∧ d.fuses = s.dev.fuses ∧ d.flash = s.dev.flash ∧
        (∀ n : Fin 136, n.val < 128 → n ∉ s.dev.fuses.repair → (d.floe n).st = .idle ∧ (d.floe n).ident = some (BitVec.ofNat 7 n.val)) ∧
        ∀ n : Fin 136, n ∈ s.dev.fuses.repair → (d.floe n).retired = true ∧ (d.floe n).ident = none) ∧
    (s.dev.powered = true → s.dev.sys.phase ≠ .dead → Runs .resetPinAssert s fun d =>
      HasReset s.dev d 1 .held ∧ rbit (d.reg rRstStat) 31 = true ∧ fld (d.reg rRstStat) 15 0 = 0 ∧ d.chans = [] ∧ d.mor = s.dev.mor) ∧
    (s.dev.pinLow = true →
      (∀ lowMs : BitVec 16, s.dev.sys.phase = .held → s.dev.sys.cooling = none → Runs (.resetPinRelease lowMs) s fun d =>
        d.sys.phase = .waiting ∧ rbit (d.reg rRstStat) 31 = false ∧ rbit (d.reg rRstStat) 30 = false ∧
          fld (d.reg rRstStat) 15 0 = lowMs.toNat ∧ d.dram = s.dev.dram ∧
          (rbit (s.dev.reg rRstStat) 30 = false → ∀ o, o ≠ rRstStat → d.reg o = s.dev.reg o)) ∧
      (Runs .resetPinStuck s fun d => rbit (d.reg rRstStat) 30 = true ∧
        fld (d.reg rRstStat) 15 0 = max 1000 (fld (s.dev.reg rRstStat) 15 0) ∧ (∀ o, o ≠ rRstStat → d.reg o = s.dev.reg o) ∧
        d = ({ s.dev with cs := d.cs } : Dev).settle)) ∧
    (MayRestart s.dev → Runs (.sidebandReset 0x6440) s fun d => HasReset s.dev d 3 .waiting ∧ d.chans = [] ∧ d.mor = s.dev.mor) ∧
    (∀ key, key ≠ 0x6440 → exec (.sidebandReset key) s = .next { s with dev := s.dev.settle }) ∧
    (Writes s.dev ag rRstCtrl → (ag.kind = 1 ∨ (ag.kind = 0 ∧ ag.secure = true ∧ s.dev.permafrost = true)) →
      (Runs (.rstCtrlClear ag 0x6440) s fun d => fld (d.reg rRstStat) 19 18 = 0 ∧
        (∀ j, j < 32 → j ≠ 18 → j ≠ 19 → rbit (d.reg rRstStat) j = rbit (s.dev.reg rRstStat) j) ∧
        (∀ o, o ≠ rRstStat → d.reg o = s.dev.reg o) ∧ d = ({ s.dev with cs := d.cs } : Dev).settle) ∧
      (MayRestart s.dev → tabWf regReset s.dev.cs = true → Runs (.rstCtrlClearRetry ag 0x6440) s fun d =>
        HasReset s.dev d 7 .waiting ∧ fld (d.reg rRstStat) 19 18 = 0)) ∧
    (s.dev.sys.phase = .rising → Runs .powerGood s fun d => d.sys.phase = (if s.dev.pinLow then .held else .waiting) ∧
      d = ({ s.dev with sys := d.sys } : Dev).settle) ∧
    (∀ rail : Fin 8, s.dev.powered = true → Runs (.railOutOfRange rail) s fun d =>
      d.sys.phase = .off ∧ d.timeRun = false ∧ fld (d.reg rClkStat) 31 24 = 0 ∧ d.sys.saved = none ∧ d.sys.retaining = false ∧
        (∀ o, o ≠ rClkStat → d.reg o = s.dev.reg o) ∧ (d.sys.ioLost = (s.dev.sys.ioLost || decide (rail = 2 ∨ rail = 7))))

/-- R46, R469 to R473, R495, R496: a start waits for its PLLs, fails with a code, enters permafrost after three failures, holds in
the cold, or runs to the release; the host wait and the watchdog.

That STARTUP runs the steps at once, and when the watchdog acts, are the model's choice (log entries 88 and 89). -/
def Obligations.StartUp : Prop :=
  ∀ (s : State) (env : StartEnv),
    let fails := fld (s.dev.reg rRstStat) 19 18
    let begins := s.dev.sys.phase = .waiting ∨ s.dev.sys.phase = .starting
    let failed := fun (code cause : Nat) (d : Dev) => HasReset s.dev d cause .waiting ∧ fld (d.reg rRstStat) 19 18 = fails + 1 ∧
      fld (d.reg rCfgStat) 15 8 = code
    (begins →
      (env.pllOk = false → Runs (.startup env) s fun d => d.sys.phase = .starting ∧ fld (d.reg rCfgStat) 18 16 = 1 ∧
        rbit (d.reg rRstStat) 29 = false ∧ d.timeRun = s.dev.timeRun ∧ d.dram = s.dev.dram) ∧
      (env.pllOk = true → fails ≠ 3 →
        (MayRestart s.dev → env.fuseOk = false → Runs (.startup env) s (failed 3 7)) ∧
        (MayRestart s.dev → env.fuseOk = true → env.flashOk = false → Runs (.startup env) s (failed 1 7)) ∧
        (∀ d', env.fuseOk = true → env.flashOk = true → 23 ≤ env.density.toNat → Selects s.dev env d' → env.eccBad = false →
          env.sramBad = false → rbit (d'.reg rCfgStat) 30 = false →
          (d'.tooCold = true → Runs (.startup env) s fun d => d.sys.phase = .cold ∧ rbit (d.reg rCfgStat) 25 = true ∧
            fld (d.reg rCfgStat) 18 16 = 3) ∧
          (d'.tooCold = false → GoodTail env → Runs (.startup env) s fun d => Released d ∧ ∀ c : Fin 32, (d.host c).up = true))) ∧
      (env.pllOk = true → fails = 3 → env.ckSeen.getLsbD 0 = true → env.hostOk.getLsbD 0 = true → Runs (.startup env) s fun d =>
        d.sys.phase = .permafrost ∧ rbit (d.reg rCfgStat) 30 = true ∧ (d.host 0).up = true ∧ (d.host 0).slow = true ∧
          d.order = none ∧ d.timeRun = true ∧ d.released = s.dev.released) ∧
      (fails ≠ 3 → MayRestart s.dev → Runs .startupWatchdog s (failed 8 4))) ∧
    (s.dev.sys.phase = .cold →
      (s.dev.tooCold = true → exec (.coldHoldRelease env) s = .next { s with dev := s.dev.settle }) ∧
      (s.dev.tooCold = false → GoodTail env → rbit (s.dev.reg rCfgStat) 30 = false → Runs (.coldHoldRelease env) s fun d =>
        Released d ∧ rbit (d.reg rCfgStat) 25 = false ∧ ∀ c : Fin 32, (d.host c).up = true ∧ (d.host c).down = false ∧
          ((s.dev.chan c).down = false → (d.chan c).ready = true ∧ (d.chan c).selfRef = false))) ∧
    (∀ c : Fin 32, s.dev.sys.phase = .hostWait → s.dev.sys.waitingCh.getLsbD c = true → Runs (.hostWaitExpiry c) s fun d =>
      (d.host c).down = true ∧ (d.host c).up = false ∧
        (s.dev.sys.waitingCh ≠ BitVec.ofNat 32 (2 ^ c.val) → d.sys.phase = .hostWait ∧
          ∀ k, k < 32 → d.sys.waitingCh.getLsbD k = (s.dev.sys.waitingCh.getLsbD k && k != c.val)) ∧
        (s.dev.sys.waitingCh = BitVec.ofNat 32 (2 ^ c.val) → rbit (d.reg rCfgHdown) c = true ∧
          (rbit (s.dev.reg rCfgStat) 30 = false → Released d) ∧ (rbit (s.dev.reg rCfgStat) 30 = true → d.sys.phase = .permafrost)))

/-- R498, R503: a read, a program and an erase of the flash through FL_CTRL, with their results; nothing beyond the page or the
sector changes.

That an operation ends when its row is given, and the order of its checks, are the model's choice (log entry 90). -/
def Obligations.FlashOperations : Prop :=
  ∀ (s : State) (ag : Agent), Writes s.dev ag rFlCtrl → (s.dev.rights ag).secure = true →
    let a := fld (s.dev.reg rFlAddr) 22 0
    let code := fun (d : Dev) (v : Nat) => fld (d.reg rFlStat) 3 0 = v ∧ rbit (d.reg rFlStat) 31 = false
    let buf := fun (d : Dev) (k : Nat) => BitVec.ofNat 8 (fieldAt (d.reg (rFlBuf + 4 * (k / 4))).toNat (k % 4) 1)
    let beyond := fun (d : Dev) (n : Nat) => ∀ x, (x < a ∨ a + n ≤ x) → d.flashByte x = s.dev.flashByte x
    (a % 256 = 0 →
      (Runs (.flRead ag) s fun d => code d 0 ∧ d.flash = s.dev.flash ∧ ∀ k, k < 256 → buf d k = s.dev.flashByte (a + k)) ∧
      (s.dev.flProtected a = false →
        ((∀ k, k < 256 → s.dev.flashByte (a + k) = 0xFF) → Runs (.flProgram ag true) s fun d =>
          code d 0 ∧ beyond d 256 ∧ ∀ k, k < 256 → d.flashByte (a + k) = buf s.dev k) ∧
        (Runs (.flProgram ag false) s fun d => code d 3 ∧ beyond d 256)) ∧
      (s.dev.flProtected a = true → Runs (.flProgram ag true) s fun d => code d 1 ∧ d.flash = s.dev.flash)) ∧
    (a % 256 ≠ 0 → (Runs (.flRead ag) s fun d => code d 2 ∧ d.flash = s.dev.flash) ∧
      (Runs (.flProgram ag true) s fun d => code d 2 ∧ d.flash = s.dev.flash)) ∧
    (a % 4096 = 0 → s.dev.flProtected a = false →
      (Runs (.flErase ag true) s fun d => code d 0 ∧ beyond d 4096 ∧ ∀ k, k < 4096 → d.flashByte (a + k) = 0xFF) ∧
      (Runs (.flErase ag false) s fun d => code d 3 ∧ beyond d 4096)) ∧
    (a % 4096 = 0 → s.dev.flProtected a = true → Runs (.flErase ag true) s fun d => code d 1 ∧ d.flash = s.dev.flash) ∧
    (a % 4096 ≠ 0 → Runs (.flErase ag true) s fun d => code d 2 ∧ d.flash = s.dev.flash)

/-- R499 to R501: the commands of the sideband, while VDD_AON and VDD_IO18 hold.

The order of the checks and what a timeout leaves are the model's choice (log entries 129 and 130). -/
def Obligations.SidebandCommands : Prop :=
  ∀ (s : State), s.dev.sys.ioLost = false →
    let sb := s.dev.sys.sb
    let at_ := fun (k : Nat) => (sb.offset.toNat + 4 * k) % 2 ^ 24
    let n := sb.count.toNat
    (∀ (bytes : List (BitVec 8)) (pecOk : Bool), let x := leNat bytes
      let good := bytes.length = 4 ∧ x % 4 = 0 ∧ 1 ≤ x / 2 ^ 24 ∧ x / 2 ^ 24 ≤ 16
      Runs (.sbSetAddr bytes pecOk) s fun d => SbOnly s.dev d ∧
        (good → pecOk = true → d.sys.sb = { sb with offset := BitVec.ofNat 24 x, count := BitVec.ofNat 5 (x / 2 ^ 24), status := 0 }) ∧
        (bytes.length = 4 → pecOk = false → d.sys.sb = { sb with status := 1 }) ∧
        (bytes.length ≠ 4 ∨ (pecOk = true ∧ ¬ good) → d.sys.sb = { sb with status := 4 })) ∧
    ((∀ k, k < n → s.dev.sbReadStatus (at_ k) = 0 ∧ ∃ row, regRow (at_ k) = some row ∧ row.half = 0) →
      Runs .sbRead s fun d => SbOnly s.dev d ∧ d.sys.sb =
        { sb with offset := sb.offset + BitVec.ofNat 24 (4 * n), status := 0
                  answer := (List.range n).flatMap fun k => toLe 4 (s.dev.regValue (at_ k)).toNat }) ∧
    (n = 1 → s.dev.sbReadStatus (at_ 0) ≠ 0 → Runs .sbRead s fun d => SbOnly s.dev d ∧ d.sys.sb =
      { sb with offset := sb.offset + 4, status := BitVec.ofNat 8 (s.dev.sbReadStatus (at_ 0)), answer := [0, 0, 0, 0] }) ∧
    (∀ bytes : List (BitVec 8), bytes.length = 4 →
      let o := at_ 0
      let v := BitVec.ofNat 32 (leNat bytes) &&& sideWrites o
      (∀ row, (s.dev.sideInReset = true → sideAlways o = true) → sideWrites o ≠ 0 → regRow o = some row → row.half = 0 →
        s.dev.writeAction sideRights o v = none → Runs (.sbWrite bytes true) s fun d =>
          d.sys.sb = { sb with offset := sb.offset + 4, status := 0 } ∧ (∀ p, p ≠ o → d.reg p = s.dev.reg p) ∧
            d.reg o = (let y := writeValue row (s.dev.reg o) v true
              if row.rw ||| row.rws = 0 then y else storeLimit o y)) ∧
      ((s.dev.sideInReset = true → sideAlways o = true) → sideWrites o = 0 → Runs (.sbWrite bytes true) s fun d =>
        SbOnly s.dev d ∧ d.sys.sb = { sb with offset := sb.offset + 4, status := 2 }) ∧
      (Runs (.sbWrite bytes false) s fun d => SbOnly s.dev d ∧ d.sys.sb = { sb with status := 1 })) ∧
    (Runs .sbStatus s fun d => SbOnly s.dev d ∧ d.sys.sb = { sb with answer := [sb.status] }) ∧
    (Runs .smbusTimeout s fun d => SbOnly s.dev d ∧ d.sys.sb = { sb with answer := [] }) ∧
    exec .sbQuickCommand s = .next { s with dev := s.dev.settle }

/-! ## Clocks, power and temperature (chapter 15) -/

/-- R514 to R517, R519, R523: what a conversion leaves in the sensors, the bands and the factors; the power limit's adjustment;
the process monitors.

The energy's remainder and the count of adjustments over the limit are the model's (log entries 72 and 95); factors change in service only (log entry 94). -/
def Obligations.SensorsAndPower : Prop :=
  ∀ (s : State),
    let point := fld (s.dev.reg rThmCfg) 6 0
    let pointB := fld (s.dev.reg rThmCfg) 14 8
    let ok := fun (v : BitVec 12) => -160 ≤ sextInt 12 v.toNat ∧ sextInt 12 v.toNat ≤ 600
    let invalid := fun (d : Dev) (i : Nat) => rbit (d.reg (rSensor i)) 31 = true ∧ fld (d.reg (rSensor i)) 11 0 = 0x1F4
    (∀ dram base : List (BitVec 12), dram.length = 16 → base.length = 9 →
      (s.dev.sys.phase.live = true → (∀ v ∈ dram, ok v) → (∀ v ∈ base, ok v) → (∀ i, i < 25 → rbit (s.dev.reg (rSensor i)) 31 = false) →
        Runs (.sensorConversion dram base) s fun d =>
          (∀ i v, dram[i]? = some v → let x := d.reg (rThmDram i)
            let band := nextBand (fld (s.dev.reg (rThmDram i)) 29 28) (sextInt 12 v.toNat)
            let factor := propFactor (sextInt 12 v.toNat) point
            fld x 11 0 = v.toNat ∧ rbit x 31 = false ∧ fld x 29 28 = band ∧ fld x 22 16 = (if band = 3 then min 58 factor else factor)) ∧
          (∀ i v, base[i]? = some v → fld (d.reg (rThmBase i)) 11 0 = v.toNat) ∧
          (let factors := propFactor (d.hottest ((List.range 9).map (16 + ·))) pointB :: s.dev.sP ::
            (List.range 16).map fun i => fld (d.reg (rThmDram i)) 22 16
           fld (d.reg rThmStat) 22 16 ∈ factors ∧ ∀ f ∈ factors, fld (d.reg rThmStat) 22 16 ≤ f) ∧ d.dram = s.dev.dram) ∧
      (∀ i v, s.dev.sensing = true → dram[i]? = some v → ¬ ok v → Runs (.sensorConversion dram base) s fun d => invalid d i)) ∧
    (∀ i : Fin 25, s.dev.sensing = true → Runs (.sensorTimeout i) s fun d => invalid d i ∧
      ∀ k : Fin 25, k ≠ i → d.reg (rSensor k) = s.dev.reg (rSensor k)) ∧
    (∀ avg peak : BitVec 16, s.dev.sys.phase.live = true →
      let w := s.dev.powerLimit
      let sp := s.dev.sP
      Runs (.powerAdjust avg peak) s fun d => d.sP =
          (if 125 * w < 10 * peak.toNat then max 8 (sp / 2) else if 10 * w < avg.toNat then max 8 (sp - 2)
           else if 10 * avg.toNat < 97 * w then min 64 (sp + 1) else sp) ∧ fld (d.reg rPwrStat) 15 0 = avg.toNat ∧
        d.reg64 rPwrEnergy = s.dev.reg64 rPwrEnergy + BitVec.ofNat 64 ((s.dev.sys.energyRem + avg.toNat) / 100) ∧
        d.sys.energyRem = (s.dev.sys.energyRem + avg.toNat) % 100 ∧
        d.sys.overRun = (if d.sP = 8 ∧ 10 * w < avg.toNat then s.dev.sys.overRun + 1 else 0)) ∧
    (s.dev.sys.phase.live = true → 100 ≤ s.dev.sys.overRun → rbit (s.dev.reg rPwrStat) 31 = false → Runs .powerOver s fun d =>
      rbit (d.reg rPwrStat) 31 = true ∧ rbit (d.reg rCpDevsrc) 30 = true ∧ d.sys.phase = s.dev.sys.phase) ∧
    (∀ ag, Writes s.dev ag rMonProcCtrl → Runs (.monProcStart ag) s fun d => rbit (d.reg rMonProcCtrl) 30 = true ∧
      (∀ o, o ≠ rMonProcCtrl → d.reg o = s.dev.reg o) ∧ d = ({ s.dev with cs := d.cs } : Dev).settle) ∧
    (∀ counts : List (BitVec 20), rbit (s.dev.reg rMonProcCtrl) 30 = true → counts.length = 9 → Runs (.monProcCountEnd counts) s fun d =>
      rbit (d.reg rMonProcCtrl) 30 = false ∧ (∀ k x, counts[k]? = some x → d.reg (rMonProc k) = x.zeroExtend 32) ∧
        d = ({ s.dev with cs := d.cs } : Dev).settle)

/-- R507, R511, R512, R520, R521: trips, the restart after one, the loss of a PLL and of a regulator phase.

A trip of a stopped device and the end of both fabric phases are log entries 93 and 97. -/
def Obligations.TripsAndStops : Prop :=
  ∀ (s : State),
    let pin := s.dev.reg rCpAttnDev
    (∀ k : Fin 17, s.dev.powered = true →
      let recorded := fun (d : Dev) => d.reg rThmTrip = BitVec.ofNat 32 (2 ^ 31 + k.val * 2 ^ 21 + 1000) ∧ d.sys.cooling = some s.dev.clock
      let phase := s.dev.sys.phase
      (phase ≠ .held → phase ≠ .stopped → phase ≠ .dead → phase ≠ .tripped → Runs (.thermalTrip k) s fun d =>
        recorded d ∧ d.sys.phase = .tripped ∧ d.timeRun = false ∧ fld (d.reg rClkStat) 31 24 = 0 ∧ rbit (d.reg rCpDevsrc) 30 = true ∧
          d.sys.attn = (if rbit pin 31 then BitVec.ofNat 4 (2 ^ fld pin 1 0) else 0) ∧
          (phase.live = true → d.cmds = [] ∧ d.sys.saved = some s.dev.order ∧
            ∀ c : Fin 32, (d.chan c).selfRef = true)) ∧
      ((phase = .held ∨ phase = .stopped ∨ phase = .dead ∨ phase = .tripped) → Runs (.thermalTrip k) s fun d =>
        recorded d ∧ d.sys.phase = phase)) ∧
    (∀ t, s.dev.sys.phase = .tripped → s.dev.sys.cooling = some t →
      (s.dev.tooWarm = false → s.dev.pinLow = false → Runs .thermalRestart s fun d =>
        HasReset s.dev d 5 .waiting ∧ t + 2000000000 ≤ d.clock ∧ d.sys.cooling = none ∧ d.sys.attn = 0 ∧
          d.sys.retaining = s.dev.sys.saved.isSome ∧ d.dram = s.dev.dram ∧ ∀ c : Fin 32, (d.chan c).selfRef = s.dev.sys.saved.isSome) ∧
      (s.dev.tooWarm = true → exec .thermalRestart s = .next { s with dev := s.dev.settle })) ∧
    (∀ pll : Fin 3, s.dev.sys.phase.live = true → Runs (.pllUnlock pll) s fun d =>
      d.sys.phase = .stopped ∧ d.timeRun = false ∧ d.sys.saved = none ∧ d.sys.retaining = false ∧ rbit (d.reg rClkStat) (16 + pll.val) = true ∧
        rbit (d.reg rClkStat) (31 - pll.val) = false ∧ d.dram = s.dev.dram) ∧
    (∀ p : Fin 34, s.dev.powered = true → rbit (s.dev.reg (rPwrPhase p)) 31 = false →
      let other := rbit (s.dev.reg (rPwrPhase (65 - p.val))) 31
      Runs (.phaseOpen p) s fun d => rbit (d.reg (rPwrPhase p)) 31 = true ∧ rbit (d.reg rCpDevsrc) 30 = true ∧
        (p.val < 32 → fld (d.reg (rPwrPhase p)) 29 23 = min 32 (fld (s.dev.reg (rPwrPhase p)) 29 23) ∧ d.sys.phase = s.dev.sys.phase) ∧
        (32 ≤ p.val → other = false → d.sys.phase = s.dev.sys.phase) ∧
        (32 ≤ p.val → other = true → d.sys.phase = .dead ∧ d.timeRun = false ∧ fld (d.reg rClkStat) 31 24 = 0)) ∧
    (∀ p : Fin 34, s.dev.powered = true → rbit (s.dev.reg (rPwrPhase p)) 30 = false → Runs (.senseFail p) s fun d =>
      rbit (d.reg (rPwrPhase p)) 30 = true ∧ fld (d.reg (rPwrPhase p)) 9 0 = 1000 ∧ rbit (d.reg rCpDevsrc) 30 = true ∧
        (p.val < 32 → fld (d.reg (rPwrPhase p)) 29 23 = 8) ∧ d.sys.phase = s.dev.sys.phase ∧ d.dram = s.dev.dram)

/-! ## The whole machine -/

/-- R464, R502 and the reset columns of the register tables: the machine right after reset. Every register but RST_CAUSE (POWER)
and RST_STAT (IN_RESET) holds the value of its row.

The queue, the phase in which start-up may begin and what unlisted memory reads as are the model's choice (log entries 2, 6, 8, 9 and 10). -/
def Obligations.ResetState : Prop :=
  let d := State.reset.dev
  State.reset.pending = [] ∧ d.reg rRstCause = 1 ∧ d.reg rRstStat = 0x20000000 ∧ (∀ o, o ≠ rRstCause → o ≠ rRstStat → d.reg o = regReset o) ∧
    d.reg rIdent = 0x0A216440 ∧ d.time = 0 ∧ d.timeRun = false ∧ d.sys.phase = .waiting ∧ d.order = none ∧
    (∀ n, n < 128 → (d.floe n).st = .idle ∧ (d.floe n).ident = some (BitVec.ofNat 7 n)) ∧
    (∀ n, 128 ≤ n → n < 136 → (d.floe n).st = .unassigned ∧ (d.floe n).ident = none) ∧
    (∀ r, (d.ring r).state = 0) ∧ d.cmds = [] ∧ State.reset.pinsAgree = true ∧ Memory.wf d = true

/-- R118, R496, R520: the block goes on after every step, and its ATTN_n pins then stand as the conditions routed to them ask,
whatever they were.

What drives the pins outside service is log entry 136. -/
def Obligations.PinsAgreeAfterEveryStep : Prop :=
  ∀ s : State, ∃ t, step s = .next t ∧ t.pinsAgree = true

/-- R69, R244, R499, R513, R552: commands of the scalar slot, of the host port's timers, of the TAP, of the sideband and of the
sensors that store nothing leave both memories, the flash, the fuses, the channels, the rings and their commands, and the semaphores
as they were, whatever else they do. -/
def Obligations.CommandsThatStoreNothing : Prop :=
  ∀ (s : State) (n : Fin 136) (a b : Fin 8) (imm : BitVec 16) (p : Fin 3) (sh : BitVec 6) (k : Fin 4) (byReg : Bool) (off : BitVec 26)
    (q : Fin 32) (rec : BitVec 18) (c : Fin 32) (levels : BitVec 2671) (shifted : BitVec 5342) (code : BitVec 8) (tdi : Bool)
    (nonce : BitVec 256) (resp : BitVec 776) (dies : BitVec 17) (codes bytes : List (BitVec 8)) (cells : List Bool)
    (dram base : List (BitVec 12)) (i : Fin 25) (w : BitVec 16) (counts : List (BitVec 20)) (pll : Fin 3) (ph : Fin 34),
    ∀ row ∈ ([.movi n a imm, .insi n a p imm, .mov n a b, .addi n a imm, .scalarAdd n a b, .scalarSub n a b, .shli n a sh, .shri n a sh,
        .andi n a imm, .epoch n a, .time n a b, .cmp n k a byReg b imm, .cmpx n k, .br n off, .endProgram n, .icinv n, .qfree n q,
        .qcfg n q rec, .ldr n a rec, .hostAckTimer c, .hostCreditReturn c, .idcode, .samplePreload levels shifted, .extest levels shifted,
        .bypass code tdi, .testLogicReset, .dbgChal nonce, .dbgUnlock resp, .dbgClose, .stackSel dies, .wrapIr codes, .wrapDr cells,
        .sbSetAddr bytes tdi, .sbStatus, .sbQuickCommand, .smbusTimeout, .sensorConversion dram base, .sensorTimeout i, .powerAdjust w imm,
        .powerOver, .senseFail ph, .monProcCountEnd counts, .pllUnlock pll] : List Instr),
      Runs row s fun d => d.dram = s.dev.dram ∧ d.ls = s.dev.ls ∧ d.flash = s.dev.flash ∧ d.fuses = s.dev.fuses ∧ d.chans = s.dev.chans ∧
        d.rings = s.dev.rings ∧ d.cmds = s.dev.cmds ∧ d.sems = s.dev.sems

/-- R131 to R135: in every order, and in interleave mode at every granularity, decode takes the device addresses one to one onto
the places of the DRAM, and encode takes them back. -/
def Obligations.AddressOrdersAreBijections : Prop :=
  ∀ (ord : Option Nat) (g : Nat), (∀ k, ord = some k → k < 4) → 8 ≤ g → g ≤ 21 →
    (∀ a, a < 2 ^ 36 → let p := decodeAddr ord g a
      p.ch < 32 ∧ p.bank < 64 ∧ p.row < 32768 ∧ p.w < 16 ∧ p.byte < 64 ∧ encodeAddr ord g p = a) ∧
    (∀ p : Place, p.ch < 32 → p.bank < 64 → p.row < 32768 → p.w < 16 → p.byte < 64 →
      encodeAddr ord g p < 2 ^ 36 ∧ decodeAddr ord g (encodeAddr ord g p) = p)

/-- R82, R360, R361: a word reads back as it was written, with its marks, and no other word changes; a single flipped bit of a code
word is corrected, and two flipped bits are never passed on as good data. -/
def Obligations.CodeProtectsWords : Prop :=
  (∀ (m : EccMem) (n : Nat) (x : Line) (marks : BitVec 8), let r := (m.writeWord n x marks).readWord n
    r.data = x ∧ r.marks = marks ∧ r.poison = (marks != 0) ∧ r.corrected = 0 ∧ r.uncorr = 0 ∧
      ∀ j, j ≠ n → (m.writeWord n x marks).readWord j = m.readWord j) ∧
  (∀ x i, x < 2 ^ 64 → i < 64 →
    eccDecode (x ^^^ 2 ^ i) (eccCheck x ^^^ eccCheck (x ^^^ 2 ^ i)) = (x, .corrected i) ∧
    (∀ j, j < 8 → eccDecode x (2 ^ j) = (x, .correctedCheck)) ∧
    ∀ j, j < 64 → j ≠ i →
      (eccDecode (x ^^^ 2 ^ i ^^^ 2 ^ j) (eccCheck x ^^^ eccCheck (x ^^^ 2 ^ i ^^^ 2 ^ j))).2.poisoned = true)

/-- R48: a write of the low half of a writable 64-bit quantity is held in the path's latch and has no effect yet; a write of the high
half stores both halves together, or the new high half with the current low half when none is pending. -/
def Obligations.WritePairs : Prop :=
  ∀ (s : State) (ag : Agent) (off : BitVec 24) (v : Reg) (lo hi : RegRow),
    let r := s.dev.rights ag
    let o := off.toNat
    let latch := fun (d : Dev) => tabGet (fun _ => none) d.latW (latKey r.path (o + 4))
    let mask := fun (row : RegRow) => row.rw ||| (if r.secure then row.rws else 0)
    o % 8 = 0 → o + 4 < 2 ^ 24 → regRow o = some lo → lo.half = 1 → regRow (o + 4) = some hi → hi.half = 2 → mask lo ≠ 0 → mask hi ≠ 0 →
      (lo.rws ≠ 0 ∨ hi.rws ≠ 0 → r.secure = true) → s.dev.reaches ag = true → ag.kind ≠ 1 → s.dev.letIn r o = .ok →
      s.dev.letIn r (o + 4) = .ok → s.dev.wordClosed r (o - o % 64) true = false → s.dev.writeAction r o v = none →
      s.dev.writeAction r (o + 4) v = none →
      (Runs (.registerWrite ag off v) s fun d => d.cs = s.dev.cs ∧ latch d = some v) ∧
      (Runs (.registerWrite ag (off + 4) v) s fun d => d.reg (o + 4) = writeValue hi (s.dev.reg (o + 4)) v r.secure ∧
        d.reg o = (match latch s.dev with
          | some x => writeValue lo (s.dev.reg o) x r.secure
          | none => s.dev.reg o) ∧ latch d = none ∧ ∀ p, p ≠ o → p ≠ o + 4 → d.reg p = s.dev.reg p)

/-- R378: every entry of the moraine whose SEV is at least MOR_CFG.ATTN_SEV sets CP_ATTN_DEVSRC.MORAINE, another leaves it, and the
image default of ATTN_SEV is 3. -/
def Obligations.MoraineRaisesAttention : Prop :=
  ∀ (d : Dev) (e : MorEvent),
    let source := fun (x : Dev) => rbit (x.reg rCpDevsrc) 29
    (fld (d.reg rMorCfg) 25 24 ≤ e.sev.toNat → source (d.morWrite e) = true) ∧
    (e.sev.toNat < fld (d.reg rMorCfg) 25 24 → source (d.morWrite e) = source d) ∧ fld (d.loadDefaults.reg rMorCfg) 25 24 = 3

/-- R553: what IDCODE captures, field by field. -/
def Obligations.IdcodeReads : Prop :=
  ∀ s : State, s.dev.powered = true → Runs .idcode s fun d =>
    let x := d.sys.tap.captured
    x = 0x16440A43 ∧ bits x 31 28 = 1 ∧ bits x 31 28 = fld (regReset 0x4) 15 8 ∧ bits x 27 12 = 0x6440 ∧ bits x 11 1 = 0x521 ∧
      bits x 0 0 = 1 ∧ d.sys.tap.width = 32 ∧ d.sys.tap.ir = 1
end

