-- ==== Sys2Proof/Laws/State.lean ====
section
/-! SUPPORT. One lemma for each field of the device and each named update of it: a field that the update leaves alone. -/

namespace Sys2Proof.Machine

@[simp] theorem Dev.setReg_latR (d : Dev) (o : Nat) (v : Reg) : (d.setReg o v).latR = d.latR := rfl
@[simp] theorem Dev.setReg_latW (d : Dev) (o : Nat) (v : Reg) : (d.setReg o v).latW = d.latW := rfl
@[simp] theorem Dev.setReg_clock (d : Dev) (o : Nat) (v : Reg) : (d.setReg o v).clock = d.clock := rfl
@[simp] theorem Dev.setReg_timeRun (d : Dev) (o : Nat) (v : Reg) : (d.setReg o v).timeRun = d.timeRun := rfl
@[simp] theorem Dev.setReg_time (d : Dev) (o : Nat) (v : Reg) : (d.setReg o v).time = d.time := rfl
@[simp] theorem Dev.setReg_halfRate (d : Dev) (o : Nat) (v : Reg) : (d.setReg o v).halfRate = d.halfRate := rfl
@[simp] theorem Dev.setReg_trimAcc (d : Dev) (o : Nat) (v : Reg) : (d.setReg o v).trimAcc = d.trimAcc := rfl
@[simp] theorem Dev.setReg_dram (d : Dev) (o : Nat) (v : Reg) : (d.setReg o v).dram = d.dram := rfl
@[simp] theorem Dev.setReg_ls (d : Dev) (o : Nat) (v : Reg) : (d.setReg o v).ls = d.ls := rfl
@[simp] theorem Dev.setReg_chans (d : Dev) (o : Nat) (v : Reg) : (d.setReg o v).chans = d.chans := rfl
@[simp] theorem Dev.setReg_hosts (d : Dev) (o : Nat) (v : Reg) : (d.setReg o v).hosts = d.hosts := rfl
@[simp] theorem Dev.setReg_mor (d : Dev) (o : Nat) (v : Reg) : (d.setReg o v).mor = d.mor := rfl
@[simp] theorem Dev.setReg_morUe (d : Dev) (o : Nat) (v : Reg) : (d.setReg o v).morUe = d.morUe := rfl
@[simp] theorem Dev.setReg_wins (d : Dev) (o : Nat) (v : Reg) : (d.setReg o v).wins = d.wins := rfl
@[simp] theorem Dev.setReg_regionUe (d : Dev) (o : Nat) (v : Reg) : (d.setReg o v).regionUe = d.regionUe := rfl
@[simp] theorem Dev.setReg_sram (d : Dev) (o : Nat) (v : Reg) : (d.setReg o v).sram = d.sram := rfl
@[simp] theorem Dev.setReg_zeroing (d : Dev) (o : Nat) (v : Reg) : (d.setReg o v).zeroing = d.zeroing := rfl
@[simp] theorem Dev.setReg_fuses (d : Dev) (o : Nat) (v : Reg) : (d.setReg o v).fuses = d.fuses := rfl
@[simp] theorem Dev.setReg_flash (d : Dev) (o : Nat) (v : Reg) : (d.setReg o v).flash = d.flash := rfl
@[simp] theorem Dev.setReg_rings (d : Dev) (o : Nat) (v : Reg) : (d.setReg o v).rings = d.rings := rfl
@[simp] theorem Dev.setReg_cmds (d : Dev) (o : Nat) (v : Reg) : (d.setReg o v).cmds = d.cmds := rfl
@[simp] theorem Dev.setReg_nbos (d : Dev) (o : Nat) (v : Reg) : (d.setReg o v).nbos = d.nbos := rfl
@[simp] theorem Dev.setReg_nextNbo (d : Dev) (o : Nat) (v : Reg) : (d.setReg o v).nextNbo = d.nextNbo := rfl
@[simp] theorem Dev.setReg_near (d : Dev) (o : Nat) (v : Reg) : (d.setReg o v).near = d.near := rfl
@[simp] theorem Dev.setReg_bookings (d : Dev) (o : Nat) (v : Reg) : (d.setReg o v).bookings = d.bookings := rfl
@[simp] theorem Dev.setReg_floes (d : Dev) (o : Nat) (v : Reg) : (d.setReg o v).floes = d.floes := rfl
@[simp] theorem Dev.setReg_logical (d : Dev) (o : Nat) (v : Reg) : (d.setReg o v).logical = d.logical := rfl
@[simp] theorem Dev.setReg_sems (d : Dev) (o : Nat) (v : Reg) : (d.setReg o v).sems = d.sems := rfl
@[simp] theorem Dev.setReg_semPoison (d : Dev) (o : Nat) (v : Reg) : (d.setReg o v).semPoison = d.semPoison := rfl
@[simp] theorem Dev.setReg_semQ (d : Dev) (o : Nat) (v : Reg) : (d.setReg o v).semQ = d.semQ := rfl
@[simp] theorem Dev.setReg_links (d : Dev) (o : Nat) (v : Reg) : (d.setReg o v).links = d.links := rfl
@[simp] theorem Dev.setReg_remotes (d : Dev) (o : Nat) (v : Reg) : (d.setReg o v).remotes = d.remotes := rfl
@[simp] theorem Dev.setReg_group (d : Dev) (o : Nat) (v : Reg) : (d.setReg o v).group = d.group := rfl
@[simp] theorem Dev.setReg_colls (d : Dev) (o : Nat) (v : Reg) : (d.setReg o v).colls = d.colls := rfl
@[simp] theorem Dev.setReg_collHeld (d : Dev) (o : Nat) (v : Reg) : (d.setReg o v).collHeld = d.collHeld := rfl
@[simp] theorem Dev.setReg_twin (d : Dev) (o : Nat) (v : Reg) : (d.setReg o v).twin = d.twin := rfl
@[simp] theorem Dev.setReg_twinHeld (d : Dev) (o : Nat) (v : Reg) : (d.setReg o v).twinHeld = d.twinHeld := rfl
@[simp] theorem Dev.setReg_csHeld (d : Dev) (o : Nat) (v : Reg) : (d.setReg o v).csHeld = d.csHeld := rfl
@[simp] theorem Dev.setReg_released (d : Dev) (o : Nat) (v : Reg) : (d.setReg o v).released = d.released := rfl
@[simp] theorem Dev.setReg_sys (d : Dev) (o : Nat) (v : Reg) : (d.setReg o v).sys = d.sys := rfl
@[simp] theorem Dev.setReg_freeUses (d : Dev) (o : Nat) (v : Reg) : (d.setReg o v).freeUses = d.freeUses := rfl

@[simp] theorem Dev.setChan_cs (d : Dev) (c : Nat) (x : Chan) : (d.setChan c x).cs = d.cs := rfl
@[simp] theorem Dev.setChan_latR (d : Dev) (c : Nat) (x : Chan) : (d.setChan c x).latR = d.latR := rfl
@[simp] theorem Dev.setChan_latW (d : Dev) (c : Nat) (x : Chan) : (d.setChan c x).latW = d.latW := rfl
@[simp] theorem Dev.setChan_clock (d : Dev) (c : Nat) (x : Chan) : (d.setChan c x).clock = d.clock := rfl
@[simp] theorem Dev.setChan_timeRun (d : Dev) (c : Nat) (x : Chan) : (d.setChan c x).timeRun = d.timeRun := rfl
@[simp] theorem Dev.setChan_time (d : Dev) (c : Nat) (x : Chan) : (d.setChan c x).time = d.time := rfl
@[simp] theorem Dev.setChan_halfRate (d : Dev) (c : Nat) (x : Chan) : (d.setChan c x).halfRate = d.halfRate := rfl
@[simp] theorem Dev.setChan_trimAcc (d : Dev) (c : Nat) (x : Chan) : (d.setChan c x).trimAcc = d.trimAcc := rfl
@[simp] theorem Dev.setChan_dram (d : Dev) (c : Nat) (x : Chan) : (d.setChan c x).dram = d.dram := rfl
@[simp] theorem Dev.setChan_ls (d : Dev) (c : Nat) (x : Chan) : (d.setChan c x).ls = d.ls := rfl
@[simp] theorem Dev.setChan_hosts (d : Dev) (c : Nat) (x : Chan) : (d.setChan c x).hosts = d.hosts := rfl
@[simp] theorem Dev.setChan_mor (d : Dev) (c : Nat) (x : Chan) : (d.setChan c x).mor = d.mor := rfl
@[simp] theorem Dev.setChan_morUe (d : Dev) (c : Nat) (x : Chan) : (d.setChan c x).morUe = d.morUe := rfl
@[simp] theorem Dev.setChan_wins (d : Dev) (c : Nat) (x : Chan) : (d.setChan c x).wins = d.wins := rfl
@[simp] theorem Dev.setChan_regionUe (d : Dev) (c : Nat) (x : Chan) : (d.setChan c x).regionUe = d.regionUe := rfl
@[simp] theorem Dev.setChan_sram (d : Dev) (c : Nat) (x : Chan) : (d.setChan c x).sram = d.sram := rfl
@[simp] theorem Dev.setChan_zeroing (d : Dev) (c : Nat) (x : Chan) : (d.setChan c x).zeroing = d.zeroing := rfl
@[simp] theorem Dev.setChan_fuses (d : Dev) (c : Nat) (x : Chan) : (d.setChan c x).fuses = d.fuses := rfl
@[simp] theorem Dev.setChan_flash (d : Dev) (c : Nat) (x : Chan) : (d.setChan c x).flash = d.flash := rfl
@[simp] theorem Dev.setChan_rings (d : Dev) (c : Nat) (x : Chan) : (d.setChan c x).rings = d.rings := rfl
@[simp] theorem Dev.setChan_cmds (d : Dev) (c : Nat) (x : Chan) : (d.setChan c x).cmds = d.cmds := rfl
@[simp] theorem Dev.setChan_nbos (d : Dev) (c : Nat) (x : Chan) : (d.setChan c x).nbos = d.nbos := rfl
@[simp] theorem Dev.setChan_nextNbo (d : Dev) (c : Nat) (x : Chan) : (d.setChan c x).nextNbo = d.nextNbo := rfl
@[simp] theorem Dev.setChan_near (d : Dev) (c : Nat) (x : Chan) : (d.setChan c x).near = d.near := rfl
@[simp] theorem Dev.setChan_bookings (d : Dev) (c : Nat) (x : Chan) : (d.setChan c x).bookings = d.bookings := rfl
@[simp] theorem Dev.setChan_floes (d : Dev) (c : Nat) (x : Chan) : (d.setChan c x).floes = d.floes := rfl
@[simp] theorem Dev.setChan_logical (d : Dev) (c : Nat) (x : Chan) : (d.setChan c x).logical = d.logical := rfl
@[simp] theorem Dev.setChan_sems (d : Dev) (c : Nat) (x : Chan) : (d.setChan c x).sems = d.sems := rfl
@[simp] theorem Dev.setChan_semPoison (d : Dev) (c : Nat) (x : Chan) : (d.setChan c x).semPoison = d.semPoison := rfl
@[simp] theorem Dev.setChan_semQ (d : Dev) (c : Nat) (x : Chan) : (d.setChan c x).semQ = d.semQ := rfl
@[simp] theorem Dev.setChan_links (d : Dev) (c : Nat) (x : Chan) : (d.setChan c x).links = d.links := rfl
@[simp] theorem Dev.setChan_remotes (d : Dev) (c : Nat) (x : Chan) : (d.setChan c x).remotes = d.remotes := rfl
@[simp] theorem Dev.setChan_group (d : Dev) (c : Nat) (x : Chan) : (d.setChan c x).group = d.group := rfl
@[simp] theorem Dev.setChan_colls (d : Dev) (c : Nat) (x : Chan) : (d.setChan c x).colls = d.colls := rfl
@[simp] theorem Dev.setChan_collHeld (d : Dev) (c : Nat) (x : Chan) : (d.setChan c x).collHeld = d.collHeld := rfl
@[simp] theorem Dev.setChan_twin (d : Dev) (c : Nat) (x : Chan) : (d.setChan c x).twin = d.twin := rfl
@[simp] theorem Dev.setChan_twinHeld (d : Dev) (c : Nat) (x : Chan) : (d.setChan c x).twinHeld = d.twinHeld := rfl
@[simp] theorem Dev.setChan_csHeld (d : Dev) (c : Nat) (x : Chan) : (d.setChan c x).csHeld = d.csHeld := rfl
@[simp] theorem Dev.setChan_released (d : Dev) (c : Nat) (x : Chan) : (d.setChan c x).released = d.released := rfl
@[simp] theorem Dev.setChan_sys (d : Dev) (c : Nat) (x : Chan) : (d.setChan c x).sys = d.sys := rfl
@[simp] theorem Dev.setChan_freeUses (d : Dev) (c : Nat) (x : Chan) : (d.setChan c x).freeUses = d.freeUses := rfl

@[simp] theorem Dev.setHost_cs (d : Dev) (c : Nat) (x : HostPort) : (d.setHost c x).cs = d.cs := rfl
@[simp] theorem Dev.setHost_latR (d : Dev) (c : Nat) (x : HostPort) : (d.setHost c x).latR = d.latR := rfl
@[simp] theorem Dev.setHost_latW (d : Dev) (c : Nat) (x : HostPort) : (d.setHost c x).latW = d.latW := rfl
@[simp] theorem Dev.setHost_clock (d : Dev) (c : Nat) (x : HostPort) : (d.setHost c x).clock = d.clock := rfl
@[simp] theorem Dev.setHost_timeRun (d : Dev) (c : Nat) (x : HostPort) : (d.setHost c x).timeRun = d.timeRun := rfl
@[simp] theorem Dev.setHost_time (d : Dev) (c : Nat) (x : HostPort) : (d.setHost c x).time = d.time := rfl
@[simp] theorem Dev.setHost_halfRate (d : Dev) (c : Nat) (x : HostPort) : (d.setHost c x).halfRate = d.halfRate := rfl
@[simp] theorem Dev.setHost_trimAcc (d : Dev) (c : Nat) (x : HostPort) : (d.setHost c x).trimAcc = d.trimAcc := rfl
@[simp] theorem Dev.setHost_dram (d : Dev) (c : Nat) (x : HostPort) : (d.setHost c x).dram = d.dram := rfl
@[simp] theorem Dev.setHost_ls (d : Dev) (c : Nat) (x : HostPort) : (d.setHost c x).ls = d.ls := rfl
@[simp] theorem Dev.setHost_chans (d : Dev) (c : Nat) (x : HostPort) : (d.setHost c x).chans = d.chans := rfl
@[simp] theorem Dev.setHost_mor (d : Dev) (c : Nat) (x : HostPort) : (d.setHost c x).mor = d.mor := rfl
@[simp] theorem Dev.setHost_morUe (d : Dev) (c : Nat) (x : HostPort) : (d.setHost c x).morUe = d.morUe := rfl
@[simp] theorem Dev.setHost_wins (d : Dev) (c : Nat) (x : HostPort) : (d.setHost c x).wins = d.wins := rfl
@[simp] theorem Dev.setHost_regionUe (d : Dev) (c : Nat) (x : HostPort) : (d.setHost c x).regionUe = d.regionUe := rfl
@[simp] theorem Dev.setHost_sram (d : Dev) (c : Nat) (x : HostPort) : (d.setHost c x).sram = d.sram := rfl
@[simp] theorem Dev.setHost_zeroing (d : Dev) (c : Nat) (x : HostPort) : (d.setHost c x).zeroing = d.zeroing := rfl
@[simp] theorem Dev.setHost_fuses (d : Dev) (c : Nat) (x : HostPort) : (d.setHost c x).fuses = d.fuses := rfl
@[simp] theorem Dev.setHost_flash (d : Dev) (c : Nat) (x : HostPort) : (d.setHost c x).flash = d.flash := rfl
@[simp] theorem Dev.setHost_rings (d : Dev) (c : Nat) (x : HostPort) : (d.setHost c x).rings = d.rings := rfl
@[simp] theorem Dev.setHost_cmds (d : Dev) (c : Nat) (x : HostPort) : (d.setHost c x).cmds = d.cmds := rfl
@[simp] theorem Dev.setHost_nbos (d : Dev) (c : Nat) (x : HostPort) : (d.setHost c x).nbos = d.nbos := rfl
@[simp] theorem Dev.setHost_nextNbo (d : Dev) (c : Nat) (x : HostPort) : (d.setHost c x).nextNbo = d.nextNbo := rfl
@[simp] theorem Dev.setHost_near (d : Dev) (c : Nat) (x : HostPort) : (d.setHost c x).near = d.near := rfl
@[simp] theorem Dev.setHost_bookings (d : Dev) (c : Nat) (x : HostPort) : (d.setHost c x).bookings = d.bookings := rfl
@[simp] theorem Dev.setHost_floes (d : Dev) (c : Nat) (x : HostPort) : (d.setHost c x).floes = d.floes := rfl
@[simp] theorem Dev.setHost_logical (d : Dev) (c : Nat) (x : HostPort) : (d.setHost c x).logical = d.logical := rfl
@[simp] theorem Dev.setHost_sems (d : Dev) (c : Nat) (x : HostPort) : (d.setHost c x).sems = d.sems := rfl
@[simp] theorem Dev.setHost_semPoison (d : Dev) (c : Nat) (x : HostPort) : (d.setHost c x).semPoison = d.semPoison := rfl
@[simp] theorem Dev.setHost_semQ (d : Dev) (c : Nat) (x : HostPort) : (d.setHost c x).semQ = d.semQ := rfl
@[simp] theorem Dev.setHost_links (d : Dev) (c : Nat) (x : HostPort) : (d.setHost c x).links = d.links := rfl
@[simp] theorem Dev.setHost_remotes (d : Dev) (c : Nat) (x : HostPort) : (d.setHost c x).remotes = d.remotes := rfl
@[simp] theorem Dev.setHost_group (d : Dev) (c : Nat) (x : HostPort) : (d.setHost c x).group = d.group := rfl
@[simp] theorem Dev.setHost_colls (d : Dev) (c : Nat) (x : HostPort) : (d.setHost c x).colls = d.colls := rfl
@[simp] theorem Dev.setHost_collHeld (d : Dev) (c : Nat) (x : HostPort) : (d.setHost c x).collHeld = d.collHeld := rfl
@[simp] theorem Dev.setHost_twin (d : Dev) (c : Nat) (x : HostPort) : (d.setHost c x).twin = d.twin := rfl
@[simp] theorem Dev.setHost_twinHeld (d : Dev) (c : Nat) (x : HostPort) : (d.setHost c x).twinHeld = d.twinHeld := rfl
@[simp] theorem Dev.setHost_csHeld (d : Dev) (c : Nat) (x : HostPort) : (d.setHost c x).csHeld = d.csHeld := rfl
@[simp] theorem Dev.setHost_released (d : Dev) (c : Nat) (x : HostPort) : (d.setHost c x).released = d.released := rfl
@[simp] theorem Dev.setHost_sys (d : Dev) (c : Nat) (x : HostPort) : (d.setHost c x).sys = d.sys := rfl
@[simp] theorem Dev.setHost_freeUses (d : Dev) (c : Nat) (x : HostPort) : (d.setHost c x).freeUses = d.freeUses := rfl

@[simp] theorem Dev.setRing_cs (d : Dev) (n : Nat) (x : Ring) : (d.setRing n x).cs = d.cs := rfl
@[simp] theorem Dev.setRing_latR (d : Dev) (n : Nat) (x : Ring) : (d.setRing n x).latR = d.latR := rfl
@[simp] theorem Dev.setRing_latW (d : Dev) (n : Nat) (x : Ring) : (d.setRing n x).latW = d.latW := rfl
@[simp] theorem Dev.setRing_clock (d : Dev) (n : Nat) (x : Ring) : (d.setRing n x).clock = d.clock := rfl
@[simp] theorem Dev.setRing_timeRun (d : Dev) (n : Nat) (x : Ring) : (d.setRing n x).timeRun = d.timeRun := rfl
@[simp] theorem Dev.setRing_time (d : Dev) (n : Nat) (x : Ring) : (d.setRing n x).time = d.time := rfl
@[simp] theorem Dev.setRing_halfRate (d : Dev) (n : Nat) (x : Ring) : (d.setRing n x).halfRate = d.halfRate := rfl
@[simp] theorem Dev.setRing_trimAcc (d : Dev) (n : Nat) (x : Ring) : (d.setRing n x).trimAcc = d.trimAcc := rfl
@[simp] theorem Dev.setRing_dram (d : Dev) (n : Nat) (x : Ring) : (d.setRing n x).dram = d.dram := rfl
@[simp] theorem Dev.setRing_ls (d : Dev) (n : Nat) (x : Ring) : (d.setRing n x).ls = d.ls := rfl
@[simp] theorem Dev.setRing_chans (d : Dev) (n : Nat) (x : Ring) : (d.setRing n x).chans = d.chans := rfl
@[simp] theorem Dev.setRing_hosts (d : Dev) (n : Nat) (x : Ring) : (d.setRing n x).hosts = d.hosts := rfl
@[simp] theorem Dev.setRing_mor (d : Dev) (n : Nat) (x : Ring) : (d.setRing n x).mor = d.mor := rfl
@[simp] theorem Dev.setRing_morUe (d : Dev) (n : Nat) (x : Ring) : (d.setRing n x).morUe = d.morUe := rfl
@[simp] theorem Dev.setRing_wins (d : Dev) (n : Nat) (x : Ring) : (d.setRing n x).wins = d.wins := rfl
@[simp] theorem Dev.setRing_regionUe (d : Dev) (n : Nat) (x : Ring) : (d.setRing n x).regionUe = d.regionUe := rfl
@[simp] theorem Dev.setRing_sram (d : Dev) (n : Nat) (x : Ring) : (d.setRing n x).sram = d.sram := rfl
@[simp] theorem Dev.setRing_zeroing (d : Dev) (n : Nat) (x : Ring) : (d.setRing n x).zeroing = d.zeroing := rfl
@[simp] theorem Dev.setRing_fuses (d : Dev) (n : Nat) (x : Ring) : (d.setRing n x).fuses = d.fuses := rfl
@[simp] theorem Dev.setRing_flash (d : Dev) (n : Nat) (x : Ring) : (d.setRing n x).flash = d.flash := rfl
@[simp] theorem Dev.setRing_cmds (d : Dev) (n : Nat) (x : Ring) : (d.setRing n x).cmds = d.cmds := rfl
@[simp] theorem Dev.setRing_nbos (d : Dev) (n : Nat) (x : Ring) : (d.setRing n x).nbos = d.nbos := rfl
@[simp] theorem Dev.setRing_nextNbo (d : Dev) (n : Nat) (x : Ring) : (d.setRing n x).nextNbo = d.nextNbo := rfl
@[simp] theorem Dev.setRing_near (d : Dev) (n : Nat) (x : Ring) : (d.setRing n x).near = d.near := rfl
@[simp] theorem Dev.setRing_bookings (d : Dev) (n : Nat) (x : Ring) : (d.setRing n x).bookings = d.bookings := rfl
@[simp] theorem Dev.setRing_floes (d : Dev) (n : Nat) (x : Ring) : (d.setRing n x).floes = d.floes := rfl
@[simp] theorem Dev.setRing_logical (d : Dev) (n : Nat) (x : Ring) : (d.setRing n x).logical = d.logical := rfl
@[simp] theorem Dev.setRing_sems (d : Dev) (n : Nat) (x : Ring) : (d.setRing n x).sems = d.sems := rfl
@[simp] theorem Dev.setRing_semPoison (d : Dev) (n : Nat) (x : Ring) : (d.setRing n x).semPoison = d.semPoison := rfl
@[simp] theorem Dev.setRing_semQ (d : Dev) (n : Nat) (x : Ring) : (d.setRing n x).semQ = d.semQ := rfl
@[simp] theorem Dev.setRing_links (d : Dev) (n : Nat) (x : Ring) : (d.setRing n x).links = d.links := rfl
@[simp] theorem Dev.setRing_remotes (d : Dev) (n : Nat) (x : Ring) : (d.setRing n x).remotes = d.remotes := rfl
@[simp] theorem Dev.setRing_group (d : Dev) (n : Nat) (x : Ring) : (d.setRing n x).group = d.group := rfl
@[simp] theorem Dev.setRing_colls (d : Dev) (n : Nat) (x : Ring) : (d.setRing n x).colls = d.colls := rfl
@[simp] theorem Dev.setRing_collHeld (d : Dev) (n : Nat) (x : Ring) : (d.setRing n x).collHeld = d.collHeld := rfl
@[simp] theorem Dev.setRing_twin (d : Dev) (n : Nat) (x : Ring) : (d.setRing n x).twin = d.twin := rfl
@[simp] theorem Dev.setRing_twinHeld (d : Dev) (n : Nat) (x : Ring) : (d.setRing n x).twinHeld = d.twinHeld := rfl
@[simp] theorem Dev.setRing_csHeld (d : Dev) (n : Nat) (x : Ring) : (d.setRing n x).csHeld = d.csHeld := rfl
@[simp] theorem Dev.setRing_released (d : Dev) (n : Nat) (x : Ring) : (d.setRing n x).released = d.released := rfl
@[simp] theorem Dev.setRing_sys (d : Dev) (n : Nat) (x : Ring) : (d.setRing n x).sys = d.sys := rfl
@[simp] theorem Dev.setRing_freeUses (d : Dev) (n : Nat) (x : Ring) : (d.setRing n x).freeUses = d.freeUses := rfl

@[simp] theorem Dev.setFloe_cs (d : Dev) (n : Nat) (x : Floe) : (d.setFloe n x).cs = d.cs := rfl
@[simp] theorem Dev.setFloe_latR (d : Dev) (n : Nat) (x : Floe) : (d.setFloe n x).latR = d.latR := rfl
@[simp] theorem Dev.setFloe_latW (d : Dev) (n : Nat) (x : Floe) : (d.setFloe n x).latW = d.latW := rfl
@[simp] theorem Dev.setFloe_clock (d : Dev) (n : Nat) (x : Floe) : (d.setFloe n x).clock = d.clock := rfl
@[simp] theorem Dev.setFloe_timeRun (d : Dev) (n : Nat) (x : Floe) : (d.setFloe n x).timeRun = d.timeRun := rfl
@[simp] theorem Dev.setFloe_time (d : Dev) (n : Nat) (x : Floe) : (d.setFloe n x).time = d.time := rfl
@[simp] theorem Dev.setFloe_halfRate (d : Dev) (n : Nat) (x : Floe) : (d.setFloe n x).halfRate = d.halfRate := rfl
@[simp] theorem Dev.setFloe_trimAcc (d : Dev) (n : Nat) (x : Floe) : (d.setFloe n x).trimAcc = d.trimAcc := rfl
@[simp] theorem Dev.setFloe_dram (d : Dev) (n : Nat) (x : Floe) : (d.setFloe n x).dram = d.dram := rfl
@[simp] theorem Dev.setFloe_ls (d : Dev) (n : Nat) (x : Floe) : (d.setFloe n x).ls = d.ls := rfl
@[simp] theorem Dev.setFloe_chans (d : Dev) (n : Nat) (x : Floe) : (d.setFloe n x).chans = d.chans := rfl
@[simp] theorem Dev.setFloe_hosts (d : Dev) (n : Nat) (x : Floe) : (d.setFloe n x).hosts = d.hosts := rfl
@[simp] theorem Dev.setFloe_mor (d : Dev) (n : Nat) (x : Floe) : (d.setFloe n x).mor = d.mor := rfl
@[simp] theorem Dev.setFloe_morUe (d : Dev) (n : Nat) (x : Floe) : (d.setFloe n x).morUe = d.morUe := rfl
@[simp] theorem Dev.setFloe_wins (d : Dev) (n : Nat) (x : Floe) : (d.setFloe n x).wins = d.wins := rfl
@[simp] theorem Dev.setFloe_regionUe (d : Dev) (n : Nat) (x : Floe) : (d.setFloe n x).regionUe = d.regionUe := rfl
@[simp] theorem Dev.setFloe_sram (d : Dev) (n : Nat) (x : Floe) : (d.setFloe n x).sram = d.sram := rfl
@[simp] theorem Dev.setFloe_zeroing (d : Dev) (n : Nat) (x : Floe) : (d.setFloe n x).zeroing = d.zeroing := rfl
@[simp] theorem Dev.setFloe_fuses (d : Dev) (n : Nat) (x : Floe) : (d.setFloe n x).fuses = d.fuses := rfl
@[simp] theorem Dev.setFloe_flash (d : Dev) (n : Nat) (x : Floe) : (d.setFloe n x).flash = d.flash := rfl
@[simp] theorem Dev.setFloe_rings (d : Dev) (n : Nat) (x : Floe) : (d.setFloe n x).rings = d.rings := rfl
@[simp] theorem Dev.setFloe_cmds (d : Dev) (n : Nat) (x : Floe) : (d.setFloe n x).cmds = d.cmds := rfl
@[simp] theorem Dev.setFloe_nbos (d : Dev) (n : Nat) (x : Floe) : (d.setFloe n x).nbos = d.nbos := rfl
@[simp] theorem Dev.setFloe_nextNbo (d : Dev) (n : Nat) (x : Floe) : (d.setFloe n x).nextNbo = d.nextNbo := rfl
@[simp] theorem Dev.setFloe_near (d : Dev) (n : Nat) (x : Floe) : (d.setFloe n x).near = d.near := rfl
@[simp] theorem Dev.setFloe_bookings (d : Dev) (n : Nat) (x : Floe) : (d.setFloe n x).bookings = d.bookings := rfl
@[simp] theorem Dev.setFloe_logical (d : Dev) (n : Nat) (x : Floe) : (d.setFloe n x).logical = d.logical := rfl
@[simp] theorem Dev.setFloe_sems (d : Dev) (n : Nat) (x : Floe) : (d.setFloe n x).sems = d.sems := rfl
@[simp] theorem Dev.setFloe_semPoison (d : Dev) (n : Nat) (x : Floe) : (d.setFloe n x).semPoison = d.semPoison := rfl
@[simp] theorem Dev.setFloe_semQ (d : Dev) (n : Nat) (x : Floe) : (d.setFloe n x).semQ = d.semQ := rfl
@[simp] theorem Dev.setFloe_links (d : Dev) (n : Nat) (x : Floe) : (d.setFloe n x).links = d.links := rfl
@[simp] theorem Dev.setFloe_remotes (d : Dev) (n : Nat) (x : Floe) : (d.setFloe n x).remotes = d.remotes := rfl
@[simp] theorem Dev.setFloe_group (d : Dev) (n : Nat) (x : Floe) : (d.setFloe n x).group = d.group := rfl
@[simp] theorem Dev.setFloe_colls (d : Dev) (n : Nat) (x : Floe) : (d.setFloe n x).colls = d.colls := rfl
@[simp] theorem Dev.setFloe_collHeld (d : Dev) (n : Nat) (x : Floe) : (d.setFloe n x).collHeld = d.collHeld := rfl
@[simp] theorem Dev.setFloe_twin (d : Dev) (n : Nat) (x : Floe) : (d.setFloe n x).twin = d.twin := rfl
@[simp] theorem Dev.setFloe_twinHeld (d : Dev) (n : Nat) (x : Floe) : (d.setFloe n x).twinHeld = d.twinHeld := rfl
@[simp] theorem Dev.setFloe_csHeld (d : Dev) (n : Nat) (x : Floe) : (d.setFloe n x).csHeld = d.csHeld := rfl
@[simp] theorem Dev.setFloe_released (d : Dev) (n : Nat) (x : Floe) : (d.setFloe n x).released = d.released := rfl
@[simp] theorem Dev.setFloe_sys (d : Dev) (n : Nat) (x : Floe) : (d.setFloe n x).sys = d.sys := rfl
@[simp] theorem Dev.setFloe_freeUses (d : Dev) (n : Nat) (x : Floe) : (d.setFloe n x).freeUses = d.freeUses := rfl

@[simp] theorem Dev.setLogi_cs (d : Dev) (f : Nat) (x : Logical) : (d.setLogi f x).cs = d.cs := rfl
@[simp] theorem Dev.setLogi_latR (d : Dev) (f : Nat) (x : Logical) : (d.setLogi f x).latR = d.latR := rfl
@[simp] theorem Dev.setLogi_latW (d : Dev) (f : Nat) (x : Logical) : (d.setLogi f x).latW = d.latW := rfl
@[simp] theorem Dev.setLogi_clock (d : Dev) (f : Nat) (x : Logical) : (d.setLogi f x).clock = d.clock := rfl
@[simp] theorem Dev.setLogi_timeRun (d : Dev) (f : Nat) (x : Logical) : (d.setLogi f x).timeRun = d.timeRun := rfl
@[simp] theorem Dev.setLogi_time (d : Dev) (f : Nat) (x : Logical) : (d.setLogi f x).time = d.time := rfl
@[simp] theorem Dev.setLogi_halfRate (d : Dev) (f : Nat) (x : Logical) : (d.setLogi f x).halfRate = d.halfRate := rfl
@[simp] theorem Dev.setLogi_trimAcc (d : Dev) (f : Nat) (x : Logical) : (d.setLogi f x).trimAcc = d.trimAcc := rfl
@[simp] theorem Dev.setLogi_dram (d : Dev) (f : Nat) (x : Logical) : (d.setLogi f x).dram = d.dram := rfl
@[simp] theorem Dev.setLogi_ls (d : Dev) (f : Nat) (x : Logical) : (d.setLogi f x).ls = d.ls := rfl
@[simp] theorem Dev.setLogi_chans (d : Dev) (f : Nat) (x : Logical) : (d.setLogi f x).chans = d.chans := rfl
@[simp] theorem Dev.setLogi_hosts (d : Dev) (f : Nat) (x : Logical) : (d.setLogi f x).hosts = d.hosts := rfl
@[simp] theorem Dev.setLogi_mor (d : Dev) (f : Nat) (x : Logical) : (d.setLogi f x).mor = d.mor := rfl
@[simp] theorem Dev.setLogi_morUe (d : Dev) (f : Nat) (x : Logical) : (d.setLogi f x).morUe = d.morUe := rfl
@[simp] theorem Dev.setLogi_wins (d : Dev) (f : Nat) (x : Logical) : (d.setLogi f x).wins = d.wins := rfl
@[simp] theorem Dev.setLogi_regionUe (d : Dev) (f : Nat) (x : Logical) : (d.setLogi f x).regionUe = d.regionUe := rfl
@[simp] theorem Dev.setLogi_sram (d : Dev) (f : Nat) (x : Logical) : (d.setLogi f x).sram = d.sram := rfl
@[simp] theorem Dev.setLogi_zeroing (d : Dev) (f : Nat) (x : Logical) : (d.setLogi f x).zeroing = d.zeroing := rfl
@[simp] theorem Dev.setLogi_fuses (d : Dev) (f : Nat) (x : Logical) : (d.setLogi f x).fuses = d.fuses := rfl
@[simp] theorem Dev.setLogi_flash (d : Dev) (f : Nat) (x : Logical) : (d.setLogi f x).flash = d.flash := rfl
@[simp] theorem Dev.setLogi_rings (d : Dev) (f : Nat) (x : Logical) : (d.setLogi f x).rings = d.rings := rfl
@[simp] theorem Dev.setLogi_cmds (d : Dev) (f : Nat) (x : Logical) : (d.setLogi f x).cmds = d.cmds := rfl
@[simp] theorem Dev.setLogi_nbos (d : Dev) (f : Nat) (x : Logical) : (d.setLogi f x).nbos = d.nbos := rfl
@[simp] theorem Dev.setLogi_nextNbo (d : Dev) (f : Nat) (x : Logical) : (d.setLogi f x).nextNbo = d.nextNbo := rfl
@[simp] theorem Dev.setLogi_near (d : Dev) (f : Nat) (x : Logical) : (d.setLogi f x).near = d.near := rfl
@[simp] theorem Dev.setLogi_bookings (d : Dev) (f : Nat) (x : Logical) : (d.setLogi f x).bookings = d.bookings := rfl
@[simp] theorem Dev.setLogi_floes (d : Dev) (f : Nat) (x : Logical) : (d.setLogi f x).floes = d.floes := rfl
@[simp] theorem Dev.setLogi_sems (d : Dev) (f : Nat) (x : Logical) : (d.setLogi f x).sems = d.sems := rfl
@[simp] theorem Dev.setLogi_semPoison (d : Dev) (f : Nat) (x : Logical) : (d.setLogi f x).semPoison = d.semPoison := rfl
@[simp] theorem Dev.setLogi_semQ (d : Dev) (f : Nat) (x : Logical) : (d.setLogi f x).semQ = d.semQ := rfl
@[simp] theorem Dev.setLogi_links (d : Dev) (f : Nat) (x : Logical) : (d.setLogi f x).links = d.links := rfl
@[simp] theorem Dev.setLogi_remotes (d : Dev) (f : Nat) (x : Logical) : (d.setLogi f x).remotes = d.remotes := rfl
@[simp] theorem Dev.setLogi_group (d : Dev) (f : Nat) (x : Logical) : (d.setLogi f x).group = d.group := rfl
@[simp] theorem Dev.setLogi_colls (d : Dev) (f : Nat) (x : Logical) : (d.setLogi f x).colls = d.colls := rfl
@[simp] theorem Dev.setLogi_collHeld (d : Dev) (f : Nat) (x : Logical) : (d.setLogi f x).collHeld = d.collHeld := rfl
@[simp] theorem Dev.setLogi_twin (d : Dev) (f : Nat) (x : Logical) : (d.setLogi f x).twin = d.twin := rfl
@[simp] theorem Dev.setLogi_twinHeld (d : Dev) (f : Nat) (x : Logical) : (d.setLogi f x).twinHeld = d.twinHeld := rfl
@[simp] theorem Dev.setLogi_csHeld (d : Dev) (f : Nat) (x : Logical) : (d.setLogi f x).csHeld = d.csHeld := rfl
@[simp] theorem Dev.setLogi_released (d : Dev) (f : Nat) (x : Logical) : (d.setLogi f x).released = d.released := rfl
@[simp] theorem Dev.setLogi_sys (d : Dev) (f : Nat) (x : Logical) : (d.setLogi f x).sys = d.sys := rfl
@[simp] theorem Dev.setLogi_freeUses (d : Dev) (f : Nat) (x : Logical) : (d.setLogi f x).freeUses = d.freeUses := rfl

@[simp] theorem Dev.setLink_cs (d : Dev) (l : Nat) (x : Link) : (d.setLink l x).cs = d.cs := rfl
@[simp] theorem Dev.setLink_latR (d : Dev) (l : Nat) (x : Link) : (d.setLink l x).latR = d.latR := rfl
@[simp] theorem Dev.setLink_latW (d : Dev) (l : Nat) (x : Link) : (d.setLink l x).latW = d.latW := rfl
@[simp] theorem Dev.setLink_clock (d : Dev) (l : Nat) (x : Link) : (d.setLink l x).clock = d.clock := rfl
@[simp] theorem Dev.setLink_timeRun (d : Dev) (l : Nat) (x : Link) : (d.setLink l x).timeRun = d.timeRun := rfl
@[simp] theorem Dev.setLink_time (d : Dev) (l : Nat) (x : Link) : (d.setLink l x).time = d.time := rfl
@[simp] theorem Dev.setLink_halfRate (d : Dev) (l : Nat) (x : Link) : (d.setLink l x).halfRate = d.halfRate := rfl
@[simp] theorem Dev.setLink_trimAcc (d : Dev) (l : Nat) (x : Link) : (d.setLink l x).trimAcc = d.trimAcc := rfl
@[simp] theorem Dev.setLink_dram (d : Dev) (l : Nat) (x : Link) : (d.setLink l x).dram = d.dram := rfl
@[simp] theorem Dev.setLink_ls (d : Dev) (l : Nat) (x : Link) : (d.setLink l x).ls = d.ls := rfl
@[simp] theorem Dev.setLink_chans (d : Dev) (l : Nat) (x : Link) : (d.setLink l x).chans = d.chans := rfl
@[simp] theorem Dev.setLink_hosts (d : Dev) (l : Nat) (x : Link) : (d.setLink l x).hosts = d.hosts := rfl
@[simp] theorem Dev.setLink_mor (d : Dev) (l : Nat) (x : Link) : (d.setLink l x).mor = d.mor := rfl
@[simp] theorem Dev.setLink_morUe (d : Dev) (l : Nat) (x : Link) : (d.setLink l x).morUe = d.morUe := rfl
@[simp] theorem Dev.setLink_wins (d : Dev) (l : Nat) (x : Link) : (d.setLink l x).wins = d.wins := rfl
@[simp] theorem Dev.setLink_regionUe (d : Dev) (l : Nat) (x : Link) : (d.setLink l x).regionUe = d.regionUe := rfl
@[simp] theorem Dev.setLink_sram (d : Dev) (l : Nat) (x : Link) : (d.setLink l x).sram = d.sram := rfl
@[simp] theorem Dev.setLink_zeroing (d : Dev) (l : Nat) (x : Link) : (d.setLink l x).zeroing = d.zeroing := rfl
@[simp] theorem Dev.setLink_fuses (d : Dev) (l : Nat) (x : Link) : (d.setLink l x).fuses = d.fuses := rfl
@[simp] theorem Dev.setLink_flash (d : Dev) (l : Nat) (x : Link) : (d.setLink l x).flash = d.flash := rfl
@[simp] theorem Dev.setLink_rings (d : Dev) (l : Nat) (x : Link) : (d.setLink l x).rings = d.rings := rfl
@[simp] theorem Dev.setLink_cmds (d : Dev) (l : Nat) (x : Link) : (d.setLink l x).cmds = d.cmds := rfl
@[simp] theorem Dev.setLink_nbos (d : Dev) (l : Nat) (x : Link) : (d.setLink l x).nbos = d.nbos := rfl
@[simp] theorem Dev.setLink_nextNbo (d : Dev) (l : Nat) (x : Link) : (d.setLink l x).nextNbo = d.nextNbo := rfl
@[simp] theorem Dev.setLink_near (d : Dev) (l : Nat) (x : Link) : (d.setLink l x).near = d.near := rfl
@[simp] theorem Dev.setLink_bookings (d : Dev) (l : Nat) (x : Link) : (d.setLink l x).bookings = d.bookings := rfl
@[simp] theorem Dev.setLink_floes (d : Dev) (l : Nat) (x : Link) : (d.setLink l x).floes = d.floes := rfl
@[simp] theorem Dev.setLink_logical (d : Dev) (l : Nat) (x : Link) : (d.setLink l x).logical = d.logical := rfl
@[simp] theorem Dev.setLink_sems (d : Dev) (l : Nat) (x : Link) : (d.setLink l x).sems = d.sems := rfl
@[simp] theorem Dev.setLink_semPoison (d : Dev) (l : Nat) (x : Link) : (d.setLink l x).semPoison = d.semPoison := rfl
@[simp] theorem Dev.setLink_semQ (d : Dev) (l : Nat) (x : Link) : (d.setLink l x).semQ = d.semQ := rfl
@[simp] theorem Dev.setLink_remotes (d : Dev) (l : Nat) (x : Link) : (d.setLink l x).remotes = d.remotes := rfl
@[simp] theorem Dev.setLink_group (d : Dev) (l : Nat) (x : Link) : (d.setLink l x).group = d.group := rfl
@[simp] theorem Dev.setLink_colls (d : Dev) (l : Nat) (x : Link) : (d.setLink l x).colls = d.colls := rfl
@[simp] theorem Dev.setLink_collHeld (d : Dev) (l : Nat) (x : Link) : (d.setLink l x).collHeld = d.collHeld := rfl
@[simp] theorem Dev.setLink_twin (d : Dev) (l : Nat) (x : Link) : (d.setLink l x).twin = d.twin := rfl
@[simp] theorem Dev.setLink_twinHeld (d : Dev) (l : Nat) (x : Link) : (d.setLink l x).twinHeld = d.twinHeld := rfl
@[simp] theorem Dev.setLink_csHeld (d : Dev) (l : Nat) (x : Link) : (d.setLink l x).csHeld = d.csHeld := rfl
@[simp] theorem Dev.setLink_released (d : Dev) (l : Nat) (x : Link) : (d.setLink l x).released = d.released := rfl
@[simp] theorem Dev.setLink_sys (d : Dev) (l : Nat) (x : Link) : (d.setLink l x).sys = d.sys := rfl
@[simp] theorem Dev.setLink_freeUses (d : Dev) (l : Nat) (x : Link) : (d.setLink l x).freeUses = d.freeUses := rfl

@[simp] theorem Dev.setSem_cs (d : Dev) (k : Nat) (v : BitVec 64) : (d.setSem k v).cs = d.cs := rfl
@[simp] theorem Dev.setSem_latR (d : Dev) (k : Nat) (v : BitVec 64) : (d.setSem k v).latR = d.latR := rfl
@[simp] theorem Dev.setSem_latW (d : Dev) (k : Nat) (v : BitVec 64) : (d.setSem k v).latW = d.latW := rfl
@[simp] theorem Dev.setSem_clock (d : Dev) (k : Nat) (v : BitVec 64) : (d.setSem k v).clock = d.clock := rfl
@[simp] theorem Dev.setSem_timeRun (d : Dev) (k : Nat) (v : BitVec 64) : (d.setSem k v).timeRun = d.timeRun := rfl
@[simp] theorem Dev.setSem_time (d : Dev) (k : Nat) (v : BitVec 64) : (d.setSem k v).time = d.time := rfl
@[simp] theorem Dev.setSem_halfRate (d : Dev) (k : Nat) (v : BitVec 64) : (d.setSem k v).halfRate = d.halfRate := rfl
@[simp] theorem Dev.setSem_trimAcc (d : Dev) (k : Nat) (v : BitVec 64) : (d.setSem k v).trimAcc = d.trimAcc := rfl
@[simp] theorem Dev.setSem_dram (d : Dev) (k : Nat) (v : BitVec 64) : (d.setSem k v).dram = d.dram := rfl
@[simp] theorem Dev.setSem_ls (d : Dev) (k : Nat) (v : BitVec 64) : (d.setSem k v).ls = d.ls := rfl
@[simp] theorem Dev.setSem_chans (d : Dev) (k : Nat) (v : BitVec 64) : (d.setSem k v).chans = d.chans := rfl
@[simp] theorem Dev.setSem_hosts (d : Dev) (k : Nat) (v : BitVec 64) : (d.setSem k v).hosts = d.hosts := rfl
@[simp] theorem Dev.setSem_mor (d : Dev) (k : Nat) (v : BitVec 64) : (d.setSem k v).mor = d.mor := rfl
@[simp] theorem Dev.setSem_morUe (d : Dev) (k : Nat) (v : BitVec 64) : (d.setSem k v).morUe = d.morUe := rfl
@[simp] theorem Dev.setSem_wins (d : Dev) (k : Nat) (v : BitVec 64) : (d.setSem k v).wins = d.wins := rfl
@[simp] theorem Dev.setSem_regionUe (d : Dev) (k : Nat) (v : BitVec 64) : (d.setSem k v).regionUe = d.regionUe := rfl
@[simp] theorem Dev.setSem_sram (d : Dev) (k : Nat) (v : BitVec 64) : (d.setSem k v).sram = d.sram := rfl
@[simp] theorem Dev.setSem_zeroing (d : Dev) (k : Nat) (v : BitVec 64) : (d.setSem k v).zeroing = d.zeroing := rfl
@[simp] theorem Dev.setSem_fuses (d : Dev) (k : Nat) (v : BitVec 64) : (d.setSem k v).fuses = d.fuses := rfl
@[simp] theorem Dev.setSem_flash (d : Dev) (k : Nat) (v : BitVec 64) : (d.setSem k v).flash = d.flash := rfl
@[simp] theorem Dev.setSem_rings (d : Dev) (k : Nat) (v : BitVec 64) : (d.setSem k v).rings = d.rings := rfl
@[simp] theorem Dev.setSem_cmds (d : Dev) (k : Nat) (v : BitVec 64) : (d.setSem k v).cmds = d.cmds := rfl
@[simp] theorem Dev.setSem_nbos (d : Dev) (k : Nat) (v : BitVec 64) : (d.setSem k v).nbos = d.nbos := rfl
@[simp] theorem Dev.setSem_nextNbo (d : Dev) (k : Nat) (v : BitVec 64) : (d.setSem k v).nextNbo = d.nextNbo := rfl
@[simp] theorem Dev.setSem_near (d : Dev) (k : Nat) (v : BitVec 64) : (d.setSem k v).near = d.near := rfl
@[simp] theorem Dev.setSem_bookings (d : Dev) (k : Nat) (v : BitVec 64) : (d.setSem k v).bookings = d.bookings := rfl
@[simp] theorem Dev.setSem_floes (d : Dev) (k : Nat) (v : BitVec 64) : (d.setSem k v).floes = d.floes := rfl
@[simp] theorem Dev.setSem_logical (d : Dev) (k : Nat) (v : BitVec 64) : (d.setSem k v).logical = d.logical := rfl
@[simp] theorem Dev.setSem_semPoison (d : Dev) (k : Nat) (v : BitVec 64) : (d.setSem k v).semPoison = d.semPoison := rfl
@[simp] theorem Dev.setSem_semQ (d : Dev) (k : Nat) (v : BitVec 64) : (d.setSem k v).semQ = d.semQ := rfl
@[simp] theorem Dev.setSem_links (d : Dev) (k : Nat) (v : BitVec 64) : (d.setSem k v).links = d.links := rfl
@[simp] theorem Dev.setSem_remotes (d : Dev) (k : Nat) (v : BitVec 64) : (d.setSem k v).remotes = d.remotes := rfl
@[simp] theorem Dev.setSem_group (d : Dev) (k : Nat) (v : BitVec 64) : (d.setSem k v).group = d.group := rfl
@[simp] theorem Dev.setSem_colls (d : Dev) (k : Nat) (v : BitVec 64) : (d.setSem k v).colls = d.colls := rfl
@[simp] theorem Dev.setSem_collHeld (d : Dev) (k : Nat) (v : BitVec 64) : (d.setSem k v).collHeld = d.collHeld := rfl
@[simp] theorem Dev.setSem_twin (d : Dev) (k : Nat) (v : BitVec 64) : (d.setSem k v).twin = d.twin := rfl
@[simp] theorem Dev.setSem_twinHeld (d : Dev) (k : Nat) (v : BitVec 64) : (d.setSem k v).twinHeld = d.twinHeld := rfl
@[simp] theorem Dev.setSem_csHeld (d : Dev) (k : Nat) (v : BitVec 64) : (d.setSem k v).csHeld = d.csHeld := rfl
@[simp] theorem Dev.setSem_released (d : Dev) (k : Nat) (v : BitVec 64) : (d.setSem k v).released = d.released := rfl
@[simp] theorem Dev.setSem_sys (d : Dev) (k : Nat) (v : BitVec 64) : (d.setSem k v).sys = d.sys := rfl
@[simp] theorem Dev.setSem_freeUses (d : Dev) (k : Nat) (v : BitVec 64) : (d.setSem k v).freeUses = d.freeUses := rfl

@[simp] theorem Dev.settle_cs (d : Dev) : d.settle.cs = d.cs := rfl
@[simp] theorem Dev.settle_latR (d : Dev) : d.settle.latR = d.latR := rfl
@[simp] theorem Dev.settle_latW (d : Dev) : d.settle.latW = d.latW := rfl
@[simp] theorem Dev.settle_clock (d : Dev) : d.settle.clock = d.clock := rfl
@[simp] theorem Dev.settle_timeRun (d : Dev) : d.settle.timeRun = d.timeRun := rfl
@[simp] theorem Dev.settle_time (d : Dev) : d.settle.time = d.time := rfl
@[simp] theorem Dev.settle_halfRate (d : Dev) : d.settle.halfRate = d.halfRate := rfl
@[simp] theorem Dev.settle_trimAcc (d : Dev) : d.settle.trimAcc = d.trimAcc := rfl
@[simp] theorem Dev.settle_dram (d : Dev) : d.settle.dram = d.dram := rfl
@[simp] theorem Dev.settle_ls (d : Dev) : d.settle.ls = d.ls := rfl
@[simp] theorem Dev.settle_chans (d : Dev) : d.settle.chans = d.chans := rfl
@[simp] theorem Dev.settle_hosts (d : Dev) : d.settle.hosts = d.hosts := rfl
@[simp] theorem Dev.settle_mor (d : Dev) : d.settle.mor = d.mor := rfl
@[simp] theorem Dev.settle_morUe (d : Dev) : d.settle.morUe = d.morUe := rfl
@[simp] theorem Dev.settle_wins (d : Dev) : d.settle.wins = d.wins := rfl
@[simp] theorem Dev.settle_regionUe (d : Dev) : d.settle.regionUe = d.regionUe := rfl
@[simp] theorem Dev.settle_sram (d : Dev) : d.settle.sram = d.sram := rfl
@[simp] theorem Dev.settle_zeroing (d : Dev) : d.settle.zeroing = d.zeroing := rfl
@[simp] theorem Dev.settle_fuses (d : Dev) : d.settle.fuses = d.fuses := rfl
@[simp] theorem Dev.settle_flash (d : Dev) : d.settle.flash = d.flash := rfl
@[simp] theorem Dev.settle_rings (d : Dev) : d.settle.rings = d.rings := rfl
@[simp] theorem Dev.settle_cmds (d : Dev) : d.settle.cmds = d.cmds := rfl
@[simp] theorem Dev.settle_nbos (d : Dev) : d.settle.nbos = d.nbos := rfl
@[simp] theorem Dev.settle_nextNbo (d : Dev) : d.settle.nextNbo = d.nextNbo := rfl
@[simp] theorem Dev.settle_near (d : Dev) : d.settle.near = d.near := rfl
@[simp] theorem Dev.settle_bookings (d : Dev) : d.settle.bookings = d.bookings := rfl
@[simp] theorem Dev.settle_floes (d : Dev) : d.settle.floes = d.floes := rfl
@[simp] theorem Dev.settle_logical (d : Dev) : d.settle.logical = d.logical := rfl
@[simp] theorem Dev.settle_sems (d : Dev) : d.settle.sems = d.sems := rfl
@[simp] theorem Dev.settle_semPoison (d : Dev) : d.settle.semPoison = d.semPoison := rfl
@[simp] theorem Dev.settle_semQ (d : Dev) : d.settle.semQ = d.semQ := rfl
@[simp] theorem Dev.settle_links (d : Dev) : d.settle.links = d.links := rfl
@[simp] theorem Dev.settle_remotes (d : Dev) : d.settle.remotes = d.remotes := rfl
@[simp] theorem Dev.settle_group (d : Dev) : d.settle.group = d.group := rfl
@[simp] theorem Dev.settle_colls (d : Dev) : d.settle.colls = d.colls := rfl
@[simp] theorem Dev.settle_collHeld (d : Dev) : d.settle.collHeld = d.collHeld := rfl
@[simp] theorem Dev.settle_twin (d : Dev) : d.settle.twin = d.twin := rfl
@[simp] theorem Dev.settle_twinHeld (d : Dev) : d.settle.twinHeld = d.twinHeld := rfl
@[simp] theorem Dev.settle_csHeld (d : Dev) : d.settle.csHeld = d.csHeld := rfl
@[simp] theorem Dev.settle_released (d : Dev) : d.settle.released = d.released := rfl
@[simp] theorem Dev.settle_freeUses (d : Dev) : d.settle.freeUses = d.freeUses := rfl

@[simp] theorem Dev.reg_settle (d : Dev) (o : Nat) : d.settle.reg o = d.reg o := rfl
@[simp] theorem Dev.settle_phase (d : Dev) : d.settle.sys.phase = d.sys.phase := rfl
@[simp] theorem Dev.chan_settle (d : Dev) (c : Nat) : d.settle.chan c = d.chan c := rfl
@[simp] theorem Dev.host_settle (d : Dev) (c : Nat) : d.settle.host c = d.host c := rfl
@[simp] theorem Dev.ring_settle (d : Dev) (n : Nat) : d.settle.ring n = d.ring n := rfl
@[simp] theorem Dev.floe_settle (d : Dev) (n : Nat) : d.settle.floe n = d.floe n := rfl
@[simp] theorem Dev.logi_settle (d : Dev) (f : Nat) : d.settle.logi f = d.logi f := rfl
@[simp] theorem Dev.link_settle (d : Dev) (l : Nat) : d.settle.link l = d.link l := rfl

end Sys2Proof.Machine
end

