-- ==== Sys2Proof/Laws/Exec.lean ====
section
/-! SUPPORT. What every command can do: it answers a next state, leaves the queue alone and settles the pins. -/

namespace Sys2Proof.Machine

/-- The level of the pins does not depend on the pins. -/
@[simp] theorem Dev.attnLevel_settle (d : Dev) : d.settle.attnLevel = d.attnLevel := rfl

@[simp] theorem State.does_eq (s : State) (f : Dev → Dev) : s.does f = .next { s with dev := (f s.dev).settle } := rfl

@[simp] theorem Dev.inService_live (d : Dev) (f : Dev → Dev) (h : d.sys.phase.live = true) : d.inService f = f d := by
  simp [Dev.inService, h]

theorem Dev.inService_stopped (d : Dev) (f : Dev → Dev) (h : d.sys.phase.live = false) : d.inService f = d := by
  simp [Dev.inService, h]

/-- Everything a command can do at the level of the machine. -/
theorem exec_cases (i : Instr) (s : State) : ∃ d : Dev, exec i s = .next { s with dev := d.settle } := by
  cases i <;> exact ⟨_, rfl⟩

theorem step_nil (s : State) (h : s.pending = []) : step s = .next s.tick := by
  simp [step, h]

end Sys2Proof.Machine
end

