-- ==== Sys2Proof/Laws/Tab.lean ====
section
/-! SUPPORT. Laws of the sparse tables: what is read after a write, and that every write keeps the canonical form. -/

namespace Sys2Proof.Machine

variable {α : Type} [DecidableEq α] {dflt : Nat → α}

omit [DecidableEq α] in
@[simp] theorem tabGet_nil (k : Nat) : tabGet dflt [] k = dflt k := rfl

theorem tabGet_insert (t : Tab α) (k j : Nat) (v : α) : tabGet dflt (tabInsert t k v) j = if j = k then v else tabGet dflt t j := by
  induction t with
  | nil =>
    simp only [tabInsert, tabGet]
    by_cases h : k = j
    · simp [h]
    · simp [h, Ne.symm h]
  | cons e t ih =>
    obtain ⟨i, w⟩ := e
    simp only [tabInsert]
    split
    · by_cases hj : k = j
      · simp [tabGet, hj]
      · simp [tabGet, hj, Ne.symm hj]
    · split
      · rename_i hik
        subst hik
        by_cases hj : i = j
        · simp [tabGet, hj]
        · simp [tabGet, hj, Ne.symm hj]
      · by_cases hij : i = j
        · subst hij
          simp only [tabGet, if_true]
          split
          · omega
          · rfl
        · simp only [tabGet, hij, if_false, ih]

omit [DecidableEq α] in
theorem tabGet_of_lt (t : Tab α) (k : Nat) (h : ∀ e ∈ t, k < e.1) : tabGet dflt t k = dflt k := by
  induction t with
  | nil => rfl
  | cons e t ih =>
    have hk := h e (by simp)
    simp only [tabGet]
    rw [if_neg (by omega)]
    exact ih fun e he => h e (by simp [he])

theorem tabWf_cons (k : Nat) (v : α) (t : Tab α) :
    tabWf dflt ((k, v) :: t) = true ↔ v ≠ dflt k ∧ (∀ e ∈ t, k < e.1) ∧ tabWf dflt t = true := by
  simp [tabWf, and_assoc]

omit [DecidableEq α] in
theorem tabGet_erase (t : Tab α) (k j : Nat) : tabGet dflt (tabErase t k) j = if j = k then dflt k else tabGet dflt t j := by
  induction t with
  | nil => by_cases hj : j = k <;> simp [tabErase, hj]
  | cons e t ih =>
    obtain ⟨i, w⟩ := e
    by_cases hik : i = k
    · by_cases hj : j = k
      · simp [tabErase, hik, hj] at ih ⊢
        simpa [hj] using ih
      · simp [tabErase, tabGet, hik, hj, Ne.symm hj] at ih ⊢
        simpa [hj] using ih
    · by_cases hij : i = j
      · subst hij
        simp [tabErase, tabGet, hik]
      · simp [tabErase, tabGet, hik, hij, ih]

/-- Everything a write to a table does to what is read (R82's byte write, a register write, …). -/
@[simp] theorem tabGet_set (t : Tab α) (k j : Nat) (v : α) :
    tabGet dflt (tabSet dflt t k v) j = if j = k then v else tabGet dflt t j := by
  unfold tabSet
  split
  · rename_i hv
    rw [tabGet_erase t k j, hv]
  · exact tabGet_insert t k j v

omit [DecidableEq α] in
theorem mem_insert (t : Tab α) (k : Nat) (v : α) (e : Nat × α) (h : e ∈ tabInsert t k v) : e = (k, v) ∨ e ∈ t := by
  induction t with
  | nil => simpa [tabInsert] using h
  | cons x t ih =>
    obtain ⟨i, w⟩ := x
    simp only [tabInsert] at h
    split at h
    · simpa using h
    · split at h
      · rcases List.mem_cons.1 h with h | h
        · exact .inl h
        · exact .inr (by simp [h])
      · rcases List.mem_cons.1 h with h | h
        · exact .inr (by simp [h])
        · exact (ih h).imp_right fun h => by simp [h]

omit [DecidableEq α] in
theorem mem_erase (t : Tab α) (k : Nat) (e : Nat × α) (h : e ∈ tabErase t k) : e ∈ t := by
  induction t with
  | nil => exact h
  | cons x t ih =>
    obtain ⟨i, w⟩ := x
    simp only [tabErase] at h
    split at h
    · simp [ih h]
    · rcases List.mem_cons.1 h with h | h
      · simp [h]
      · simp [ih h]

theorem tabWf_insert (t : Tab α) (k : Nat) (v : α) (hv : v ≠ dflt k) (h : tabWf dflt t = true) :
    tabWf dflt (tabInsert t k v) = true := by
  induction t with
  | nil => simp [tabInsert, tabWf, hv]
  | cons e t ih =>
    obtain ⟨i, w⟩ := e
    obtain ⟨hw, hlt, ht⟩ := (tabWf_cons i w t).1 h
    simp only [tabInsert]
    split
    · rename_i hki
      refine (tabWf_cons _ _ _).2 ⟨hv, fun e he => ?_, h⟩
      rcases List.mem_cons.1 he with rfl | he
      · exact hki
      · exact lt_trans hki (hlt e he)
    · split
      · rename_i hik
        subst hik
        exact (tabWf_cons _ _ _).2 ⟨hv, hlt, ht⟩
      · refine (tabWf_cons _ _ _).2 ⟨hw, fun e he => ?_, ih ht⟩
        rcases mem_insert t k v e he with rfl | he
        · simp only
          omega
        · exact hlt e he

theorem tabWf_erase (t : Tab α) (k : Nat) (h : tabWf dflt t = true) : tabWf dflt (tabErase t k) = true := by
  induction t with
  | nil => rfl
  | cons e t ih =>
    obtain ⟨i, w⟩ := e
    obtain ⟨hw, hlt, ht⟩ := (tabWf_cons i w t).1 h
    simp only [tabErase]
    split
    · exact ih ht
    · exact (tabWf_cons _ _ _).2 ⟨hw, fun e he => hlt e (mem_erase t k e he), ih ht⟩

/-- Every write keeps the canonical form. -/
theorem tabWf_set (t : Tab α) (k : Nat) (v : α) (h : tabWf dflt t = true) : tabWf dflt (tabSet dflt t k v) = true := by
  unfold tabSet
  split
  · exact tabWf_erase t k h
  · rename_i hv
    exact tabWf_insert t k v hv h

theorem tabWf_filter (t : Tab α) (p : Nat × α → Bool) (h : tabWf dflt t = true) : tabWf dflt (t.filter p) = true := by
  induction t with
  | nil => rfl
  | cons e t ih =>
    obtain ⟨i, w⟩ := e
    obtain ⟨hw, hlt, ht⟩ := (tabWf_cons i w t).1 h
    simp only [List.filter_cons]
    split
    · exact (tabWf_cons _ _ _).2 ⟨hw, fun e he => hlt e (List.mem_filter.1 he).1, ih ht⟩
    · exact ih ht

/-- Two canonical tables that read alike everywhere are equal. -/
theorem tab_ext (t u : Tab α) (ht : tabWf dflt t = true) (hu : tabWf dflt u = true)
    (h : ∀ k, tabGet dflt t k = tabGet dflt u k) : t = u := by
  induction t generalizing u with
  | nil =>
    cases u with
    | nil => rfl
    | cons e u =>
      obtain ⟨hv, -, -⟩ := (tabWf_cons e.1 e.2 u).1 hu
      have := h e.1
      simp [tabGet] at this
      exact absurd this.symm hv
  | cons e t ih =>
    obtain ⟨i, v⟩ := e
    obtain ⟨hv, hlt, ht'⟩ := (tabWf_cons i v t).1 ht
    cases u with
    | nil =>
      have := h i
      simp [tabGet] at this
      exact absurd this hv
    | cons e u =>
      obtain ⟨j, w⟩ := e
      obtain ⟨hw, hlu, hu'⟩ := (tabWf_cons j w u).1 hu
      have hij : i = j := by
        rcases lt_trichotomy i j with hl | he | hl
        · have hx := h i
          rw [tabGet_of_lt ((j, w) :: u) i (by
            intro e he
            rcases List.mem_cons.1 he with rfl | he
            · exact hl
            · exact lt_trans hl (hlu e he))] at hx
          simp [tabGet] at hx
          exact absurd hx hv
        · exact he
        · have hx := h j
          rw [tabGet_of_lt ((i, v) :: t) j (by
            intro e he
            rcases List.mem_cons.1 he with rfl | he
            · exact hl
            · exact lt_trans hl (hlt e he))] at hx
          simp [tabGet] at hx
          exact absurd hx.symm hw
      subst hij
      have hvw : v = w := by simpa [tabGet] using h i
      subst hvw
      have : t = u := ih u ht' hu' fun k => by
        by_cases hk : i = k
        · subst hk
          rw [tabGet_of_lt t i hlt, tabGet_of_lt u i hlu]
        · simpa [tabGet, hk] using h k
      rw [this]

end Sys2Proof.Machine
end

