-- ==== Sys2Proof/Laws/Parts.lean ====
section
/-! SUPPORT. What is read of a register or a component after one of them is written, and components that a write leaves alone. -/

namespace Sys2Proof.Machine

@[simp] theorem Dev.reg_setReg (d : Dev) (o p : Nat) (v : Reg) : (d.setReg o v).reg p = if p = o then v else d.reg p :=
  tabGet_set _ _ _ _

@[simp] theorem Dev.chan_setChan (d : Dev) (c k : Nat) (x : Chan) : (d.setChan c x).chan k = if k = c then x else d.chan k :=
  tabGet_set _ _ _ _

@[simp] theorem Dev.host_setHost (d : Dev) (c k : Nat) (x : HostPort) : (d.setHost c x).host k = if k = c then x else d.host k :=
  tabGet_set _ _ _ _

@[simp] theorem Dev.ring_setRing (d : Dev) (n k : Nat) (x : Ring) : (d.setRing n x).ring k = if k = n then x else d.ring k :=
  tabGet_set _ _ _ _

@[simp] theorem Dev.floe_setFloe (d : Dev) (n k : Nat) (x : Floe) : (d.setFloe n x).floe k = if k = n then x else d.floe k :=
  tabGet_set _ _ _ _

@[simp] theorem Dev.logi_setLogi (d : Dev) (n k : Nat) (x : Logical) : (d.setLogi n x).logi k = if k = n then x else d.logi k :=
  tabGet_set _ _ _ _

@[simp] theorem Dev.link_setLink (d : Dev) (n k : Nat) (x : Link) :
    (d.setLink n x).link k = if k = n then x.clocked d.clock else d.link k :=
  tabGet_set _ _ _ _

@[simp] theorem Chan.bank_setBank (c : Chan) (b k : Nat) (x : Bank) : (c.setBank b x).bank k = if k = b then x else c.bank k :=
  tabGet_set _ _ _ _

@[simp] theorem Dev.chan_setReg (d : Dev) (o : Nat) (v : Reg) (k : Nat) : (d.setReg o v).chan k = d.chan k := rfl
@[simp] theorem Dev.host_setReg (d : Dev) (o : Nat) (v : Reg) (k : Nat) : (d.setReg o v).host k = d.host k := rfl
@[simp] theorem Dev.ring_setReg (d : Dev) (o : Nat) (v : Reg) (k : Nat) : (d.setReg o v).ring k = d.ring k := rfl
@[simp] theorem Dev.floe_setReg (d : Dev) (o : Nat) (v : Reg) (k : Nat) : (d.setReg o v).floe k = d.floe k := rfl
@[simp] theorem Dev.logi_setReg (d : Dev) (o : Nat) (v : Reg) (k : Nat) : (d.setReg o v).logi k = d.logi k := rfl
@[simp] theorem Dev.link_setReg (d : Dev) (o : Nat) (v : Reg) (k : Nat) : (d.setReg o v).link k = d.link k := rfl
@[simp] theorem Dev.reg_setChan (d : Dev) (c : Nat) (x : Chan) (k : Nat) : (d.setChan c x).reg k = d.reg k := rfl
@[simp] theorem Dev.host_setChan (d : Dev) (c : Nat) (x : Chan) (k : Nat) : (d.setChan c x).host k = d.host k := rfl
@[simp] theorem Dev.ring_setChan (d : Dev) (c : Nat) (x : Chan) (k : Nat) : (d.setChan c x).ring k = d.ring k := rfl
@[simp] theorem Dev.floe_setChan (d : Dev) (c : Nat) (x : Chan) (k : Nat) : (d.setChan c x).floe k = d.floe k := rfl
@[simp] theorem Dev.logi_setChan (d : Dev) (c : Nat) (x : Chan) (k : Nat) : (d.setChan c x).logi k = d.logi k := rfl
@[simp] theorem Dev.link_setChan (d : Dev) (c : Nat) (x : Chan) (k : Nat) : (d.setChan c x).link k = d.link k := rfl
@[simp] theorem Dev.reg_setHost (d : Dev) (c : Nat) (x : HostPort) (k : Nat) : (d.setHost c x).reg k = d.reg k := rfl
@[simp] theorem Dev.chan_setHost (d : Dev) (c : Nat) (x : HostPort) (k : Nat) : (d.setHost c x).chan k = d.chan k := rfl
@[simp] theorem Dev.ring_setHost (d : Dev) (c : Nat) (x : HostPort) (k : Nat) : (d.setHost c x).ring k = d.ring k := rfl
@[simp] theorem Dev.floe_setHost (d : Dev) (c : Nat) (x : HostPort) (k : Nat) : (d.setHost c x).floe k = d.floe k := rfl
@[simp] theorem Dev.logi_setHost (d : Dev) (c : Nat) (x : HostPort) (k : Nat) : (d.setHost c x).logi k = d.logi k := rfl
@[simp] theorem Dev.link_setHost (d : Dev) (c : Nat) (x : HostPort) (k : Nat) : (d.setHost c x).link k = d.link k := rfl
@[simp] theorem Dev.reg_setRing (d : Dev) (n : Nat) (x : Ring) (k : Nat) : (d.setRing n x).reg k = d.reg k := rfl
@[simp] theorem Dev.chan_setRing (d : Dev) (n : Nat) (x : Ring) (k : Nat) : (d.setRing n x).chan k = d.chan k := rfl
@[simp] theorem Dev.host_setRing (d : Dev) (n : Nat) (x : Ring) (k : Nat) : (d.setRing n x).host k = d.host k := rfl
@[simp] theorem Dev.floe_setRing (d : Dev) (n : Nat) (x : Ring) (k : Nat) : (d.setRing n x).floe k = d.floe k := rfl
@[simp] theorem Dev.logi_setRing (d : Dev) (n : Nat) (x : Ring) (k : Nat) : (d.setRing n x).logi k = d.logi k := rfl
@[simp] theorem Dev.link_setRing (d : Dev) (n : Nat) (x : Ring) (k : Nat) : (d.setRing n x).link k = d.link k := rfl
@[simp] theorem Dev.reg_setFloe (d : Dev) (n : Nat) (x : Floe) (k : Nat) : (d.setFloe n x).reg k = d.reg k := rfl
@[simp] theorem Dev.chan_setFloe (d : Dev) (n : Nat) (x : Floe) (k : Nat) : (d.setFloe n x).chan k = d.chan k := rfl
@[simp] theorem Dev.host_setFloe (d : Dev) (n : Nat) (x : Floe) (k : Nat) : (d.setFloe n x).host k = d.host k := rfl
@[simp] theorem Dev.ring_setFloe (d : Dev) (n : Nat) (x : Floe) (k : Nat) : (d.setFloe n x).ring k = d.ring k := rfl
@[simp] theorem Dev.logi_setFloe (d : Dev) (n : Nat) (x : Floe) (k : Nat) : (d.setFloe n x).logi k = d.logi k := rfl
@[simp] theorem Dev.link_setFloe (d : Dev) (n : Nat) (x : Floe) (k : Nat) : (d.setFloe n x).link k = d.link k := rfl
@[simp] theorem Dev.reg_setLogi (d : Dev) (n : Nat) (x : Logical) (k : Nat) : (d.setLogi n x).reg k = d.reg k := rfl
@[simp] theorem Dev.chan_setLogi (d : Dev) (n : Nat) (x : Logical) (k : Nat) : (d.setLogi n x).chan k = d.chan k := rfl
@[simp] theorem Dev.host_setLogi (d : Dev) (n : Nat) (x : Logical) (k : Nat) : (d.setLogi n x).host k = d.host k := rfl
@[simp] theorem Dev.ring_setLogi (d : Dev) (n : Nat) (x : Logical) (k : Nat) : (d.setLogi n x).ring k = d.ring k := rfl
@[simp] theorem Dev.floe_setLogi (d : Dev) (n : Nat) (x : Logical) (k : Nat) : (d.setLogi n x).floe k = d.floe k := rfl
@[simp] theorem Dev.link_setLogi (d : Dev) (n : Nat) (x : Logical) (k : Nat) : (d.setLogi n x).link k = d.link k := rfl
@[simp] theorem Dev.reg_setLink (d : Dev) (n : Nat) (x : Link) (k : Nat) : (d.setLink n x).reg k = d.reg k := rfl
@[simp] theorem Dev.chan_setLink (d : Dev) (n : Nat) (x : Link) (k : Nat) : (d.setLink n x).chan k = d.chan k := rfl
@[simp] theorem Dev.host_setLink (d : Dev) (n : Nat) (x : Link) (k : Nat) : (d.setLink n x).host k = d.host k := rfl
@[simp] theorem Dev.ring_setLink (d : Dev) (n : Nat) (x : Link) (k : Nat) : (d.setLink n x).ring k = d.ring k := rfl
@[simp] theorem Dev.floe_setLink (d : Dev) (n : Nat) (x : Link) (k : Nat) : (d.setLink n x).floe k = d.floe k := rfl
@[simp] theorem Dev.logi_setLink (d : Dev) (n : Nat) (x : Link) (k : Nat) : (d.setLink n x).logi k = d.logi k := rfl

end Sys2Proof.Machine
end

