-- ==== Sys2Proof/Laws/Frame.lean ====
section
/-! SUPPORT. What a report to the moraine can change: the log itself and four of its registers. -/

namespace Sys2Proof.Machine

/-- The registers that a report may write: MOR_SEQ, CP_DEVSRC, MOR_FIRST_FATAL, MOR_STAT. -/
def reportRegs : List Nat := [rMorSeq, rCpDevsrc, rMorFatal, rMorStat]

/-- Two devices that differ in the log and its registers at most. -/
def SameButLog (d d' : Dev) : Prop :=
  (∃ c m u w, d' = { d with cs := c, mor := m, morUe := u, wins := w }) ∧ ∀ o, o ∉ reportRegs → d'.reg o = d.reg o

theorem SameButLog.refl (d : Dev) : SameButLog d d := ⟨⟨_, _, _, _, rfl⟩, fun _ _ => rfl⟩

theorem SameButLog.trans {a b c : Dev} (h : SameButLog a b) (k : SameButLog b c) : SameButLog a c := by
  obtain ⟨⟨c1, m1, u1, w1, rfl⟩, hr⟩ := h
  obtain ⟨⟨c2, m2, u2, w2, rfl⟩, kr⟩ := k
  exact ⟨⟨c2, m2, u2, w2, rfl⟩, fun o ho => (kr o ho).trans (hr o ho)⟩

theorem SameButLog.setReg (d : Dev) (o : Nat) (v : Reg) (h : o ∈ reportRegs) : SameButLog d (d.setReg o v) :=
  ⟨⟨_, _, _, _, rfl⟩, fun p hp => by
    rw [Dev.reg_setReg, if_neg]
    rintro rfl
    exact hp h⟩

theorem SameButLog.setRegBit (d : Dev) (o n : Nat) (b : Bool) (h : o ∈ reportRegs) : SameButLog d (d.setRegBit o n b) :=
  SameButLog.setReg d o _ h

theorem SameButLog.ite {p : Prop} [Decidable p] {d x y : Dev} (h : SameButLog d x) (k : SameButLog d y) :
    SameButLog d (if p then x else y) := by
  split <;> assumption

theorem Dev.morWrite_frame (d : Dev) (e : MorEvent) : SameButLog d (d.morWrite e) := by
  have h1 : ∀ m u, SameButLog d (({ d with mor := m, morUe := u } : Dev).setReg rMorSeq (d.reg rMorSeq + 1)) := fun m u =>
    SameButLog.trans ⟨⟨_, _, _, _, rfl⟩, fun _ _ => rfl⟩ (SameButLog.setReg _ _ _ (by decide))
  have h2 : ∀ x : Dev, SameButLog d x → SameButLog d
      (if fld (x.reg rMorCfg) 25 24 ≤ e.sev.toNat then x.setRegBit rCpDevsrc 29 true else x) := fun x hx =>
    SameButLog.ite (hx.trans (SameButLog.setRegBit _ _ _ _ (by decide))) hx
  have h3 : ∀ x : Dev, SameButLog d x → SameButLog d
      (if e.sev = 3 && !rbit (x.reg rMorStat) 29 then (x.setReg rMorFatal (d.reg rMorSeq)).setRegBit rMorStat 29 true else x) :=
    fun x hx => SameButLog.ite ((hx.trans (SameButLog.setReg _ _ _ (by decide))).trans (SameButLog.setRegBit _ _ _ _ (by decide))) hx
  exact h3 _ (h2 _ (h1 _ _))

theorem Dev.event_frame (d : Dev) (e : MorEvent) : SameButLog d (d.event e) := by
  unfold Dev.event
  split
  · split
    · exact ⟨⟨_, _, _, _, rfl⟩, fun _ _ => rfl⟩
    · exact SameButLog.trans (d.morWrite_frame e) ⟨⟨_, _, _, _, rfl⟩, fun _ _ => rfl⟩
  · exact d.morWrite_frame e

/-- Everything that a report can do. -/
theorem Dev.report_frame (d : Dev) (code sev ukind unit addr info : Nat) (field : Option (BitVec 4)) :
    SameButLog d (d.report code sev ukind unit addr info field) := d.event_frame _

variable (d : Dev) (a b c k e i : Nat) (f : Option (BitVec 4))

theorem Dev.report_reg (o : Nat) (h : o ∉ reportRegs) : (d.report a b c k e i f).reg o = d.reg o := (d.report_frame a b c k e i f).2 o h

@[simp] theorem Dev.report_latR : (d.report a b c k e i f).latR = d.latR := by
  obtain ⟨⟨_, _, _, _, h⟩, -⟩ := d.report_frame a b c k e i f
  rw [h]

@[simp] theorem Dev.report_latW : (d.report a b c k e i f).latW = d.latW := by
  obtain ⟨⟨_, _, _, _, h⟩, -⟩ := d.report_frame a b c k e i f
  rw [h]

@[simp] theorem Dev.report_clock : (d.report a b c k e i f).clock = d.clock := by
  obtain ⟨⟨_, _, _, _, h⟩, -⟩ := d.report_frame a b c k e i f
  rw [h]

@[simp] theorem Dev.report_timeRun : (d.report a b c k e i f).timeRun = d.timeRun := by
  obtain ⟨⟨_, _, _, _, h⟩, -⟩ := d.report_frame a b c k e i f
  rw [h]

@[simp] theorem Dev.report_time : (d.report a b c k e i f).time = d.time := by
  obtain ⟨⟨_, _, _, _, h⟩, -⟩ := d.report_frame a b c k e i f
  rw [h]

@[simp] theorem Dev.report_halfRate : (d.report a b c k e i f).halfRate = d.halfRate := by
  obtain ⟨⟨_, _, _, _, h⟩, -⟩ := d.report_frame a b c k e i f
  rw [h]

@[simp] theorem Dev.report_trimAcc : (d.report a b c k e i f).trimAcc = d.trimAcc := by
  obtain ⟨⟨_, _, _, _, h⟩, -⟩ := d.report_frame a b c k e i f
  rw [h]

@[simp] theorem Dev.report_dram : (d.report a b c k e i f).dram = d.dram := by
  obtain ⟨⟨_, _, _, _, h⟩, -⟩ := d.report_frame a b c k e i f
  rw [h]

@[simp] theorem Dev.report_ls : (d.report a b c k e i f).ls = d.ls := by
  obtain ⟨⟨_, _, _, _, h⟩, -⟩ := d.report_frame a b c k e i f
  rw [h]

@[simp] theorem Dev.report_chans : (d.report a b c k e i f).chans = d.chans := by
  obtain ⟨⟨_, _, _, _, h⟩, -⟩ := d.report_frame a b c k e i f
  rw [h]

@[simp] theorem Dev.report_hosts : (d.report a b c k e i f).hosts = d.hosts := by
  obtain ⟨⟨_, _, _, _, h⟩, -⟩ := d.report_frame a b c k e i f
  rw [h]

@[simp] theorem Dev.report_regionUe : (d.report a b c k e i f).regionUe = d.regionUe := by
  obtain ⟨⟨_, _, _, _, h⟩, -⟩ := d.report_frame a b c k e i f
  rw [h]

@[simp] theorem Dev.report_sram : (d.report a b c k e i f).sram = d.sram := by
  obtain ⟨⟨_, _, _, _, h⟩, -⟩ := d.report_frame a b c k e i f
  rw [h]

@[simp] theorem Dev.report_zeroing : (d.report a b c k e i f).zeroing = d.zeroing := by
  obtain ⟨⟨_, _, _, _, h⟩, -⟩ := d.report_frame a b c k e i f
  rw [h]

@[simp] theorem Dev.report_fuses : (d.report a b c k e i f).fuses = d.fuses := by
  obtain ⟨⟨_, _, _, _, h⟩, -⟩ := d.report_frame a b c k e i f
  rw [h]

@[simp] theorem Dev.report_flash : (d.report a b c k e i f).flash = d.flash := by
  obtain ⟨⟨_, _, _, _, h⟩, -⟩ := d.report_frame a b c k e i f
  rw [h]

@[simp] theorem Dev.report_rings : (d.report a b c k e i f).rings = d.rings := by
  obtain ⟨⟨_, _, _, _, h⟩, -⟩ := d.report_frame a b c k e i f
  rw [h]

@[simp] theorem Dev.report_cmds : (d.report a b c k e i f).cmds = d.cmds := by
  obtain ⟨⟨_, _, _, _, h⟩, -⟩ := d.report_frame a b c k e i f
  rw [h]

@[simp] theorem Dev.report_nbos : (d.report a b c k e i f).nbos = d.nbos := by
  obtain ⟨⟨_, _, _, _, h⟩, -⟩ := d.report_frame a b c k e i f
  rw [h]

@[simp] theorem Dev.report_nextNbo : (d.report a b c k e i f).nextNbo = d.nextNbo := by
  obtain ⟨⟨_, _, _, _, h⟩, -⟩ := d.report_frame a b c k e i f
  rw [h]

@[simp] theorem Dev.report_near : (d.report a b c k e i f).near = d.near := by
  obtain ⟨⟨_, _, _, _, h⟩, -⟩ := d.report_frame a b c k e i f
  rw [h]

@[simp] theorem Dev.report_bookings : (d.report a b c k e i f).bookings = d.bookings := by
  obtain ⟨⟨_, _, _, _, h⟩, -⟩ := d.report_frame a b c k e i f
  rw [h]

@[simp] theorem Dev.report_floes : (d.report a b c k e i f).floes = d.floes := by
  obtain ⟨⟨_, _, _, _, h⟩, -⟩ := d.report_frame a b c k e i f
  rw [h]

@[simp] theorem Dev.report_logical : (d.report a b c k e i f).logical = d.logical := by
  obtain ⟨⟨_, _, _, _, h⟩, -⟩ := d.report_frame a b c k e i f
  rw [h]

@[simp] theorem Dev.report_sems : (d.report a b c k e i f).sems = d.sems := by
  obtain ⟨⟨_, _, _, _, h⟩, -⟩ := d.report_frame a b c k e i f
  rw [h]

@[simp] theorem Dev.report_semPoison : (d.report a b c k e i f).semPoison = d.semPoison := by
  obtain ⟨⟨_, _, _, _, h⟩, -⟩ := d.report_frame a b c k e i f
  rw [h]

@[simp] theorem Dev.report_semQ : (d.report a b c k e i f).semQ = d.semQ := by
  obtain ⟨⟨_, _, _, _, h⟩, -⟩ := d.report_frame a b c k e i f
  rw [h]

@[simp] theorem Dev.report_links : (d.report a b c k e i f).links = d.links := by
  obtain ⟨⟨_, _, _, _, h⟩, -⟩ := d.report_frame a b c k e i f
  rw [h]

@[simp] theorem Dev.report_remotes : (d.report a b c k e i f).remotes = d.remotes := by
  obtain ⟨⟨_, _, _, _, h⟩, -⟩ := d.report_frame a b c k e i f
  rw [h]

@[simp] theorem Dev.report_group : (d.report a b c k e i f).group = d.group := by
  obtain ⟨⟨_, _, _, _, h⟩, -⟩ := d.report_frame a b c k e i f
  rw [h]

@[simp] theorem Dev.report_colls : (d.report a b c k e i f).colls = d.colls := by
  obtain ⟨⟨_, _, _, _, h⟩, -⟩ := d.report_frame a b c k e i f
  rw [h]

@[simp] theorem Dev.report_collHeld : (d.report a b c k e i f).collHeld = d.collHeld := by
  obtain ⟨⟨_, _, _, _, h⟩, -⟩ := d.report_frame a b c k e i f
  rw [h]

@[simp] theorem Dev.report_twin : (d.report a b c k e i f).twin = d.twin := by
  obtain ⟨⟨_, _, _, _, h⟩, -⟩ := d.report_frame a b c k e i f
  rw [h]

@[simp] theorem Dev.report_twinHeld : (d.report a b c k e i f).twinHeld = d.twinHeld := by
  obtain ⟨⟨_, _, _, _, h⟩, -⟩ := d.report_frame a b c k e i f
  rw [h]

@[simp] theorem Dev.report_csHeld : (d.report a b c k e i f).csHeld = d.csHeld := by
  obtain ⟨⟨_, _, _, _, h⟩, -⟩ := d.report_frame a b c k e i f
  rw [h]

@[simp] theorem Dev.report_released : (d.report a b c k e i f).released = d.released := by
  obtain ⟨⟨_, _, _, _, h⟩, -⟩ := d.report_frame a b c k e i f
  rw [h]

@[simp] theorem Dev.report_sys : (d.report a b c k e i f).sys = d.sys := by
  obtain ⟨⟨_, _, _, _, h⟩, -⟩ := d.report_frame a b c k e i f
  rw [h]

@[simp] theorem Dev.report_freeUses : (d.report a b c k e i f).freeUses = d.freeUses := by
  obtain ⟨⟨_, _, _, _, h⟩, -⟩ := d.report_frame a b c k e i f
  rw [h]

@[simp] theorem Dev.report_chan_at (n : Nat) : (d.report a b c k e i f).chan n = d.chan n := by
  simp only [Dev.chan, Dev.report_chans]

@[simp] theorem Dev.report_host_at (n : Nat) : (d.report a b c k e i f).host n = d.host n := by
  simp only [Dev.host, Dev.report_hosts]

@[simp] theorem Dev.report_ring_at (n : Nat) : (d.report a b c k e i f).ring n = d.ring n := by
  simp only [Dev.ring, Dev.report_rings]

@[simp] theorem Dev.report_floe_at (n : Nat) : (d.report a b c k e i f).floe n = d.floe n := by
  simp only [Dev.floe, Dev.report_floes]

@[simp] theorem Dev.report_logi_at (n : Nat) : (d.report a b c k e i f).logi n = d.logi n := by
  simp only [Dev.logi, Dev.report_logical]

@[simp] theorem Dev.report_link_at (n : Nat) : (d.report a b c k e i f).link n = d.link n := by
  simp only [Dev.link, Dev.report_links]

end Sys2Proof.Machine
end

