-- ==== Sys2Proof/Laws/Host.lean ====
section
/-! SUPPORT. What a host channel's queue of beats does (R60, R64, R67), and when a command runs. -/

namespace Sys2Proof.Machine

/-- A command whose meaning is an effect on the device runs, and leaves that effect. -/
theorem runs_of (i : Instr) (s : State) (P : Dev → Prop) (f : Dev → Dev) (h : exec i s = s.does f) (hp : P (f s.dev).settle) :
    Runs i s P := ⟨_, h, rfl, hp⟩

/-- The same for a command that needs the clocks. -/
theorem runs_live (i : Instr) (s : State) (P : Dev → Prop) (f : Dev → Dev) (h : exec i s = s.does fun d => d.inService f)
    (hl : s.dev.sys.phase.live = true) (hp : P (f s.dev).settle) : Runs i s P :=
  runs_of i s P _ h (by simpa [Dev.inService, hl] using hp)

/-- Driving beats moves them from the queue to those sent, and changes nothing else of the channel but its next RSEQ and the tags. -/
theorem HostPort.drain_frame (n : Nat) (h : HostPort) :
    ∃ k r q t, h.drain n = { h with held := k, nextRseq := r, outq := q, tags := t } ∧ (h.drain n).beats = h.beats := by
  induction n generalizing h with
  | zero => exact ⟨_, _, _, _, rfl, rfl⟩
  | succ n ih =>
    unfold HostPort.drain
    split
    · exact ⟨_, _, _, _, rfl, rfl⟩
    · rename_i b rest ho
      split
      · exact ⟨_, _, _, _, rfl, rfl⟩
      · obtain ⟨k, r, q, t, he, hb⟩ := ih { h with
          outq := rest, nextRseq := h.nextRseq + 1, tags := tagsAfter b.info h.tags
          held := h.held ++ [{ rseq := h.nextRseq, info := b.info, data := b.data, crc := beatCrc h.nextRseq b.info b.data }] }
        refine ⟨k, r, q, t, he, hb.trans ?_⟩
        simp [HostPort.beats, ho]

/-- Queueing a beat that is no class-0 data beat appends it, unless the channel is down. -/
theorem HostPort.send_frame (h : HostPort) (i : BitVec 16) (x : Line) :
    ∃ k r q t, h.send i x = { h with held := k, nextRseq := r, outq := q, tags := t }
      ∧ (h.send i x).beats = if h.down then h.beats else h.beats ++ [(i, x)] := by
  by_cases hd : h.down = true
  · exact ⟨h.held, h.nextRseq, h.outq, h.tags, by unfold HostPort.send; rw [if_pos hd], by simp [HostPort.send, hd]⟩
  · let g : HostPort := { h with outq := h.outq ++ [{ c0 := false, info := i, data := x }] }
    obtain ⟨k, r, q, t, he, hb⟩ := HostPort.drain_frame g.outq.length g
    by_cases hu : h.up = true
    · have hs : h.send i x = g.drain g.outq.length := by
        simp only [HostPort.send, hd, hu, if_true, if_false, Bool.false_eq_true, g]
      refine ⟨k, r, q, t, hs.trans he, ?_⟩
      rw [hs, hb]
      simp [HostPort.beats, hd, g]
    · exact ⟨h.held, h.nextRseq, g.outq, h.tags, by simp [HostPort.send, hd, hu, g], by simp [HostPort.send, hd, hu, HostPort.beats]⟩

end Sys2Proof.Machine
end

