-- ==== Sys2Proof/Laws/Mem.lean ====
section
/-! SUPPORT. Laws of the memories under the code: every operation keeps the canonical form, and what bytes and syndromes read
after a write. -/

namespace Sys2Proof.Machine

theorem EccMem.wf_iff (m : EccMem) :
    m.wf = true ↔ tabWf (fun _ => (0 : BitVec 8)) m.bytes = true ∧ tabWf (fun _ => (0 : BitVec 8)) m.synd = true := by
  simp [EccMem.wf]

theorem EccMem.putByte_wf (m : EccMem) (a : Nat) (b : BitVec 8) (h : m.wf = true) : (m.putByte a b).wf = true := by
  rw [EccMem.wf_iff] at *
  exact ⟨tabWf_set _ _ _ h.1, h.2⟩

theorem EccMem.putSynd_wf (m : EccMem) (w : Nat) (s : BitVec 8) (h : m.wf = true) : (m.putSynd w s).wf = true := by
  rw [EccMem.wf_iff] at *
  exact ⟨h.1, tabWf_set _ _ _ h.2⟩

theorem EccMem.putBytes_wf (m : EccMem) (a : Nat) (bs : List (BitVec 8)) (h : m.wf = true) : (m.putBytes a bs).wf = true := by
  induction bs generalizing m a with
  | nil => exact h
  | cons b bs ih => exact ih _ _ (m.putByte_wf a b h)

theorem EccMem.writeWord_wf (m : EccMem) (n : Nat) (d : Line) (marks : BitVec 8) (h : m.wf = true) :
    (m.writeWord n d marks).wf = true := by
  unfold EccMem.writeWord
  generalize m.putBytes (64 * n) (lineBytes d) = m', m.putBytes_wf (64 * n) (lineBytes d) h = h'
  generalize List.range 8 = l
  induction l generalizing m' with
  | nil => exact h'
  | cons i l ih => exact ih _ (m'.putSynd_wf _ _ h')

theorem EccMem.zero_wf (m : EccMem) (a n : Nat) (h : m.wf = true) : (m.zero a n).wf = true := by
  rw [EccMem.wf_iff] at *
  exact ⟨tabWf_filter _ _ h.1, tabWf_filter _ _ h.2⟩

/-- A byte after one byte is stored. -/
theorem EccMem.byte_putByte (m : EccMem) (a x : Nat) (b : BitVec 8) :
    (m.putByte a b).byte x = if x = a then b else m.byte x :=
  tabGet_set _ _ _ _

@[simp] theorem EccMem.byte_putSynd (m : EccMem) (w x : Nat) (s : BitVec 8) : (m.putSynd w s).byte x = m.byte x := rfl
@[simp] theorem EccMem.syndrome_putByte (m : EccMem) (a w : Nat) (b : BitVec 8) : (m.putByte a b).syndrome w = m.syndrome w := rfl

theorem EccMem.syndrome_putSynd (m : EccMem) (w x : Nat) (s : BitVec 8) :
    (m.putSynd w s).syndrome x = if x = w then s else m.syndrome x :=
  tabGet_set _ _ _ _

/-- Bytes outside a stored range read as before. -/
theorem EccMem.byte_putBytes_of_out (m : EccMem) (a x : Nat) (bs : List (BitVec 8))
    (hx : x < a ∨ a + bs.length ≤ x) : (m.putBytes a bs).byte x = m.byte x := by
  induction bs generalizing m a with
  | nil => rfl
  | cons b bs ih =>
    simp only [List.length_cons] at hx
    rw [EccMem.putBytes, ih _ _ (by omega), m.byte_putByte a x b, if_neg (by omega)]

@[simp] theorem EccMem.syndrome_putBytes (m : EccMem) (a w : Nat) (bs : List (BitVec 8)) :
    (m.putBytes a bs).syndrome w = m.syndrome w := by
  induction bs generalizing m a with
  | nil => rfl
  | cons b bs ih => rw [EccMem.putBytes, ih, EccMem.syndrome_putByte]

/-- A byte inside a stored range reads as stored. -/
theorem EccMem.byte_putBytes_of_in (m : EccMem) (a i : Nat) (bs : List (BitVec 8)) (hi : i < bs.length) :
    (m.putBytes a bs).byte (a + i) = bs[i] := by
  induction bs generalizing m a i with
  | nil => simp at hi
  | cons b bs ih =>
    rw [EccMem.putBytes]
    cases i with
    | zero =>
      rw [EccMem.byte_putBytes_of_out _ _ _ _ (by omega), m.byte_putByte _ _ _]
      simp
    | succ i =>
      have := ih (m.putByte a b) (a + 1) i (by simpa using hi)
      rw [show a + (i + 1) = a + 1 + i by omega, this]
      simp

theorem Memory.wf_iff (d : Dev) : Memory.wf d = true ↔
    d.dram.wf = true ∧ d.ls.wf = true ∧ tabWf (fun _ => (0xFF : BitVec 8)) d.flash = true := by
  simp [Memory.wf, and_assoc]

theorem reset_memory_wf : Memory.wf State.reset.dev = true := by decide

end Sys2Proof.Machine
end

