-- ==== Sys2Proof/Tests/Slice0.lean ====
section
/-! SUPPORT. The tests: an ill-formed term for each check of `Instr.wf`; small tests of single steps against values worked out by
hand from the rules; and for each statement of `Obligations.lean` that has hypotheses, theorems that show states and operands
which meet them (the first component of a pair, or the first conjunct), with what its conclusion says there (the second).
The kernel evaluates each. -/

namespace Sys2Proof.Tests

set_option synthInstance.maxSize 20000
set_option synthInstance.maxHeartbeats 2000000
set_option maxHeartbeats 4000000
set_option maxRecDepth 20000
set_option Elab.async false

open Sys2Proof Sys2Proof.Machine Sys2Proof.Claims

/-- The hypotheses hold, and so does the conclusion, at every one of these states. -/
def ok (l : List (Bool × Bool)) : Bool := l.all fun p => p.1 && p.2

/-- The hypotheses hold at every one of these states. -/
def okHyp (l : List (Bool × Bool)) : Bool := l.all fun p => p.1

/-- Hypotheses and conclusion hold, each case under a name. -/
def okNamed (l : List (String × Bool × Bool)) : Bool := l.all fun p => p.2.1 && p.2.2

/-- A running device, with nothing else changed from power-on. -/
def live (f : Dev → Dev) : State := { dev := f { Dev.init with sys := { Sys.init with phase := .running } }, pending := [] }

/-- The device after a command. -/
def after (i : Instr) (s : State) : Dev := match exec i s with
  | .next t => t.dev
  | _ => s.dev

/-- A host channel in service, with the credits it has after training. -/
def upHost (h : HostPort) : HostPort := { h with up := true, rqGiven := 128, wdGiven := 512 }

/-- Every channel ready, every host channel up, regions 0 and 1 leased to field 0, drift 0 its own, host source 0 mapped to it. -/
def world (d : Dev) : Dev :=
  let d := { d with chans := (List.range 32).map fun c => (c, { Chan.init with ready := true })
                    hosts := (List.range 32).map fun c => (c, upHost HostPort.init), timeRun := true, time := 5000, clock := 10000 }
  [(rCpStat, 0x80000000), (rRegion 0, 0x80600000), (rRegion 1, 0x80600000), (rDriftField 0, 0x80000000), (rHst 0 0, 0x80),
   (rCpTimeout, 10), (rSemOwn 0, 0x80808080)].foldl (fun d p => d.setReg p.1 p.2) d

/-- A running device with that world. -/
def mem (f : Dev → Dev) : State := live fun d => f (world d)

/-- A secure host agent on channel 3. -/
def agS : Agent := { kind := 0, ch := 3, srcid := 0, secure := true, dev := 0, field := 0 }

/-- The command has ended with this status and these results. -/
def ended (d : Dev) (n : Nat) (i : BitVec 32) (st : BitVec 8) (r0 r1 : Nat) : Bool := match d.cmd n i with
  | some c => c.done == some { status := st, r0 := BitVec.ofNat 64 r0, r1 := BitVec.ofNat 64 r1 }
  | none => false

/-- The command runs, with this opcode. -/
def started (d : Dev) (n : Fin 1024) (i : BitVec 32) (op : Nat) (c : Cmd) : Bool :=
  d.sys.phase.live == true && d.cmd n i == some c && c.opcode == op && c.done == none && c.timedOut == false

/-- Command 0 of ring 1, of field 0, just fetched. -/
def c0 : Cmd :=
  { ring := 1, idx := 0, packet := 0, field := 0, secure := false, begun := false, since := 0, pos := 0, count := 0
    firstErr := none, timedOut := false, nboWaits := [], entryWaits := [], floes := [], halted := none, frozen := none, awaits := [], posted := false
    buffer := [], done := none }

/-- A word that a sender's read of this device address has brought (R127, R137). -/
def ready (o : Origin) (a : Nat) (x : Line) (poison : Bool) (d : Dev) : Dev := d.updChan (d.place a).ch fun ch =>
  { ch with readyQ := ch.readyQ ++
      [{ origin := o, word := d.wordOf a, cls := 1, index := 0, data := x, poison := poison, since := 0 }] }

/-- A code word with CWSEQ 0 whose flit slot 0 begins a packet (R397). -/
def cw : CodeWord := { header := 0x100A, fixed := 0 }

/-- A command packet of an opcode, with ticket 1, no semaphore, and these argument bytes. -/
def pk (op : Nat) (args : Nat) : Line := BitVec.ofNat 512 (1 + op * 2 ^ 32 + 0xFFFF * 2 ^ 64 + args * 2 ^ 128)

/-- An argument at byte `k` of its packet. -/
def a (k v : Nat) : Nat := v * 2 ^ (8 * (k - 16))

/-- A device on which ring 1 runs one command. -/
def withC (c : Cmd) (f : Dev → Dev := id) : State := mem fun d =>
  f { d.setRing 1 { Ring.init with state := 1, log2 := 4, base := 0x1000, cpl := 0x2000, hist := 0x20000, tail := 1, head := 1 } with cmds := [c] }

/-! ### Ill-formed terms are refused -/

theorem test_wf_op : [Instr.hostRd 0 2 0, .hostWr 0 3 0 [], .hostWrm 0 1 0 0 0 [], .hostIdleFrame 0 1 0, .hostLinkFrame 0 15 0,
    .hostTrainFrame 0 14 0, .hostReservedOpFrame 0 3 0, .hostReservedOpFrame 0 14 0].all (fun i => !i.wf) = true := by decide

theorem test_wf_beats : (Instr.wf (.hostWr 0 2 0 (List.replicate 5 { info := 0, data := 0, crc := 0 })) ||
    Instr.wf (.hostWrm 0 3 0 0 0 (List.replicate 5 { info := 0, data := 0, crc := 0 }))) = false := by decide

theorem test_wf_words : (Instr.wf (.copy 0 0 0) || Instr.wf (.fill 0 0 0)) = false := by decide

theorem test_wf_register : (Instr.wf (.registerWrite agS 0x102 0) || Instr.wf (.registerWrite agS 0x103 0)) = false := by decide

theorem test_wf_compare : (Instr.wf (.cmp 0 0 0 true 0 1) || Instr.wf (.cmp 0 0 0 false 1 0)) = false := by decide

theorem test_wf_packet : [Instr.peerRd 0 cw 2, .peerWr 0 cw 3 0, .peerWrm 0 cw 1 0, .mirrorStreamItem 0 cw 1 0, .rspData 0 cw 6 0, .rspStatus 0 cw 5,
    .collContribution 0 cw 9 0, .linkPacket 0 cw 9].all (fun i => !i.wf) = true := by decide

theorem test_wf_subtype : [Instr.mgmtHello 0 cw 9 0, .mgmtJoin 0 cw 9 0, .mgmtAdmit 0 cw 9 0, .mgmtRefuse 0 cw 9 0, .mgmtTwinNotice 0 cw 9 0,
    .mgmtMembers 0 cw 9 0, .mgmtLeave 0 cw 9 0, .mgmtTime 0 cw 9 0, .mgmtRealign 0 cw 9 0, .mgmtAligned 0 cw 9 0, .mgmtStaged 0 cw 9 0,
    .mgmtCommit 0 cw 9 0, .mgmtAbort 0 cw 9 0, .mgmtFence 0 cw 9 0, .mgmtResetReq 0 cw 9 0, .mgmtAlive 0 cw 9 0].all (fun i => !i.wf) = true := by
  decide

theorem test_wf_window : (Instr.wf (.relayWindowAccess agS 0 32 0 0 0 0 0) || Instr.wf (.relayWindowAccess agS 0 64 3 0 0 0 0)) = false := by
  decide

theorem test_wf_lists : (Instr.wf (.wrapIr (List.replicate 18 0)) || Instr.wf (.sensorConversion [] []) ||
    Instr.wf (.sensorConversion (List.replicate 16 0) []) || Instr.wf (.monProcCountEnd []) ||
    Instr.wf (.periodicRetrain 0 (List.replicate 38 { centre := 0, eye := 0 })) || Instr.wf (.fullRetrain 0 true (List.replicate 40 { centre := 0, eye := 0 }))) = false := by
  decide

/-- Well-formed terms of the same rows are let through. -/
theorem test_wf_accepts : [Instr.hostRd 0 1 0, .hostReservedOpFrame 0 4 0, .hostReservedOpFrame 0 13 0, .copy 0 0 1,
    .registerWrite agS 0x104 0, .cmp 0 0 0 true 1 0, .cmp 0 0 0 false 0 1, .peerRd 0 cw 1, .relayWindowAccess agS 0 64 2 0 0 0 0,
    .mgmtHello 0 cw (BitVec.ofNat 256 (9 + 2 ^ 160)) 0, .monProcCountEnd (List.replicate 9 0)].all Instr.wf = true := by decide

/-! ### Values the spec works out -/

/-- The check value of R65: the CRC of the ASCII string "123456789". -/
theorem test_crc16 : crc16 [0x31, 0x32, 0x33, 0x34, 0x35, 0x36, 0x37, 0x38, 0x39] = 0x29B1 := by decide +kernel

/-- The check value of R401. -/
theorem test_crc32c : crc32c [0x31, 0x32, 0x33, 0x34, 0x35, 0x36, 0x37, 0x38, 0x39] = 0xE3069283 := by decide +kernel

/-- The places of the GEMV and embedding-bag examples of 06_near_bank_in_service.md, under ORD3. -/
theorem test_ord3 : (decodeAddr (some 3) 8 0x3CA0FE404 = { ch := 7, bank := 37, row := 1017, w := 0, byte := 4 } ∧
    decodeAddr (some 3) 8 0x3800FE414 = { ch := 7, bank := 0, row := 1017, w := 0, byte := 20 } ∧
    encodeAddr (some 3) 8 { ch := 12, bank := 9, row := 2048, w := 0, byte := 0 } = 0x612200000) := by decide +kernel

/-- The descriptor of bank 37 in the GEMV example, word by word. -/
theorem test_nboDesc : (let d := nboDesc (BitVec.ofNat 512 (0x00782083 + 0x00012CA7 * 2 ^ 32 + 0x000F03E8 * 2 ^ 64 + 0x1E0 * 2 ^ 96 +
      0x3F9 * 2 ^ 128 + 0x3F8 * 2 ^ 192))
    [d.op, d.fmt, d.firnSrc, d.firnN, d.ch, d.bank, d.bankEnd, d.rowFirst, d.rowCount, d.colFirst, d.colCount, d.drow, d.dcol, d.frow,
      d.fbank, d.fword] = [3, 2, 2, 7, 7, 37, 37, 1000, 16, 0, 16, 1017, 0, 1016, 0, 0] ∧ d.perRow = true ∧ d.resOk = true) := by
  decide +kernel

/-- The sums of the two examples: 16 products of 1.0 and 0.5, folded over 16 lanes; 1.0 + 0.5 + 0.25 − 2.0. -/
theorem test_fp32_sums : accFp false 0 (List.replicate 256 ((fFP32.dec 0x3F800000).mul (fFP32.dec 0x3F000000))) = 0x43000000 ∧
    accFp false 0x3F800000 [fFP32.dec 0x3F000000] = 0x3FC00000 ∧ accFp false 0x3FE00000 [fFP32.dec 0xC0000000] = 0xBE800000 := by
  decide +kernel

/-- A step on an empty queue lets one cycle pass. -/
theorem test_step_idle : (match step (live id) with | .next t => decide (t.dev.clock = (live id).dev.clock + 1) | _ => false) = true := by
  decide +kernel

/-! ### Host channels -/

namespace Ports

def hostUp (f : HostPort → HostPort) (c : Nat) (d : Dev) : Dev := d.setHost c (f (upHost HostPort.init))

def crcOf (b : BitVec 64) : BitVec 16 := crc16 (toLe 8 b.toNat)

def s1 : State := live (hostUp id 3)

/-- `NextFrame`, as a Bool. -/
def nextFrame (d : Dev) (c : Nat) (f : FrameIn) : Bool :=
  d.sys.phase.live && (d.host c).up && !(d.host c).down && (d.host c).waiting == none
    && f.crc == crc16 (toLe 8 f.body.toNat) && (frameF f.body).seq == (d.host c).expSeq
    && (d.host c).rqGiven != (d.host c).rqUsed && decide ((frameF f.body).words ≤ ((d.host c).wdGiven - (d.host c).wdUsed).toNat)
    && f.partsOk == some true

/-- `Accepted`, as a Bool. -/
def accepted (d d' : Dev) (c : Nat) (f : FrameIn) : Bool :=
  decide ((d'.host c).expSeq = (d.host c).expSeq + 1 ∧ (d'.host c).rqUsed = (d.host c).rqUsed + 1
    ∧ (d'.host c).wdUsed = (d.host c).wdUsed + BitVec.ofNat 16 (frameF f.body).words ∧ (d'.host c).unacked = (d.host c).unacked + 1)

/-- A frame without data, with its CRC. -/
def fin (b : BitVec 64) : FrameIn := { body := b, crc := crcOf b, mask := 0, maskCrc := 0, beats := [] }

def bad : BitVec 64 := 0x0000001000000004   -- op 4

/-- Witness of `Obligations.HostOtherFrames`: opcode 4. -/
theorem witness_HostOtherFrames_op4 : (decide (4 ≤ (frameF bad).op ∧ (frameF bad).op ≤ 13 ∧ nextFrame s1.dev 3 (fin bad) = true) &&
    decide (let d := after (.hostReservedOpFrame 3 bad (crcOf bad)) s1
  accepted s1.dev d 3 (fin bad) = true ∧ (d.host 3).beats = (s1.dev.host 3).beats ++ [(BitVec.ofNat 16 (1 + (frameF bad).tag.toNat * 4),
      statusData (hostTag 3 (frameF bad)) 6)]
           ∧ rbit (d.reg (rHpErr 3)) 26 = true ∧ d.dram = s1.dev.dram ∧ d.chans = s1.dev.chans)) = true := by decide +kernel

def badD : BitVec 64 := 0xFFFFFFFFFFFFF00D   -- op 13, boundary

/-- Witness of `Obligations.HostOtherFrames`: opcode 13. -/
theorem witness_HostOtherFrames_op13 : (decide (4 ≤ (frameF badD).op ∧ (frameF badD).op ≤ 13 ∧ nextFrame s1.dev 3 (fin badD) = true) &&
    decide (let d := after (.hostReservedOpFrame 3 badD (crcOf badD)) s1
  accepted s1.dev d 3 (fin badD) = true ∧ (d.host 3).beats = (s1.dev.host 3).beats ++ [(BitVec.ofNat 16 (1 + (frameF badD).tag.toNat * 4),
      statusData (hostTag 3 (frameF badD)) 6)]
           ∧ rbit (d.reg (rHpErr 3)) 26 = true ∧ d.dram = s1.dev.dram ∧ d.chans = s1.dev.chans)) = true := by decide +kernel

/-- Witness of `Obligations.HostOtherFrames`: IDLE. -/
theorem witness_HostOtherFrames_idle : (decide (unseqOk 0 = true ∧ (frameF 0).op = 0) &&
    decide (after (.hostIdleFrame 3 0 (crcOf 0)) s1 = s1.dev.settle)) = true := by decide +kernel

def held3 : List DevBeat := [{ rseq := 0, info := 2, data := 5, crc := 0 }, { rseq := 1, info := 3, data := 6, crc := 0 }]

def s2 : State := live (hostUp (fun h => { h with held := held3, nextRseq := 2, unacked := 5 }) 3)

def s2q : State := live (hostUp (fun h => { h with held := held3, nextRseq := 2, unacked := 5, outq := [{ c0 := false, info := 1, data := 7 }], replay := true, rounds := 2, pauseFrom := some 0 }) 3)

def lk : BitVec 64 := 0x000E  -- rack 0

def lk1 : BitVec 64 := 0x100E  -- rack 0, rnak

def linkC (s : State) (b : BitVec 64) : Bool :=
  let d := after (.hostLinkFrame 3 b (crcOf b)) s
  let h := s.dev.host 3
  let rack := BitVec.ofNat 8 (bits b.toNat 11 4)
  decide ((d.host 3).lastRack = rack ∧ (d.host 3).expSeq = h.expSeq ∧ (d.host 3).replay = bit b.toNat 12 ∧
           (d.host 3).beats = ((h.held.filter fun b => !decide ((rack - b.rseq).toNat < 128)).map fun b => (b.info, b.data)) ++ h.outq.map fun b => (b.info, b.data))

/-- Witness of `Obligations.HostOtherFrames`: LINK. -/
theorem witness_HostOtherFrames_link : (decide (unseqOk lk = true ∧ (frameF lk).op = 14) && decide (linkC s2 lk = true ∧
    linkC s2q lk = true)) = true := by decide +kernel

/-- Witness of `Obligations.HostOtherFrames`: LINK with RNAK. -/
theorem witness_HostOtherFrames_linkRnak : (decide (unseqOk lk1 = true ∧ (frameF lk1).op = 14) && decide (linkC s2 lk1 = true ∧
    linkC s2q lk1 = true)) = true := by decide +kernel

def tr : BitVec 64 := 0xA5C35AA53C96001F

/-- Witness of `Obligations.HostOtherFrames`: TRAIN. -/
theorem witness_HostOtherFrames_train : (decide (unseqOk tr = true ∧ (frameF tr).op = 15 ∧ bits tr.toNat 7 4 = 1) &&
    decide (let h := s2.dev.host 3; let d := after (.hostTrainFrame 3 tr (crcOf tr)) s2
  (d.host 3).up = false ∧ (d.host 3).training = some .service ∧ (d.host 3).attempts = 0 ∧
           (d.host 3).expSeq = h.expSeq ∧ (d.host 3).beats = h.beats)) = true := by decide +kernel
-- memory

def mem (f : Dev → Dev) : State := live fun d => f (((((hostUp id 0 d).setReg (rHst 0 0) 0x80).setReg (rRegion 0) 0x80600000).setReg rCpStat 0x80000000).updChan 0 fun c => { c with ready := true })

def rdb (len : Nat) : BitVec 64 := BitVec.ofNat 64 (1 + len * 2 ^ 12 + 5 * 2 ^ 23)

def wrb (len : Nat) : BitVec 64 := BitVec.ofNat 64 (2 + len * 2 ^ 12)

def wmb : BitVec 64 := 3

def beat (seq : BitVec 8) (k : Nat) (x : Line) : HostBeat :=
  let i := BitVec.ofNat 16 (seq.toNat + 256 * k)
  { info := i, data := x, crc := crc16 (toLe 2 i.toNat ++ lineBytes x) }

def sm : State := mem id

def EntersB (d d' : Dev) (c : Fin 32) (f : FrameIn) : Bool :=
  let x := frameF f.body
  decide (accepted d d' c f = true
    ∧ (d'.chan (d.place x.addr).ch).hostIn = (d.chan (d.place x.addr).ch).hostIn ++
        [({ origin := .host (hostTag c x), write := x.isWrite, masked := x.op == 3, addr := BitVec.ofNat 36 x.addr, len := x.len, cls := x.cls, field := d.hstField c x.srcid.toNat, secure := x.world, mask := f.mask, data := f.words, poison := false, since := d.clock, words := (List.range (x.len.toNat + 1)).map fun i => d.wordOf (x.addr + 64 * i), arr := (d.chan (d.place x.addr).ch).nextId } : PortReq)]
    ∧ ((List.range 40).all fun k => k == (d.place x.addr).ch || d'.chan k == d.chan k) = true ∧
        ((List.range 40).all fun k => k == c.val || d'.host k == d.host k) = true
    ∧ d' = ({ d with chans := d'.chans, hosts := d'.hosts } : Dev).settle)

def memOk (b : BitVec 64) : Bool := badRequest (frameF b) = false && decide ((frameF b).addr < 2 ^ 36) && sm.dev.memStatus 0 (frameF b) == 0

/-- Witness of `Obligations.HostFrameEntersMemory`: RD. -/
theorem witness_HostFrameEntersMemory_rd : (decide (memOk (rdb 3) = true ∧ nextFrame sm.dev 0 (fin (rdb 3)) = true) &&
    decide (let d := after (.hostRd 0 (rdb 3) (crcOf (rdb 3))) sm; EntersB sm.dev d 0 (fin (rdb 3)) = true ∧
    (d.host 0).inError = false)) = true := by decide +kernel

def bts : List HostBeat := [beat 0 0 7, beat 0 1 9]

def fw : FrameIn := { fin (wrb 1) with beats := bts }

/-- Witness of `Obligations.HostFrameEntersMemory`: WR. -/
theorem witness_HostFrameEntersMemory_wr : (decide (memOk (wrb 1) = true ∧ nextFrame sm.dev 0 fw = true) &&
    decide (let d := after (.hostWr 0 (wrb 1) (crcOf (wrb 1)) bts) sm; EntersB sm.dev d 0 fw = true ∧
    (d.host 0).inError = false)) = true := by decide +kernel

def mk : BitVec 64 := 0xFF00

def mkc : BitVec 16 := crc16 (toLe 1 0 ++ toLe 8 mk.toNat)

def fm : FrameIn := { body := wmb, crc := crcOf wmb, mask := mk, maskCrc := mkc, beats := [beat 0 0 7] }

/-- Witness of `Obligations.HostFrameEntersMemory`: WRM. -/
theorem witness_HostFrameEntersMemory_wrm : (decide (memOk wmb = true ∧ nextFrame sm.dev 0 fm = true) &&
    decide (let d := after (.hostWrm 0 wmb (crcOf wmb) mk mkc [beat 0 0 7]) sm; EntersB sm.dev d 0 fm = true ∧
    (d.host 0).inError = false)) = true := by decide +kernel

def fw1 : FrameIn := { fin (wrb 1) with beats := [beat 0 0 7] }

def smw : State := mem fun d => d.updHost 0 fun h => { h with waiting := some fw1 }

/-- Witness of `Obligations.HostFrameEntersMemory`: the last write beat. -/
theorem witness_HostFrameEntersMemory_beat : (decide ((smw.dev.host 0).waiting = some fw1 ∧ (smw.dev.host 0).behind = [] ∧
    fw.partsOk = some true ∧ smw.dev.memStatus 0 (frameF (wrb 1)) = 0) && decide (let d := after (.hostWriteBeat 0 (beat 0 1 9)) smw;
    EntersB smw.dev d 0 fw = true ∧ (d.host 0).waiting = none)) = true := by decide +kernel
-- beats

def sb1 : State := live (hostUp (fun h => { h with unacked := 3, rqFreed := 2, wdFreed := 4, held := held3, nextRseq := 2 }) 3)

/-- Witness of `Obligations.HostBeatsGoOut`: the acknowledgement timer. -/
theorem witness_HostBeatsGoOut_ack : (decide ((sb1.dev.host 3).unacked ≠ 0) && decide (let d := after (.hostAckTimer 3) sb1;
    let h := sb1.dev.host 3
  (d.host 3).unacked = 0 ∧ (d.host 3).beats = h.beats ++ [linkBeatOf h false h.askTrain] ∧
        (h.unacked < 32 → h.unackedSince + 80 ≤ d.clock))) = true := by decide +kernel

/-- Witness of `Obligations.HostBeatsGoOut`: credits. -/
theorem witness_HostBeatsGoOut_credit : decide (let d := after (.hostCreditReturn 3) sb1; let h := sb1.dev.host 3
   (d.host 3).rqFreed = 0 ∧ (d.host 3).wdFreed = 0 ∧ (d.host 3).rqGiven = h.rqGiven + BitVec.ofNat 16 h.rqFreed ∧
        (d.host 3).wdGiven = h.wdGiven + BitVec.ofNat 16 h.wdFreed ∧
        (d.host 3).beats = h.beats ++ [linkBeatOf h false h.askTrain]) = true := by decide +kernel

def tg : HostTag := { ch := 3, srcid := 0, tag := 9, seq := 0, op := 1, len := 0, waddr := 0 }

def rw : ReadyWord := { origin := .host tg, word := 0, cls := 0, index := 1, data := 77, poison := true, since := 0 }

def srd : State := live fun d => (hostUp (fun h => { h with tags := [(9, 2)] }) 3 d).updChan 5 fun c => { c with readyQ := [rw] }

/-- Witness of `Obligations.HostBeatsGoOut`: read data. -/
theorem witness_HostBeatsGoOut_read : (decide (nextReady (srd.dev.chan 5).readyQ = some (0, rw)) &&
    decide (let d := after (.hostReadDataReturn 5) srd; let h := srd.dev.host 3
   (d.chan 5).readyQ = dropAt (srd.dev.chan 5).readyQ 0 ∧ (d.host 3).beats = h.beats ++
          [(BitVec.ofNat 16 (9 * 4 + 1 * 2 ^ 11 + (if rw.poison then 2 ^ 13 else 0)), rw.data)])) = true := by decide +kernel
-- errors

def corrC (cause : Fin 3) : Bool := let s := sb1; let h := s.dev.host 3; let d := after (.corruptFrame 3 cause) s
  decide ((d.host 3).inError = true ∧ (d.host 3).nakTime = some s.dev.clock ∧ (d.host 3).expSeq = h.expSeq ∧
        (d.host 3).beats = h.beats ++ [linkBeatOf h true h.askTrain] ∧
        d.reg64 (rHpCrc 3) = s.dev.reg64 (rHpCrc 3) + 1 ∧ (cause = 1 → rbit (d.reg (rHpErr 3)) 28 = true) ∧
        (cause = 2 → rbit (d.reg (rHpErr 3)) 29 = true) ∧ d.chans = s.dev.chans ∧ d.dram = s.dev.dram)

/-- Witness of `Obligations.HostChannelErrors`: corrupt frames of each kind. -/
theorem witness_HostChannelErrors_corrupt : decide (corrC 0 = true ∧ corrC 1 = true ∧ corrC 2 = true) = true := by decide +kernel

def slf (n m : Nat) : State := live (hostUp (fun h => { h with rounds := n, rnaks := m, held := held3 }) 3)

/-- Witness of `Obligations.HostChannelErrors`: a ninth error in a row. -/
theorem witness_HostChannelErrors_ninth : ([0, 1, 2].all fun cause => let s := slf 8 0; let h := s.dev.host 3
    let d := after (.corruptFrame 3 cause) s
    decide ((d.host 3).rounds = 9 ∧ (d.host 3).beats = h.beats ∧ (d.host 3).expSeq = h.expSeq)) = true := by decide +kernel

/-- Witness of `Obligations.HostChannelErrors`: eight failed rounds, of NAK or of RNAK. -/
theorem witness_HostChannelErrors_fail : ([slf 9 0, slf 0 9].all fun s => decide (let h := s.dev.host 3; let d := after (.hostLinkFail 3) s
   (d.host 3).up = false ∧ (d.host 3).training = some .linkFail ∧ (d.host 3).expSeq = h.expSeq ∧ (d.host 3).beats = h.beats ∧
        rbit (d.reg (rHpErr 3)) 31 = true ∧ rbit (d.reg rCpDevsrc) 31 = true)) = true := by decide +kernel

def stt (cause : TrainCause) (att : Nat) : State := live fun d => d.setHost 3 { HostPort.init with training := some cause, attempts := att, held := held3, expSeq := 7 }

def trC (cause : TrainCause) (att : Nat) (ok : BitVec 68) (completed : Bool) : Bool :=
  let s := stt cause att; let h := s.dev.host 3; let d := after (.hostTrainingAttempt 3 ok completed 1) s
  decide ((completed = true → ok = BitVec.allOnes 68 → (d.host 3).up = true ∧ (d.host 3).training = none ∧
          (cause = .start → (d.host 3).expSeq = 0 ∧ (d.host 3).rqGiven = 128 ∧ (d.host 3).wdGiven = 512 ∧ (d.host 3).beats = []) ∧
          (cause ≠ .start → (d.host 3).expSeq = h.expSeq)) ∧
        (completed = false ∨ ok ≠ BitVec.allOnes 68 →
          (cause = .linkFail ∨ 2 ≤ h.attempts → (d.host 3).up = false ∧ (d.host 3).down = true ∧ (d.host 3).training = none ∧
            rbit (d.reg (rHpErr 3)) 30 = true) ∧
          (cause ≠ .linkFail → h.attempts < 2 → (d.host 3).training = some cause ∧ (d.host 3).attempts = h.attempts + 1)))

/-- Witness of `Obligations.HostTraining`: every cause, outcome and count of attempts. -/
theorem witness_HostTraining_attempt : decide (([TrainCause.start, .service,
    .linkFail].all fun c => [0,1,2,3].all fun att => [BitVec.allOnes 68,
    5#68].all fun ok => [true,false].all fun k => trC c att ok k) = true) = true := by decide +kernel

/-- Witness of `Obligations.HostTraining`: HP_CTRL.RETRAIN. -/
theorem witness_HostTraining_retrain : (decide (s1.dev.reaches agS = true) && decide (let s := sb1; let h := s.dev.host 3;
    let d := after (.hpCtrlRetrain agS 3) s
   (d.host 3).askTrain = true ∧ (d.host 3).beats = h.beats ++ [linkBeatOf h false true])) = true := by decide +kernel

def sdn : State := live fun d => d.setHost 3 { HostPort.init with down := true }

def agS0 : Agent := { agS with ch := 4 }

def sdn' : State := live fun d => (hostUp id 4 d).setHost 3 { HostPort.init with down := true }

/-- Witness of `Obligations.HostTraining`: HP_CTRL.REVIVE. -/
theorem witness_HostTraining_revive : (decide (sdn'.dev.reaches agS0 = true ∧ (sdn'.dev.host 3).down = true) &&
    decide (let d := after (.hpCtrlRevive agS0 3) sdn'
   (d.host 3).down = false ∧ (d.host 3).training = some .start)) = true := by decide +kernel

end Ports

/-! ### Registers, rings and commands -/

namespace Rings

-- register write

def rwC (s : State) (ag : Agent) (off : BitVec 24) (v : Reg) : Bool × Bool :=
  let r := s.dev.rights ag
  let o := off.toNat
  match regRow o with
  | none => (false, false)
  | some row =>
   (decide (s.dev.reaches ag = true ∧ ag.kind ≠ 1 ∧ o % 4 = 0 ∧ row.half = 0 ∧ (row.rws ≠ 0 → r.secure = true) ∧
      s.dev.letIn r o = .ok ∧ s.dev.wordClosed r (o - o % 64) true = false ∧ s.dev.writeAction r o v = none),
    let d := after (.registerWrite ag off v) s
    let x : Reg := BitVec.ofNat 32 ((List.range 32).foldl (fun acc k => acc + if (if row.w1c.getLsbD k && v.getLsbD k then false
            else if row.rw.getLsbD k || (r.secure && row.rws.getLsbD k) then v.getLsbD k else (s.dev.reg o).getLsbD k) then 2^k else 0) 0)
    decide (d.reg o = (if row.rw ||| (if r.secure then row.rws else 0) = 0 then x else storeLimit o x)) &&
        d == ({ s.dev with cs := d.cs } : Dev).settle)

def smm := mem id
-- sweep: all offsets of rows

def offs : List Nat := ([rowsGlobal, rowsCp].flatten.flatMap fun r => if r.half = 0 then [r.off] else [])

/-- Witness of `Obligations.RegisterWriteStores`: registers of several blocks. -/
theorem witness_RegisterWriteStores : ok (([rRstCtrl, rMorCfg, rHpErr 0, rThmCfg, rChPage 0, rLnkErr 0, rGrpCfg,
    rSyncWdog 0].filter fun o => o != rRstCtrl).flatMap fun o => [rwC smm agS (BitVec.ofNat 24 o) 0xFFFFFFFF,
    rwC smm agS (BitVec.ofNat 24 o) 0]) = true := by decide +kernel
-- doorbells

def ring1 : Ring := { Ring.init with state := 1, log2 := 4, base := 0x1000, cpl := 0x2000, hist := 0x20000, tail := 3, head := 1, ctail := 1 }

def sd : State := mem fun d => d.setRing 1 ring1

def db (v t h : Nat) : Line := BitVec.ofNat 512 (t + h * 2 ^ 32 + v * 2 ^ 64)

def dbHyp (x : Nat) : Bool := decide ((sd.dev.host 0).up = true ∧ sd.dev.doorbellStatus 1 0 false = 0 ∧ fieldAt x 8 1 < 4 ∧ x >>> 72 = 0)

def dbC (v t h : Nat) : Bool :=
  let s := sd; let n : Fin 1024 := 1; let x := doorbellData (db v t h) (BitVec.allOnes 64); let r := ring1
  let t := BitVec.ofNat 32 x; let h := BitVec.ofNat 32 (fieldAt x 4 4)
  let d := after (.doorbellWrite 1 0 false (db v (x % 2^32) (fieldAt x 4 4)) (BitVec.allOnes 64)) s
  dbHyp x && (if (fieldAt x 8 1 % 2 = 1 → (t - r.head).toNat ≤ 2 ^ r.log2 ∧ (t - r.tail).toNat ≤ 2 ^ r.log2) ∧
      (2 ≤ fieldAt x 8 1 → (h - r.chead).toNat ≤ (r.ctail - r.chead).toNat) then
           decide ((d.ring n).tail = (if fieldAt x 8 1 % 2 = 1 then t else r.tail) ∧
           (d.ring n).chead = (if 2 ≤ fieldAt x 8 1 then h else r.chead) ∧ (d.ring n).head = r.head ∧ (d.ring n).ctail = r.ctail ∧
           (d.ring n).state = r.state ∧
               d = ({ s.dev with rings := d.rings } : Dev).settle) else if fieldAt x 8 1 = 1 then decide ((d.ring n).state = 2 ∧
               (d.ring n).error = 1 ∧ (d.ring n).tail = r.tail) else false)

/-- Witness of `Obligations.Doorbells`: doorbells inside and outside their bounds. -/
theorem witness_Doorbells_write : decide (dbC 0 9 9 = true ∧ dbC 1 17 0 = true ∧ dbC 1 18 0 = true ∧ dbC 2 0 1 = true ∧ dbC 3 4 0 = true ∧
    dbC 1 2 0 = true) = true := by decide +kernel

/-- Witness of `Obligations.Doorbells`: a status read. -/
theorem witness_Doorbells_read : (decide (sd.dev.doorbellStatus 1 0 false = 0) &&
    decide (let d := after (.doorbellStatusRead 1 0 false 5) sd
   (d.host 0).beats = (sd.dev.host 0).beats ++ [(BitVec.ofNat 16 (5 * 4), sd.dev.ringStatus 1)] ∧
       d = ({ sd.dev with hosts := d.hosts } : Dev).settle)) = true := by decide +kernel
-- fetch

def spf (flags : Nat) (op : Nat) : State := mem fun d =>
  ready (.fetch 1) 0x1040 (pk op 0 ||| BitVec.ofNat 512 (flags * 2^40)) false (d.setRing 1 ring1)

def pfC (s : State) : Bool :=
  let n : Fin 1024 := 1
  let r := s.dev.ring 1; let a := r.pktAddr r.head
  match (s.dev.tsvRead (r.mover n) (s.dev.wordOf a)).1 with
  | none => false
  | some w =>
  let d := after (.packetFetch 1) s
  decide (rbit (s.dev.reg rCpStat) 31 = true ∧ r.state = 1 ∧ r.head ≠ r.tail ∧ s.dev.ringHeld n = false ∧
      r.ue = false ∧ s.dev.regionHeld a = false ∧ s.dev.mayAccess r.access a false = true ∧ w.poison = false ∧
          (w.data.truncate 32 - r.hticket : BitVec 32) = 1 ∧
      (fieldAt w.data.toNat 5 1 % 2 = 1 → s.dev.ringQuiet n = true)) &&
  decide ((d.ring n).head = r.head + 1 ∧ (d.ring n).hticket = w.data.truncate 32 ∧ (d.ring n).tail = r.tail ∧ d.cmds.map (fun x => (x.ring,
      x.idx)) = s.dev.cmds.map (fun x => (x.ring, x.idx)) ++ [(n, r.head)]) &&
  d.cmds.any fun c => c.ring == n && c.idx == r.head && c.packet == w.data && c.field == r.field && c.secure == r.secure &&
    (if s.dev.startStatus c = 0 then c.done == none && !c.begun else match c.done with
      | some e => e.status == BitVec.ofNat 8 (s.dev.startStatus c)
      | none => false)

/-- Witness of `Obligations.PacketFetchStarts`: packets with and without FENCE, one of no opcode. -/
theorem witness_PacketFetchStarts_fetch : decide (pfC (spf 0 0) = true ∧ pfC (spf 1 5) = true ∧ pfC (spf 0 0x77) = true ∧
    pfC (spf 0 0x10) = true) = true := by decide +kernel
-- launch

def cl (len : Nat) : Cmd := { c0 with packet := pk 1 (a 16 0 + a 18 2 + a 20 len + a 24 0x3000 + a 32 0x4000) }

def laC (len : Nat) : Bool :=
  let c := cl len; let n : Fin 1024 := 1; let i : BitVec 32 := 0
  let s := withC c fun d => (List.range (len / 64)).foldl (fun d k => ready (.ring 1 0) (0x4000 + 64 * k) 0x1234 false d) d
  let base := c.arg 16 2; let cnt := c.arg 18 2; let len := c.arg 20 4
  let as := (List.range (len / 64)).map fun k => c.arg 32 8 + 64 * k
  let d := after (.launch 1 0) s
  started s.dev n i 1 c && decide (c.begun = false ∧ 1 ≤ cnt ∧ base + cnt ≤ 128 ∧ len ≤ 4096 ∧ len % 64 = 0 ∧
       addrOk (c.arg 24 8) 32 = true ∧ addrOk (c.arg 32 8) 64 = true ∧ s.dev.rangesStatus c.access [(c.arg 32 8, len, false)] = 0 ∧
       s.dev.semOk c = true) && c.launchSet.all (fun f => s.dev.floeOwned c f && (match s.dev.slotOf f with | some p => (s.dev.floe p).st == .idle | none => false)) && as.all (fun a => !s.dev.regionHeld a) && (s.dev.tsvReads c.mover as).1.isSome &&
  ((List.range cnt).all fun k => match s.dev.slotOf (base + k) with
   | some p => decide ((d.floe p).st = .running ∧ (d.floe p).pc = BitVec.ofNat 36 (c.arg 24 8) ∧ (d.floe p).launch = some (n, i) ∧
             (d.floe p).n = [BitVec.ofNat 48 (base + k), BitVec.ofNat 48 k, BitVec.ofNat 48 cnt, BitVec.ofNat 48 len, 0, 0, 0, 0] ∧
             (d.logi (base + k)).flags = 0 ∧ (d.logi (base + k)).counters = [] ∧ (d.logi (base + k)).mark = none)
   | none => false) && (match d.cmd n i with | some c' => c'.begun && c'.done == none && c'.floes == c.launchSet.map (BitVec.ofNat 7) | none => false)

/-- Witness of `Obligations.LaunchAndNboPost`: argument tiles of 0, 64 and 4096 bytes. -/
theorem witness_LaunchAndNboPost_launch : (laC 0 && laC 64 && laC 4096) = true := by decide +kernel
-- nbo post

def cn : Cmd := { c0 with packet := pk 2 (a 16 2 + a 24 0x4000) }

def nbp (c : Cmd) : Bool :=
  let n : Fin 1024 := 1; let i : BitVec 32 := 0
  let s := withC c (ready (.ring 1 0) (0x4000+64*c.pos) (0x1234 + BitVec.ofNat 512 (5 * 2^32)) false)
  let a := c.arg 24 8 + 64 * c.pos
  match (s.dev.tsvRead c.mover (s.dev.wordOf a)).1 with
  | none => false
  | some w =>
  let k := (nboDesc w.data).ch
  let d := after (.nboPost 1 0) s
  started s.dev n i 2 c && decide (c.begun = false → 1 ≤ c.arg 16 4 ∧ c.arg 16 4 ≤ 4096 ∧ addrOk (c.arg 24 8) 64 = true ∧
         s.dev.rangesStatus c.access [(c.arg 24 8, 64 * c.arg 16 4, false)] = 0 ∧ s.dev.semOk c = true) && decide (c.pos < c.arg 16 4 ∧
             s.dev.regionHeld a = false) &&
   (match d.nbos.getLast? with | some y => decide (d.nbos = s.dev.nbos ++ [y] ∧ y.id = s.dev.nextNbo ∧ y.desc = w.data ∧ y.poster = .ring c.ring i c.pos ∧
           y.field = some c.field ∧ y.secure = c.secure ∧ y.accepted = false) | none => false) && decide ((d.chan k).nearWait = (s.dev.chan k).nearWait ++ [s.dev.nextNbo] ∧ d.nextNbo = s.dev.nextNbo + 1) &&
    (match d.cmd n i with | some c' => c'.pos == c.pos + 1 && c'.begun | none => false)

/-- Witness of `Obligations.LaunchAndNboPost`: the first descriptor and the second. -/
theorem witness_LaunchAndNboPost_post : (nbp cn && nbp { cn with begun := true, pos := 1 }) = true := by decide +kernel
-- copy/fill

def cc (cnt pos : Nat) : Cmd := { c0 with packet := pk 3 (a 16 0x3000 + a 24 0x5000 + a 32 (64 * (pos + 1))), begun := true, pos := pos, count := cnt }

def cpC (c : Cmd) (marks : BitVec 8) : Bool :=
  let n : Fin 1024 := 1; let i : BitVec 32 := 0
  let s := withC c (ready (.ring 1 0) (0x3000 + 64*c.pos) 0x1234 (marks != 0))
  let dst := c.arg 24 8 + 64 * c.pos
  let len := c.arg 32 8
  let src := c.arg 16 8 + 64 * c.pos
  match (s.dev.tsvRead c.mover (s.dev.wordOf src)).1 with
  | none => false
  | some w =>
  let d := after (.copy n i 1) s
  decide (len = 64 * (c.pos + 1) ∧ s.dev.regionHeld dst = false ∧ s.dev.cpWaits c.mover dst = false ∧
      s.dev.wordDown (s.dev.wordOf dst) = false ∧ s.dev.rangesStatus c.access [(src, 64, false), (dst, 64, true)] = 0 ∧
      s.dev.regionHeld src = false) && started s.dev n i 3 c &&
  decide ((d.seen (s.dev.wordOf dst)).data = w.data ∧ (d.seen (s.dev.wordOf dst)).poison = w.poison) &&
      (if c.count + w.poison.toNat = 0 then ended d n i 0 0 0 else ended d n i 0xB (c.count + w.poison.toNat) 0)

/-- Witness of `Obligations.CopyAndFillEnd`: sound and poisoned words. -/
theorem witness_CopyAndFillEnd_copy : (cpC (cc 0 0) 0 && cpC (cc 0 1) 0 && cpC (cc 0 0) 0xFF && cpC (cc 3 0) 0) = true := by decide +kernel

def cfl (cnt pos : Nat) : Cmd := { c0 with packet := pk 4 (a 40 0x1122334455667788 + a 24 0x5000 + a 32 (64 * (pos + 1))), begun := true, pos := pos, count := cnt }

def cfC (c : Cmd) : Bool :=
  let n : Fin 1024 := 1; let i : BitVec 32 := 0
  let s := withC c
  let dst := c.arg 24 8 + 64 * c.pos
  let d := after (.fill n i 1) s
  started s.dev n i 4 c && decide (s.dev.cpWaits c.mover dst = false) && decide (s.dev.wordDown (s.dev.wordOf dst) = false) && decide (s.dev.rangesStatus c.access [(dst, 64, true)] = 0) &&
  ((List.range 8).all fun j => (d.seen (s.dev.wordOf dst)).data.extractLsb' (64 * j) 64 == BitVec.ofNat 64 (c.arg 40 8)) &&
          decide ((d.seen (s.dev.wordOf dst)).poison = false) && (if c.count = 0 then ended d n i 0 0 0 else ended d n i 0xB c.count 0)

/-- Witness of `Obligations.CopyAndFillEnd`: ends OK and POISON. -/
theorem witness_CopyAndFillEnd_fill : (cfC (cfl 0 0) && cfC (cfl 2 1)) = true := by decide +kernel
-- queries

def cq (kind sel : Nat) : Cmd := { c0 with packet := pk 6 (a 16 kind + a 18 sel + a 24 0x6000) }

def qC (kind sel words : Nat) : Bool :=
  let c := cq kind sel; let n : Fin 1024 := 1; let i : BitVec 32 := 0; let s := withC c
  let dest := c.arg 24 8
  let last := dest + 64 * 63
  let d := after (if kind = 0 then .queryRing 1 0 else if kind = 1 then .queryFloes 1 0 else .queryUsage 1 0) s
  started s.dev n i 6 c && decide (addrOk dest 4096 = true ∧ s.dev.rangesStatus c.access [(dest, 64 * words, true)] = 0 ∧
      s.dev.semOk c = true) && ((List.range words).all fun k => !s.dev.cpWaits c.mover (dest + 64 * k)) && decide (s.dev.wordDown (s.dev.wordOf (dest + 64 * (words - 1))) = false) &&
  (match kind with
   | 0 => (s.dev.ring (c.arg 18 2)).ownedBy c.field && (d.seen (s.dev.wordOf dest)).data == s.dev.queryRing (c.arg 18 2)
   | 1 => (d.seen (s.dev.wordOf last)).data == BitVec.ofNat 512 (s.dev.queryFloe c.field 126 + s.dev.queryFloe c.field 127 * 2 ^ 256)
   | _ => (d.seen (s.dev.wordOf dest)).data == s.dev.queryUsage c.field) && ended d n i 0 0 0

/-- Witness of `Obligations.QueriesReport`: rings, floes and usage. -/
theorem witness_QueriesReport : (qC 0 1 1 && qC 0 1023 1 && qC 1 0 64 && qC 2 0 1) = true := by decide +kernel

end Rings

/-! ### Commands of a ring -/

namespace Commands

def n1 : Fin 1024 := 1

def i0 : BitVec 32 := 0
-- msg

def cm : Cmd := { c0 with packet := pk 7 (a 16 2 + a 24 0x112233) }

def msgC (s : State) (c : Cmd) : Bool :=
  let n := n1; let i := i0; let f := c.arg 16 2
  let d := after (.msg n i) s
  started s.dev n i 7 c && decide (c.posted = false ∧ f < 128 ∧ s.dev.floeOwned c f = true ∧ s.dev.semOk c = true ∧
      s.dev.frozenFloe f = false ∧ (s.dev.logi f).data.length < 64) &&
  (match (d.logi f).data.getLast? with | some m => decide ((d.logi f).data = (s.dev.logi f).data ++ [m] ∧ m.cmd = some (c.ring, i) ∧ m.bytes = msgBytes (2 ^ 15 + n) (s.dev.ring n).epoch.toNat c.ticket.toNat 0 (c.arg 24 24)) | none => false) &&
  (match d.cmd n i with | some c' => c'.posted && c'.done == none | none => false) && decide (d = ({ s.dev with cmds := d.cmds, logical := d.logical } : Dev).settle)

/-- Witness of `Obligations.FloeCommands`: queues of 0 and 63 messages. -/
theorem witness_FloeCommands_msg : (msgC (withC cm) cm &&
    msgC (withC cm fun d => d.updLogi 2 fun l => { l with data := List.replicate 63 { bytes := 1, cmd := none } }) cm) = true := by decide +kernel
-- freeze, thaw

def cf (op : Nat) : Cmd := { c0 with packet := pk op (a 16 2) }

def frC (st : FloeSt) : Bool :=
  let c := cf 8; let n := n1; let i := i0; let f := 2; let p := 2
  let s := withC c fun d => d.updFloe 2 fun x => { x with st := st }
  let d := after (.freeze n i) s
  started s.dev n i 8 c && decide (s.dev.floeOwned c f = true ∧ s.dev.semOk c = true ∧ s.dev.slotOf f = some p) &&
  decide ((d.floe p).st = .frozen ∧ (d.floe p).fencing = true ∧ (d.floe p).ident = (s.dev.floe p).ident ∧
             rbit (d.reg (rFreeze p)) 31 = true ∧ fld (d.reg (rFreeze p)) 27 24 = 1 ∧ d.reg64 (rFreezeTime p) = s.dev.time) &&
  (match d.cmd n i with | some c' => c'.begun && c'.done == none | none => false)

/-- Witness of `Obligations.FloeCommands`: every state. -/
theorem witness_FloeCommands_freeze : (frC .idle && frC .running && frC .halted && frC .halting && frC .ending) = true := by decide +kernel

def thC (idn : Nat) : Bool :=
  let c := cf 9; let n := n1; let i := i0; let f := 2; let p := idn
  let s := withC c fun d =>
    let d := if idn = 2 then d else d.updFloe 2 fun x => { x with ident := none, st := .unassigned }
    let d := d.updFloe idn fun x => { x with st := .frozen, ident := some 2 }
    d.updLogi 2 fun l => { l with flags := 5, counters := [(1, 1)], data := [{ bytes := 1, cmd := none }] }
  let d := after (.thaw n i) s
  started s.dev n i 9 c && decide (s.dev.floeOwned c f = true ∧ s.dev.semOk c = true ∧ s.dev.slotOf f = some p ∧
      (s.dev.floe p).st = .frozen ∧ (s.dev.floe p).fencing = false ∧ (s.dev.floe p).retired = false) &&
  decide ((d.floe p).st = .idle ∧ (d.floe p).ident = some (BitVec.ofNat 7 f) ∧ (d.floe p).desc = [] ∧ (d.floe p).halt = none ∧
             (d.logi f).flags = 0 ∧ (d.logi f).counters = [] ∧ (d.logi f).limits = [] ∧ (d.logi f).data = []) && ended d n i 0 0 0

/-- Witness of `Obligations.FloeCommands`: a floe in its own slot and in a spare. -/
theorem witness_FloeCommands_thaw : (thC 2 && thC 128) = true := by decide +kernel
-- ring create

def crc_ (log2 fl k : Nat) : Cmd := { c0 with packet := pk 0x10 (a 16 k + a 18 log2 + a 19 fl + a 20 7 + a 24 0x10000 + a 32 0x18000 + a 40 0x20000) }

/-- The next fill of a RING_CREATE, at word `pos`. -/
def rcP (c : Cmd) (pos : Nat) (begun : Bool) (t : Ring) : Bool :=
  let c := { c with pos := pos, begun := begun }
  let n := n1; let i := i0
  let k := c.arg 16 2
  let s := withC c fun d => d.setRing k t
  let t := s.dev.ring k; let log2 := c.arg 18 1
  let x := fillAt log2 (c.arg 24 8) (c.arg 32 8) (BitVec.ofNat 32 (c.arg 20 4)) c.pos
  let d := after (.ringCreate n i) s
  started s.dev n i 0x10 c && decide (k < 1024 ∧ s.dev.semOk c = true ∧ t.heldRecs = [] ∧ c.pos < fillWords log2 ∧
      (c.begun = true ∨ c.arg 19 1 < 4 ∧ ringParamsOk log2 (c.arg 24 8) (c.arg 32 8) (c.arg 40 8) = true ∧
         s.dev.rangesStatus { field := some c.field, secure := (c.arg 19 1).testBit 1, host := false }
           (ringRanges log2 (c.arg 24 8) (c.arg 32 8) (c.arg 40 8)) = 0 ∧
         (t.state = 0 ∨ (t.field = c.field ∧ t.state ≠ 1 ∧ s.dev.ringActive k = []))) ∧
      s.dev.cpWaits (fillMover c.mover.origin c.field) x.1 = false ∧ s.dev.wordDown (s.dev.wordOf x.1) = false) &&
  (match d.cmd n i with | some c' => c'.begun && decide (c.pos < c'.pos) | none => false) &&
  decide (c.pos + 1 = fillWords log2 → (d.seen (s.dev.wordOf x.1)).data = x.2)

/-- Witness of `Obligations.RingsAreCreated`: the first fill, one of the completion ring, and the last. -/
theorem witness_RingsAreCreated_fills : (rcP (crc_ 4 0 7) 0 false Ring.init && rcP (crc_ 4 2 1023) 16 true Ring.init &&
    rcP (crc_ 4 1 7) 23 true { Ring.init with state := 2, epoch := 4, field := 0, tail := 5 }) = true := by decide +kernel

/-- The last word of the fills of RING_CREATE is a completion word of zeros, the last of the packets a filler (R109). -/
theorem test_fills : fillAt 4 0x1000 0x2000 7 23 = (0x21C0, 0) ∧ fillAt 4 0x1000 0x2000 7 15 = (0x13C0, 0xFF80000007) := by
  decide +kernel

def rcC (c : Cmd) (t : Ring) : Bool :=
  let n := n1; let i := i0
  let k := c.arg 16 2
  let log2 := c.arg 18 1
  let c := { c with begun := true, pos := fillWords log2 }
  let s := withC c fun d => d.setRing k t
  let t := s.dev.ring k
  let d := after (.ringCreate n i) s
  started s.dev n i 0x10 c && decide (k < 1024 ∧ s.dev.semOk c = true ∧ t.heldRecs = [] ∧
         (t.state = 0 ∨ (t.field = c.field ∧ t.state ≠ 1))) &&
  decide ((d.ring k).state = 1 ∧ (d.ring k).field = c.field ∧ (d.ring k).secure = (c.arg 19 1).testBit 1 ∧ (d.ring k).admin = false ∧
             (d.ring k).log2 = log2 ∧ (d.ring k).base = BitVec.ofNat 36 (c.arg 24 8) ∧ (d.ring k).cpl = BitVec.ofNat 36 (c.arg 32 8) ∧
             (d.ring k).hist = BitVec.ofNat 36 (c.arg 40 8) ∧ (d.ring k).tail = 0 ∧ (d.ring k).head = 0 ∧ (d.ring k).ctail = 0 ∧
             (d.ring k).chead = 0 ∧ (d.ring k).hticket = BitVec.ofNat 32 (c.arg 20 4) - 1 ∧ (d.ring k).nacc = 0 ∧
             (d.ring k).epoch = t.epoch + 1) && ended d n i 0 0 0

/-- Witness of `Obligations.RingsAreCreated`: free and stopped rings. -/
theorem witness_RingsAreCreated_create : (rcC (crc_ 4 0 7) Ring.init && rcC (crc_ 4 2 1023) Ring.init &&
    rcC (crc_ 5 1 7) { Ring.init with state := 2, epoch := 4, field := 0, tail := 5 }) = true := by decide +kernel

def cdst (k : Nat) : Cmd := { c0 with packet := pk 0x11 (a 16 k) }

def rdC (t : Ring) : Bool :=
  let c := cdst 7; let n := n1; let i := i0; let k := 7
  let s := withC c fun d => d.setRing k t
  let d := after (.ringDestroy n i) s
  started s.dev n i 0x11 c && decide (t.ownedBy c.field = true ∧ t.admin = false ∧ s.dev.ringActive k = [] ∧ t.heldRecs = []) &&
      decide ((d.ring k).state = 0) && ended d n i 0 0 0

/-- Witness of `Obligations.RingsAreCreated`: rings of each state. -/
theorem witness_RingsAreCreated_destroy : (rdC { Ring.init with state := 1, epoch := 3 } &&
    rdC { Ring.init with state := 2 }) = true := by decide +kernel
-- adm

def admC (f : Fin 16) (cfg : Reg) : Bool :=
  let s := mem fun d => ((((d.setReg64 (rAdm f) 0x10000).setReg64 (rAdm f + 8) 0x18000).setReg64 (rAdm f + 16) 0x20000).setReg (rAdmTicket f) 9).setReg (rRegion 0) (0x80600000 ||| BitVec.ofNat 32 (f.val * 2^24))
  let ag := agS
  let v := (cfg ||| 0x80000000) &&& 0xE01F03FF
  let k := fld v 9 5 * 32 + fld v 4 0
  let d := after (.admRingEnable ag f cfg) s
  decide (s.dev.reaches ag = true ∧ ag.kind ≠ 1 ∧ (s.dev.rights ag).secure = true ∧ rbit (s.dev.reg (rAdmCfg f)) 31 = false ∧
       rbit (s.dev.reg rCpStat) 31 = true ∧ s.dev.admOk f v = true) &&
  decide (d.reg (rAdmCfg f) = v ∧ (d.ring k).state = 1 ∧ (d.ring k).admin = true ∧ (d.ring k).field = BitVec.ofNat 4 f.val ∧
           (d.ring k).secure = rbit cfg 30 ∧ (d.ring k).log2 = fld cfg 20 16 ∧ (d.ring k).tail = 0 ∧ (d.ring k).head = 0 ∧
           (d.ring k).ctail = 0 ∧ (d.ring k).chead = 0 ∧ (d.ring k).hticket = s.dev.reg (rAdmTicket f) - 1 ∧
           (d.ring k).epoch = (s.dev.ring k).epoch + 1)

/-- Witness of `Obligations.RingsAreCreated`: fields 0, 3 and 15. -/
theorem witness_RingsAreCreated_admin : (admC 0 0x80040021 && admC 15 0xE0040021 && admC 3 0x00040021) = true := by decide +kernel
-- field cfg

def cfgc (sub : Nat) : Cmd := { c0 with packet := pk 0x12 (a 16 sub + a 24 0x7000) }

def cfS (sub x : Nat) (f : Dev → Dev := id) : State := withC (cfgc sub) fun d => f (ready (.ring 1 0) 0x7000 (BitVec.ofNat 512 x) false d)

def cfgP (s : State) (sub : Nat) (variant : Bool) (x : Nat) : Bool :=
  let c := cfgc sub; let d := s.dev; let n := n1; let i := i0
  let d' := (d.tsvRead c.mover (d.wordOf (c.arg 24 8))).2
  started d n i 0x12 c && decide (c.arg 16 1 = sub ∧ c.begun = false ∧ d.cfgBehind c = false ∧ addrOk (c.arg 24 8) 64 = true
    ∧ d.rangesStatus c.access [(c.arg 24 8, 64, false)] = 0 ∧ d.regionHeld (c.arg 24 8) = false) &&
  (match (d.tsvRead c.mover (d.wordOf (c.arg 24 8))).1 with | some w => w.poison == false && x == w.data.toNat | none => false) &&
  decide (cfgRecordOk sub x d.twin.paired = true ∧ cfgVariant sub x = variant ∧ d'.semOk c = true ∧ d'.cfgNames sub x = 0)

def xAssign : Nat := 3 + 2^(8*8) * 0x80000002 + 2^(8*12) * 3   -- field 3, drifts 1 and 31, assign secure

def assignC : Bool :=
  let s := cfS 0 xAssign fun d => d.updLogi 5 fun l => { l with flags := 3 }
  let x := xAssign; let field := fieldAt x 0 1
  let d := after (.fieldCfgDriftsAssign n1 i0) s
  cfgP s 0 true x && (List.range 32).all fun k => !(fieldAt x 8 4).testBit k ||
     (decide (d.reg (rDriftField k) = BitVec.ofNat 32 (2 ^ 31 + fieldAt x 12 1 / 2 * 2 ^ 30 + field)) &&
         (List.range 4).all fun p => decide ((d.logi (4 * k + p)).flags = 0 ∧ (d.logi (4 * k + p)).mark = none))

/-- Witness of `Obligations.FieldCfgSwitches`: drifts 1 and 31. -/
theorem witness_FieldCfgSwitches_assign : assignC = true := by decide +kernel

def xRel : Nat := 0 + 2^(8*8) * 0x1

def relC : Bool :=
  let s := cfS 0 xRel
  let d := after (.fieldCfgDriftsRelease n1 i0) s
  cfgP s 0 false xRel && decide (d.reg (rDriftField 0) = 0)

/-- Witness of `Obligations.FieldCfgSwitches`: drift 0. -/
theorem witness_FieldCfgSwitches_release : relC = true := by decide +kernel

def xLease (first cnt attr : Nat) (zero : Nat := 0) : Nat := 0 + 2^(8*8) * first + 2^(8*12) * cnt + 2^(8*16) * attr + 2^(8*20)*zero

def leaseC (first cnt attr zero : Nat) : Bool :=
  let x := xLease first cnt attr zero; let s := cfS 1 x; let field := fieldAt x 0 1
  let d := after (.fieldCfgLease n1 i0) s
  cfgP s 1 true x && ((List.range (fieldAt x 12 4)).all fun k => d.reg (rRegion (fieldAt x 8 4 + k)) ==
         if rbit (BitVec.ofNat 32 (fieldAt x 16 4)) 31 then BitVec.ofNat 32 (fieldAt x 16 4) ||| BitVec.ofNat 32 (field * 2 ^ 24)
         else BitVec.ofNat 32 (fieldAt x 16 4)) && [0, first - 1, first + cnt].all fun r => (first ≤ r &&
             r < first + cnt) || d.reg (rRegion r) == s.dev.reg (rRegion r)

/-- Witness of `Obligations.FieldCfgSwitches`: the first and last regions. -/
theorem witness_FieldCfgSwitches_lease : (leaseC 5 3 0x80600000 1 && leaseC 1 1 0 0 &&
    leaseC 32767 1 0x80E00000 1) = true := by decide +kernel

def xSem (first cnt v : Nat) : Nat := 0 + 2^(8*8) * first + 2^(8*10) * cnt + 2^(8*12) * v

def semC (first cnt v : Nat) : Bool :=
  let x := xSem first cnt v; let s := cfS 2 x fun d => { d with sems := [(9, 77)] }; let field := 0
  let d := after (if v = 1 then .fieldCfgSemsGrant n1 i0 else .fieldCfgSemsWithdraw n1 i0) s
  cfgP s 2 (v == 1) x && (List.range cnt).all fun k => let m := first + k
     if v = 1 then d.semOwned (some (BitVec.ofNat 4 field)) m && d.sem m == 0 &&
         !d.semPoisoned m else (List.range 16).all fun f => !d.semOwned (some (BitVec.ofNat 4 f)) m

/-- Witness of `Obligations.FieldCfgSwitches`: granted and withdrawn. -/
theorem witness_FieldCfgSwitches_sems : (semC 4 7 1 && semC 4095 1 1 && semC 0 2 0) = true := by decide +kernel

def xRing (v : Nat) : Nat := 0 + 2^(8*8) * v

def ringsC (v : Nat) : Bool :=
  let x := xRing v; let s := cfS 3 x fun d => ((d.setRing 2 { Ring.init with state := 3 }).setRing 9 { Ring.init with state := 1, admin := true }).setRing 10 {Ring.init with state := 1, field := 4 }
  let d := after (if v = 1 then .fieldCfgRingsStop n1 i0 else .fieldCfgRingsStart n1 i0) s
  cfgP s 3 (v == 1) x && (List.range 1024).all fun k => d.ring k == if v = 1 then (if (s.dev.ring k).field = 0 ∧ (s.dev.ring k).state = 1 ∧
      (s.dev.ring k).admin = false
         then { s.dev.ring k with state := 3 } else s.dev.ring k) else (if (s.dev.ring k).field = 0 ∧
             (s.dev.ring k).state = 3 then { s.dev.ring k with state := 1 } else s.dev.ring k)

/-- Witness of `Obligations.FieldCfgSwitches`: stopped and started. -/
theorem witness_FieldCfgSwitches_rings : (ringsC 1 && ringsC 0) = true := by decide +kernel
-- switch done

def swC : Bool :=
  let x := xLease 1 1 0x80600000 1
  let c := { cfgc 1 with begun := true, buffer := [BitVec.ofNat 512 x], pos := 5 }
  let s := withC c fun d => { d with zeroing := [1], dram := (d.dram.writeWord (d.wordOf 0x200040) 0xFFFF 0).writeWord (d.wordOf 0x40) 5 0 }
  let rs := [1]
  let d := after (.fieldCfgSwitchDone n1 i0) s
  started s.dev n1 i0 0x12 c && ended d n1 i0 0 0 0 && rs.all (fun r => !d.zeroing.contains r) &&
      d.dram.byte (64 * s.dev.wordOf 0x200040) == 0 && d.dram.byte (64 * s.dev.wordOf 0x40) == 5

/-- Witness of `Obligations.FieldCfgSwitches`: a region zeroed. -/
theorem witness_FieldCfgSwitches_done : swC = true := by decide +kernel

/-- A mirrored region all of whose words have been written, and a command on an entry that has completed. -/
def swM : Bool :=
  let x := xLease 1 1 0x80680000 1
  let c := { cfgc 1 with begun := true, buffer := [BitVec.ofNat 512 x], pos := 5, count := 32768, entryWaits := [(3, 4, 9)] }
  let s := withC c fun d => { d with zeroing := [1] }
  let d := after (.fieldCfgSwitchDone n1 i0) s
  started s.dev n1 i0 0x12 c && (fieldAt x 16 4).testBit 19 && c.entryWaits.all (fun w => !s.dev.entryOpen w) && ended d n1 i0 0 0 0 &&
    !d.zeroing.contains 1

/-- Witness of `Obligations.FieldCfgSwitches`: a mirrored region. -/
theorem witness_FieldCfgSwitches_mirrored : swM = true := by decide +kernel
-- records

def cdone (op flags sem : Nat) (tk idx : Nat) : Cmd := { c0 with idx := BitVec.ofNat 32 idx, packet := pk op 0 &&& ~~~(BitVec.ofNat 512 (0xFFFF * 2^64)) ||| BitVec.ofNat 512 (flags * 2^40 + sem * 2^64), begun := true, done := some { status := 0, r0 := 0, r1 := 0 } }

/-- `MayWrite`, as a Bool. -/
def mayW (d : Dev) (r : Ring) (a : Nat) : Bool := a % 32 == 0 && d.mayAccess r.access a true && !d.wordDown (d.wordOf a)

/-- `RecordOpen`, as a Bool. -/
def recOpen (d : Dev) (n : Nat) (h : HeldRec) : Bool :=
  let r := d.ring n
  !r.cplDead && !d.recordWaits n h && mayW d r (r.cplAddr h.idx)
    && h.hist.all fun t => mayW d r (r.histAddr t) && d.wordOf (r.histAddr t) != d.wordOf (r.cplAddr h.idx)

def reads32 (d : Dev) (a : Nat) (x : BitVec 256) : Bool :=
  (List.range 32).all fun j => fieldAt (d.seen (d.wordOf a)).data.toNat (a % 64 + j) 1 == fieldAt x.toNat j 1

/-- `RecordIn`, as a Bool. -/
def recIn (d d' : Dev) (n : Nat) (h : HeldRec) : Bool :=
  let r := d.ring n
  let x := h.bytes ||| BitVec.ofNat 256 (r.phase h.idx * 2 ^ 49 + d.time.toNat * 2 ^ 64)
  reads32 d' (r.cplAddr h.idx) x && (d'.ring n).ctail == r.ctail + 1 && h.hist.all (fun t => reads32 d' (r.histAddr t) x)
    && (d'.ring n).attnRecs == (if h.noattn then r.attnRecs else r.attnRecs ++ [h.idx])
    && h.sem.all fun q => !(decide (q < 4096) && d.semOwned (some r.field) q && !d.semPoisoned q) || d'.sem q == d.sem q + 1

def recC (c : Cmd) : Bool :=
  let s := withC c fun d => d.updRing 1 fun r => { r with ctail := c.idx, attnRecs := [99] }
  let n := n1; let i := c.idx; let r := s.dev.ring n
  let d := after (.commandEnd n i) s
  match s.dev.outcome c with
  | none => false
  | some e => s.dev.cmd n i == some c && i == r.ctail && recOpen s.dev 1 (recordFor c i e) &&
      d.cmd n i == none && (d.ring n).heldRecs == r.heldRecs && recIn s.dev d 1 (recordFor c i e)

/-- Witness of `Obligations.RecordsAreWritten`: with and without attention, with and without a semaphore, the first slot and the
last, whose record shares a word with the slot before. -/
theorem witness_RecordsAreWritten_inTurn : (recC (cdone 0 0 0xFFFF 1 0) && recC (cdone 0 2 1 1 15)) = true := by decide +kernel

def rec2C : Bool :=
  let c := cdone 0 0 0xFFFF 1 3
  let s := withC c
  let n := n1; let i := c.idx; let r := s.dev.ring n
  let d := after (.commandEnd n i) s
  match s.dev.outcome c with
  | none => false
  | some e => s.dev.cmd n i == some c && !r.cplDead &&
      decide (i ≠ r.ctail ∧ d.cmd n i = none ∧ (d.ring n).ctail = r.ctail ∧ (d.ring n).heldRecs = r.heldRecs ++ [recordFor c i e])

/-- Witness of `Obligations.RecordsAreWritten`: a record out of turn is held. -/
theorem witness_RecordsAreWritten_early : rec2C = true := by decide +kernel

def hr (i : Nat) : HeldRec := { idx := BitVec.ofNat 32 i, bytes := 7, dupOf := none, hist := some i, noattn := false, sem := some 1 }

def rec3C : Bool :=
  let s := mem fun d => d.setRing 1 { Ring.init with state := 1, log2 := 4, base := 0x1000, cpl := 0x2000, hist := 0x20000, ctail := 4, heldRecs := [hr 6, hr 4, hr 5] }
  let r := s.dev.ring 1
  let d := after (.heldRecordWrite 1) s
  findPos (fun h : HeldRec => h.idx == r.ctail) r.heldRecs 0 == some (1, hr 4) && recOpen s.dev 1 (hr 4) &&
    (d.ring 1).heldRecs == dropAt r.heldRecs 1 && recIn s.dev d 1 (hr 4)

/-- Witness of `Obligations.RecordsAreWritten`: a held record comes in turn. -/
theorem witness_RecordsAreWritten_held : rec3C = true := by decide +kernel
-- nop, fence, timeouts

def cnop (sem : Nat) : Cmd := { c0 with packet := pk 0 0 &&& ~~~(BitVec.ofNat 512 (0xFFFF * 2^64)) ||| BitVec.ofNat 512 (sem * 2^64) }

/-- Witness of `Obligations.CommandsEndAndTimeOut`: NOP. -/
theorem witness_CommandsEndAndTimeOut_nop : (let s := withC (cnop 0xFFFF); let d := after (.nop n1 i0) s;
    (started s.dev n1 i0 0 (cnop 0xFFFF) && s.dev.semOk (cnop 0xFFFF) && ended d n1 i0 0 0 0 &&
    decide (d = ({ s.dev.forget (fun o => o == .ring n1 i0) with cmds := d.cmds } : Dev).settle))) = true := by decide +kernel

/-- Witness of `Obligations.CommandsEndAndTimeOut`: NOP with a semaphore its field does not own. -/
theorem witness_CommandsEndAndTimeOut_nopSem : (let s := withC (cnop 9); let d := after (.nop n1 i0) s; (started s.dev n1 i0 0 (cnop 9) &&
    !s.dev.semOk (cnop 9) && ended d n1 i0 5 0 0)) = true := by decide +kernel

def cfe (aw : List (Nat × BitVec 32)) (b : Bool) : Cmd := { c0 with packet := pk 5 (a 16 1), awaits := aw, begun := b }

/-- Witness of `Obligations.CommandsEndAndTimeOut`: FENCE. -/
theorem witness_CommandsEndAndTimeOut_fenceOver : (let c := cfe [] true; let s := withC c; let d := after (.fence n1 i0) s;
    (started s.dev n1 i0 5 c && ended d n1 i0 0 0 0 &&
    decide (d = ({ s.dev.forget (fun o => o == .ring n1 i0) with cmds := d.cmds } : Dev).settle))) = true := by decide +kernel

/-- Witness of `Obligations.CommandsEndAndTimeOut`: FENCE. -/
theorem witness_CommandsEndAndTimeOut_fenceFirst : (let c := cfe [] false; let s := withC c; let d := after (.fence n1 i0) s;
    (started s.dev n1 i0 5 c && ended d n1 i0 0 0 0 &&
    decide (d = ({ s.dev.forget (fun o => o == .ring n1 i0) with cmds := d.cmds } : Dev).settle))) = true := by decide +kernel

/-- Witness of `Obligations.CommandsEndAndTimeOut`: FENCE. -/
theorem witness_CommandsEndAndTimeOut_fenceGone : (let c := cfe [(1, 5)] false; let s := withC c; let d := after (.fence n1 i0) s;
    (ended d n1 i0 0 0 0)) = true := by decide +kernel

/-- Witness of `Obligations.CommandsEndAndTimeOut`: FENCE. -/
theorem witness_CommandsEndAndTimeOut_fenceWaits : (let c := cfe [(1, 5)] true; let s := withC c fun d => { d with cmds := d.cmds ++ [{ c0 with idx := 5 }] }; let d := after (.fence n1 i0) s; (match d.cmd 1 0 with | some c' => c'.begun && c'.done == none | none => false)) = true := by decide +kernel

/-- Witness of `Obligations.CommandsEndAndTimeOut`: FENCE. -/
theorem witness_CommandsEndAndTimeOut_fenceFirstWaits : (let c := cfe [(1, 5)] false; let s := withC c fun d => { d with cmds := d.cmds ++ [{ c0 with idx := 5 }] }; let d := after (.fence n1 i0) s; (match d.cmd 1 0 with | some c' => c'.begun && c'.done == none | none => false)) = true := by decide +kernel

def tmC (op : Nat) (begun : Bool) : Bool × Bool :=
  let c := { c0 with packet := pk op 0, begun := begun, since := 500, floes := if op = 1 then [2, 3] else [] }
  let s := withC c fun d => (d.updFloe 2 fun x => { x with st := .running }).updFloe 3 fun x => { x with st := .running }
  let d := after (.commandTimeout n1 i0) s
  (decide (s.dev.cmd n1 i0 = some c ∧ timedOp c.opcode = true ∧ s.dev.timeoutMs c ≠ 0xFFFF ∧ s.dev.outcome c = none ∧
      s.dev.clockPaused c = false ∧ c.since ≤ s.dev.clock),
   decide (c.since + covered c.since s.dev.clock (s.dev.cmdPauses c) + 2000000 * s.dev.timeoutMs c ≤ d.clock) && (if op = 1 then ended d n1 i0 7 c.floes.length 0 else if op = 2 then (match d.cmd 1 0 with | some c' => c'.timedOut | none => false) else ended d n1 i0 7 0 0))

/-- Witness of `Obligations.CommandsEndAndTimeOut`: every timed opcode. -/
theorem witness_CommandsEndAndTimeOut_timeouts : ok ((tmC 2 false :: ([1, 3, 4, 5, 7, 0x12, 0x21, 0x23, 0x25,
    0x26].map fun op => tmC op true)) ++ [tmC 1 false, tmC 5 false]) = true := by decide +kernel

end Commands

/-! ### Links -/

/-- A link in service. -/
def upLink : Link := { Link.init with up := true, expSeq := 1, nextSeq := 5, peer := some { uid := 7, contract := 0, hash := 0, dev := 2, link := 0 } }

def p0 : Packet := { typ := 1, cls := 0, world := false, poison := false, field := 0, dst := 3, dev := 2, orig := 0x4000, tag := 0, epoch := 5, addr := 0x2000, status := 0, arg := 0, data := 0 }

def mg (sub : Nat) (data : Nat) : Packet := { p0 with typ := 9, arg := BitVec.ofNat 64 sub, data := BitVec.ofNat 512 data, addr := 0 }

/-- A packet's header flit with its CRC. -/
def flit (p : Packet) (seq : BitVec 10) : BitVec 256 :=
  BitVec.ofNat 256 (p.header seq + (packetCrc (p.header seq) p.typ p.data).toNat * 2 ^ 224)

/-- A running device 3 of a group of devices 2 and 3 (founder `f`), link 1 to device 2. -/
def grp (f : Nat) (g : Dev → Dev := id) : State := mem fun d =>
  let d := { d with links := (List.range 5).map fun l => (l, upLink) }
  let d : Dev := [(rGrpStat, (BitVec.ofNat 32 (0x80000000 + 3) : BitVec 32)), (rGrpRoute 0, 0x0FFFF1F1 ||| 0xF0000000), (rGrpCfg,
      10)].foldl (fun (d : Dev) p => d.setReg p.1 p.2) d
  g { d with group := { Group.init with member := true, founder := BitVec.ofNat 6 f, epoch := 5, set := 0xC } }

def nextP (d : Dev) (l : Fin 5) (hdr : BitVec 256) (data : Line) (p : Packet) : Bool :=
  d.sys.phase.live && (d.link l).up && !(d.link l).discard && decide (parsePacket hdr data = (p, (d.link l).expSeq, true) ∧
      (d.link l).granted[packetVc p.typ]?.getD 0 ≠ (d.link l).consumed[packetVc p.typ]?.getD 0)

def nextM (d : Dev) (l : Fin 5) (hdr : BitVec 256) (data : Line) (p : Packet) (sub : Nat) : Bool :=
  nextP d l hdr data p && decide (l ≠ 4 ∧ p.typ = 9 ∧ p.arg.toNat % 256 = sub ∧ p.dst.toNat = d.gdev)

def waits (d : Dev) (w : Option (Fin 1024 × BitVec 32)) (n : Fin 1024) (i : BitVec 32) : Bool :=
  w == some (n, i) && (match d.cmd n i with | some c => c.done == none | none => false)
-- link packets

def linkP (ackseq nak ret : Nat) : BitVec 256 := 
  let h := 14 + 0 * 2^96 + 200 * 2 ^ 96 + 201 * 2 ^ 112 + 90 * 2 ^ 128 + ackseq * 2 ^ 160 + nak * 2 ^ 176 + ret * 2 ^ 177
  BitVec.ofNat 256 (h + (packetCrc h 14 0).toNat * 2 ^ 224)

def heldL : Link := { upLink with held := [(3, p0), (4, p0)], rounds := 9 }

def sL : State := grp 2 fun d => d.setLink 1 heldL

def tLink (hdr : BitVec 256) : Bool × Bool :=
  let s := sL; let l : Fin 5 := 1; let k := s.dev.link l
  let d := after (.linkPacket l cw hdr) s
  ((parsePacket hdr 0).2.2 && (parsePacket hdr 0).1.typ == 14 && k.up && s.dev.sys.phase.live,
   decide ((d.link l).given = [BitVec.ofNat 16 (bits hdr.toNat 111 96), BitVec.ofNat 16 (bits hdr.toNat 127 112),
       BitVec.ofNat 16 (bits hdr.toNat 143 128)] ∧
         (k.outq = [] → (d.link l).held = k.held.filter fun e => decide (512 ≤ (BitVec.ofNat 10 (bits hdr.toNat 169 160) - e.1).toNat)) ∧
         (bit hdr.toNat 177 = true → rbit (s.dev.reg (rLnkCtrl l)) 29 = false → (d.link l).training = some .service)))

/-- After a NAK: a LINK packet whose code word has no START is not read; one whose code word has it is. -/
def tDiscard (start : Bool) : Bool × Bool :=
  let s := grp 2 fun d => d.setLink 1 { heldL with discard := true }; let l : Fin 5 := 1; let k := s.dev.link l
  let w : CodeWord := { header := if start then 0x101A else 0x1A, fixed := 0 }
  let hdr := linkP 3 0 0
  let d := after (.linkPacket l w hdr) s
  (k.up && k.discard && w.start == start && s.dev.sys.phase.live,
   if start then (d.link l).given == [200, 201, 90] && (d.link l).held == [(4, p0)] else decide (d = s.dev.settle))

/-- Witness of `Obligations.LinkLayer`: link packets. -/
theorem witness_LinkLayer_packets : ok [tLink (linkP 3 0 0), tLink (linkP 4 0 1), tLink (linkP 2 1 0),
    tLink (linkP 3 1 1), tDiscard true, tDiscard false] = true := by decide +kernel

def tCorrupt (x : Fin 3) (dis : Bool) : Bool × Bool :=
  let s := grp 2 fun d => d.setLink 1 { heldL with discard := dis }; let l : Fin 5 := 1; let k := s.dev.link l
  let d := after (.peerCorruptPacket l cw x) s
  (k.up && cw.start && (x != 2 || !dis), decide ((d.link l).inError = true ∧ (x ≠ 1 → (d.link l).discard = true) ∧ (x = 0 → d.reg64 (rLnkCrc l) = s.dev.reg64 (rLnkCrc l) + 1 ∧ (d.link l).expSeq = k.expSeq ∧
         (d.link l).links.getLast? = some (k.expSeq - 1, true, k.askTrain, k.granted)) ∧ (x = 1 → (d.link l).expSeq = k.expSeq ∧
             d.reg64 (rLnkCrc l) = s.dev.reg64 (rLnkCrc l)) ∧
    (x = 2 → d.reg64 (rLnkFecUncorr l) = s.dev.reg64 (rLnkFecUncorr l) + 1)))

/-- Witness of `Obligations.LinkLayer`: corrupt packets of each kind. -/
theorem witness_LinkLayer_corrupt : ok [tCorrupt 0 false, tCorrupt 0 true, tCorrupt 1 false, tCorrupt 1 true, tCorrupt 2 false] = true := by decide +kernel

def tTimers : List (Bool × Bool) :=
  let sR := fun n => grp 2 fun d => d.setLink 1 { heldL with rounds := n, quietFrom := 9000, linkSent := 9000, unacked := 2, unackedSince := 9990 }
  let s := sR 9; let l : Fin 5 := 1; let k := s.dev.link l
  let d1 := after (.peerAckTimer l) s; let d3 := after (.peerLinkFail l) s
  let resend := fun n => let s := sR n; let k := s.dev.link l; let d := after (.peerResendTimeout l) s
    (k.up && decide (k.held ≠ []), decide (k.quietFrom + 4000 ≤ d.clock ∧ (d.link l).held = k.held ∧
      (k.rounds < 8 → (d.link l).replay = true ∧ (d.link l).rounds = k.rounds + 1) ∧ (8 ≤ k.rounds → (d.link l).rounds = 9)))
  [(k.up, decide ((d1.link l).unacked = 0 ∧ k.ackAt ≤ d1.clock ∧ (d1.link l).links.getLast? = some (k.expSeq - 1, false, k.askTrain, k.granted))),
   resend 0, resend 7, resend 8, resend 9,
   (decide (k.up = true ∧ 8 < k.rounds ∧ rbit (s.dev.reg (rLnkCtrl l)) 29 = false), decide ((d3.link l).up = false ∧
       (d3.link l).training = some .linkFail ∧ (d3.link l).rounds = 0 ∧ rbit (d3.reg (rLnkErr l)) 31 = true))]

/-- Witness of `Obligations.LinkLayer`: the timers. -/
theorem witness_LinkLayer_timers : ok tTimers = true := by decide +kernel

def tTrain (cause : LinkCause) (ok : Bool) (att : Nat) (f : Link → Link := id) : Bool × Bool :=
  let l : Fin 5 := 1
  let s := grp 2 fun d => d.setLink 1 (f { heldL with up := false, training := some cause, attempts := att }); let k := s.dev.link l
  let d := after (.linkTrainingAttempt l ok 0xFE true 0x5A) s
  (s.dev.sys.phase.live && k.training == some cause, 
   decide ((ok = true → (d.link l).reversed = true ∧ (d.link l).polarity = 0x5A) ∧ (ok = true → cause = .start → (d.link l).expSeq = 0 ∧ (d.link l).nextSeq = 1 ∧ (d.link l).held.length = 1 ∧
         (d.link l).granted = [128, 128, 64] ∧ (d.link l).laneOk = 0xFE) ∧
       (ok = true → cause ≠ .start → (d.link l).up = true ∧ (d.link l).training = none ∧ (d.link l).expSeq = k.expSeq) ∧
       (ok = false → (∀ p ∈ k.outq, 4 < p.typ) → cause = .linkFail ∨ 2 ≤ k.attempts → (d.link l).down = true ∧ (d.link l).up = false ∧ (d.link l).training = none)))

/-- Witness of `Obligations.LinkLayer`: outcomes of training. -/
theorem witness_LinkLayer_training : ok [tTrain .start true 0, tTrain .service true 0, tTrain .linkFail true 1, tTrain .linkFail false 0,
    tTrain .start false 2, tTrain .start false 2 (fun k => { k with outq := [{ p0 with typ := 5 }] }), tTrain .service false 2, tTrain .service false 1] = true := by decide +kernel

def hello (dev link : Nat) : Nat := 7 + 0xABC * 2 ^ 64 + dev * 2 ^ 480 + link * 2 ^ 488

def tHello (l : Fin 5) (lk : Nat) : Bool × Bool :=
  let s := grp 2 fun d => d.setLink l { Link.init with training := some .start, held := [(0, p0)], nextSeq := 1 }; let k := s.dev.link l
  let p : Packet := { mg 1 (hello 2 lk) with dst := 0 }
  let hdr := flit p 0
  let d := after (.mgmtHello l cw hdr p.data) s
  (decide (k.up = false ∧ k.training = some .start ∧ k.held ≠ [] ∧ parsePacket hdr p.data = (p, 0, true) ∧ p.typ = 9 ∧
      p.arg.toNat % 256 = 1 ∧ ((idOf p.data).link = 4 ↔ l = 4)),
   decide ((d.link l).up = true ∧ (d.link l).training = none ∧ (d.link l).peer = some (idOf p.data) ∧ (d.link l).expSeq = k.expSeq + 1))

/-- Witness of `Obligations.LinkLayer`: HELLO on links 0, 1 and 4. -/
theorem witness_LinkLayer_hello : ok [tHello 1 0, tHello 1 3, tHello 4 4, tHello 0 9] = true := by decide +kernel

def tCtrl : List (Bool × Bool) :=
  let s := sL; let l : Fin 5 := 1; let k := s.dev.link l
  let s2 := grp 2 fun d => d.setLink 1 { heldL with up := false, down := true }
  let d1 := after (.lnkCtrlRetrain agS l) s; let d2 := after (.lnkCtrlRevive agS l) s2
  [(decide (s.dev.reaches agS = true ∧ k.up = true ∧ rbit (s.dev.reg (rLnkCtrl l)) 29 = false),
      decide ((d1.link l).training = some .service ∧ (d1.link l).up = false ∧
         (d1.link l).links.getLast? = some (k.expSeq - 1, false, true, k.granted))),
   (decide (s2.dev.reaches agS = true ∧ (s2.dev.link l).up = false ∧ (s2.dev.link l).down = true),
       decide ((d2.link l).training = some .start ∧ (d2.link l).down = false))]

/-- Witness of `Obligations.LinkLayer`: LNK_CTRL. -/
theorem witness_LinkLayer_ctrl : ok tCtrl = true := by decide +kernel

/-! ### Answers to floes, packets and commands of the group -/

def eng0 : ECmd := { number := 9, bundle := 0, pc := 0x100, word := 0, nregs := [0,0,0,0,0,0,0,0], next := 0, nafter := [], issued := true, performed := false, srcs := [], dst := none, faulted := false, waiting := none, sent := true, tags := [17], words := [], entry := none, got := [], nbos := [], pos := 0, counted := true }

def rem0 (w : Bool) : Remote := { tag := 17, dst := 2, write := w, who := .floe 0 3 9 0x2000, since := some 0 }

def sAns (w : Bool) : State := grp 2 fun d => { (d.setFloe 0 { d.floe 0 with st := .running, engines := [[], [], [], [eng0], [], []] }) with remotes := [rem0 w] }

def tAns (typ : Nat) : Bool × Bool :=
  let s := sAns (typ == 6); let l : Fin 5 := 1; let r := rem0 (typ == 6); let n := 0; let e := 3; let c := eng0; let k := 9
  let p : Packet := { p0 with typ := typ, tag := 17, data := if typ = 5 then 0x55 else 0, addr := 0 }
  let hdr := flit p 1
  let d := if typ = 5 then after (.rspData l cw hdr p.data) s else after (.rspStatus l cw hdr) s
  (decide (s.dev.slotOf 0 = some n ∧ (s.dev.floe n).engines.length = 6 ∧ (((s.dev.floe n).engine e).find? fun x => x.number == k &&
      x.tags.contains r.tag.toNat) = some c ∧
     p.dst.toNat = s.dev.gdev ∧ p.tag = r.tag ∧ s.dev.remotes.find? (fun x => x.tag == r.tag) = some r) && nextP s.dev l hdr p.data p,
   decide (d.remotes = (s.dev.remotes.filter fun x => x.tag != r.tag)) && ((d.floe n).engine e).any fun c' => c'.number == k &&
       c'.got == c.got ++ (if typ = 5 then [(0x2000, p.data, p.poison)] else []) && !c'.tags.contains 17)

/-- Witness of `Obligations.AnswersReachFloes`: RSP_DATA and RSP_STATUS. -/
theorem witness_AnswersReachFloes_answers : ok [tAns 5, tAns 6] = true := by decide +kernel

def tTmo : Bool × Bool :=
  let s := sAns false; let r := rem0 false; let n := 0; let e := 3; let c := eng0
  let d := after (.remoteTimeout 17) s
  (decide (s.dev.sys.phase.live = true ∧ (s.dev.floe n).st = .running) && (match s.dev.route r.dst.toNat with
     | some j => (s.dev.link j).pauseFrom == none
     | none => true),
   decide (d.remotes = (s.dev.remotes.filter fun x => x.tag != r.tag) ∧ (d.floe n).st = .halting ∧
            (d.floe n).halt = some (5, c.pc, Fin.ofNat 8 e) ∧ 0 + 2000 * fld (s.dev.reg rGrpCfg) 15 0 ≤ d.clock))

/-- Witness of `Obligations.AnswersReachFloes`: a timeout. -/
theorem witness_AnswersReachFloes_timeout : ok [tTmo] = true := by decide +kernel
-- group

def myId (dev : Nat) (d : Dev) : Nat := 7 + (d.regValue rContract).toNat * 2 ^ 64 + d.cfgHash.toNat * 2 ^ 96 + dev * 2 ^ 480

def sF : State := grp 3

def tJoin : Bool × Bool :=
  let s := grp 3 fun d => { d with group := { d.group with set := 8 } }; let l : Fin 5 := 1
  let p : Packet := mg 2 (myId 2 s.dev); let hdr := flit p 1; let g := s.dev.group
  let d := after (.mgmtJoin l cw hdr p.data) s
  (nextM s.dev l hdr p.data p 2 && s.dev.isFounder && s.dev.joinReason p == 0,
      decide (d.group.set = g.set ||| BitVec.ofNat 64 (2 ^ p.dev.toNat) ∧ d.group.epoch = nextEpoch g.epoch))

def joinCmd : Cmd := { c0 with packet := pk 0x21 (2 : Nat), begun := true }

def tAdmit (sub : Nat) : Bool × Bool :=
  let s := grp 2 fun d => { d.setRing 1 { Ring.init with state := 1, log2 := 4, base := 0x1000, cpl := 0x2000, hist := 0x20000, tail := 1, head := 1 } with cmds := [joinCmd], group := { Group.init with joining := some (1, 0) } }
  let l : Fin 5 := 1; let p := mg sub 4; let hdr := flit p 1
  let d := if sub = 3 then after (.mgmtAdmit l cw hdr p.data) s else after (.mgmtRefuse l cw hdr p.data) s
  (nextM s.dev l hdr p.data p sub && waits s.dev s.dev.group.joining 1 0, d.group.joining == none &&
      (if sub = 3 then ended d 1 0 0 0 0 else ended d 1 0 0x10 4 0))

def tMembers (set : Nat) : Bool × Bool :=
  let s := grp 2; let l : Fin 5 := 1
  let p := mg 6 (set + 0x1234 * 2 ^ 64 + 2 * 2 ^ 80); let hdr := flit p 1
  let d := after (.mgmtMembers l cw hdr p.data) s
  (nextM s.dev l hdr p.data p 6 && (BitVec.ofNat 64 (fieldAt p.data.toNat 0 8)).getLsbD s.dev.gdev, decide (d.group.member = true ∧
      d.group.set = BitVec.ofNat 64 (fieldAt p.data.toNat 0 8) ∧
         d.group.epoch = BitVec.ofNat 16 (fieldAt p.data.toNat 8 2) ∧ d.group.founder = BitVec.ofNat 6 (fieldAt p.data.toNat 10 1)))

def tLeave : List (Bool × Bool) :=
  let s := grp 3; let l : Fin 5 := 1; let g := s.dev.group
  let p := mg 7 0; let hdr := flit p 1
  let d := after (.mgmtLeave l cw hdr p.data) s
  let q := mg 0x10 0; let hq := flit q 1
  let d2 := after (.mgmtAlive l cw hq q.data) s
  let d3 := after (.memberAbsent 2) s
  [(nextM s.dev l hdr p.data p 7 && s.dev.isFounder && g.set.getLsbD 2,
      decide (d.group.set = g.set &&& ~~~(BitVec.ofNat 64 (2 ^ p.dev.toNat)) ∧ d.group.epoch = nextEpoch g.epoch)),
   (nextM s.dev l hq q.data q 0x10, decide (tabGet (fun _ => 0) d2.group.heard 2 = s.dev.clock ∧ d2.group.set = g.set)),
   (true, decide (d3.group.set = g.set &&& ~~~(BitVec.ofNat 64 (2 ^ 2)) ∧ d3.group.epoch = nextEpoch g.epoch))]

def tTaken : Bool × Bool :=
  let s := grp 2; let g := s.dev.group; let reach : BitVec 64 := 0xFF
  let set := (g.set &&& reach &&& ~~~(BitVec.ofNat 64 (2 ^ g.founder.toNat))) ||| BitVec.ofNat 64 (2 ^ s.dev.gdev)
  let d := after (.founderTaken reach) s
  (g.member && !s.dev.isFounder && (memberList set).head? == some s.dev.gdev, decide (d.group.founder.toNat = s.dev.gdev ∧
      d.group.set = set ∧ d.group.epoch = nextEpoch g.epoch))

/-- Witness of `Obligations.GroupPackets`: membership. -/
theorem witness_GroupPackets_members : ok ([tJoin, tAdmit 3, tAdmit 4, tMembers 8, tMembers 0xC, tMembers (2^63+8), tTaken] ++
    tLeave) = true := by decide +kernel

def tTime : List (Bool × Bool) :=
  let s := grp 2; let l : Fin 5 := 1; let p := mg 8 0x1122334455; let hdr := flit p 1
  let d := after (.mgmtTime l cw hdr p.data) s
  let p9 := mg 9 0; let d9 := after (.mgmtRealign l cw (flit p9 1) p9.data) s
  let s10 := grp 2 fun d => { d with group := { d.group with realign := 0xC } }
  let pa := mg 0xA 0; let da := after (.mgmtAligned l cw (flit pa 1) pa.data) s10
  [(nextM s.dev l hdr p.data p 8 && fieldAt p.data.toNat 24 1 == 0, (sent (d.link l)).any fun q => decide (q.typ = 9 ∧ q.arg = 0x08 ∧
      q.dst = p.dev ∧
         fieldAt q.data.toNat 0 8 = fieldAt p.data.toNat 0 8 ∧ fieldAt q.data.toNat 8 8 = s.dev.time.toNat ∧
             fieldAt q.data.toNat 16 8 = s.dev.time.toNat)),
   (nextM s.dev l (flit p9 1) p9.data p9 9, d9.group.realign == s.dev.group.realign ||| 4),
   (nextM s10.dev l (flit pa 1) pa.data pa 0xA, da.group.realign == 8)]

/-- A request for the time has gone out on link 1. -/
def asks (d : Dev) : Bool :=
  d.group.exchanging && d.group.exchangeAt == d.clock &&
    (sent (d.link 1)).any fun q => decide (q.typ = 9 ∧ q.arg = 0x08 ∧ fieldAt q.data.toNat 0 8 = d.time.toNat ∧ fieldAt q.data.toNat 24 1 = 0)

def tAlign : List (Bool × Bool) :=
  let mem := fun (s : State) => s.dev.group.member && !s.dev.isFounder && s.dev.sys.phase.live
  let routed := fun (s : State) => s.dev.workingRoute s.dev.group.founder.toNat == some 1
  let s := grp 2 fun d => { d with group := { d.group with exchangeAt := 9000 } }
  let d := after .timeAlignment s
  let s2 := grp 2 fun d => d.setLink 1 { upLink with down := true, up := false }
  let s3 := grp 2 fun d => { d.setReg rTimeStat 0x20000000 with group := { d.group with realign := 8, exchangeAt := 9000 } }
  let d3 := after .realignRepeat s3
  [(mem s && routed s, asks d && decide (s.dev.group.exchangeAt + 2000000 ≤ d.clock)),
   (mem s2 && (s2.dev.workingRoute 2).isNone, !rbit ((after .timeAlignment s2).reg rTimeStat) 30),
   (mem s3 && routed s3 && rbit (s3.dev.reg rTimeStat) 29, asks d3 && decide (s3.dev.group.exchangeAt + 20000 ≤ d3.clock))]

/-- The founder's answer when this device's clock is `t` ahead of the founder's: the request left at 5000, took 100 ns each way and
waited 7 ns there; the device's clock, which reads 5207 at the answer, is `t` ahead. -/
def tTheta (forced : Bool) (t : Int) : Bool × Bool :=
  let s := grp 2 fun d => { d.setReg rTimeStat (if forced then 0x60000000 else 0x40000000) with
    time := 5207, group := { d.group with exchanging := true, realign := if forced then 8 else 0 } }
  let l : Fin 5 := 1
  let at' := fun (n : Int) => (BitVec.ofInt 64 n).toNat
  let p := mg 8 (5000 + at' (5100 - t) * 2 ^ 64 + at' (5107 - t) * 2 ^ 128 + 1 * 2 ^ 192); let hdr := flit p 1
  let d := after (.mgmtTime l cw hdr p.data) s
  let lim := if forced then 8 else 50
  (nextM s.dev l hdr p.data p 8 && fieldAt p.data.toNat 24 1 == 1 && s.dev.group.exchanging && s.dev.group.member && !s.dev.isFounder &&
      thetaOf (BitVec.ofNat 64 (fieldAt p.data.toNat 0 8)) (BitVec.ofNat 64 (fieldAt p.data.toNat 8 8)) (BitVec.ofNat 64 (fieldAt p.data.toNat 16 8))
        s.dev.time == t && rbit (s.dev.reg rTimeStat) 29 == forced,
   decide (d.group.exchanging = false ∧ d.time = (if t < 0 then s.dev.time + BitVec.ofNat 64 t.natAbs else s.dev.time) ∧
      d.halfRate = (if t < 0 then s.dev.halfRate else s.dev.halfRate + 2 * t.toNat) ∧ rbit (d.reg rTimeStat) 30 = decide (t.natAbs ≤ lim) ∧
      rbit (d.reg rTimeStat) 29 = decide (lim < t.natAbs) ∧ (forced = false → 50 < t.natAbs → d.group.realign.getLsbD s.dev.gdev = true) ∧
      (forced = true → t.natAbs ≤ 8 → d.group.realign.getLsbD s.dev.gdev = false)))

/-- Witness of `Obligations.GroupPackets`: time. -/
theorem witness_GroupPackets_time : ok (tTime ++ tAlign ++ [-51, -50, 0, 1, 50, 51, -1, 1000].map (tTheta false) ++
    [-9, -8, 8, 9, 0, 51].map (tTheta true)) = true := by decide +kernel
-- commands

def grpC (f : Nat) (c : Cmd) (g : Dev → Dev := id) : State := grp f fun d => g { d.setRing 1 { Ring.init with state := 1, log2 := 4, base := 0x1000, cpl := 0x2000, hist := 0x20000, tail := 1, head := 1 } with cmds := [c] }

def begun (d : Dev) : Bool := match d.cmd 1 0 with | some c => c.begun && c.done == none | none => false

def tCmds : List (Bool × Bool) :=
  let cf : Cmd := { c0 with packet := pk 0x20 0 }
  let sf := grpC 2 cf fun d => { d with group := Group.init }
  let df := after (.groupFound 1 0) sf
  let cj : Cmd := { c0 with packet := pk 0x21 (a 16 2) }
  let sj := grpC 2 cj fun d => { d with group := Group.init }
  let dj := after (.groupJoin 1 0) sj
  let cl : Cmd := { c0 with packet := pk 0x22 0 }
  let s3 := grpC 3 cl
  let d3 := after (.groupLeave 1 0) s3
  let s4 := grpC 2 cl
  let d4 := after (.groupLeave 1 0) s4
  let s5 := grpC 2 cl fun d => { d with group := { d.group with leaving := some (1, 0) } }
  let d5 := after (.leaveTimeout 1 0) s5
  let cq : Cmd := { c0 with packet := pk 0x27 (a 24 0x6000) }
  let s6 := grpC 2 cq
  let d6 := after (.groupQuery 1 0) s6
  [(started sf.dev 1 0 0x20 cf && sf.dev.semOk cf && !sf.dev.group.member, decide (df.group.member = true ∧
      df.group.founder.toNat = sf.dev.gdev ∧ df.group.epoch = 1 ∧
        df.group.set = BitVec.ofNat 64 (2 ^ sf.dev.gdev)) && ended df 1 0 0 0 0),
   (started sj.dev 1 0 0x21 cj && sj.dev.workingRoute (cj.arg 16 1) == some 1, dj.group.joining == some (1, 0) && begun dj &&
       (sent (dj.link 1)).any fun q => q.typ == 9 && q.arg == 2 && q.dst == 2),
   (started s3.dev 1 0 0x22 cl && s3.dev.isFounder, decide (d3.group.member = false ∧ d3.group.set = 0 ∧ d3.group.epoch = 0 ∧
       d3.colls = []) && ended d3 1 0 0 0 0),
   (started s4.dev 1 0 0x22 cl && !s4.dev.isFounder, decide (d4.group.leaving = some (1, 0) ∧ d4.colls = [])),
   (started s5.dev 1 0 0x22 cl, decide (d5.group.member = false ∧ 2000000 ≤ d5.clock) && ended d5 1 0 0 0 0),
   (started s6.dev 1 0 0x27 cq && decide (addrOk (cq.arg 24 8) 4096 = true ∧ s6.dev.rangesStatus cq.access [(cq.arg 24 8, 64, true)] = 0 ∧
       s6.dev.cpWaits cq.mover (cq.arg 24 8) = false ∧ s6.dev.wordDown (s6.dev.wordOf (cq.arg 24 8)) = false), (d6.seen (s6.dev.wordOf 0x6000)).data == s6.dev.groupReport && ended d6 1 0 0 0 0)]

/-- Witness of `Obligations.GroupCommands`: every group command. -/
theorem witness_GroupCommands : ok tCmds = true := by decide +kernel

/-! ### Twins, collectives, group resets and peer requests -/

-- twins

def cp (op : Nat) (args : Nat) : Cmd := { c0 with packet := pk op args }

def tTwins : List (Bool × Bool) :=
  let c1 := cp 0x23 (a 24 0x777)
  let h := fun (d : Dev) => ({ uid := 0x777, contract := d.regValue rContract, hash := d.cfgHash, dev := 9, link := 4 } : Hello)
  let s1 := grpC 2 c1 fun d => { d.setLink 4 { upLink with peer := some (h d) } with twin := { Twin.init with offered := some d.fuses.uid } }
  let d1 := after (.twinPair 1 0) s1
  let c2 := cp 0x24 0
  let s2 := grpC 2 c2 fun d => { d with twin := { Twin.init with paired := true, partner := 5, partnerHolds := true } }
  let d2 := after (.twinUnpair 1 0) s2
  let s2b := grpC 2 c2
  let d2b := after (.twinUnpair 1 0) s2b
  let c3 := cp 0x25 (a 16 32767 + a 20 1)
  let s3 := grpC 2 c3 fun d => { d with twin := { Twin.init with paired := true, partner := 5, partnerHolds := true } }
  let d3 := after (.twinResync 1 0) s3
  let s4 := grpC 2 c3 fun d => { (d.setReg (rRegion 7) 0x80080000) with twin := { Twin.init with paired := true, partner := 5, partnerHolds := true } }
  let d4 := after .twinLoss s4
  [(started s1.dev 1 0 0x23 c1 && s1.dev.semOk c1 && s1.dev.idReason (h s1.dev) == 0, decide (d1.twin.paired = true ∧
      d1.twin.partner = 0x777 ∧ d1.twin.partnerHolds = true) && ended d1 1 0 0 0 0),
   (started s2.dev 1 0 0x24 c2, d2.twin.paired == false && ended d2 1 0 0 0 0), (started s2b.dev 1 0 0x24 c2, d2b.twin.paired == false &&
       ended d2b 1 0 0 0 0),
   (started s3.dev 1 0 0x25 c3, d3.twin.resync == some (1, 0, 32767, 0, 1) && begun d3),
   (s4.dev.twin.paired, decide (d4.twin.outSync = s4.dev.mirroredRegions ∧ d4.twin.outSync = [7] ∧ d4.twin.partnerHolds = false ∧
       d4.twin.paired = true ∧ d4.dram = s4.dev.dram))]

def tNotice : Bool × Bool :=
  let c1 := cp 0x23 (a 24 0x777)
  let s := grpC 2 { c1 with begun := true } fun d => { (d.setLink 4 upLink) with twin := { Twin.init with wants := some (0x777, 1, 0) } }
  let p : Packet := { mg 5 (0x80 + s.dev.fuses.uid.toNat * 2 ^ 64) with dst := 0 }
  let hdr := flit p 1
  let d := after (.mgmtTwinNotice 4 cw hdr p.data) s
  (nextP s.dev 4 hdr p.data p && decide (fieldAt p.data.toNat 0 1 = 0x80 ∧ BitVec.ofNat 64 (fieldAt p.data.toNat 8 8) = s.dev.fuses.uid) &&
      waits s.dev (some (1, 0)) 1 0,
   d.twin.paired && d.twin.partner == 0x777 && ended d 1 0 0 0 0)

def tMirror (typ : Nat) (po : Bool) : Bool × Bool :=
  let s := grp 2 fun d => { (d.setReg (rRegion 0) 0x00040000) with twin := { Twin.init with paired := true, partner := 5, partnerHolds := true } }
  let p : Packet := { p0 with typ := typ, addr := 0x2040, data := 0x99, arg := if typ = 3 then 0xFF else 0, poison := po, orig := 0, dst := 0 }
  let hdr := flit p 1
  let ch := (s.dev.place p.addr).ch
  let d := after (.mirrorStreamItem 4 cw hdr p.data) s
  (nextP s.dev 4 hdr p.data p && s.dev.twinHeld.isEmpty && !s.dev.mirrorBehind p && s.dev.mirrorCopy p.addr &&
      !s.dev.wordDown (s.dev.wordOf p.addr),
   match (d.chan ch).peerIn.getLast? with
   | some r => decide ((d.chan ch).peerIn = (s.dev.chan ch).peerIn ++ [r] ∧ r.write = true ∧
        r.origin = .twinRead 4 p.tag ∧ r.data = [p.data] ∧ r.mask = p.arg ∧ r.masked = (p.typ == 3) ∧ r.poison = p.poison)
   | none => false)

/-- Witness of `Obligations.Twins`: pairing, notices, mirrored writes. -/
theorem witness_Twins : ok (tTwins ++ [tNotice, tMirror 2 false, tMirror 3 true]) = true := by decide +kernel
-- collectives

def cK (k : Nat) : Cmd := cp 0x26 (a 16 k + a 17 0x10 + a 18 (if k = 1 then 2 else 0) + a 20 0x77 + a 24 0xC + a 32 0x3000 + a 40 0x8000 + a 48 (if k = 0 then 0 else 128) + a 56 0x10000)

def tIssue (k : Nat) : Bool × Bool :=
  let c := cK k
  let s := grpC 2 c; let x := s.dev.collOf c
  let d := after (if k = 0 then .collBarrier 1 0 else if k = 1 then .collBroadcast 1 0 else if k = 2 then .collAllReduce 1 0 else if k = 3 then .collReduceScatter 1 0 else .collAllGather 1 0) s
  (started s.dev 1 0 0x26 c && s.dev.group.realign == 0 && s.dev.semOk c && x.argsOk && s.dev.rangesStatus c.access x.ranges == 0 &&
      s.dev.notMember x == none && s.dev.collHeld.isEmpty && !s.dev.collLost x.field x.id,
   d.colls == s.dev.colls ++ [x] && begun d)

/-- Witness of `Obligations.Collectives`: each collective. -/
theorem witness_Collectives_issue : ok ([0, 1, 2, 3, 4].map tIssue) = true := by decide +kernel

/-- A barrier of device 3 alone. -/
def tAlone : Bool × Bool :=
  let c := cp 0x26 (a 20 0x77 + a 24 8)
  let s := grpC 2 c; let x := s.dev.collOf c
  let d := after (.collBarrier 1 0) s
  (started s.dev 1 0 0x26 c && x.argsOk && s.dev.notMember x == none, d.colls == s.dev.colls ++ [x] && begun d)

/-- Witness of `Obligations.Collectives`: a group of one. -/
theorem witness_Collectives_alone : ok [tAlone] = true := by decide +kernel

def sColl (k : Nat) (f : Coll → Coll := id) : State := grpC 2 { cK k with begun := true } fun d => { d with colls := [f (d.collOf (cK k))] }

def tContrib : List (Bool × Bool) :=
  let s := sColl 2; let l : Fin 5 := 1; let c := s.dev.collOf (cK 2)
  let p : Packet := { p0 with typ := 8, arg := BitVec.ofNat 64 (0x77 + 1 * 2 ^ 32), data := 0x4242, addr := 0 }
  let hdr := flit p 1
  let d := after (.collContribution l cw hdr p.data) s
  let ps := { mg 0xB 0x77 with field := 0 }
  let d2 := after (.mgmtStaged l cw (flit ps 1) ps.data) s
  let s3 := sColl 0 fun c => { c with staged := true }
  let pc := mg 0xC 0x77
  let d3 := after (.mgmtCommit l cw (flit pc 1) pc.data) s3
  let pa := mg 0xD (0x77 + 6 * 2 ^ 32)
  let d4 := after (.mgmtAbort l cw (flit pa 1) pa.data) s
  let pf := mg 0xE 6
  let d5 := after (.mgmtFence l cw (flit pf 1) pf.data) s
  [(nextP s.dev l hdr p.data p && s.dev.colls.find? (fun x => x.field == p.field) == some c && c.id == 0x77 && c.epoch == p.epoch &&
      c.members.getLsbD 2 && !s.dev.collLost p.field p.collId && !c.staged,
    d.colls.any fun c' => c'.ring == c.ring && c'.idx == c.idx &&
        c'.word (rankOf c.members 2) ((p.arg >>> 32).toNat % 2 ^ 25) == some (p.data, p.poison)),
   (nextM s.dev l (flit ps 1) ps.data ps 0xB && !s.dev.collLost ps.field ps.collId, d2.colls.any fun c' => c'.ring == c.ring && c'.idx == c.idx &&
       c'.stagedBy == c.stagedBy ||| 4),
   (nextM s3.dev l (flit pc 1) pc.data pc 0xC && (match s3.dev.collNamed pc with
      | some c => c.coordinator == 2 && c.staged && !c.commit && c.kind == 0 && c.poisoned == 0 && waits s3.dev (some (c.ring, c.idx)) c.ring c.idx
      | none => false), ended d3 1 0 0 0 0 && d3.coll 1 0 == none),
   (nextM s.dev l (flit pa 1) pa.data pa 0xD && (match s.dev.collNamed pa with
      | some c => !c.commit && waits s.dev (some (c.ring, c.idx)) c.ring c.idx
      | none => false), ended d4 1 0 0x11 6 0 && d4.coll 1 0 == none),
   (nextM s.dev l (flit pf 1) pf.data pf 0xE && s.dev.group.set.getLsbD 2, d5.colls.all (fun x => decide (6 ≤ x.epoch.toNat)) &&
       d5.group.epoch == 6)]

/-- Witness of `Obligations.Collectives`: contributions. -/
theorem witness_Collectives_contributions : ok tContrib = true := by decide +kernel
-- resets

/-- What `Claims.HasReset` says, over the registers of this list. -/
def wasReset (d d' : Dev) (cause : Nat) : Bool :=
  decide (rbit (d'.reg rRstCause) cause = true ∧ rbit (d'.reg rRstStat) 29 = true ∧ d'.sys.phase = d.afterReset ∧ d'.timeRun = false ∧ d'.time = 0 ∧
    d'.cmds = [] ∧ d'.rings = [] ∧ d'.hosts = [] ∧ d'.links = [] ∧ d'.logical = [] ∧ d'.sems = [] ∧ d'.nbos = [] ∧ d'.remotes = [] ∧
    d'.fuses = d.fuses ∧ d'.flash = d.flash) &&
  [rCpStat, rRegion 0, rCpTimeout, rDriftField 0, rGrpCfg, rSemOwn 0].all (fun o => d'.reg o == regReset o) &&
  (List.range 9).all fun j => !rbit (d.reg rRstCause) j || rbit (d'.reg rRstCause) j

/-- What `Claims.Quiet` says. -/
def quiet (d : Dev) : Bool := (List.range 32).all fun c =>
  (d.chan c).wbuf.isEmpty && ((List.range 64).all fun b => (d.bankNear c b).atom == none) &&
    ((d.chan c).hostIn ++ (d.chan c).driftIn ++ (d.chan c).peerIn).all fun r => !r.write

def tWarm (key : Nat) : Bool × Bool :=
  let c := cp 0x13 (a 16 key)
  let s := withC c fun d => { d.setReg rRstCause 1 with mor := [(0, 5)] }
  let d := after (.warmReset 1 0) s
  (started s.dev 1 0 0x13 c && s.dev.semOk c && (key != 0x6440A5A5 || (c.arg 16 4 == 0x6440A5A5 && quiet s.dev)),
   if key = 0x6440A5A5 then wasReset s.dev d 2 && d.sys.retaining && decide (d.dram = s.dev.dram ∧ d.mor = s.dev.mor ∧ d.sys.saved = some s.dev.order) &&
     (List.range 32).all fun k => (d.chan k).selfRef
   else ended d 1 0 2 0 0 && d.sys.phase == s.dev.sys.phase)

/-- A write that a channel holds when WARM_RESET comes: the clauses without `Quiet`. -/
def tWarmBusy : Bool × Bool :=
  let c := cp 0x13 (a 16 0x6440A5A5)
  let s := withC c fun d => d.updChan 3 fun ch => { ch with peerIn :=
    [({ origin := .peer { link := 1, dev := 2, tag := 0, cls := 0 }, write := true, masked := false, addr := 0x2000, len := 0, cls := 0, field := some 0, secure := false, mask := 0, data := [0x99], poison := false, since := 0, words := [d.wordOf 0x2000], arr := 0 } : PortReq)] }
  let d := after (.warmReset 1 0) s
  (started s.dev 1 0 0x13 c && s.dev.semOk c && c.arg 16 4 == 0x6440A5A5 && !quiet s.dev,
   decide (rbit (d.reg rRstCause) 2 = true ∧ rbit (d.reg rRstStat) 29 = true ∧ d.sys.retaining = true ∧ d.cmds = [] ∧ d.rings = [] ∧
     d.timeRun = false ∧ d.sys.phase.live = false) && (List.range 32).all fun k => (d.chan k).selfRef)

def tResetReq (en : Bool) (key : Nat) (uid : Nat) : Bool × Bool :=
  let s := grp 2 fun d => { d with sys := { d.sys with peerReset := en }, mor := [(0, 5)] }
  let l : Fin 5 := 1
  let p := mg 0xF ((s.dev.fuses.uid.toNat + uid) + key * 2 ^ 64)
  let d := after (.mgmtResetReq l cw (flit p 1) p.data) s
  let obeyed := s.dev.sys.peerReset && s.dev.group.member && s.dev.group.founder == p.dev &&
       fieldAt p.data.toNat 0 8 == s.dev.fuses.uid.toNat && fieldAt p.data.toNat 8 4 == 0x6440A5A5
  (nextM s.dev l (flit p 1) p.data p 0xF && obeyed == (en && key == 0x6440A5A5 && uid == 0),
   if obeyed then wasReset s.dev d 6 && !d.sys.retaining && d.mor == s.dev.mor
   else decide (d.sys.phase = s.dev.sys.phase ∧ d.rings = s.dev.rings ∧ d.dram = s.dev.dram ∧ d.chans = s.dev.chans))

/-- Witness of `Obligations.CommandedResets`: both resets. -/
theorem witness_CommandedResets : ok [tWarm 0x6440A5A5, tWarm 0, tWarm 0x6440A5A4, tWarmBusy,
    tResetReq true 0x6440A5A5 0, tResetReq false 0x6440A5A5 0, tResetReq true 0x6440A5A4 0, tResetReq true 0x6440A5A5 1] = true := by decide +kernel
-- peer requests

def tPeer (typ addr : Nat) : Bool × Bool :=
  let s := grp 2; let l : Fin 5 := 1
  let p : Packet := { p0 with typ := typ, addr := addr, data := if typ = 1 then 0 else 0x99, arg := if typ = 3 then 0xFF else 0 }
  let hdr := flit p 1
  let ch := (s.dev.place (p.addr / 64 * 64)).ch
  let d := after (if typ = 2 then .peerWr l cw hdr p.data else if typ = 3 then .peerWrm l cw hdr p.data else .peerRd l cw hdr) s
  (nextP s.dev l hdr p.data p && s.dev.requestStatus p == 0,
    decide ((d.chan ch).peerIn = (s.dev.chan ch).peerIn ++
         [({ origin := .peer { link := l, dev := p.dev, tag := p.tag, cls := p.cls }, write := p.typ != 1, masked := p.typ == 3, addr := BitVec.ofNat 36 (p.addr / 64 * 64), len := 0, cls := p.cls, field := some p.field, secure := p.world, mask := p.arg, data := if p.typ = 1 then [] else [p.data], poison := p.poison, since := s.dev.clock, words := [s.dev.wordOf (p.addr / 64 * 64)], arr := (s.dev.chan ch).nextId } : PortReq)]
         ∧ (d.link l).expSeq = (s.dev.link l).expSeq + 1 ∧ d.dram = s.dev.dram ∧ d.cs = s.dev.cs))

/-- Witness of `Obligations.PeerRequests`: RD, WR and WRM of a member. -/
theorem witness_PeerRequests_member : ok [tPeer 1 0x2000, tPeer 2 0x2000, tPeer 3 0x3FFFFF, tPeer 2 0x3FFFE1] = true := by decide +kernel

def tRelay (off : BitVec 11) : Bool × Bool :=
  let s := grp 2 fun d => ((d.setReg (rRlyCtrl 15) 0x80000002).setReg (rRlyBase 15) 0xFFFFF800).setReg (rRlyBase 15 + 4) 0x1F
  let ag : Agent := { kind := 0, ch := 0, srcid := 0, secure := false, dev := 0, field := 0 }
  let w : Fin 16 := 15; let ctrl := s.dev.reg (rRlyCtrl w)
  let d := after (.relayWindowAccess ag w off 0 2 7 0 0) s
  (decide (ag.kind = 0 ∧ s.dev.reaches ag = true ∧ off.toNat % 64 = 0 ∧ (s.dev.host ag.ch).tags = [] ∧
       s.dev.relayedWrites ag.ch ag.srcid.toNat = false ∧ rbit ctrl 31 = true ∧
       s.dev.hstField ag.ch ag.srcid.toNat = some (BitVec.ofNat 4 (fld ctrl 19 16)) ∧ s.dev.workingRoute (fld ctrl 5 0) = some 1 ∧
       s.dev.freeTag = some 0 ∧ (s.dev.link 1).down = false),
   (match d.remotes.getLast? with | some r => d.remotes == s.dev.remotes ++ [r] && r.tag == 0 && !r.write && r.dst.toNat == fld ctrl 5 0 | none => false) &&
   ((sent (d.link 1)).any fun q => q.typ == 1 && q.tag == 0 && q.addr == ((s.dev.reg64 (rRlyBase w)).toNat + off.toNat) % 2 ^ 37) &&
       (d.host ag.ch).tags == [(7, 1)])

/-- Witness of `Obligations.PeerRequests`: the first and last words of a window. -/
theorem witness_PeerRequests_relay : ok [tRelay 0, tRelay 0x7C0] = true := by decide +kernel

/-! ### Channels -/

def sd0 (f : Dev → Dev := id) : State := mem f

/-- Device address of a word of channel 5. -/
def ad (s : State) (n : Nat) : Nat := encodeAddr s.dev.order s.dev.intlvG (wordPlace n)

/-- A floe's load (engine 3) or store (engine 4) of one word, at the drift port. -/
def dq (w : Bool) (addr : Nat) (n : Nat) : PortReq :=
  { origin := .floe 0 (if w then 4 else 3) 9, write := w, masked := false, addr := BitVec.ofNat 36 addr, len := 0, cls := 2, field := some 0,
    secure := false, mask := BitVec.allOnes 64, data := if w then [0xABCD] else [], poison := false, since := 7, words := [n], arr := 30 }

/-- The engine's command that waits for that word. -/
def dEng (addr : Nat) : ECmd :=
  { number := 9, bundle := 0, pc := 0x100, word := 0, nregs := [0,0,0,0,0,0,0,0], next := 0, nafter := [], issued := true, performed := false, srcs := [], dst := none, faulted := false, waiting := none, sent := true, tags := [], words := [64, addr / 64 * 64, 128], entry := none, got := [], nbos := [], pos := 0, counted := true }

def tDrift (wr : Bool) (addr : Nat) : Bool × Bool :=
  let w := (sd0).dev.wordOf addr; let ch := ((sd0).dev.place addr).ch; let c : Fin 32 := Fin.ofNat 32 ch; let e := if wr then 4 else 3
  let q := dq wr (addr / 64 * 64) w
  let rest := [{ q with origin := .floe 1 3 2, arr := 29 }, { q with arr := 31 }]
  let s := sd0 fun d => (d.updChan ch fun k => { k with driftIn := q :: rest, nextId := 40 }).setFloe 0 { d.floe 0 with
    st := .running, engines := (List.range 6).map fun i => if i = e then [dEng addr] else [] }
  let k := s.dev.chan c
  let d := after (.channelRequestAccept c 1) s
  (decide ((s.dev.place addr).ch = c.val ∧ (wordPlace w).ch = c.val ∧ (∀ x ∈ rest, x.origin.same q.origin = true → q.arr ≤ x.arr) ∧
      s.dev.regionHeld addr = false ∧ s.dev.permafrost = false ∧ k.down = false ∧ k.recovery = [] ∧ s.dev.portLoad c 1 < 256 ∧
          s.dev.buffered w = none ∧ s.dev.writeWaits q = false ∧ s.dev.slotOf 0 = some 0 ∧ (s.dev.floe 0).engines.length = 6),
   if wr then decide ((d.chan c).driftIn = rest ∧ (d.seen w).data = 0xABCD ∧ (d.seen w).poison = false ∧ d.dram = s.dev.dram) &&
       decide (((d.floe 0).engine 4).map (·.words) = [[64, 128]])
   else decide ((d.chan c).driftIn = rest ∧ (d.chan c).reqs = k.reqs ++
       [({ id := k.nextId, origin := q.origin, port := 1, cls := 2, promoted := none, word := w, index := 0, field := some 0, since := s.dev.clock, arr := 30 } : SchedReq)]
          ∧ (d.chan c).wbuf = k.wbuf ∧ d = ({ s.dev with chans := d.chans } : Dev).settle) &&
              (List.range 32).all fun j => j == c.val || d.chan j == s.dev.chan j)

/-- Witness of `Obligations.ChannelRequests`: loads and stores of a drift. -/
theorem witness_ChannelRequests_drift : ok [tDrift false 0x1000, tDrift true 0x1000, tDrift false 0x3FFFC0,
    tDrift true 0x3FFFFF] = true := by decide +kernel

def rq (o : Origin) (addr n : Nat) : PortReq := { origin := o, write := false, masked := false, addr := BitVec.ofNat 36 addr, len := 0, cls := 1, field := some 0, secure := false, mask := 0, data := [], poison := false, since := 7, words := [n], arr := 22 }

def hT : HostTag := { ch := 0, srcid := 0, tag := 3, seq := 0, op := 1, len := 0, waddr := 0 }

def tPorts : List (Bool × Bool) :=
  let n := (sd0).dev.wordOf 0; let r := rq (.host hT) 0 n; let r2 := rq (.peer { link := 1, dev := 2, tag := 5, cls := 1 }) 0 n
  let s := sd0 fun d => d.updChan 0 fun c => { c with hostIn := [r, r], peerIn := [r2] }
  let k := s.dev.chan 0
  let ent := fun (o : Origin) (p : Fin 5) (t : Nat) => ({ id := k.nextId, origin := o, port := p, cls := r.cls, promoted := none, word := n, index := 0, field := r.field, since := t, arr := 22 } : SchedReq)
  let d := after (.channelRequestAccept 0 0) s
  let d2 := after (.channelRequestAccept 0 3) s
  [(decide ((s.dev.place 0).ch = 0 ∧ s.dev.regionHeld 0 = false ∧ k.down = false ∧ k.recovery = [] ∧ (wordPlace n).ch = 0 ∧ s.dev.buffered n = none ∧ s.dev.twinHeld = [] ∧
      s.dev.portLoad 0 3 < 64),
    decide ((d.chan 0).hostIn = [r] ∧ (d.chan 0).reqs = k.reqs ++ [ent r.origin 0 7] ∧ d.dram = s.dev.dram)),
   (true, decide ((d2.chan 0).peerIn = [] ∧ (d2.chan 0).reqs = k.reqs ++ [ent r2.origin 3 s.dev.clock] ∧ d2.dram = s.dev.dram))]

/-- Witness of `Obligations.ChannelRequests`: the other ports. -/
theorem witness_ChannelRequests_ports : ok tPorts = true := by decide +kernel
-- scheduler

def sr (n : Nat) (o : Origin := .host hT) : SchedReq := { id := 4, origin := o, port := 1, cls := 0, promoted := none, word := n, index := 0, field := some 0, since := 9000, arr := 3 }

def slotFree (d : Dev) (c : Nat) : Bool :=
  let k := d.chan c
  d.sys.phase.live && k.ready && !k.down && !k.selfRef && !k.powerDown && k.refUntil.isNone && k.pauseUntil.isNone && !k.retrain &&
      decide (k.wakeAt ≤ d.clock) &&
    (match k.lastSlot with | some l => decide (l < d.clock) | none => true) && ((List.range 64).all fun b => (d.bankNear c b).exec.isNone) && !rbit (d.reg rCfgStat) 30

def wn : Nat := (5 * 64 + 3) * 32768 * 16 + 7 * 16 + 2   -- channel 5, bank 3, row 7, word 2

def sSch (row : Option Nat) (o : Origin) (marks : BitVec 8) (b : List BufWord := []) : State := sd0 fun d =>
  { d.updChan 5 fun c => { c with reqs := if b.isEmpty then [sr wn o] else [], wbuf := b, banks := [(3, { Bank.init with row := row, lastAct := row.map fun _ => 9000 })] } with dram := d.dram.writeWord wn 0x777 marks }

def tSlot (row : Option Nat) (o : Origin) (marks : BitVec 8) (idle : Nat := 100) : Bool × Bool :=
  let s0 := sSch row o marks; let s := { s0 with dev := s0.dev.setReg (rChPage 5) (BitVec.ofNat 32 idle) } 
  let c : Fin 32 := 5; let r := sr wn o; let k := s.dev.chan 5; let t := s.dev.clock; let p := wordPlace r.word
  let d := after (.schedulerSlot c) s
  (slotFree s.dev 5 && decide (k.reqs = [r] ∧ k.wbuf = [] ∧ k.recovery = [] ∧ (wordPlace r.word).ch = 5 ∧ (k.bank p.bank).row = row ∧ p.bank = 3 ∧ p.row = 7 ∧
      ((s.dev.dram.readWord r.word).uncorr = 0 ∨ s.dev.mirrored r.word = false)) &&
     s.dev.timingOk c t (match row with | none => .activate p.bank p.row | some x => if x = 7 then .column p.bank false else .precharge p.bank),
   match row with
   | none => decide (((d.chan c).bank p.bank).row = some p.row ∧ ((d.chan c).bank p.bank).lastAct = some t ∧ (d.chan c).reqs = [r] ∧
          d.reg64 (rChAct c) = s.dev.reg64 (rChAct c) + 1 ∧ d.dram = s.dev.dram)
   | some x => if x = 7 then decide ((d.chan c).readyQ = k.readyQ ++ [({ origin := r.origin, word := r.word, cls := 0, index := r.index, data := (s.dev.dram.readWord r.word).data, poison := (s.dev.dram.readWord r.word).poison, since := r.since } : ReadyWord)]
            ∧ r ∉ (d.chan c).reqs ∧ ((d.chan c).bank p.bank).row = (if idle = 0 then none else some p.row) ∧ d.dram = s.dev.dram)
     else decide (((d.chan c).bank p.bank).row = none ∧ ((d.chan c).bank p.bank).lastPre = some t ∧ (d.chan c).reqs = [r] ∧
         d.dram = s.dev.dram))

/-- Witness of `Obligations.SchedulerIssues`: activate, precharge, read and write. -/
theorem witness_SchedulerIssues_slots : ok [tSlot none (.fetch 1) 0, tSlot (some 8) (.host hT) 0, tSlot (some 7) (.host hT) 0,
    tSlot (some 7) (.host hT) 0 0, tSlot (some 7) (.fetch 1) 0xFF] = true := by decide +kernel

def bw (m : BitVec 64) : BufWord := { id := 4, word := wn, data := 0x1111, mask := m, keep := 0, marks := 0, cls := 0, promoted := none, field := some 0, port := 1, since := 9000, arr := 2, native := some 1, held := [], hostWords := 0, arrs := [], srcs := [] }

def tWb (m : BitVec 64) : Bool × Bool :=
  let s := sSch (some 7) (.host hT) 0 [bw m]; let c : Fin 32 := 5; let k := s.dev.chan 5; let b := bw m; let p := wordPlace b.word
  let d := after (.schedulerSlot c) s
  (slotFree s.dev 5 && decide (k.reqs = [] ∧ k.wbuf = [b] ∧ k.recovery = [] ∧ (wordPlace b.word).ch = 5 ∧ (b.whole = true ∨ (s.dev.dram.readWord b.word).uncorr = 0) ∧ (k.bank p.bank).row = some p.row) &&
      s.dev.timingOk c s.dev.clock (.column p.bank true),
   decide ((d.chan c).wbuf = [] ∧ d.dram = s.dev.dram.writeWord b.word (b.onto s.dev.dram).1 (b.onto s.dev.dram).2))

/-- Witness of `Obligations.SchedulerIssues`: full and masked words. -/
theorem witness_SchedulerIssues_write : ok [tWb (BitVec.allOnes 64), tWb 0xFF] = true := by decide +kernel
-- maintenance

def tPromo : List (Bool × Bool) :=
  let r : SchedReq := { sr wn with cls := 2 }
  let s := sd0 fun d => d.updChan 5 fun c => { c with reqs := [{ sr 9 with id := 3 }, r], wbuf := [{ bw 1 with cls := 2, id := 8 }], hostIn := [rq (.host hT) 0 0, { rq (.host hT) 0 0 with arr := 23, since := 8000 }] }
  let k := s.dev.chan 5; let c : Fin 32 := 5
  let d := after (.class0Promotion c none 4) s
  let d2 := after (.class0Promotion c none 8) s
  let d3 := after (.class0Promotion c none 23) s; let h := { rq (.host hT) 0 0 with arr := 23, since := 8000 }
  let ok := fun (d : Dev) => d.reg64 (rChPromote c) == s.dev.reg64 (rChPromote c) + 1
  [(findPos (fun r : SchedReq => r.id == 4 && r.cls != 0 && r.port != 4) k.reqs 0 == some (1, r),
      (d.chan c).reqs == putAt k.reqs 1 { r with cls := 0, promoted := some d.clock } && ok d && decide (r.since + 4000 ≤ d.clock)),
   (true, (d2.chan c).wbuf == putAt k.wbuf 0 { bw 1 with cls := 0, id := 8, promoted := some d2.clock } && ok d2 &&
       decide (13000 ≤ d2.clock)),
   (findPos (fun r : PortReq => r.arr == 23 && r.cls != 0) k.hostIn 0 == some (1, h), (d3.chan c).hostIn == putAt k.hostIn 1 (h.promote d3.clock) && ok d3 &&
       decide (12000 ≤ d3.clock))]

def tIdle : Bool × Bool :=
  let s := sd0 fun d => d.updChan 5 fun c => { c with banks := [(63, { Bank.init with row := some 9, idleFrom := some 12345 })] }
  let d := after (.pageIdleTimeout 5 63) s
  (true, ((d.chan 5).bank 63).idleDue && ((d.chan 5).bank 63).row == some 9 &&
      decide (12345 + 2 * fld (s.dev.reg (rChPage 5)) 10 0 ≤ d.clock))

def tPd : List (Bool × Bool) :=
  let c : Fin 32 := 5
  let s := sd0 fun d => (d.setReg (rChCtrl 5) 1).updChan 5 fun c => { c with idleFrom := some 9900 }
  let d := after (.powerDownEntry c) s
  let s2 := sd0 fun d => d.updChan 5 fun c => { c with powerDown := true, owed := 1 }
  let d2 := after (.powerDownExit c) s2
  let s2b := sd0 fun d => d.updChan 5 fun c => { c with powerDown := true, visitDue := true, owed := -4 }
  let d2b := after (.powerDownExit c) s2b
  [(s.dev.channelIdle c && rbit (s.dev.reg (rChCtrl c)) 0, (d.chan c).powerDown && decide (9900 + 400 ≤ d.clock)), (true,
      !(d2.chan c).powerDown && (d2.chan c).wakeAt == s2.dev.clock + 24),
   (true, !(d2b.chan c).powerDown && (d2b.chan c).wakeAt == s2b.dev.clock + 24)]

def tRefi (owed : Int) (clk : Nat) : Bool × Bool :=
  let c : Fin 32 := 5
  let s := sd0 fun d => d.updChan 5 fun c => { c with owed := owed, nextRefi := clk }
  let k := s.dev.chan 5
  let d := after (.refreshInterval c) s
  (true, decide ((d.chan c).owed = k.owed + 1 ∧ (d.chan c).forced = (k.forced || decide (5 ≤ k.owed + 1)) ∧ k.nextRefi ≤ d.clock ∧
         (d.chan c).nextRefi = d.clock + refiSlots (s.dev.band (c / 2))))

def tRef (f : Chan → Chan) : Bool × Bool :=
  let c : Fin 32 := 5
  let s := sd0 fun d => d.updChan 5 f
  let k := s.dev.chan 5
  let d := after (.refreshStart c) s
  (decide (k.refUntil = none ∧ (k.forced = true ∨ (1 ≤ k.owed ∧ ∀ e ∈ s.dev.entries c, e.cls ≠ 0)) ∧ s.dev.atomRuns c = false ∧ 
       s.dev.staggerFree c = true) && (match k.lastRef with | some t => decide (t + 1600 ≤ s.dev.clock) | none => true),
   decide (d.clock = s.dev.refreshSlot c ∧ (d.chan c).refUntil = some (d.clock + 760) ∧ (d.chan c).owed = max (-4) (k.owed - 1) ∧ (d.chan c).forced = false ∧
           (d.chan c).powerDown = false ∧ (k.visitDue = true → (d.chan c).pauseUntil = some (d.clock + 800)) ∧
           d.reg64 (rChRef c) = s.dev.reg64 (rChRef c) + 1 ∧
           d.reg64 (rChRefForced c) = s.dev.reg64 (rChRefForced c) + (if k.forced then 1 else 0)) &&
               (List.range 64).all fun b => ((d.chan c).bank b).row.isNone)

def tRefE : List (Bool × Bool) :=
  let c : Fin 32 := 5
  let s := sd0 fun d => d.updChan 5 fun c => { c with refUntil := some 20000, refForced := true, refCount := 8191, banks := [(3, { Bank.init with events := [4, 5], acts := [{ row := 4, count := 9, flag := true }] })] }
  let d := after (.refreshEnd c) s
  let s2 := sd0 fun d => d.updChan 5 fun c => { c with refCount := 8192, banks := [(3, { Bank.init with events := [4, 5], acts := [{ row := 4, count := 9, flag := true }] })] }
  let d2 := after (.trrTableReset c) s2
  [(true, (d.chan c).refUntil.isNone && (d.chan c).refCount == 8192 && decide (20000 ≤ d.clock) &&
      (List.range 64).all fun b => ((d.chan c).bank b).events.isEmpty),
   (true, (d2.chan c).refCount == 0 && (List.range 64).all fun b => ((d2.chan c).bank b).acts.isEmpty)]

/-- Witness of `Obligations.ChannelMaintenance`: promotion, page idle, power-down, refresh intervals. -/
theorem witness_ChannelMaintenance_power : ok (tPromo ++ [tIdle] ++ tPd ++ [tRefi 4 5, tRefi 3 20000, tRefi (-4) 0,
    tRefi 9 0]) = true := by decide +kernel

/-- Witness of `Obligations.ChannelMaintenance`: refresh starts and ends. -/
theorem witness_ChannelMaintenance_refresh : ok ([tRef fun c => { c with forced := true, owed := 5, lastRef := some 8400, visitDue := true, banks := [(3, { Bank.init with row := some 3 })] }, tRef fun c => { c with owed := 1, powerDown := true }, tRef fun c => { c with forced := true, owed := -4 }] ++ tRefE) = true := by decide +kernel
-- training

def ls0 (x e : Nat) : List LaneMeas := List.replicate 39 { centre := BitVec.ofNat 6 x, eye := BitVec.ofNat 6 e }

def tVisit (x e cur : Nat) : Bool × Bool :=
  let c : Fin 32 := 5
  let s := sd0 fun d => (List.range 39).foldl (fun d i => d.setReg (rChTsvLane c i) (BitVec.ofNat 32 (cur * 65536))) (d.updChan 5 fun c => { c with pauseUntil := some 10800 })
  let k := s.dev.chan 5; let ls := ls0 x e
  let d := after (.periodicRetrain c ls) s
  (true, decide ((d.chan c).pauseUntil = none ∧ 10800 ≤ d.clock) && ((List.range 39).all fun i =>
     let y := fld (d.reg (rChTsvLane c i)) 21 16
     decide ((cur ≤ x → y = min x (cur + 2)) ∧ (x ≤ cur → y = max x (cur - 2))) && fld (d.reg (rChTsvLane c i)) 13 8 == e) &&
     (if cur + 8 < x ∨ x + 8 < cur ∨ e < 16 then (d.chan c).retrain else (d.chan c).retrain == k.retrain))

/-- Witness of `Obligations.ChannelTraining`: lanes at their bounds. -/
theorem witness_ChannelTraining_lanes : ok [tVisit 0 16 8, tVisit 0 16 9, tVisit 63 63 61, tVisit 10 15 10, tVisit 20 40 12,
    tVisit 20 40 11, tVisit 1 20 0, tVisit 0 20 1] = true := by decide +kernel

def tFull (ok : Bool) (fails : Nat) (eye : Nat := 40) : Bool × Bool :=
  let c : Fin 32 := 5
  let s := sd0 fun d => d.updChan 5 fun c => { c with retrain := true, training := true, retrainFails := fails }
  let d := after (.fullRetrain c ok (ls0 33 eye)) s
  (decide ((s.dev.chan c).refUntil = none ∧ s.dev.atomRuns c = false), if ok && decide (16 ≤ eye) then decide ((d.chan c).retrain = false ∧ (d.chan c).training = false ∧ (d.chan c).down = false) &&
      (List.range 39).all fun i => fld (d.reg (rChTsvLane c i)) 21 16 == 33
    else if fails < 2 then decide ((d.chan c).retrain = true ∧ (d.chan c).retrainFails = fails + 1 ∧ (d.chan c).down = false)
    else decide ((d.chan c).down = true ∧ (d.chan c).ready = false ∧ (d.chan c).wbuf = [] ∧ d.dram = s.dev.dram))

def tMisc : List (Bool × Bool) :=
  let c : Fin 32 := 5
  let s := sd0; let d := after (.chCtrlRetrain agS c) s
  let s1 := sd0 fun d => d.updChan 5 fun c => { c with nextVisit := 12000 }; let d1 := after (.periodicRetrain c (ls0 3 4)) s1
  [(s.dev.reaches agS, decide ((d.chan c).retrain = true ∧ (d.chan c).training = true ∧ (d.chan c).retrainFails = 0 ∧
      d.reg64 (rChRetrain c) = s.dev.reg64 (rChRetrain c) + 1)),
   ((s1.dev.chan c).pauseUntil == none, (d1.chan c).visitDue && (d1.chan c).nextVisit == 100012000 && decide (12000 ≤ d1.clock))]

def tIntlv (g : BitVec 5) : Bool × Bool :=
  let s := sd0 fun d => { (d.setReg rDbgStat 0x80000000) with }
  let s := { s with dev := (List.range 32).foldl (fun d j => d.setReg (rChCfg j) 0x80080000) s.dev }
  let d := after (.intlvLog2Write g) s
  (decide (s.dev.tapLevel = 2 ∧ rbit (s.dev.reg (rChCfg 0)) 31 = true),
      (List.range 32).all fun j => fld (d.reg (rChCfg j)) 20 16 == max 8 (min 21 g.toNat))

/-- Witness of `Obligations.ChannelTraining`: full retraining, and INTLV_LOG2. -/
theorem witness_ChannelTraining_full : ok ([tFull true 2, tFull true 2 16, tFull false 0, tFull false 1, tFull false 2, tFull true 0 15, tFull true 2 15] ++ tMisc ++ [tIntlv 0, tIntlv 7,
    tIntlv 8, tIntlv 21, tIntlv 22, tIntlv 31]) = true := by decide +kernel

/-! ### Near-bank operations -/

/-- A descriptor of an operation on channel 5, from its 32-bit control words. -/
def nd (ctrl bank bankEnd rf rc cf cc mask drow dcol fb fr fw : Nat) (pay : Nat := 0) : Line :=
  BitVec.ofNat 512 (ctrl + (5 + bank * 2 ^ 5 + bankEnd * 2 ^ 11) * 2 ^ 32 + (rf + (rc - 1) * 2 ^ 16) * 2 ^ 64 + (cf + (cc - 1) * 2 ^ 5 + mask * 2 ^ 16) * 2 ^ 96
    + (drow + dcol * 2 ^ 16) * 2 ^ 128 + 0x55 * 2 ^ 160 + (fr + fb * 2 ^ 16 + fw * 2 ^ 22) * 2 ^ 192 + pay * 2 ^ 256)

def nb0 (id : Nat) (desc : Line) : Nbo := { id := id, desc := desc, w0Poison := false, descPoison := false, poster := .floe 0 9, field := some 0, secure := false, cls := 1, since := 9000, arr := 0, accepted := true, vec := 0, folds := [], units := [], poison := false }

def unit0 (b : Nat) : BankUnit := { bank := b, w := List.replicate 16 0x00030002, wPoison := 0, ac0 := 0x0000000500000007, ac1 := 0, vPoison := false, loaded := 0, atoms := 0, received := none, sent := false, arrived := none, written := false, shift := [], nextSince := 9000, promo := none }

/-- The NBO 1 executes in its banks of channel 5. -/
def sN (desc : Line) (f : BankUnit → BankUnit := id) (at_ : List (Nat × Atom) := []) (g : Dev → Dev := id) : State := sd0 fun d =>
  let x := nb0 1 desc
  let x := { x with units := x.d.banks.map fun b => f (unit0 b) }
  let d := x.d.banks.foldl (fun (d : Dev) b => d.setBankNear 5 b { BankNear.init with exec := some 1, atom := ((at_.find? fun e => e.1 == b).map (·.2)) }) { d with nbos := [x], nextNbo := 2 }
  g { d with dram := (d.dram.writeWord (((5 * 64 + 3) * 32768 + 7) * 16) 0x00010002FFFF00030004000500060007 0).writeWord (((5 * 64 + 3) * 32768 + 7) * 16 + 1) 0x8000123456 0 }

def cRow (ch : Nat) := ch

def atm (k : AtomKind) (row : Nat) : Atom := { nbo := 1, kind := k, row := row, start := 9000, ends := 12000, worked := false, abandon := false, out := [] }

def tWork (i : Instr) (desc : Line) (kind : AtomKind) (uf : BankUnit → BankUnit := id) : Bool × Bool :=
  let s := sN desc uf [(3, atm kind 7)]; let c := 5; let b := 3
  match s.dev.nbo 1 with
  | none => (false, false)
  | some x => match x.unit b, (s.dev.bankNear c b).atom with
    | some u, some a =>
      let n := x.d; let reads := colReads s.dev c b a n
      let d := after i s
      let out := fun (first : Nat) (word : Nat → BitVec 256 → BitVec 256) => decide (d.dram = s.dev.dram ∧
          (atomOut d c b).map (fun o => (o.1, o.2.1)) = (reads.zipIdx).map fun p => (first + p.2, word p.2 p.1.1))
      (a.worked == false && x.d.ch == 5 && n.valid && reads.all (fun r => r.2.2.2 == 0),
       match kind with
       | .compute i =>
         if n.op ≤ 3 then
           let r := (reads.zipIdx).foldl (fun acc p => reduceCol n acc.1 acc.2 p.1.1 (u.wOf n p.2).1) (u.ac0, u.ac1)
           d.dram == s.dev.dram && d.nbos.any fun y => y.id == x.id && y.units.any fun v => v.bank == b && v.atoms == u.atoms &&
             (if n.perRow then v.ac0 == identityVec n &&
                 (List.range 16).all fun l => lane v.ac1 l == if l = i then hred n r.1 r.2 % 2 ^ 32 else lane u.ac1 l
              else v.ac0 == r.1 && v.ac1 == r.2)
         else if n.op = 4 then
           let vec := if n.firnSrc = 1 ∧ n.ordered = false ∧ n.sat = false ∧ x.folds ≠ [] then some x.vec else none
           out n.colFirst fun k old => updateCol n old (u.wOf n k).1 vec
         else out n.colFirst (fun k old => updateCol n old (u.wOf n k).1 none) &&
             (!n.fullMask || (atomOut d c b).zipIdx.all fun p => (List.range (256 / bankBits n.fmt)).all fun e => colElem n.fmt p.1.2.1 e == colElem n.fmt (u.wOf n p.2).1 e)
       | .result => out n.dcol fun k old => resultCol n u k old
       | .shiftSend => match x.unit (n.nextBank b) with
         | none => false
         | some v => d.dram == s.dev.dram && d.nbos.any fun y => y.id == x.id && y.units.any fun v' => v'.bank == n.nextBank b && (List.range 16).all fun k => v'.w[k]? == some (((reads[k]?).map (·.1)).getD ((v.w[k]?).getD 0))
       | .shiftRecv => out n.colFirst fun k _ => (u.w[k]?).getD 0)
    | _, _ => (false, false)

/-- op, fmt, flags at bits 9..17, firnSrc, firnN. -/
def ct (op fmt : Nat) (fl : Nat := 0) (src : Nat := 0) (fn : Nat := 0) : Nat := op + fmt * 2 ^ 6 + fl + src * 2 ^ 18 + fn * 2 ^ 20

/-- Witness of `Obligations.NearBankOperations`: atoms of Rsum. -/
theorem witness_NearBankOperations_rsum : ok [
    tWork (.nboRsum 5 3) (nd (ct 1 0) 3 3 7 1 0 4 0 9 0 0 0 0) (.compute 0),
    tWork (.nboRsum 5 3) (nd (ct 1 3) 3 3 7 1 0 4 0 9 0 0 0 0) (.compute 0),
    tWork (.nboRsum 5 3) (nd (ct 1 1 (2^13)) 3 3 7 1 0 4 0 9 0 0 0 0) (.compute 0),
    tWork (.nboRsum 5 3) (nd (ct 1 0 (2^13)) 3 3 7 16 0 32 0 9 0 0 0 0) (.compute 15)] = true := by decide +kernel

/-- Witness of `Obligations.NearBankOperations`: atoms of Rmax. -/
theorem witness_NearBankOperations_rmax : ok [
    tWork (.nboRmax 5 3) (nd (ct 2 1) 3 3 7 1 0 4 0 9 0 0 0 0) (.compute 0)] = true := by decide +kernel

/-- Witness of `Obligations.NearBankOperations`: atoms of Dotw. -/
theorem witness_NearBankOperations_dotw : ok [
    tWork (.nboDotw 5 3) (nd (ct 3 4 0 2 7) 3 3 7 1 0 4 0 9 0 3 3 0) (.compute 0),
    tWork (.nboDotw 5 3) (nd (ct 3 1 0 1 0) 3 3 7 1 0 4 0 9 0 0 0 0 77) (.compute 0)] = true := by decide +kernel

/-- Witness of `Obligations.NearBankOperations`: atoms of Accw. -/
theorem witness_NearBankOperations_accw : ok [
    tWork (.nboAccw 5 3) (nd (ct 4 0 0 1 0) 3 3 7 1 0 4 0xFFFF 0 0 0 0 0 77) (.compute 0),
    tWork (.nboAccw 5 3) (nd (ct 4 5 (2^17) 1 0) 3 3 7 1 0 1 1 0 0 0 0 0 77) (.compute 0),
    tWork (.nboAccw 5 3) (nd (ct 4 3 (2^10) 2 3) 3 3 7 1 0 16 0x8001 0 0 3 3 0) (.compute 0)] = true := by decide +kernel

/-- Witness of `Obligations.NearBankOperations`: atoms of Setw. -/
theorem witness_NearBankOperations_setw : ok [
    tWork (.nboSetw 5 3) (nd (ct 5 0 0 1 0) 3 3 7 1 0 32 0xFFFF 0 0 0 0 0 77) (.compute 0),
    tWork (.nboSetw 5 3) (nd (ct 5 6 0 2 1) 3 3 7 1 0 2 0x81 0 0 3 3 0) (.compute 0),
    tWork (.nboSetw 5 3) (nd (ct 5 5 0 1 0) 3 3 7 1 0 2 0xFF 0 0 0 0 0 5) (.compute 0)] = true := by decide +kernel

/-- Witness of `Obligations.NearBankOperations`: atoms of result. -/
theorem witness_NearBankOperations_result : ok [
    tWork (.nboRsum 5 3) (nd (ct 1 0) 3 3 7 1 0 4 0 7 0 0 0 0) .result,
    tWork (.nboRsum 5 3) (nd (ct 1 3) 3 3 7 1 0 4 0 7 28 0 0 0) .result,
    tWork (.nboRmax 5 3) (nd (ct 2 1 (2^14)) 3 3 7 1 0 4 0 7 30 0 0 0) .result,
    tWork (.nboDotw 5 3) (nd (ct 3 1 (2^12) 1 0) 3 3 7 1 0 4 0 7 1 0 0 0 77) .result] = true := by decide +kernel

/-- Witness of `Obligations.NearBankOperations`: atoms of Cshift. -/
theorem witness_NearBankOperations_cshift : ok [
    tWork (.nboCshift 5 3) (nd (ct 6 0 (2^15)) 3 5 7 1 0 16 0 7 0 0 0 0) .shiftSend,
    tWork (.nboCshift 5 3) (nd (ct 6 0 (2^15+2^16)) 1 3 7 1 0 3 0 7 0 0 0 0) .shiftSend,
    tWork (.nboCshift 5 3) (nd (ct 6 0 (2^15)) 1 3 7 1 0 16 0 7 0 0 0 0) .shiftRecv] = true := by decide +kernel
-- flow

def tAcc (desc : Line) (pos : Nat) (f : Dev → Dev := id) : Bool × Bool :=
  let x := { nb0 1 desc with accepted := false }
  let z := { nb0 2 (nd (ct 1 0) 60 60 7 1 0 4 0 9 0 0 0 0) with accepted := false }
  let s := sd0 fun d => f ({ d with nbos := [x, z], nextNbo := 3 }.updChan 5 fun c => { c with nearWait := if pos = 0 then [1, 2] else [2, 1] })
  let c : Fin 32 := 5; let wait := (s.dev.chan c).nearWait
  let d := after (.nboAccept c pos) s
  if s.dev.nboStatus x = 0 then
   (decide (wait[pos]? = some 1 ∧ x.d.ch = c.val ∧ s.dev.order ≠ none ∧ (s.dev.nboMirrored x && s.dev.mirrorStalls) = false ∧
       s.dev.nboResyncs x = false ∧ (∀ b ∈ x.d.banks, (s.dev.bankNear c b).used = 0) ∧ (s.dev.chan c).driftIn = []),
    x.d.banks.all (fun b => (d.bankNear c b).exec == some 1) && !(d.chan c).nearWait.contains 1 && d.dram == s.dev.dram &&
      d.nbos.any fun y => y.id == 1 && y.accepted && y.desc == x.desc && y.units == x.d.banks.map fun b => BankUnit.start x b s.dev.clock)
  else (decide (wait[pos]? = some 1 ∧ x.d.ch = c.val ∧ s.dev.order ≠ none), decide (d.nbo 1 = none ∧ 1 ∉ (d.chan c).nearWait ∧
      d.dram = s.dev.dram ∧ d.reg64 (rNbRej c) = s.dev.reg64 (rNbRej c) + 1))

def own (d : Dev) : Dev := (List.range 64).foldl (fun d b => d.setReg (rRegion (d.rowAddr 5 b 7 / 2^21)) 0x80600000 |>.setReg (rRegion (d.rowAddr 5 b 9 / 2^21)) 0x80600000) (d.setReg (rChCfg 0) 0)

/-- Witness of `Obligations.NearBankFlow`: accepted and rejected descriptors. -/
theorem witness_NearBankFlow_accept : ok [tAcc (nd (ct 1 0) 3 3 7 1 0 4 0 9 0 0 0 0) 0 own,
    tAcc (nd (ct 1 0) 3 3 7 1 0 4 0 9 0 0 0 0) 1 own, tAcc (nd (ct 1 0 (2^15)) 3 4 7 1 0 4 0 9 0 0 0 0) 1 own,
    tAcc (nd (ct 1 6) 3 3 7 1 0 4 0 9 0 0 0 0) 0 own, tAcc (nd (ct 1 0) 3 3 7 1 0 4 0 9 0 0 0 0) 1 (fun d => d.setReg (rChCfg 0) 0),
    tAcc (nd (ct 1 6) 60 60 7 1 0 4 0 9 0 0 0 0) 1 own] = true := by decide +kernel

def tFirn (n loaded : Nat) : Bool × Bool :=
  let s := sN (nd (ct 3 4 0 2 n) 3 3 7 1 0 4 0 9 0 3 7 0) (fun u => { u with loaded := loaded }) [] fun d =>
    let w := (((5 * 64 + 3) * 32768 + 7) * 16) + loaded
    d.updChan 5 fun ch => { ch with readyQ := [{ origin := .firn 1 3, word := w, cls := 1, index := 0, data := 0x1234 + 0x99 * 2 ^ 256, poison := false, since := 0 }] }
  match s.dev.nbo 1 with
  | none => (false, false)
  | some x => match x.unit 3 with
    | none => (false, false)
    | some u => match (s.dev.tsvRead { origin := .firn 1 3, port := 2, cls := x.cls, field := x.field } ((((5 * 64 + x.d.fbank) * 32768 + x.d.frow) * 16) + x.d.fword + u.loaded)).1 with
      | none => (false, false)
      | some r =>
        let d := after (.firnLoad 5 3) s
        (s.dev.nboRuns x && !u.firnDone x.d, d.dram == s.dev.dram && d.nbos.any fun y => y.id == 1 && y.units.any fun v => v.bank == 3 &&
         v.loaded == u.loaded + 1 && v.w == putAt (putAt u.w (2 * u.loaded) (BitVec.ofNat 256 r.data.toNat)) (2 * u.loaded + 1) (BitVec.ofNat 256 (r.data.toNat / 2 ^ 256)))

def tHop (fl b bank bankEnd : Nat) (rcv : Bool) : Bool × Bool :=
  let s := sN (nd (ct 1 0 (2^15 + fl)) bank bankEnd 7 1 0 4 0 9 0 0 0 0) (fun u => { u with atoms := 1, received := if rcv then some 9500 else none, vPoison := u.bank == b })
  match s.dev.nbo 1 with
  | none => (false, false)
  | some x => match x.unit b, x.unit (x.d.nextBank b) with
    | some u, some v =>
      let d := after (.chainHop 5 (Fin.ofNat 64 b)) s
      (decide (s.dev.nboRuns x = true ∧ x.d.nextBank b ≠ b ∧ x.d.reduces = true ∧ x.d.chain = true ∧ b ≠ x.d.endBank ∧
          x.d.rowCount ≤ u.atoms ∧ u.sent = false ∧ x.d.rowCount ≤ v.atoms ∧ (b ≠ x.d.startBank → u.received.isSome = true) ∧ (s.dev.chan 5).stallFrom = none),
       d.dram == s.dev.dram && d.nbos.any fun y => y.id == 1 && (y.units.any fun v' => v'.bank == x.d.nextBank b && v'.received.isSome &&
           v'.vPoison == (u.vPoison || v.vPoison) &&
           (x.d.perRow || (List.range 16).all fun l => lane v'.ac0 l == comb x.d (lane u.ac0 l) (lane v.ac0 l) % 2 ^ 32)) &&
           y.units.any fun u' => u'.bank == b && u'.sent)
    | _, _ => (false, false)

/-- The promotion of the next atom of a bank. -/
def tAtomPromo (desc : Line) : Bool × Bool :=
  let s := sN desc; let c : Fin 32 := 5
  match s.dev.nextAtom 5 3 with
  | none => (false, false)
  | some (x, kind, _) => match x.unit 3 with
    | none => (false, false)
    | some u =>
      let d := after (.class0Promotion c (some 3) 0) s
      (u.promo == none, (d.nbos.any fun y => y.id == x.id && y.units.any fun v => v.bank == 3 && v.promo == some (u.since x.d kind, d.clock)) &&
        d.reg64 (rChPromote c) == s.dev.reg64 (rChPromote c) + 1 && decide (u.since x.d kind + 4000 ≤ d.clock))

/-- Witness of `Obligations.ChannelMaintenance`: atoms. -/
theorem witness_ChannelMaintenance_atoms : ok [tAtomPromo (nd (ct 1 0) 3 3 7 1 0 4 0 9 0 0 0 0),
    tAtomPromo (nd (ct 5 0 0 1 0) 3 3 7 1 0 32 0xFFFF 0 0 0 0 0 77)] = true := by decide +kernel

/-- Witness of `Obligations.NearBankFlow`: firn loads and chain hops. -/
theorem witness_NearBankFlow_hop : ok [tFirn 0 0, tFirn 7 0, tFirn 7 7, tHop 0 3 3 4 false, tHop (2^16) 4 3 5 true, tHop 0 62 62 63 false,
    tHop (2^13) 3 3 5 false] = true := by decide +kernel

def tEnd (k : AtomKind) (out : List (Nat × BitVec 256 × BitVec 4)) : Bool × Bool :=
  let s := sN (nd (ct (match k with | .shiftSend => 6 | .shiftRecv => 6 | _ => 4) 0 (match k with | .shiftSend => 2^15 | _ => 0) 1 0) 3 (match k with | .shiftSend => 4 | _ => 3) 7 1 0 4 0xFFFF 0 0 0 0 0 77) id [(3, { atm k 7 with worked := true, out := out })]
  match (s.dev.bankNear 5 3).atom with
  | none => (false, false)
  | some a =>
    let d := after (.atomEnd 5 3) s
    (a.worked && !a.abandon && (s.dev.nbo a.nbo).isSome, decide ((d.bankNear 5 3).atom = none ∧ a.ends ≤ d.clock ∧
        d.reg64 (rNbAtom 5) = s.dev.reg64 (rNbAtom 5) + 1 ∧ ((d.chan 5).bank 3).row = none) &&
      d.dram == (if k = .shiftSend then s.dev.dram else (a.out.foldl (fun (y : Dev) o => y.nearWrite 5 3 a.row o.1 o.2.1 o.2.2) s.dev).dram) &&
      [0, 1, 8 * colCode 5 3 7 0 - 1, 8 * colCode 5 3 7 4 , 8 * colCode 5 3 7 31 + 32,
          8 * colCode 5 3 7 5 + 31].all fun p => out.any (fun o => let w := colCode 5 3 a.row o.1;
          !(p < 8 * w ∨ 8 * w + 32 ≤ p)) || d.dram.byte p == s.dev.dram.byte p)

/-- Witness of `Obligations.NearBankFlow`: ends of atoms. -/
theorem witness_NearBankFlow_end : ok [tEnd (.compute 0) [(0, 5, 0), (31, 6, 0xF)], tEnd .result [(4, 7, 0)], tEnd .shiftSend [],
    tEnd (.compute 0) []] = true := by decide +kernel

/-! ### Dispatch, front end and scalars -/

/-- A vector slot word: COPY of queue 1 to queue 2. -/
def vw (op fmt bm a b c d imm : Nat) : Nat := op * 2^43 + fmt * 2^41 + bm * 2^39 + a * 2^33 + b * 2^27 + c * 2^21 + d * 2^16 + imm

def tq (base tile p c depth : Nat) (slots : Tab SlotSt := []) : TileQ := { base := base, tile := tile, producer := p, consumer := c, depth := depth, head := 0, fill := 0, slots := slots }

def qs0 : Tab (Option TileQ) := [(1, some (tq 0x1000 256 3 1 2 [(0, .ready)])), (2, some (tq 0x2000 256 1 4 2)), (3,
    some (tq 0x3000 256 3 1 2 [(0, .ready)])), (4, some (tq 0x4000 256 3 1 2 [(0, .ready)]))]

def bun (h s0 s1 s2 s3 s4 s5 : Nat) : Nat := h + s0 * 2^32 + s1 * 2^64 + s2 * 2^112 + s3 * 2^152 + s4 * 2^200 + s5 * 2^232

def icl (pc : Nat) (b : Nat) : ICLine := { line := BitVec.ofNat 29 (pc / 128), data := BitVec.ofNat 1024 (b * 2 ^ (256 * (pc / 32 % 4))), bad := 0, used := 0, parity := false }

def fl0 (d : Dev) (n : Nat) : Floe := { d.floe n with st := .running, pc := 0x3060, queues := qs0, n := [1, 2, 3, 4, 5, 6, 7, 8] }

def sFl (b : Nat) (g : Floe → Floe := id) (n : Nat := 0) (dv : Dev → Dev := id) : State := sd0 fun d => dv (d.setFloe n (g { fl0 d n with icache := [icl 0x3060 b] }))

def counted (s : State) (d : Dev) (n : Nat) : Bool := decide (d.reg64 (rFloeCycles n) = s.dev.reg64 (rFloeCycles n) + 1 ∧
    d.dram = s.dev.dram ∧ d.ls = s.dev.ls)

def cached (f : Floe) (b : Nat) : Bool := match f.icache.find? (fun x => x.line == BitVec.ofNat 29 (f.pc.toNat / 128)) with
  | some x => !x.parity && x.bad == 0 && b == bits x.data.toNat (256 * (f.pc.toNat / 32 % 4) + 255) (256 * (f.pc.toNat / 32 % 4))
  | none => false

def tDisp (b : Nat) (g : Floe → Floe := id) : Bool × Bool :=
  let n : Fin 136 := 0
  let s := sFl b g; let f := s.dev.floe n
  let d := after (.dispatchCycle n) s
  (f.st == .running && cached f b && decide (bundleLegal b = none ∧ f.guardTrue (bundleHeader b) = true ∧ f.badEnds b = none ∧
      f.bundles.length < 512 ∧ hdrWaitCond (bundleHeader b) = 0 ∧ bundleSlot b 0 = 0) &&
      [1,2,3,4,5].all fun e => bundleSlot b e == 0 || decide ((f.engine e).length < 256),
   counted s d n && decide ((d.floe n).pc = f.pc + 32 ∧ (d.floe n).st = .running ∧ (d.floe n).n = f.n) &&
    (match (d.floe n).bundles.getLast? with
     | some k => decide ((d.floe n).bundles = f.bundles ++ [k] ∧ k.pc = f.pc ∧ k.header = bundleHeader b ∧ k.released = true ∧ k.skipped = false) &&
       [1,2,3,4,5].all fun e => k.open_.getLsbD e == decide (bundleSlot b e ≠ 0) &&
           (if bundleSlot b e = 0 then (d.floe n).engine e == f.engine e else
         match ((d.floe n).engine e).getLast? with
         | some c => decide ((d.floe n).engine e = f.engine e ++ [c] ∧ c.bundle = k.number ∧ c.pc = f.pc ∧ c.word = BitVec.ofNat 48 (bundleSlot b e) ∧ c.nregs = f.n ∧ c.issued = false ∧ c.performed = false)
         | none => false)
     | none => false))

def copyW : Nat := vw 0x19 0 0 1 0 0 2 0

/-- Witness of `Obligations.DispatchCycles`: bundles of several commands. -/
theorem witness_DispatchCycles_dispatch : ok [tDisp 0, tDisp (bun 0 0 copyW 0 0 0 (0xB * 2^19)),
    tDisp (bun (9 : Nat) 0 copyW (4 * 2^35) 0 0 (0xB * 2^19)),
    tDisp (bun 0 0 copyW (4 * 2^35) 0 0 0) (fun f => { f with engines := [[], [], [], [], [], [eng0]] })] = true := by decide +kernel

def tSkip : Bool × Bool :=
  let n : Fin 136 := 0; let b := bun 1 (1 * 2^26 + 5) copyW 0 0 0 0
  let s := sFl b; let f := s.dev.floe n; let d := after (.dispatchCycle n) s
  (cached f b && decide (bundleLegal b = none ∧ f.guardTrue (bundleHeader b) = false),
   counted s d n && decide ((d.floe n).pc = f.pc + 32 ∧ (d.floe n).engines = f.engines ∧ (d.floe n).n = f.n ∧
       d.reg64 (rFloeSkipped n) = s.dev.reg64 (rFloeSkipped n) + 1))

def tIll (b : Nat) : Bool × Bool :=
  let n : Fin 136 := 0
  let s := sFl b; let f := s.dev.floe n; let d := after (.dispatchCycle n) s
  match bundleLegal b with
  | none => (false, false)
  | some (slot, code) => (cached f b, counted s d n && decide ((d.floe n).st = .halting ∧ (d.floe n).halt = some (BitVec.ofNat 8 code, f.pc, Fin.ofNat 8 slot) ∧
          (d.floe n).pc = f.pc ∧ (d.floe n).engines = f.engines ∧ (d.floe n).haltAtDispatch = true))

def tMiss : Bool × Bool :=
  let n : Fin 136 := 135
  let s := sFl 0 (fun f => { f with icache := [icl 0x4060 0] }) 135; let f := s.dev.floe n; let d := after (.dispatchCycle n) s
  (f.st == .running && f.icache.all (fun x => x.line != BitVec.ofNat 29 (f.pc.toNat / 128)), counted s d n &&
      decide (BitVec.ofNat 29 (f.pc.toNat / 128) ∈ (d.floe n).fetching ∧ (d.floe n).pc = f.pc ∧ (d.floe n).bundles = f.bundles ∧
      (d.floe n).engines = f.engines))

/-- A cycle while a scalar command holds the front end. -/
def tHold (k : Nat) : Bool × Bool :=
  let n : Fin 136 := 7; let s := sFl 0 (fun f => { f with hold := k }) 7; let f := s.dev.floe n; let d := after (.dispatchCycle n) s
  (f.st == .running && decide (0 < f.hold), counted s d n && d.floe n == { f with hold := f.hold - 1 })

/-- Witness of `Obligations.DispatchCycles`: skipped and illegal bundles, misses. -/
theorem witness_DispatchCycles_others : ok ([tSkip, tMiss, tHold 3, tHold 1] ++ [tIll 0x40000000, tIll (bun 0 1 0 0 0 0 0),
    tIll (bun 0 0 0 0 0 0 (31 * 2^19)), tIll 0x80]) = true := by decide +kernel
-- units

def brec (k : Nat) (h : BitVec 32) (rel due : Bool) (op : BitVec 6 := 0) : BundleRec := { number := k, pc := 0x3000, header := h, skipped := false, released := rel, open_ := op, signalled := due }

def tFill : Bool × Bool :=
  let n : Fin 136 := 0; let l : BitVec 29 := BitVec.ofNat 29 (0x3000 / 128)
  let s := sFl 0 (fun f => { f with icache := [], fetching := [5, l] }) 0 (fun d => ready (.floe 0 0 l.toNat) 0x3040 0x222 false (ready (.floe 0 0 l.toNat) 0x3000 0x111 false d))
  match (s.dev.tsvReads { origin := .floe 0 0 l.toNat, port := 1, cls := 1, field := (s.dev.floeAccess 0).field } [l.toNat * 128, l.toNat * 128 + 64]).1 with
  | some [x, y] => let d := after (.icacheLineFill n l) s
    (decide (s.dev.mayAccess (s.dev.floeAccess (s.dev.logicalOf n)) (l.toNat * 128) false = true ∧ s.dev.regionHeld (l.toNat * 128) = false ∧
        x.poison = false ∧ y.poison = false ∧ x.data = 0x111),
     decide (l ∉ (d.floe n).fetching) && (d.floe n).icache.any fun e => decide (e.line = l ∧ e.bad = 0 ∧ e.parity = false ∧
         e.data = BitVec.ofNat 1024 (x.data.toNat + 2 ^ 512 * y.data.toNat)))
  | _ => (false, false)

/-- A header that waits: flag 5 set and clears it, signals counter 7 by increment. -/
def hw (cond idx cnt : Nat) : BitVec 32 := BitVec.ofNat 32 (cond * 2^4 + idx * 2^7 + cnt * 2^13)

def tWait (cond idx cnt : Nat) (lf : Logical → Logical) : Bool × Bool :=
  let n : Fin 136 := 0; let w : WaitEnt := { number := 3, pc := 0x3000, header := hw cond idx cnt, since := 5, period := 0 }
  let s := sFl 0 (fun f => { f with waitList := [w, { w with number := 4 }], bundles := [brec 3 (hw cond idx cnt) false false, brec 4 0 false false] }) 0 fun d => d.setLogi 0 (lf (d.logi 0))
  match (s.dev.logi 0).test (hdrWaitCounter w.header) (hdrWaitIndex w.header) (hdrWaitCond w.header) with
  | some l => let d := after (.waitRelease n) s
    ((s.dev.floe n).waits, decide (d.logi 0 = l ∧ (d.floe n).waitList = [{ w with number := 4 }]) &&
        (d.floe n).bundles.all fun b => b.number != 3 || b.released)
  | none => (false, false)

/-- Witness of `Obligations.FrontEndUnits`: line fills and waits. -/
theorem witness_FrontEndUnits_waits : ok ([tFill] ++ [tWait 1 5 0 fun l => { l with flags := 0x20 },
    tWait 3 63 0 fun l => { l with flags := 2^63 }, tWait 6 63 1 fun l => { l with counters := [(63, 9)], limits := [(63, 9)] },
    tWait 2 0 1 id]) = true := by decide +kernel

def tSig (op idx cnt : Nat) : Bool × Bool :=
  let n : Fin 136 := 0; let h := BitVec.ofNat 32 (op * 2^14 + idx * 2^17 + cnt * 2^23)
  let s := sFl 0 (fun f => { f with bundles := [{ brec 3 h true false with }] })
  let f := s.dev.floe n
  match f.bundle 3 with
  | some b => let d := after (.headerSignal n 3) s
    (b.due && f.active, decide (d.logi 0 = (s.dev.logi 0).signal (hdrSigCounter b.header) (hdrSigIndex b.header) (hdrSigOp b.header)) && (match (d.floe n).bundle 3 with | some b' => b'.signalled | none => false) && (List.range 128).all fun g => g == 0 || d.logi g == s.dev.logi g)
  | none => (false, false)

/-- Witness of `Obligations.FrontEndUnits`: header signals. -/
theorem witness_FrontEndUnits_signals : ok [tSig 1 5 0, tSig 3 63 1, tSig 2 0 0] = true := by decide +kernel

def vc (w : Nat) : ECmd := { eng0 with word := BitVec.ofNat 48 w, issued := false, tags := [], sent := false, bundle := 3, nregs := [1,2,3,4,5,6,7,8] }

def tIssueE (e : Fin 6) (c : ECmd) : Bool × Bool :=
  let n : Fin 136 := 0
  let s := sFl 0 fun f => { f with engines := setAt 6 [] f.engines e [c], bundles := [brec 3 0 true false 2] }
  let f := s.dev.floe n; let ops := slotQueues e c.word.toNat
  let d := after (.engineIssue n e) s
  (decide (e ≠ 0 ∧ f.mayIssue = true ∧ (f.engine e).find? (fun c => !c.issued) = some c ∧
      ((f.bundle c.bundle).map (·.released)).getD true = true ∧ (ops.map (·.q)).Nodup ∧ (∀ o ∈ ops, f.operandWait o = none ∧
      (f.queue o.q).isSome)),
   ((d.floe n).engine e).any (fun c' => decide (c'.number = c.number ∧ c'.word = c.word ∧ c'.issued = true ∧ c'.waiting = none)) &&
       ops.all fun o => match f.queue o.q, (d.floe n).queue o.q with
     | some q, some q' => if o.push then decide (q'.slot q.fill = .filling ∧ q'.fill = (q.fill + 1) % q.depth ∧ q'.head = q.head) else decide (q'.slot q.head = .reading ∧ q'.fill = q.fill ∧ q'.head = q.head)
     | _, _ => false)

/-- Witness of `Obligations.FrontEndUnits`: engines take commands. -/
theorem witness_FrontEndUnits_issue : ok [tIssueE 1 (vc copyW), tIssueE 1 (vc (vw 4 0 0 1 3 4 2 0)), tIssueE 5 (vc (0xB * 2^19)),
    tIssueE 3 (vc 0)] = true := by decide +kernel

def tComp (e : Fin 6) : Bool × Bool :=
  let n : Fin 136 := 0; let c := { vc copyW with issued := true, performed := true }
  let s := sFl 0 fun f => { f with engines := setAt 6 [] f.engines e [c, { c with number := 10 }], bundles := [brec 3 0 true false 63] }
  let f := s.dev.floe n; let d := after (.engineCommandComplete n e) s
  (f.active && c.nbos.isEmpty && c.tags.isEmpty && c.words.isEmpty, decide ((d.floe n).engine e = [{ c with number := 10 }]) &&
      (d.floe n).bundles.all (fun b => b.number != c.bundle || !b.open_.getLsbD e) &&
      (d.floe n).storesDone == f.storesDone + (if e = 4 then 1 else 0) &&
      [0,1,2,3,4,5].all fun k => k == e.val || (d.floe n).engine k == f.engine k)

def tRet (st : FloeSt) (more : Bool) : Bool × Bool :=
  let n : Fin 136 := 0
  let s := sFl 0 fun f => { f with st := st, bundles := brec 3 0 true true :: if more then [brec 4 0 true true] else [] }
  let f := s.dev.floe n; let d := after (.bundleRetire n) s
  (f.active, decide ((d.floe n).bundles = f.bundles.tail ∧ d.reg64 (rFloeBundles n) = s.dev.reg64 (rFloeBundles n) + 1 ∧
      (d.floe n).st = if f.st = .ending ∧ f.bundles.tail = [] then .idle else f.st))

def tHalted (atD : Bool) : Bool × Bool :=
  let n : Fin 136 := 0
  let s := sFl 0 fun f => { f with st := .halting, halt := some (5, 0x3000, 3), haltAtDispatch := atD, engines := if atD then f.engines else [[], [], [], [{ vc 0 with faulted := true }], [], []], bundles := if atD then [] else [brec 3 0 true true 63] }
  let f := s.dev.floe n; let d := after (.floeHalted n) s
  ((atD || f.bundles.all fun b => !b.due) && f.engines.all fun es => es.all fun c => c.faulted && c.nbos.isEmpty && c.tags.isEmpty && c.words.isEmpty, decide ((d.floe n).st = .halted ∧ (d.floe n).halt = f.halt ∧
      (d.floe n).queues = f.queues ∧ (d.floe n).n = f.n) && (List.range 9).all fun k => ((d.floe n).engine k).isEmpty)

/-- Witness of `Obligations.FrontEndUnits`: completion, retirement and halts. -/
theorem witness_FrontEndUnits_complete : ok [tComp 4, tComp 1, tComp 0, tComp 5, tRet .ending false, tRet .ending true, tRet .running false,
    tRet .halting false, tHalted true, tHalted false] = true := by decide +kernel
-- scalars

def tScal : List (String × Bool) :=
  let n : Fin 136 := 0; let s := sFl 0 id 0 fun d => { d.setLogi 0 { d.logi 0 with epoch := 0x1234 } with time := 0xFEDCBA9876543210, ls := d.ls.writeWord (lsIndex 0 0x1FFFC0) (BitVec.ofNat 512 (0x8765432112345678 * 2 ^ (64 * 7))) 0 }
  let f := s.dev.floe n
  let cnt := fun (d : Dev) (v : Nat → BitVec 48) => (List.range 8).all (fun k => (d.floe n).nreg k == v k) &&
      { d.floe n with n := f.n } == f && (List.range 136).all (fun m => m == 0 || d.floe m == s.dev.floe m) &&
      d == ({ s.dev with floes := d.floes } : Dev).settle
  let w := fun (i : Instr) (a : Nat) (v : BitVec 48) => cnt (after i s) fun k => if k = a then v else f.nreg k
  [("movi", w (.movi n 7 0xFFFF) 7 0xFFFF), ("ins", w (.insi n 2 2 0xABCD) 2 0xABCD00000003), ("ins", w (.insi n 2 0 0xABCD) 2 0xABCD),
      ("mov", w (.mov n 0 7) 0 8), ("addi", w (.addi n 0 0xFFFE) 0 0xFFFFFFFFFFFF), ("add", w (.scalarAdd n 3 3) 3 8), ("sub",
      w (.scalarSub n 0 1) 0 0xFFFFFFFFFFFF),
   ("shl", w (.shli n 0 47) 0 (2^47)), ("shl", w (.shli n 0 63) 0 0), ("shr", w (.shri n 7 3) 7 1), ("andi", w (.andi n 6 0xFFFE) 6 6),
       ("ep", w (.epoch n 5) 5 0x1234),
   ("time", cnt (after (.time n 3 4) s) fun k => if k = 4 then 0xFEDC else if k = 3 then 0xBA9876543210 else f.nreg k), ("time",
       cnt (after (.time n 3 3) s) fun k => if k = 3 then 0xFEDC else f.nreg k),
   ("ldr", w (.ldr n 1 0x3FFFF) 1 0x432112345678 && !f.inQueue (8 * 0x3FFFF) 8)]

/-- Witness of `Obligations.ScalarCounters`: every scalar command. -/
theorem witness_ScalarCounters : (tScal.all fun p => p.2) = true := by decide +kernel

def tCtl : List (String × Bool) :=
  let n : Fin 136 := 0; let s := sFl 0 id 0 fun d => { d with ls := d.ls.writeWord (lsIndex 0 0x8000) (BitVec.ofNat 512 (0x400 + 3 * 2 ^ 16 + 1 * 2^24 + 4 * 2^28 + 1023 * 2^32)) 0 }
  let f := s.dev.floe n
  let oth := fun (d : Dev) => (List.range 136).all (fun m => m == 0 || d.floe m == s.dev.floe m) &&
      d == ({ s.dev with floes := d.floes } : Dev).settle
  let cm := fun (k : Fin 4) (a b : Fin 8) (br : Bool) (imm : BitVec 16) =>
    let y := if br then f.nreg b else imm.zeroExtend 48
    let d := after (.cmp n k a br b imm) s
    oth d && (d.floe n).guard (2 * k.val) == (f.nreg a == y) && (d.floe n).guard (2 * k.val + 1) == decide (f.nreg a < y) &&
        { d.floe n with cmps := f.cmps } == f && (List.range 8).all fun i => i / 2 == k.val || (d.floe n).guard i == f.guard i
  let d1 := after (.cmpx n 2) s; let d2 := after (.br n 0x3FFFFFF) s; let d3 := after (.endProgram n) s; let d4 := after (.icinv n) s
  let d5 := after (.qfree n 2) s; let d5b := after (.qfree n 31) s
  let x := fieldAt (s.dev.ls.readWord (lsIndex 0 0x8000)).data.toNat 0 8
  let d6 := after (.qcfg n 31 0x1000) s
  [("cmp", cm 0 0 1 true 0), ("cmp", cm 3 4 0 false 5), ("cmp", cm 3 4 0 false 4), ("cmpself", cm 1 4 4 true 4), ("cmpx", oth d1 &&
      !(d1.floe n).guard 4 && { d1.floe n with cmps := f.cmps } == f), ("br", oth d2 && d2.floe n == { f with pc := f.pc - 32 }),
   ("end", oth d3 && d3.floe n == { f with st := .ending }), ("icinv", oth d4 && d4.floe n == { f with icache := [] }),
   ("qfree", f.queueIdle 2 && oth d5 && (d5.floe n).queue 2 == none &&
       (List.range 32).all (fun r => r == 2 || (d5.floe n).queue r == f.queue r) && { d5.floe n with queues := f.queues } == f), ("qfree",
       f.queueIdle 31 && oth d5b && (d5b.floe n).queue 31 == none),
   ("qcfgH", f.queueIdle 31 && bits x 26 24 == 1 && bits x 30 28 == 4 && decide (0x400 * 64 + 1024 * 256 ≤ 2^21) &&
       !({ f with queues := tabErase f.queues 31 } : Floe).inQueue 0x10000 (1024*256)), 
   ("qcfg", oth d6 && { d6.floe n with queues := f.queues } == f &&
       (d6.floe n).queue 31 == some { base := 0x10000, tile := 256, producer := 1, consumer := 4, depth := 1024, head := 0, fill := 0, slots := [] })]

/-- Witness of `Obligations.ScalarControl`: comparators, branches, queues. -/
theorem witness_ScalarControl : (tCtl.all fun p => p.2) = true := by decide +kernel

/-! ### Vector, matrix and load commands -/

def lsFill (base words : Nat) (d : Dev) : Dev := { d with ls := (List.range words).foldl (fun m k => m.writeWord (lsIndex 0 (base + 64 * k)) (BitVec.ofNat 512 (0x3F80400040404080C0A0 * (k + 3) * 2 ^ 256 + 0x3F8000004000000040400000 + k)) 0) d.ls }

/-- A floe whose engine `e` performs a command with word `w` on given operands. -/
def cE (w : Nat) (srcs : List (Nat × Nat × Bool)) (dst : Option (Nat × Nat)) : ECmd := { vc w with issued := true, srcs := srcs, dst := dst }

def sE (e : Nat) (c : ECmd) (g : Floe → Floe := id) (dv : Dev → Dev := id) : State := sFl 0 (fun f => g { f with engines := setAt 6 [] f.engines e [c], bundles := [brec 3 0 true false 63] }) 0 (fun d => dv (lsFill 0x3000 1 (lsFill 0x1000 1 d)))

def performs (d : Dev) (n e op : Nat) (c : ECmd) : Bool := d.sys.phase.live && (d.floe n).active && (d.floe n).current e == some c &&
    engineOp e c.word == op

def doneP (d : Dev) (n e : Nat) (c : ECmd) : Bool := ((d.floe n).engine e).any fun c' => c'.number == c.number && c'.performed &&
    c'.srcs.isEmpty && c'.dst == none

def holdsT (d d' : Dev) (n off size : Nat) (t : Tile) : Bool :=
  ((List.range (size / 64)).all fun k => (d'.ls.readWord (lsIndex n (off + 64 * k))).data == BitVec.ofNat 512 (t.data >>> (512 * k)) &&
      (d'.ls.readWord (lsIndex n (off + 64 * k))).poison == t.poison.testBit k) &&
  ([0, 1, 0x3F, 0x40, 0x41, 0x7F, 0x80, 0x84, 0x90, 0x1FF, 0x200, 0x240, 0x400, 0x401, 0x402, 32768,
      32768 + 0x80].all fun w => (List.range (size / 64)).any (fun k => w == lsIndex n (off + 64 * k)) || d'.ls.readWord w == d.ls.readWord w)

def vrow (op : Nat) : Instr := match ([Instr.vecAdd 0, .vecSub 0, .vecMul 0, .vecFma 0, .vecMax 0, .vecMin 0, .vecAbs 0, .vecNeg 0,
    .vecRcp 0, .vecRsqrt 0, .vecExp2 0, .vecLog2 0, .vecCvt 0, .vecMxq 0, .vecRsum 0, .vecRmax 0, .vecAnd 0, .vecOr 0, .vecXor 0, .vecShl 0,
    .vecShr 0, .vecCmplt 0, .vecCmpeq 0, .vecSel 0, .vecCopy 0] : List Instr)[op - 1]? with
  | some i => i
  | none => .vecCopy 0

def tVec (op fmt bm : Nat) (imm : Nat := 0) (q2 : Nat := 256) : Bool × Bool :=
  let n := 0; let useB0 := vecUsesB op && bm != 1
  let w := vw op fmt bm 1 (if useB0 then 3 else 0) (if vecUsesC op then 4 else 0) 2 imm
  let c := cE w ([(1, 0, false)] ++ (if useB0 then [(3, 0, false)] else []) ++ if vecUsesC op then [(4, 0, true)] else []) (some (2, 0))
  let s := sE 1 c fun f => { f with queues := [(1, some (tq 0x1000 256 3 1 2 [(0, .reading)])), (2, some (tq 0x2000 q2 1 4 2 [(0, .filling)])), (3, some (tq 0x3000 256 3 1 2 [(0, .reading)])), (4, some (tq 0x4000 256 3 1 2 [(0, .reading)]))] }
  let v := vslot c.word.toNat; let f := vfmtOf v.fmt; let useB := vecUsesB v.op && v.bmode != 1
  let none' : Tile := { size := 0, data := 0, poison := 0 }
  let ta := source s.dev n c 0
  let tb := if useB then source s.dev n c 1 else none'
  let tc := if vecUsesC v.op then source s.dev n c (if useB then 2 else 1) else none'
  let at_ := (s.dev.floe n).slotPlace 2 0
  let t := vecTile v ta tb tc at_.2
  let d := after (vrow op) s
  (performs s.dev n 1 op c && vecLegal w == 0, holdsT s.dev d n at_.1 at_.2 t && doneP d n 1 c && d.dram == s.dev.dram && (match (d.floe n).queue 2 with | some x => x.slot 0 == .ready | none => false) &&
   (!((op ≤ 0x0C ∨ 0x11 ≤ op) && ta.size ≤ at_.2) || (List.range (ta.size * 8 / f.bits)).all fun k =>
      let y := if v.bmode == 1 then immB f v.imm else tb.elem f.bits (bIndex v k)
      t.elem f.bits k == vecElem op f (ta.elem f.bits k) y (tc.elem f.bits k) % 2 ^ f.bits))

/-- States that meet the hypotheses of `Obligations.VectorCommands`: every opcode. -/
theorem witness_VectorCommands_opcodes : okHyp ((List.range 25).map fun k => let op := k + 1; tVec op (if 0x11 ≤ op ∧
    op ≤ 0x15 then 2 else 0) 0 (if op = 0x0D then 0x10 else if op = 0x0E then 8 else 0)) = true := by decide +kernel

/-- States that meet the hypotheses of `Obligations.VectorCommands`: other formats and broadcast modes. -/
theorem witness_VectorCommands_forms : okHyp [tVec 1 1 1 0x3F80, tVec 1 2 2 3, tVec 4 3 3 5, tVec 0x18 0 1 7, tVec 0x17 2 1 0xFFFF,
    tVec 3 1 2 15] = true := by decide +kernel

/-- States that meet the hypotheses of `Obligations.VectorCommands`: other tile sizes. -/
theorem witness_VectorCommands_sizes : okHyp [tVec 0x0D 0 0 0x35 1024, tVec 0x0F 0 0 2 64, tVec 0x10 2 0 15 64] = true := by decide +kernel

def mw (op fmt acc a b dd fl : Nat) : Nat := op * 2^35 + fmt * 2^31 + acc * 2^29 + a * 2^23 + b * 2^17 + dd * 2^12 + fl

def tMat (op fmt acc fl : Nat) : Bool × Bool :=
  let n : Fin 136 := 0
  let c := cE (mw op fmt acc (if op = 1 ∨ op = 3 then 1 else 0) (if op = 1 then 3 else 0) (if op = 2 then 2 else 0) fl) (if op = 1 then [(1,
      0, false), (3, 0, true)] else if op = 3 then [(1, 0, false)] else []) (if op = 2 then some (2, 0) else none)
  let tsz := if op = 3 then 4096 else if fmt = 8 ∨ fmt = 9 then 1600 else if fmt = 10 then 1088 else 256
  let s := sE 2 c fun f => { f with accPoison := 5, acc := [7, 8, 9, 10], queues := [(1, some (tq 0x1000 tsz 3 2 2 [(0, .reading)])), (2, some (tq 0x8000 4096 2 4 2 [(0, .filling)])), (3, some (tq 0x3000 tsz 3 2 2 [(0, .reading)]))] }
  let m := mslot c.word.toNat
  let accOf := fun (d : Dev) (k : Nat) => ((d.floe n).acc[k]?).getD 0
  let flag := fun (d : Dev) => (d.floe n).accPoison.getLsbD m.acc
  let ta := source s.dev n c 0; let tb := source s.dev n c 1
  let d := after (if op = 1 then .mma n else if op = 2 then .drain n else if op = 3 then .accld n else .accz n) s
  (performs s.dev n 2 op c && matLegal c.word.toNat == 0, (List.range 4).all (fun k => k == m.acc || accOf d k == accOf s.dev k) &&
      doneP d n 2 c && d.dram == s.dev.dram &&
   (if op = 1 then accOf d m.acc == mma m (accOf s.dev m.acc) ta tb && d.ls == s.dev.ls && flag d == ((flag s.dev &&
       !m.z) || ta.anyPoison || tb.anyPoison)
    else if op = 2 then holdsT s.dev d n 0x8000 4096 { size := 4096, data := (accOf s.dev m.acc).toNat, poison := if flag s.dev then 2 ^ 64 - 1 else 0 } && accOf d m.acc == (if m.z then 0 else accOf s.dev m.acc) && flag d == (if m.z then false else flag s.dev)
    else if op = 3 then accOf d m.acc == BitVec.ofNat 32768 ta.data && flag d == (flag s.dev || ta.anyPoison) && d.ls == s.dev.ls
    else accOf d m.acc == 0 && flag d == false && d.ls == s.dev.ls))

/-- Witness of `Obligations.MatrixCommands`: ACCZ. -/
theorem witness_MatrixCommands_clear : ok [tMat 4 0 2 0] = true := by decide +kernel

/-- States that meet the hypotheses of `Obligations.MatrixCommands`: each command. -/
theorem witness_MatrixCommands : okHyp [tMat 1 1 0 0, tMat 1 3 3 (2^11), tMat 1 7 2 (2^9), tMat 1 2 1 (2^10), tMat 2 0 0 0,
    tMat 2 0 2 (2^11), tMat 3 0 3 0, tMat 4 0 2 0] = true := by decide +kernel
-- loads

/-- A tensor descriptor: base, format, mode, gather dimension, remote, and each dimension's size, stride and tile. -/
def td (base fmt mode gdim remote perm : Nat) (dims : List (Nat × Nat × Nat)) : DescEntry :=
  { bytes := BitVec.ofNat 1024 (base + fmt * 2^64 + dims.length * 2^72 + mode * 2^80 + gdim * 2^88 + remote * 2^96 + perm * 2^112 + ((dims.zipIdx).map fun p => p.1.1 * 2 ^ (8 * (24 + 4 * p.2)) + p.1.2.1 * 2 ^ (8 * (48 + 8 * p.2)) + p.1.2.2 * 2 ^ (8 * (96 + 2 * p.2))).foldl (· + ·) 0), poison := false }

/-- The words that a command has asked device memory for, as they have come. -/
def gotOf (as : List Nat) : List (Nat × Line × Bool) := as.map fun a => (a, BitVec.ofNat 512 (0x1122334455667788 * (a / 64) + (a + 5) * 2 ^ 300), false)

def getD (c : ECmd) (st : Bool) : Option TDesc := match c.descOf st with
  | .ok t => some t
  | .error _ => none

/-- What `Claims.Readable` says. -/
def readWs (d : Dev) (n : Nat) (c : ECmd) (t : TDesc) (as : List Nat) : Option (List (Nat × Line × Bool)) :=
  let loc := fun (m : Nat) => if (as.all fun a => !(d.floe m).inQueue a 64) && (d.floe n).trkOpen 3 != 0 then
    some (as.map fun a => (a, (d.ls.readWord (lsIndex m a)).data, (d.ls.readWord (lsIndex m a)).poison)) else none
  match t.space with
  | 1 => loc n
  | 2 => (d.remoteSlot t.remote).bind loc
  | _ => if as.isEmpty then some [] else if c.sent && c.tags.isEmpty && c.words.isEmpty then some c.got else none

/-- What `Claims.InFabric` says. -/
def inFabric (d : Dev) (n e : Nat) (c : ECmd) (w : StoreW) : Bool :=
  (d.chan (d.place w.addr).ch).driftIn.any fun r => r.origin == .floe (BitVec.ofNat 7 (d.logicalOf n)) e c.number &&
    r.addr == BitVec.ofNat 36 w.addr && r.write == decide (e = 4) && r.masked == !w.whole && r.mask == w.mask && r.keep == w.keep &&
    r.poison == w.poison && (e != 4 || r.data == [w.data])

def qsL (tile : Nat) : Tab (Option TileQ) := [(1, some (tq 0x1000 64 3 3 2 [(0, .reading)])), (2, some (tq 0x2000 tile 3 1 2 [(0,
    .filling)]))]

/-- LDT, LDG, LDL or LDQ with entry 7 of the table. -/
def tLoad (op : Nat) (e : DescEntry) (x k : Nat) (tile : Nat) (dv : Dev → Dev := id) : Bool × Bool :=
  let n : Fin 136 := 0; let off := 0x10000
  let w := op * 2^43 + (match op with
    | 1 => 2 * 2^32 + 7 * 2^24 + x * 2^16 + k
    | 2 => 1 * 2^37 + 2 * 2^32 + 7 * 2^24 + x * 2^16
    | 3 => 7 * 2^24 + x * 2^16 + 2^20 + 7 * 2^21 + off / 64
    | _ => 2 * 2^32 + off / 64)
  let c0 := { cE w (if op = 2 then [(1, 0, false)] else []) (if op = 3 then none else some (2, 0)) with entry := some e }
  -- the words of device memory, in the order of the requests
  let as := match getD c0 false with
    | some t => if op = 2 then
        let s1 := sE 3 c0 (fun f => { f with queues := qsL tile }) dv
        let it := source s1.dev n c0 0
        let idx := (List.range (it.size / 4)).map it.index
        bitWords ((idx.zipIdx).flatMap fun p => if t.indexUse p.1 = some true then (t.sliceElems (it.size / 4) p.2 p.1).map fun q => some q.2 else [])
      else bitWords ((t.tileBits k 0).getD [])
    | none => []
  let c := { c0 with sent := true, got := gotOf as }
  let s := sE 3 c (fun f => { f with queues := qsL tile, n := [1,2,3,4,5,6,7,k], engines := setAt 6 [] f.engines 3 [{ c with nregs := [1,2,3,4,5,6,7,BitVec.ofNat 48 k] }] }) dv
  let c := { c with nregs := [1,2,3,4,5,6,7,BitVec.ofNat 48 k] }
  let at_ := (s.dev.floe n).slotPlace 2 0
  let d := after (if op = 1 then .ldt n else if op = 2 then .ldg n else if op = 3 then .ldl n else .ldq n) s
  let pushes := fun (t : Tile) => holdsT s.dev d n at_.1 at_.2 t && doneP d n 3 c && d.dram == s.dev.dram
  let hyp := performs s.dev n 3 op c && loadLegal w == 0
  if op = 4 then (hyp && s.dev.ownRange n off at_.2, pushes (s.dev.tileRead n off at_.2).1)
  else match getD c false with
  | none => (false, false)
  | some t =>
    let it := source s.dev n c 0
    let idx := (List.range (it.size / 4)).map it.index
    let live := idx.map fun v => if t.indexUse v = some true then some v else none
    match (if op = 2 then some (t.gatherBits live x) else t.tileBits k x) with
    | none => (false, false)
    | some bs => match readWs s.dev n c t as with
      | none => (false, false)
      | some ws =>
        (hyp && descOk e.bytes && t.xformOk x && (if op = 1 then decide (t.tb ≤ at_.2) else if op = 2 then !it.anyPoison &&
            decide (t.gatherBytes (it.size / 4) ≤ at_.2) && idx.all (fun v => (t.indexUse v).isSome) else s.dev.ownRange n off t.tb),
         if op = 3 then
          let tile := tileOf (ceilDiv t.tb 64 * 64) t.eb (bs.map (elemAt ws t.eb))
          (List.range t.tb).all (fun j => d.ls.byte (n.val * 2 ^ 21 + off + j) == BitVec.ofNat 8 (tile.data >>> (8 * j))) &&
          [0, off - 1, off + (t.tb + 63) / 64 * 64, off + 0x1000, 0x1000, 2^21 + off].all (fun k => d.ls.byte k == s.dev.ls.byte k) &&
              doneP d n 3 c && d.dram == s.dev.dram
         else pushes (tileOf at_.2 t.eb (bs.map (elemAt ws t.eb))))

/-- Witness of `Obligations.LoadCommands`: LDT and LDL. -/
theorem witness_LoadCommands_done : ok [tLoad 1 (td 0x3000 0 4 0 0 0 [(40, 1, 16)]) 0 2 64, tLoad 3 (td 0x3000 2 4 0 0 0 [(40, 1,
    5)]) 0 7 64] = true := by decide +kernel

/-- States that meet the hypotheses of `Obligations.LoadCommands`: each command, space and mode. -/
theorem witness_LoadCommands_forms : okHyp [tLoad 1 (td 0x3000 0 4 0 0 0 [(40, 1, 16)]) 0 0 64, tLoad 1 (td 0x20000 6 5 0 0 0 [(8, 1, 8),
    (4, 8, 4)]) 2 0 128, tLoad 1 (td 0x3000 7 4 1 0 0 [(40, 1, 32), (2, 40, 1)]) 0 1 64, tLoad 2 (td 0x3000 0 4 0 0 0 [(400, 1,
    1)]) 0 0 64 (fun d => { d with ls := d.ls.writeWord (lsIndex 0 0x1000) 0 0 }), tLoad 3 (td 0x3000 0 4 0 0 0 [(40, 1, 16)]) 0 1 64,
    tLoad 4 (td 0 0 0 0 0 0 []) 0 0 64] = true := by decide +kernel
-- space 3

def grpW (d : Dev) : Dev :=
  let d := { d with links := (List.range 5).map fun l => (l, upLink), group := { Group.init with member := true, founder := 2, epoch := 5, set := 0xC } }
  [(rGrpStat, (BitVec.ofNat 32 (0x80000000 + 3) : BitVec 32)), (rGrpRoute 0, 0xFFFFF1F1), (rGrpCfg,
      10)].foldl (fun (d : Dev) p => d.setReg p.1 p.2) d

/-- LDT before its requests have gone out: of this device, or of device 2. -/
def tReqL (rem : Bool) (fmt : Nat) (dims : List (Nat × Nat × Nat)) : Bool × Bool :=
  let n : Fin 136 := 0; let w := 2^43 + 2 * 2^32 + 7 * 2^24
  let c := { cE w [] (some (2, 0)) with entry := some (td 0x3000 fmt (if rem then 7 else 4) 0 2 0 dims) }
  let s := sE 3 c (fun f => { f with queues := qsL 128 }) (if rem then grpW else id)
  match getD c false with
  | none => (false, false)
  | some t => match t.tileBits 0 0 with
    | none => (false, false)
    | some os => let d := after (.ldt n) s; let as := bitWords os
      (performs s.dev n 3 1 c && t.xformOk 0 && decide (t.tb ≤ s.dev.dstSize n c) && !as.isEmpty && !c.sent && c.pos == 0 &&
          decide (as.length ≤ (s.dev.floe n).trkOpen 3) &&
          (if rem then t.space == 3 && s.dev.workingRoute t.remote == some 1 else t.space == 0 && as.all fun a => s.dev.mayAccess (s.dev.floeAccess 0) a false),
        decide (d.ls = s.dev.ls ∧ d.dram = s.dev.dram) &&
          (if rem then d.remotes.length == s.dev.remotes.length + as.length
           else as.all (fun a => inFabric d n 3 c (readOf a)) && ((d.floe n).engine 3).any fun c' => c'.number == c.number && c'.sent && c'.words == as))

/-- Witness of `Obligations.LoadCommands`: the requests of LDT. -/
theorem witness_LoadCommands_remote : ok [tReqL true 0 [(64, 1, 32)], tReqL false 0 [(64, 1, 32)], tReqL false 6 [(8, 1, 8), (4, 300, 4)]] = true := by decide +kernel

/-! ### Store commands -/

def sW (op : Nat) (srcs : List (Nat × Nat × Bool)) (w : Nat) (e : DescEntry) (dv : Dev → Dev := id) (cg : ECmd → ECmd := id) : State :=
  let c := cg { cE (w + op * 2^27) srcs none with entry := some e }
  sE 4 c (fun f => { f with queues := [(1, some (tq 0x1000 64 4 4 2 [(0, .reading)])), (3, some (tq 0x3000 64 4 4 2 [(0, .reading)]))] }) dv

def cur (s : State) (e : Nat) : ECmd := ((s.dev.floe 0).current e).getD eng0

def remSlot (t : TDesc) (d : Dev) : Option Nat := if t.space = 1 then some 0 else d.remoteSlot t.remote

def storesOk (s : State) (i : Instr) (t : TDesc) (ws : List StoreW) : Bool × Bool :=
  let n := 0; let c := cur s 4; let d := after i s
  if t.space = 0 then
    (ws.all (fun w => s.dev.mayAccess (s.dev.floeAccess 0) w.addr true) && !c.sent && c.pos == 0 && decide (ws.length ≤ (s.dev.floe n).trkOpen 4) && !ws.isEmpty,
     ws.all (fun w => inFabric d n 4 c w) && doneP d n 4 c && d.ls == s.dev.ls && d.dram == s.dev.dram)
  else if t.space = 3 then
    (!c.sent && c.pos == 0 && s.dev.workingRoute t.remote == some 1 && decide (ws.length ≤ (s.dev.floe n).trkOpen 4 ∧
        s.dev.remotes.length + ws.length ≤ 4096), decide (d.remotes.length = s.dev.remotes.length + ws.length ∧ d.ls = s.dev.ls ∧
        d.dram = s.dev.dram) && !ws.isEmpty)
  else match remSlot t s.dev with
   | none => (false, false)
   | some m => ((s.dev.floe n).trkOpen 4 != 0 && ws.all (fun x => !(s.dev.floe m).inQueue x.addr 64) && decide (ws.map fun x => lsIndex m x.addr).Nodup && !ws.isEmpty,
       doneP d n 4 c && d.dram == s.dev.dram &&
           (ws.all fun x => (List.range 64).all fun j => lineByte (d.ls.readWord (lsIndex m x.addr)).data j == if x.mask.getLsbD j then lineByte (keepBits (s.dev.ls.readWord (lsIndex m x.addr)).data x.data x.keep) j else lineByte (s.dev.ls.readWord (lsIndex m x.addr)).data j) &&
       ([0, 0x40, 0x800, lsIndex m 0x20000, lsIndex m 0x20040,
           lsIndex m 0x20080].all fun k => ws.any (fun x => k == lsIndex m x.addr) || d.ls.readWord k == s.dev.ls.readWord k))

def tStt (e : DescEntry) (k : Nat) (dv : Dev → Dev := id) : Bool × Bool :=
  let s := sW 1 [(1, 0, false)] (7 * 2^13 + k) e dv; let c := cur s 4; let src := source s.dev 0 c 0
  match c.descOf true with
  | .error _ => (false, false)
  | .ok t => match t.tileBits k 0 with
    | none => (false, false)
    | some bs =>
      let r := storesOk s (.stt 0) t (storeGroup t.eb ((bs.zipIdx).filterMap fun p => p.1.map fun b => (b, src.elem t.eb p.2,
          src.elemPoison t.eb p.2)))
      (r.1 && performs s.dev 0 4 1 c && storeLegal c.word.toNat == 0 && descOk e.bytes && decide (t.tb ≤ src.size), r.2)

/-- Witness of `Obligations.StoreCommands`: STT to each space. -/
theorem witness_StoreCommands_stt : ok [tStt (td 0x3000 0 8 0 0 0 [(40, 1, 16)]) 0] = true := by decide +kernel

/-- States that meet the hypotheses of `Obligations.StoreCommands`: STT at the edge of its tensor, and to each space. -/
theorem witness_StoreCommands_sttForms : okHyp [tStt (td 0x3000 0 8 0 0 0 [(40, 1, 16)]) 2, tStt (td 0x20000 7 9 1 0 0 [(40, 1, 32), (2, 40,
    1)]) 1, tStt (td 0x20000 1 10 0 1 0 [(40, 1,
    16)]) 0 (fun d => ((d.setReg (rDriftField 0) 0x80000000).setFloe 1 { d.floe 1 with st := .idle })), tStt (td 0x3000 0 11 0 2 0 [(64, 1,
    16)]) 0 grpW] = true := by decide +kernel

def idxT (xs : List Nat) (d : Dev) : Dev := { d with ls := d.ls.writeWord (lsIndex 0 0x3000) (BitVec.ofNat 512 ((xs.zipIdx).map fun p => p.1 * 2 ^ (32 * p.2)).sum) 0 }

def tSts (e : DescEntry) (acc : Nat) (pos : Nat) (xs : List Nat) (dv : Dev → Dev := id) : Bool × Bool :=
  let s := sW 2 [(1, 0, false), (3, 0,
      false)] (7 * 2^13 + 1 * 2^21 * 0 + acc * 2^5) e (fun d => idxT xs (dv d)) (fun c => { c with pos := pos }); let c := cur s 4;
      let src := source s.dev 0 c 0
  let w := c.word.toNat
  match c.descOf true with
  | .error _ => (false, false)
  | .ok t =>
    let it := source s.dev 0 c 1
    let count := it.size / 4
    let idx := (List.range count).map it.index
    let slices := ((idx.zipIdx).filter fun p => t.indexUse p.1 = some true).map fun p => (p.2,
        (t.sliceElems count p.2 p.1).map fun e => (e.2, src.elem t.eb e.1, src.elemPoison t.eb e.1))
    let hyp := performs s.dev 0 4 2 c && storeLegal w == 0 && descOk e.bytes && decide (t.gatherBytes count ≤ src.size) && !it.anyPoison &&
        idx.all fun v => (t.indexUse v).isSome
    if !w.testBit 6 then let r := storesOk s (.sts 0) t (storeGroup t.eb (slices.flatMap (·.2))); (hyp && r.1, r.2)
    else match scatFmt t.fmt with
      | none => (false, false)
      | some fmt =>
       let d := after (.sts 0) s
       if t.space = 0 then
        match (s.dev.scatNbos t fmt (w.testBit 5) slices)[c.pos]? with
        | none => (false, false)
        | some (desc, _) => (hyp && (s.dev.floe 0).trkOpen 4 != 0 && s.dev.nbos.isEmpty, (match d.nbos.getLast? with
           | some y => decide (d.nbos = s.dev.nbos ++ [y] ∧ y.desc = desc ∧ y.poster = .floe 0 c.number ∧ y.accepted = false ∧ y.field = (s.dev.floeAccess 0).field ∧ y.secure = (s.dev.floeAccess 0).secure ∧ (nboDesc desc).valid = true)
           | none => false) && d.dram == s.dev.dram && d.ls == s.dev.ls && ((d.floe 0).engine 4).any fun c' => c'.number == c.number && c'.pos == c.pos + 1 && !c'.performed)
       else match slices.flatMap (·.2) with
        | [e] => let a := e.1 / 512 * 64
                 let element := fun (d : Dev) => ((d.ls.readWord (lsIndex 0 a)).data.toNat >>> (e.1 % 512)) % 2 ^ t.eb
                 let nd := nboDesc (BitVec.ofNat 512 (scatCtrl fmt false))
                 (hyp && e.1 % t.eb == 0 && (s.dev.floe 0).trkOpen 4 != 0 && !(s.dev.floe 0).inQueue a 64, doneP d 0 4 c && d.dram == s.dev.dram &&
                     element d == accwElem nd (element s.dev) (bankVal nd e.2.1) % 2 ^ t.eb)
        | _ => (false, false)

def ix16 := (List.range 16).map (· * 2)

/-- States that meet the hypotheses of `Obligations.StoreCommands`: STS in each mode. -/
theorem witness_StoreCommands_sts : okHyp [tSts (td 0x3000 0 8 0 0 0 [(40, 1, 1)]) 0 0 ix16, tSts (td 0x3000 0 8 0 0 0 [(40, 1,
    1)]) 2 0 ix16, tSts (td 0x3000 0 8 0 0 0 [(40, 1, 1)]) 3 15 ix16, tSts (td 0x20000 0 25 0 0 0 [(3, 1,
    1)]) 2 0 (2 :: List.replicate 15 99), tSts (td 0x20000 5 25 0 0 0 [(3, 1,
    1)]) 2 0 (2 :: List.replicate 15 99)] = true := by decide +kernel

def tStl : List (Bool × Bool) :=
  let s := sW 3 [(1, 0, false)] (0x20000) (td 0 0 0 0 0 0 []); let c := cur s 4; let src := source s.dev 0 c 0
  let d := after (.stl 0) s
  let off := 64 * bits c.word.toNat 20 6
  let s2 := sW 4 [(1, 0, false)] (0x20000) (td 0 0 0 0 0 0 []); let c2 := cur s2 4; let src2 := source s2.dev 0 c2 0
  let d2 := after (.nbop 0) s2
  [(performs s.dev 0 4 3 c && storeLegal c.word.toNat == 0 && s.dev.ownRange 0 off src.size, holdsT s.dev d 0 off src.size src &&
      doneP d 0 4 c && d.dram == s.dev.dram),
   (performs s2.dev 0 4 4 c2 && s2.dev.ownRange 0 off (src2.size / 16) && decide (c2.pos < src2.size / 64) && s2.dev.nbos.isEmpty && !src2.poison.testBit c2.pos,
       match d2.nbos.getLast? with
           | some y => decide (d2.nbos = s2.dev.nbos ++ [y] ∧ y.desc = BitVec.ofNat 512 (src2.data >>> (512 * c2.pos)) ∧ y.poster = .floe 0 c2.number ∧ y.accepted = false) && ((d2.floe 0).engine 4).any fun c' => c'.number == c2.number && c'.pos == c2.pos + 1 && !c'.performed
           | none => false)]

/-- States that meet the hypotheses of `Obligations.StoreCommands`: STL and NBOP. -/
theorem witness_StoreCommands_stl : okHyp tStl = true := by decide +kernel

/-- Witness of `Obligations.StoreCommands`: STS that accumulates, STS that stores, NBOP. -/
theorem witness_StoreCommands_done : ok ([tSts (td 0x3000 0 8 0 0 0 [(40, 1, 1)]) 2 0 ix16, tSts (td 0x3000 0 8 0 0 0 [(40, 1,
    1)]) 0 0 ix16] ++ tStl.drop 1) = true := by decide +kernel
-- sync

def sy (op : Nat) (w : Nat) : ECmd := { vc (op * 2^19 + w) with issued := true, number := 9, bundle := 3, next := 0x3080, nafter := [9, 9, 9, 9, 9, 9, 9, 9] }

def sS (c : ECmd) (dv : Dev → Dev := id) (g : Floe → Floe := id) : State := sE 5 c (fun f => g { f with bundles := [brec 3 0 true true 32] }) (fun d => dv (d.setReg (rSemOwn 1023) 0x80808080))

/-! ### Synchronisation and descriptors -/

def syncs (d : Dev) (n op : Nat) (c : ECmd) : Bool := d.sys.phase.live && (d.floe n).active && (d.floe n).current 5 == some c &&
    syncOp c.word == op && syncLegal c.word.toNat == 0

def synced (d : Dev) (n : Nat) (c : ECmd) : Bool := ((d.floe n).engine 5).any fun c' => c'.number == c.number && c'.performed

def held (d : Dev) (n : Nat) (c : ECmd) : Bool := ((d.floe n).engine 5).any fun c' => c'.number == c.number && !c'.performed &&
    c'.waiting.isSome

def ownsS (d : Dev) (n : Nat) (c : ECmd) : Bool := d.semOwned (d.floeField n) (syncSem c.word) && !d.semPoisoned (syncSem c.word)

def srow (op : Nat) : Instr := match op with
  | 1 => .sigr 0 | 2 => .tlset 0 | 3 => .tadd 0 | 4 => .semadd 0 | 5 => .seminc 0 | 6 => .semset 0 | 7 => .semwait 0 | 8 => .semtake 0 | 9 => .send 0 | 10 => .recv 0 | _ => .commit 0

def onlyL (s : State) (d : Dev) (c : ECmd) (f : Nat) (l : Logical) : Bool := synced d 0 c && d.logi f == l &&
    ((List.range 128).all fun g => g == f || d.logi g == s.dev.logi g) && d.sems == s.dev.sems && d.dram == s.dev.dram

def semIs (s : State) (d : Dev) (c : ECmd) (v : BitVec 64) : Bool := let sem := syncSem c.word
  synced d 0 c && d.sem sem == v && ([0,1,2,3,4,4092,4093,4094,4095].all fun k => k == sem || d.sem k == s.dev.sem k) &&
      d.logical == s.dev.logical && d.dram == s.dev.dram

def tSigr (target cnt idx op : Nat) : Bool × Bool :=
  let c := sy 1 (target * 2^12 + cnt * 2^11 + idx * 2^5 + op * 2^2); let s := sS c; let d := after (.sigr 0) s
  if s.dev.sameField 0 target then (syncs s.dev 0 1 c,
      onlyL s d c target ((s.dev.logi target).signal (c.word.toNat.testBit 11) (bits c.word.toNat 10 5) (bits c.word.toNat 4 2)))
  else (syncs s.dev 0 1 c, (d.floe 0).st == .halting && d.logical == s.dev.logical)

/-- Witness of `Obligations.SyncObjects`: targets and operations. -/
theorem witness_SyncObjects_sigr : ok [tSigr 0 0 63 1, tSigr 3 1 0 3, tSigr 4 1 0 3, tSigr 127 0 0 2,
    tSigr 1 0 5 2] = true := by decide +kernel

def tObj : List (Bool × Bool) :=
  let c2 := sy 2 (63 * 2^13 + 7 * 2^10); let s2 := sS c2; let d2 := after (.tlset 0) s2
  let c3 := sy 3 (0 * 2^13 + 0 * 2^10); let s3 := sS c3 fun d => d.setLogi 0 { d.logi 0 with counters := [(0, 0xFFFFFFFF)] };
      let d3 := after (.tadd 0) s3
  let sm := fun (op k : Nat) (v : BitVec 64) => let c := sy op (k * 2^7 + if op = 5 then 0 else 7 * 2^4); (c,
      sS c fun d => { d with sems := if v = 0 then [] else [(k, v)] })
  let (c4, s4) := sm 4 0 0xFFFFFFFFFFFFFFFF; let d4 := after (.semadd 0) s4
  let (c4b, s4b) := sm 4 4 0; let d4b := after (.semadd 0) s4b
  let (c5, s5) := sm 5 4095 0xFFFFFFFFFFFFFFFF; let d5 := after (.seminc 0) s5
  let s5p := { s5 with dev := { s5.dev with semPoison := [(4095, true)] } }; let d5p := after (.seminc 0) s5p
  let (c6, s6) := sm 6 3 77; let d6 := after (.semset 0) s6
  [(syncs s2.dev 0 2 c2, onlyL s2 d2 c2 0 ((s2.dev.logi 0).setLimit 63 ((c2.nx 7).truncate 32))), (syncs s3.dev 0 3 c3,
      onlyL s3 d3 c3 0 ((s3.dev.logi 0).setCounter 0 ((s3.dev.logi 0).counter 0 + (c3.nx 0).truncate 32))),
   (syncs s4.dev 0 4 c4 && ownsS s4.dev 0 c4, semIs s4 d4 c4 (s4.dev.sem 0 + (c4.nx 7).zeroExtend 64)), (syncs s4b.dev 0 4 c4b &&
       !s4b.dev.semOwned (s4b.dev.floeField 0) 4, (d4b.floe 0).st == .halting && d4b.sems == s4b.dev.sems),
   (syncs s5.dev 0 5 c5 && ownsS s5.dev 0 c5, semIs s5 d5 c5 0), (syncs s5p.dev 0 5 c5 && s5p.dev.semPoisoned 4095,
       (d5p.floe 0).st == .frozen && fld (d5p.reg (rFreeze 0)) 27 24 == 6 && d5p.sems == s5p.dev.sems),
   (syncs s6.dev 0 6 c6 && ownsS s6.dev 0 c6, semIs s6 d6 c6 ((c6.nx 7).zeroExtend 64))]

/-- Witness of `Obligations.SyncObjects`: flags, counters and semaphores. -/
theorem witness_SyncObjects_objects : ok tObj = true := by decide +kernel

def msg0 (b : BitVec 256) : Msg := { bytes := b, cmd := none }

def stMsg : Msg := { bytes := 0x99, cmd := none }

def tSend (target w4 : Nat) (frz : Bool) (self : Logical → Logical := id) : Bool × Bool :=
  let c := { sy 9 (target * 2^12 + w4 * 2^11) with nregs := [1, 2^47, 3, 4, 5, 6, 7, 0xFFFFFFFFFFFF] }
  let s := sS c (fun d => (if frz then d.setFloe target { d.floe target with st := .frozen } else d).setLogi 0 (self (d.logi 0)))
  let d := after (.send 0) s
  (syncs s.dev 0 9 c && s.dev.sameField 0 target && decide ((s.dev.logi 0).allowance < 64) && s.dev.frozenFloe target == frz &&
      decide ((s.dev.logi target).data.length < 64 ∧ (s.dev.logi 0).statuses.length < 64),
   if frz then synced d 0 c && (d.logi target).data == (s.dev.logi target).data && (match (d.logi 0).statuses.getLast? with | some m => (d.logi 0).statuses == (s.dev.logi 0).statuses ++ [m] && m.kind == 1 | none => false)
   else synced d 0 c && (d.logi 0).sent == (s.dev.logi 0).sent + 1 && (d.logi 0).allowance == (s.dev.logi 0).allowance + 1 &&
       (match (d.logi target).data.getLast? with
     | some m => (d.logi target).data == (s.dev.logi target).data ++ [m] && m.cmd == none && m.bytes == msgBytes 0 (s.dev.logi 0).epoch.toNat (s.dev.logi 0).sent.toNat 0 ((List.range 4).foldr (fun k x => (c.nx (4 * bits c.word.toNat 11 11 + k)).toNat + 2 ^ 48 * x) 0)
     | none => false))

def tRecv (k : Nat) (sts dat : List Msg) (cmds : List Cmd := []) : Bool × Bool :=
  let c := sy 0xA (k * 2^16); let s := sS c fun d => { (d.setLogi 0 { d.logi 0 with statuses := sts, data := dat }) with cmds := cmds }
  let d := after (.recv 0) s
  let got := fun (x : Msg) => synced d 0 c &&
      (List.range 8).all fun j => (d.logi 0).counter (8 * bits c.word.toNat 18 16 + j) == BitVec.ofNat 32 (fieldAt x.bytes.toNat (4 * j) 4)
  (syncs s.dev 0 10 c, match sts, dat with
   | x :: r, _ => got x && (d.logi 0).statuses == r && (d.logi 0).data == dat
   | [], x :: r => got x && (d.logi 0).data == r && (cmds.isEmpty || ended d 1 0 0 0 0)
   | [], [] => held d 0 c && d.logical == s.dev.logical)

/-- Witness of `Obligations.SyncObjects`: SEND and RECV. -/
theorem witness_SyncObjects_messages : ok ([tSend 3 1 false, tSend 0 0 false,
    tSend 1 0 false (fun l => { l with sent := 0xFFFF, allowance := 63 }), tSend 2 0 true] ++ [tRecv 7 [stMsg, msg0 1] [msg0 5],
    tRecv 0 [] [{ msg0 (2^255 + 3) with cmd := some (1, 0) }, msg0 2] [{ c0 with packet := pk 7 0, posted := true }], tRecv 1 [] [msg0 7],
    tRecv 1 [] []]) = true := by decide +kernel

def needs (k op v : Nat) (q : List (BitVec 7 × Nat)) : Bool × Bool :=
  let c := sy op (k * 2^7 + 7 * 2^4);
      let s := sS c fun d => { d with sems := [(k, BitVec.ofNat 64 v)], semQ := if q.isEmpty then [] else [(k, q)] }
  let d := after (srow op) s; let need := (c.nx 7).zeroExtend 64; let queue := fun (d : Dev) => tabGet (fun _ => []) d.semQ k
  let mine : BitVec 7 × Nat := (0, c.number)
  (syncs s.dev 0 op c && ownsS s.dev 0 c, if op = 7 then (if need ≤ s.dev.sem k then synced d 0 c && d.sems == s.dev.sems else held d 0 c &&
      d.sems == s.dev.sems)
   else match queue s.dev with
    | x :: rest => if x == mine then (if need ≤ s.dev.sem k then synced d 0 c && d.sem k == s.dev.sem k - need && queue d == rest else held d 0 c && queue d == mine :: rest && d.sems == s.dev.sems)
                   else if (x :: rest).contains mine then true else held d 0 c && queue d == x :: rest ++ [mine] && d.sems == s.dev.sems
    | [] => if need ≤ s.dev.sem k then synced d 0 c && d.sem k == s.dev.sem k - need && (queue d).isEmpty else held d 0 c && queue d == [mine] && d.sems == s.dev.sems)

/-- Witness of `Obligations.SyncWaits`: waits and takes at their bounds. -/
theorem witness_SyncWaits_semaphores : ok [needs 3 7 8 [], needs 3 7 7 [], needs 4095 8 8 [], needs 0 8 7 [], needs 0 8 8 [(0, 9), (3, 4)],
    needs 0 8 7 [(0, 9), (3, 4)], needs 0 8 9 [(3, 4)]] = true := by decide +kernel

def tCommit : List (Bool × Bool) :=
  let c := sy 0xB 0; let s := sS c; let d := after (.commit 0) s
  let c2 := { c with sent := true };
      let s2 := sS c2 (fun d => d.setLogi 0 { d.logi 0 with mark := some { seq := 0xFFFFFFFF, epoch := 1, resume := 0, n := [], time := 0 }, epoch := 5 }) (fun f => { f with engines := setAt 6 [] f.engines 4 [{ vc 0 with bundle := 4 }] })
  let d2 := after (.commitMarkWrite 0) s2
  let s3 := sS c2; let d3 := after (.commitMarkWrite 0) s3
  let ok := fun (s : State) (d : Dev) => synced d 0 c2 && (match (d.logi 0).mark with
    | some m => decide (m.resume = c2.next ∧ m.n = c2.nafter ∧ m.epoch = (s.dev.logi 0).epoch ∧ m.time = s.dev.time ∧ m.seq = (match (s.dev.logi 0).mark with | some o => o.seq + 1 | none => 1))
    | none => false)
  [(syncs s.dev 0 0xB c, ((d.floe 0).engine 5).any (fun c' => c'.number == c.number && c'.sent && !c'.performed) &&
      d.logical == s.dev.logical),
   (syncs s2.dev 0 0xB c2 && (s2.dev.floe 0).storesDoneTo c2.bundle, ok s2 d2), (syncs s3.dev 0 0xB c2 &&
       (s3.dev.floe 0).storesDoneTo c2.bundle, ok s3 d3)]

def hubIdle (d : Dev) (n : Nat) : Bool := (d.floe n).waitList.isEmpty && (d.floe n).bundles.all fun b => !b.due

def tHub (drift : Fin 32) (op w : Nat) : Bool × Bool :=
  let c := sy op w; let s := sS c
  (syncs s.dev 0 op c && s.dev.cmds.isEmpty && s.dev.sram.isEmpty && hubIdle s.dev 0 && s.dev.syncHub 0 c == some drift.val && s.dev.slotsByFloe.contains 0 &&
      s.dev.slotsByFloe.all fun m => m == 0 || (hubIdle s.dev m && (s.dev.floe m).current 5 == none),
   after (.hubCycle drift) s == after (srow op) s)

def tHubW : Bool × Bool :=
  let w : WaitEnt := { number := 3, pc := 0x3000, header := hw 3 5 0, since := 5, period := 0 }
  let s := sFl 0 (fun f => { f with waitList := [w], bundles := [brec 3 (hw 3 5 0) false false] }) 0 fun d => d.setLogi 0 { d.logi 0 with flags := 0x20 }
  ((s.dev.floe 0).bundles.all (fun b => !b.due) && (s.dev.floe 0).current 5 == none, after (.hubCycle 0) s == after (.waitRelease 0) s &&
      (after (.hubCycle 0) s).logi 0 != s.dev.logi 0)

/-- One command of ring 1 can end, and its SEM lies in hub 3. -/
def tHubEnd : Bool × Bool :=
  let c := { c0 with packet := BitVec.ofNat 512 (1 + 384 * 2 ^ 64), done := some { status := 0, r0 := 0, r1 := 0 } }
  let s := withC c fun d => (d.setReg (rSemOwn 96) 0x80808080)
  (decide (s.dev.hubEnds 3 = [(1, 0)]) && s.dev.sram.isEmpty && s.dev.slotsByFloe.all fun m => hubIdle s.dev m && (s.dev.floe m).current 5 == none,
   after (.hubCycle 3) s == after (.commandEnd 1 0) s && (after (.hubCycle 3) s).sem 384 == 1)

def tDog (slot6 : Bool) (st : FloeSt) : Bool × Bool :=
  let c := { sy 7 0 with waiting := some (5, 3000, 10) }
  let w : WaitEnt := { number := 3, pc := 0x3000, header := hw 3 5 0, since := 2999, period := 20 }
  let s := sS c id fun f => { f with st := st, waitList := if slot6 then [w] else [] , halt := if st = .halting then some (1, 2, 3) else none }
  match (s.dev.floe 0).oldestWait with
  | none => (false, false)
  | some (t, p, pc, sl) => let d := after (.syncWatchdogExpiry 0) s
    (p != 0 && sl == (if slot6 && st != .halting then 6 else 5), decide ((d.floe 0).st = .halting ∧ t + 2000 * p ≤ d.clock ∧
        ((s.dev.floe 0).st ≠ .halting → (d.floe 0).halt = some (6, pc, Fin.ofNat 8 sl)) ∧ d.dram = s.dev.dram))

/-- Witness of `Obligations.SyncWaits`: commits, hub cycles and the watchdog. -/
theorem witness_SyncWaits_commit : ok (tCommit ++ [tHubW, tHubEnd] ++ [tHub 0 1 (3 * 2^12 + 1 * 2^2), tHub 0 2 (63 * 2^13), tHub 0 3 (63 * 2^13),
    tHub 31 4 (4095 * 2^7), tHub 0 5 0, tHub 0 6 (3 * 2^7 + 7 * 2^4)] ++ [tDog true .running, tDog false .ending, tDog false .halting,
    tDog true .halting]) = true := by decide +kernel
-- descriptors

def stageD (e : BitVec 1024) (n : Nat) (d : Dev) : Dev := (List.range 32).foldl (fun d k => d.setReg (rDtStage n k) (BitVec.ofNat 32 (e.toNat / 2 ^ (32 * k)))) d

def tDt (e : BitVec 1024) (st : FloeSt) (i : Fin 256) : List (Bool × Bool) :=
  let n : Fin 136 := 0
  let s := sd0 fun d => stageD e 0 (d.setFloe 0 { d.floe 0 with st := st, desc := [(3, some (td 0x3000 0 4 0 0 0 [(40, 1, 16)])), (255, some (td 0x9000 0 4 0 0 0 [(40, 1, 16)]))] })
  let f := s.dev.floe 0; let (code, x, y) := s.dev.dtCheck 0
  let stat := fun (k : Nat) (d : Dev) => d.reg (rDtStatus n) == BitVec.ofNat 32 (i.val * 256 + k)
  let d := after (.dtCreate agS n i) s; let di := after (.dtInvalidate agS n i) s; let da := after (.dtInvalidateAll agS n) s;
      let dr := after (.dtReadBack agS n i) s
  let quiet := st = .idle ∨ st = .halted
  [(s.dev.reaches agS && s.dev.letIn (s.dev.rights agS) (rDtCmd n) == .ok, if quiet then (if code = 0 then stat 0 d &&
      (d.floe n).entry i == some { bytes := s.dev.dtStage n ||| BitVec.ofNat 1024 (x * 2 ^ 896 + y * 2 ^ 960), poison := false } &&
      (List.range 256).all (fun k => k == i.val || (d.floe n).entry k == f.entry k) && d.reg64 (rDtFirst n) == BitVec.ofNat 64 x &&
      d.reg64 (rDtLast n) == BitVec.ofNat 64 y
       else stat code d && d.floe n == f) else stat 6 d && d.floe n == f),
   (true, if quiet then stat 0 di && (di.floe n).entry i == none &&
       (List.range 256).all (fun k => k == i.val || (di.floe n).entry k == f.entry k) else stat 6 di && di.floe n == f),
   (true, !(quiet ∨ st = .frozen) || ((List.range 256).all (fun k => (da.floe n).entry k == none) && da.reg (rDtStatus n) == 0)),
   (true, match f.entry i with
     | some e => stat 0 dr && dr.floe n == f && dr.dtStage n == e.bytes && dr.reg64 (rDtFirst n) == BitVec.ofNat 64 (fieldAt e.bytes.toNat 112 8) && dr.reg64 (rDtLast n) == BitVec.ofNat 64 (fieldAt e.bytes.toNat 120 8)
     | none => stat 7 dr && dr.floe n == f)]

/-- Witness of `Obligations.DescriptorCommands`: commands in each state. -/
theorem witness_DescriptorCommands : ok ([tDt (td 0x3000 0 4 0 0 0 [(40, 1, 16)]).bytes .idle 255, tDt (td 0x3000 0 4 0 0 0 [(40, 1,
    16)]).bytes .halted 0, tDt (td 0x3001 0 4 0 0 0 [(40, 1, 16)]).bytes .idle 3, tDt 0 .frozen 3, tDt 0 .running 3,
    tDt (td 0x800000 0 4 0 0 0 [(40, 1, 16)]).bytes .idle 3].flatten) = true := by decide +kernel

/-! ### Freezes, repairs and moraine -/

def fzS (g : Floe → Floe) (dv : Dev → Dev := id) (n : Nat := 5) : State := sd0 fun d => dv ((d.setFloe n (g { fl0 d n with ident := some (BitVec.ofNat 7 n), engines := [[], [vc copyW], [], [], [], [{ sy 8 (3 * 2^7 + 7 * 2^4) with number := 9 }]], waitList := [{ number := 3, pc := 0, header := 0, since := 0, period := 0 }], bundles := [brec 3 0 true false 1], fetching := [7] })).setLogi n { d.logi n with statuses := [stMsg], epoch := 0xFFFF, data := [msg0 1] })

def frozen (s d : Dev) (n cause : Nat) (lf : BitVec 7) : Bool :=
  let r := s.reg (rFreeze n)
  decide ((d.floe n).st = .frozen ∧ (d.floe n).fencing = true ∧ (d.floe n).ident = some lf ∧ (d.logi lf.toNat).statuses = [] ∧
      d.reg64 (rFreezeTime n) = s.time ∧
      d.reg (rFreeze n) = BitVec.ofNat 32 (0xC0000000 + cause * 2 ^ 24 + if cause = 3 then min 3 (fld r 1 0 + 1) else fld r 1 0) ∧
          d.dram = s.dram ∧ d.ls = s.ls)

def tFault (cause : Fin 16) (st : FloeSt) (cnt : Reg) : Bool × Bool :=
  let n : Fin 136 := 5; let s := fzS (fun f => { f with st := st }) (fun d => d.setReg (rFreeze 5) cnt); let f := s.dev.floe n
  let d := after (.floeFault n cause) s
  (f.ident == some 5 && f.st != .frozen && f.st != .unassigned, frozen s.dev d n cause.val 5 && if cause = 6 then (match f.semOf with
      | some sm => d.semPoisoned sm && d.sems == s.dev.sems
      | none => false)
    else (d.floe n).n == f.n && (d.floe n).queues == f.queues && (d.floe n).engines == f.engines && (cause != 5 || (d.logi 5).ue) &&
        (List.range 136).all fun m => m == 5 || d.floe m == s.dev.floe m)

/-- Witness of `Obligations.FloesFreeze`: faults in each state. -/
theorem witness_FloesFreeze_fault : ok [tFault 3 .running 2, tFault 3 .idle 3, tFault 4 .halted 1, tFault 5 .running 0, tFault 7 .ending 3,
    tFault 6 .running 3] = true := by decide +kernel

def tFz : Bool × Bool :=
  let n : Fin 136 := 5; let s := fzS (fun f => { f with st := .frozen, fencing := true }) fun d => { d with semQ := [(3, [(4, 1), (5, 9), (5, 8)]), (4, [(5, 1)])] }; let f := s.dev.floe n
  let d := after (.floeFreezeStart n) s
  (f.fencing && f.ident == some 5, (List.range 6).all (fun k => ((d.floe n).engine k).isEmpty) && decide ((d.floe n).waitList = [] ∧
      (d.floe n).bundles = [] ∧ (d.floe n).fetching = [] ∧ (d.floe n).st = f.st ∧ (d.floe n).n = f.n ∧ (d.floe n).queues = f.queues ∧
      d.dram = s.dev.dram ∧ d.ls = s.dev.ls) &&
     (List.range 9).all fun k => (tabGet (fun _ => []) d.semQ k).all fun x => x.1 != 5)

def tFenced (cause cnt : Nat) (rep : List (Fin 136)) (en : Bool) : Bool × Bool :=
  let n : Fin 136 := 5; let s := fzS (fun f => { f with st := .frozen, fencing := true, engines := List.replicate 6 [], waitList := [], bundles := [], fetching := [], openStores := 65535, storesDone := 70000 }) fun (d : Dev) => { d.setReg (rFreeze 5) (BitVec.ofNat 32 (0xC0000000 + cause * 2^24 + cnt)) with sys := { d.sys with repairRec := en }, fuses := { d.fuses with repair := rep } }
  let f := s.dev.floe n; let r := s.dev.reg (rFreeze n)
  let d := after (.floeFenced n) s
  let bad := fld r 27 24 = 4 ∨ (fld r 27 24 = 3 ∧ fld r 1 0 = 3)
  (f.fencing && f.emptied && !s.dev.floeRequests 5 && decide (f.openStores < 2^16), decide ((d.floe n).fencing = false ∧
      (d.floe n).st = f.st ∧ (d.floe n).ident = some 5 ∧ (d.logi 5).epoch = (s.dev.logi 5).epoch + 1 ∧ (d.logi 5).data = [] ∧
            fld (d.reg (rFreezeStores n)) 31 16 = min 65535 f.storesDone ∧ fld (d.reg (rFreezeStores n)) 15 0 = f.openStores ∧
            (d.floe n).retired = (f.retired || decide bad) ∧
            (bad → s.dev.sys.repairRec = true → s.dev.fuses.repair.length < 16 → n ∉ s.dev.fuses.repair → d.fuses.repair = s.dev.fuses.repair ++ [n]) ∧
            (¬ bad → d.fuses = s.dev.fuses) ∧ d.dram = s.dev.dram))

/-- Witness of `Obligations.FloesFreeze`: freezes and fences. -/
theorem witness_FloesFreeze_fenced : ok ([tFz] ++ [tFenced 4 0 [] true, tFenced 3 3 [1, 2] true, tFenced 3 2 [] true, tFenced 4 0 [5] true,
    tFenced 1 0 [] false, tFenced 4 0 (List.replicate 16 1) true]) = true := by decide +kernel
-- repairs

def tRepair (flip : Bool) : Bool × Bool :=
  let c : Fin 32 := 5
  let s := sd0 fun d => { d.updChan 5 fun k => { k with reqs := [{ sr wn .repair with id := 8, cls := 3, port := 4 }], banks := [(3, { Bank.init with row := some 7, lastAct := some 9000 })] } with dram := let m := d.dram.writeWord wn 0x777 0x80; if flip then { m with synd := tabSet (fun _ => 0) m.synd (8 * wn + 1) (eccCheck 4) } else m }
  let k := s.dev.chan 5; let w := s.dev.dram.readWord wn
  let d := after (.repairWrite c) s
  (w.uncorr == 0 && s.dev.buffered wn == none && s.dev.slotOpen c &&
      (match s.dev.entries c with | [e] => e.kind == .repair 8 && !e.class0 && decide (s.dev.nextCmd c e = .column e.bank true) && s.dev.timingOk c s.dev.clock (.column e.bank true) | _ => false) && (w.corrected != 0) == flip,
      decide ((d.dram.readWord wn).data = w.data ∧ (d.dram.readWord wn).corrected = 0 ∧ (d.dram.readWord wn).marks = w.marks ∧
      (d.chan c).reqs = k.reqs.filter (fun x => x.id != 8)) && [0, wn - 1, wn + 1].all fun j => d.dram.readWord j == s.dev.dram.readWord j)

def tScrub (nx : Nat) : Bool × Bool :=
  let c : Fin 32 := 5
  let s := sd0 fun d => (d.setReg rErrScrub (d.reg rErrScrub ||| 0x80000000)).updChan 5 fun k => { k with reqs := [sr 9], scrubNext := nx, scrubAt := 7000 }
  let k := s.dev.chan 5; let d := after (.patrolScrubVisit c) s
  (rbit (s.dev.reg rErrScrub) 31 && k.reqs.all fun r => r.origin != .scrub, decide (k.scrubAt + s.dev.scrubSlots ≤ d.clock ∧ (d.chan c).scrubAt = k.scrubAt + s.dev.scrubSlots ∧
      (d.chan c).scrubNext = (k.scrubNext + 1) % 2097152 ∧
      (d.chan c).reqs.take k.reqs.length = k.reqs ∧ (d.chan c).reqs.length = k.reqs.length + 16 ∧
      d.reg64 (rErrScrubRows c) = s.dev.reg64 (rErrScrubRows c) + 1 ∧ d.dram = s.dev.dram) &&
     (List.range 16).all fun j => (d.chan c).reqs.any fun r => r.origin == .scrub && r.cls == 3 &&
         r.word == (c.val * 2097152 + k.scrubNext) * 16 + j)

/-- Witness of `Obligations.WordsAreRepaired`: repairs and visits. -/
theorem witness_WordsAreRepaired_visits : ok [tRepair true, tRepair false, tScrub 0, tScrub 2097151] = true := by decide +kernel

def tRecov (mode : Nat) (wait : Bool) : Bool × Bool :=
  let c : Fin 32 := 5; let n : BitVec 30 := BitVec.ofNat 30 wn
  let v : Recovery := { word := wn, since := 8000, sent := true, waiting := if wait then [{ sr wn with cls := 1 }] else [] }
  let s := sd0 fun d => { grpW d with dram := d.dram.writeWord wn 0x777 0x01 }
  let s := { s with dev := s.dev.updChan 5 fun k => { k with recovery := [{ v with word := 3 }, v] } }
  let k := s.dev.chan 5
  let d := after (if mode = 0 then .twinReadResponse c n 0x123 false else if mode = 1 then .twinReadResponse c n 0x123 true else .twinReadTimeout c n) s
  let old := (s.dev.dram.readWord wn).data
  let data := if mode = 0 then 0x123 else old
  (findPos (fun v : Recovery => v.word == wn) k.recovery 0 == some (1, v) && decide ((s.dev.link 4).down = false ∧
      (s.dev.link 4).pauseFrom = none ∧ k.down = false ∧ (s.dev.bankNear c (wordPlace wn).bank).atom = none),
   (d.dram.readWord wn).data == data && (d.dram.readWord wn).marks == (if mode = 0 then 0 else 0xFF) &&
       (d.chan c).recovery == dropAt k.recovery 1 && [0, wn - 1, wn + 1].all (fun j => d.dram.readWord j == s.dev.dram.readWord j) &&
   (d.chan c).readyQ == k.readyQ ++
       (if wait then [({ origin := .host hT, word := wn, cls := 1, index := 0, data := data, poison := mode != 0, since := 9000 } : ReadyWord)] else []) &&
   (match mode with | 0 => d.reg64 (rErrTwinOk c) == s.dev.reg64 (rErrTwinOk c) + 1 | 1 => d.reg64 (rErrTwinFail c) == s.dev.reg64 (rErrTwinFail c) + 1 | _ => decide (8000 + 2000 * fld (s.dev.reg rErrTwin) 15 0 ≤ d.clock)))

/-- Witness of `Obligations.WordsAreRepaired`: recoveries. -/
theorem witness_WordsAreRepaired_recovery : ok [tRecov 0 true, tRecov 0 false, tRecov 1 true, tRecov 2 true,
    tRecov 2 false] = true := by decide +kernel
-- moraine

def ev0 : MorEvent := { time := 7, code := 0x101, sev := 2, rept := false, field := some 3, unit := 9, ukind := 2, addr := 0x123, info := 5 }

def tWin (cnt : Nat) : Bool × Bool :=
  let w : MorWindow := { code := 0x101, ukind := 2, unit := 9, opened := 6000, count := cnt, last := ev0 }
  let s := sd0 fun d => { (d.setReg rMorSeq 4095) with wins := [{ w with unit := 8 }, w] }
  let d := after (.coalesceWindowClose 0x101 2 9) s
  (findPos (fun w : MorWindow => w.code == 0x101 && w.ukind == 2 && w.unit == 9) s.dev.wins 0 == some (1, w), d.wins == dropAt s.dev.wins 1 &&
      decide (w.opened + 2000 * fld (s.dev.reg rMorCfg) 15 0 ≤ d.clock) &&
    (if cnt = 0 then d.reg rMorSeq == 4095 && d.mor == s.dev.mor else d.reg rMorSeq == 4096 &&
        tabGet (fun _ => 0) d.mor 4095 == morBytes 4095 { w.last with rept := true, info := BitVec.ofNat 32 w.count }))

def tCopy (tail head seq : BitVec 32) : Bool × Bool :=
  let s := sd0 fun d => { ((((d.setReg rMorCfg 0x81040000).setReg rMorTail tail).setReg rMorHead head).setReg rMorSeq seq).setReg rMorBase 0x2000 with mor := [(tail.toNat % 4096, 0x1122334455667788)] }
  let k := fld (s.dev.reg rMorCfg) 20 16
  let ab := (s.dev.reg64 rMorBase).toNat % 2 ^ 36 + 32 * (tail.toNat % 2 ^ k); let w := s.dev.wordOf ab
  let d := after .moraineRingCopy s
  (rbit (s.dev.reg rMorCfg) 31 && decide ((tail - head).toNat < 2 ^ k ∧ tail ≠ seq) &&
      (decide (4096 < (seq - tail).toNat) || decide (ab % 32 = 0 ∧ s.dev.cpWaits { origin := .moraine, port := 4, cls := 3, field := none } ab (bytesMask ab 32) = false ∧ s.dev.wordDown w = false ∧
      tabGet (fun _ => false) s.dev.morUe (tail.toNat % 4096) = false)),
   if 4096 < (seq - tail).toNat then decide (d.reg rMorTail = tail + 1 ∧ d.reg64 rMorDrop = s.dev.reg64 rMorDrop + 1 ∧ d.dram = s.dev.dram ∧
       d.chans = s.dev.chans)
   else decide (d.reg rMorTail = tail + 1 ∧ d.reg rMorHead = head) &&
       (List.range 64).all (fun j => lineByte (d.seen w).data j == if ab % 64 ≤ j ∧ j < ab % 64 + 32
            then BitVec.ofNat 8 (fieldAt (tabGet (fun _ => 0) s.dev.mor (tail.toNat % 4096)).toNat (j - ab % 64) 1) else lineByte (s.dev.seen w).data j) && [0, w - 1, w + 1].all fun m => d.seen m == s.dev.seen m)

/-- Witness of `Obligations.MoraineKeeps`: windows and copies. -/
theorem witness_MoraineKeeps_windows : ok [tWin 0, tWin 3, tCopy 0 0 1, tCopy 0xFFFFFFFF 0xFFFFFFF1 5, tCopy 15 0 16, tCopy 7 7 4103,
    tCopy 7 7 4104] = true := by decide +kernel

def tHead (v : Reg) : Bool × Bool :=
  let s := sd0 fun d => (d.setReg rMorTail 3).setReg rMorHead 0xFFFFFFFE
  let seqO := [rMorHead, rMorStat, rMorTail, rMorFatal, rMorCfg]
  let d := after (.morHeadWrite agS v) s; let ok := (v - 0xFFFFFFFE).toNat ≤ 5
  (s.dev.reaches agS && (s.dev.rights agS).secure, d.reg rMorHead == (if ok then v else 0xFFFFFFFE) && (ok || rbit (d.reg rMorStat) 28) &&
      seqO.all (fun o => (ok && o == rMorHead) || (!ok && o == rMorStat) || d.reg o == s.dev.reg o) &&
      d == ({ s.dev with cs := d.cs } : Dev).settle)

def tFatal : Bool × Bool :=
  let s := sd0 fun d => (d.setReg rMorFatal 77).setReg rMorStat 0x30000000
  let d := after (.morFirstFatalClear agS) s
  (true, d.reg rMorFatal == 0 && !rbit (d.reg rMorStat) 29 && rbit (d.reg rMorStat) 28 && d == ({ s.dev with cs := d.cs } : Dev).settle)

/-- Witness of `Obligations.MoraineKeeps`: MOR_HEAD and MOR_FIRST_FATAL. -/
theorem witness_MoraineKeeps_head : ok ([0xFFFFFFFE, 3, 4, 0xFFFFFFFD, 0].map tHead ++ [tFatal]) = true := by decide +kernel

/-! ### The test access port -/

def tapS (level : Nat) (pin : Bool) (dv : Dev → Dev := id) : State := sd0 fun d => dv ((d.setReg rDbgStat (BitVec.ofNat 32 (level * 2^30))).setRegBit rRstStat 31 pin)

def tapOnly (d d' : Dev) : Bool := d' == ({ d with sys := { d.sys with tap := d'.sys.tap } } : Dev).settle

def scanned (d : Dev) (ir cap w : Nat) (drv : Bool) : Bool := let t := d.sys.tap
  t.ir == BitVec.ofNat 8 ir && t.captured == cap && t.width == w && t.driving == drv

def tTap1 : List (String × Bool × Bool) :=
  let s := tapS 1 true; let s0 := tapS 0 false; let s2 := tapS 2 true
  let lv : BitVec 2671 := BitVec.ofNat 2671 (2^2670 + 5); let sh : BitVec 5342 := BitVec.ofNat 5342 (2^5341 + 9)
  let capt := fun (d : Dev) => (List.range 2671).all fun u => d.sys.tap.captured.testBit (2 * u) == lv.getLsbD u &&
      !d.sys.tap.captured.testBit (2 * u + 1)
  let dr := after .testLogicReset s; let di := after .idcode s; let db := after (.bypass 0x99 true) s;
      let db2 := after (.bypass 0x20 true) s0; let db3 := after (.bypass 0x40 false) s
  let ds := after (.samplePreload lv sh) s; let de := after (.extest lv sh) s
  let dc := after (.dbgChal 77) s
  let uid := s.dev.fuses.uid.toNat
  let dcl := after .dbgClose s2; let dct := after (.dbgCtrlClose agS) s2
  [("reset", true, tapOnly s.dev dr && dr.sys.tap.ir == 1 && !dr.sys.tap.driving), ("idcode", s.dev.powered, tapOnly s.dev di &&
      scanned di 1 0x16440A43 32 false),
   ("bypass", !s.dev.tapAvailable 0x99, tapOnly s.dev db && scanned db 0x99 2 2 false), ("bypass", !s0.dev.tapAvailable 0x20,
       scanned db2 0x20 2 2 false), ("bypass", !s.dev.tapAvailable 0x40, scanned db3 0x40 0 2 false),
   ("sample", true, tapOnly s.dev ds && scanned ds 2 ds.sys.tap.captured 5342 false && ds.sys.tap.boundary == sh && capt ds), ("extest",
       decide (1 ≤ s.dev.tapLevel) && s.dev.pinLow, tapOnly s.dev de && scanned de 3 de.sys.tap.captured 5342 true &&
       de.sys.tap.boundary == sh && capt de),
   ("chal", true, tapOnly s.dev dc && scanned dc 0x10 (77 + uid * 2^256) 320 false && dc.sys.tap.nonce == some 77),
   ("close", true, fld (dcl.reg rDbgStat) 31 30 == 0 && !dcl.sys.tap.driving && [rRstStat, rCpStat, rMorCfg,
       rDbgPolicy].all fun o => dcl.reg o == s2.dev.reg o), ("ctrlclose", s2.dev.reaches agS && (s2.dev.rights agS).secure,
       fld (dct.reg rDbgStat) 31 30 == 0 && !dct.sys.tap.driving && [rRstStat, rCpStat, rMorCfg, rDbgPolicy,
       rDbgCtrl].all fun o => dct.reg o == s2.dev.reg o)]

/-- Witness of `Obligations.TestAccessPort`: each instruction. -/
theorem witness_TestAccessPort_instructions : okNamed tTap1 = true := by decide +kernel

def tUnlock (good locked : Bool) (fails : Nat) : Bool × Bool :=
  let pw : Nat := 0xABCDEF; let resp : BitVec 776 := BitVec.ofNat 776 (1 + pw * 2^8)
  let s := sd0 fun d => { (d.setReg rDbgPolicy 0x80000000).setReg rDbgStat (BitVec.ofNat 32 (fails + if locked then 2^28 else 0)) with sys := { d.sys with intDigest := if good then sha384 (toBe 32 pw) else 9, tap := { d.sys.tap with nonce := some 5 } } }
  let d := after (.dbgUnlock resp) s
  let locked' := rbit (s.dev.reg rDbgStat) 28
  if good && !locked then (!locked' && s.dev.unlockOk resp.toNat, fld (d.reg rDbgStat) 31 30 == resp.toNat % 256 &&
      rbit (d.reg rDbgStat) 29 && fld (d.reg rDbgStat) 1 0 == fails && d.sys.tap.nonce == none)
  else (locked' || !s.dev.unlockOk resp.toNat, fld (d.reg rDbgStat) 31 30 == s.dev.tapLevel &&
      fld (d.reg rDbgStat) 1 0 == min 3 (fails + 1) && (fails != 2 || rbit (d.reg rDbgStat) 28) && d.sys.tap.nonce == none)

/-- Witness of `Obligations.TestAccessPort`: unlocking. -/
theorem witness_TestAccessPort_unlock : ok [tUnlock true false 2, tUnlock false false 0, tUnlock false false 2, tUnlock true true 3,
    tUnlock true true 1] = true := by decide +kernel

def tCs (level o v : Nat) (wr : Bool) : Bool × Bool :=
  let s := tapS level false; let x : BitVec 64 := BitVec.ofNat 64 (v + o * 2^32 + if wr then 2^56 else 0)
  let t := s.dev.sys.tap; let r := s.dev.tapRights; let d := after (.csAccess x) s
  let sc := scanned d 0x20 (t.csData.toNat + t.csDone.toNat * 2 ^ 32 + t.csDenied.toNat * 2 ^ 33) 64 false
  if s.dev.letIn r o == .closed then (!wr && bits x.toNat 63 57 == 0, sc && d.sys.tap.csDone && d.sys.tap.csDenied &&
      d.sys.tap.csData == t.csData)
  else match regRow o with
   | none => (false, false)
   | some row => (row.half == 0 && s.dev.letIn r o == .ok && bits x.toNat 63 57 == 0 && o % 4 == 0 && (!wr || ((row.rws == 0 || r.secure) && !s.dev.wordClosed r (o - o % 64) true && s.dev.writeAction r o (BitVec.ofNat 32 x.toNat) == none)),
      sc && d.sys.tap.csDone && !d.sys.tap.csDenied && if wr then d.sys.tap.csData == t.csData &&
          d.reg o == (let y := writeValue row (s.dev.reg o) (BitVec.ofNat 32 v) r.secure;
          if row.rw ||| (if r.secure then row.rws else 0) = 0 then y else storeLimit o y) else tapOnly s.dev d &&
          d.sys.tap.csData == s.dev.regValue o)

/-- Witness of `Obligations.TestAccessPort`: CS_ACCESS. -/
theorem witness_TestAccessPort_access : ok [tCs 1 4 0 false, tCs 2 rErrScrub 0x80000001 true, tCs 2 (rChPage 0) 0xFFFFFFFF true,
    tCs 2 rMorHead 0 false, tCs 1 rDbgCtrl 0 false, tCs 1 rDbgPolicy 0 false] = true := by decide +kernel

def tStack (wir : List (BitVec 8)) (stack : BitVec 17) (cells : List Bool) : List (Bool × Bool) :=
  let s := tapS 2 true fun d => { d with sys := { d.sys with tap := { d.sys.tap with stack := stack, wir := wir } } }
  let t := s.dev.sys.tap
  let d1 := after (.stackSel 0x10001) s
  let codes : List (BitVec 8) := t.dies.map fun k => BitVec.ofNat 8 (k + 3)
  let d2 := after (.wrapIr codes) s
  let d3 := after (.wrapDr cells) s
  [(s.dev.powered && s.dev.tapLevel == 2 && s.dev.pinLow, tapOnly s.dev d1 && scanned d1 0x40 t.stack.toNat 17 false &&
      d1.sys.tap.stack == 0x10001),
   (codes.length == t.dies.length, tapOnly s.dev d2 && d2.sys.tap.ir == 0x41 && d2.sys.tap.width == 8 * codes.length && ((List.range 17).all fun j => match t.dies[j]? with | some k => d2.sys.tap.wir[k]? == codes[j]? | none => true) && (List.range 20).all fun k => t.dies.contains k || (d2.sys.tap.wir[k]?).getD 0 == (t.wir[k]?).getD 0),
   (cells.length == (t.dies.map t.cellCount).foldl (· + ·) 0, d3.sys.tap.ir == 0x42 && d3.sys.tap.width == cells.length && d3.sys.tap.wir == t.wir && d3.dram == s.dev.dram && d3.cs == s.dev.cs && (!(t.dies.all fun k => (t.wir[k]?).getD 0 == 0) || (d3.sys.tap.captured == 0 && d3.sys.tap.cells == t.cells)) && (match t.dies with | [k] => t.cellCount k == 1 || tabGet (fun _ => []) d3.sys.tap.cells k == cells | _ => true))]

/-- Witness of `Obligations.TestAccessPort`: the instructions of the die stack. -/
theorem witness_TestAccessPort_stack : ok ([tStack (List.replicate 17 0) 0x1FFFF (List.replicate 17 true), tStack ([0, 1] ++
    List.replicate 15 0) 2 (List.replicate 624 true), tStack [] 0x10000 [true], tStack ([2] ++
    List.replicate 16 0) 0x10001 (List.replicate 9985 false)].flatten) = true := by decide +kernel

/-! ### Resets, start-up and flash -/

def regs0 : List Nat := [0, 4, rUidLo, rRstCause, rRstStat, rRstCtrl, rDbgStat, rDbgPolicy, rCpStat, rMorCfg, rMorSeq, rMorHead, rThmTrip,
    rThmCfg, rCfgStat, rClkStat, rPwrStat, rRegion 0, rRegion 1, rRegion 32767, rChCfg 0, rHpErr 3, rFreeze 5, rCpTimeout, rSemOwn 0,
    rPwrPhase 0, rPwrPhase 32, rDriftField 0, rHst 0 0, rLnkErr 0, rGrpCfg, rSensor 0, rFlStat, rFlAddr, rErrScrub, rErrTwin,
    rChTsvLane 5 0, rMonProcCtrl]

def hasReset (d d' : Dev) (cause : Nat) (p : Phase) : Bool :=
  rbit (d'.reg rRstCause) cause && rbit (d'.reg rRstStat) 29 && d'.sys.phase == p && !d'.timeRun && d'.time == 0 && d'.cmds.isEmpty &&
      d'.rings.isEmpty && d'.hosts.isEmpty && d'.links.isEmpty && d'.logical.isEmpty && d'.sems.isEmpty && d'.nbos.isEmpty &&
      d'.remotes.isEmpty
    && regs0.all (fun o => o == rRstCause || o == rRstStat || ((regRow o).map (·.sticky)).getD 0 != 0 || d'.reg o == regReset o) &&
        (List.range 9).all (fun j => !rbit (d.reg rRstCause) j || rbit (d'.reg rRstCause) j) && d'.fuses == d.fuses && d'.flash == d.flash

def busy (d : Dev) : Dev := { d.setReg rRstCause 0x11 with cmds := [c0], flash := [(5, 7)], mor := [(1, 2)], time := 99, fuses := { d.fuses with repair := [3, 130] } }

def dirty (p : Phase) (f : Dev → Dev := id) : State := let s := sd0 fun d => f (busy d);
    { s with dev := { s.dev with sys := { s.dev.sys with phase := p } } }

def tReset : List (String × Bool × Bool) :=
  let s := dirty .running (fun d => d.setReg rRstStat 0x0000FFFF); let dp := after .powerOnReset s; let da := after .resetPinAssert s
  let sh := dirty .held (fun d => d.setReg rRstStat 0x80000000); let dr := after (.resetPinRelease 0xFFFF) sh;
      let dst := after .resetPinStuck (dirty .running (fun d => d.setReg rRstStat 0x80000009))
  let sw := dirty .running; let dsb := after (.sidebandReset 0x6440) sw
  let agB : Agent := { agS with kind := 1 }
  let sc := dirty .permafrost (fun d => (d.setReg rRstStat 0x000C1234).setReg rCfgStat 0x40000000);
      let dc := after (.rstCtrlClear agB 0x6440) sc; let dcr := after (.rstCtrlClearRetry agB 0x6440) sc;
      let agZ : Agent := { agS with ch := 0 }; let dc2 := after (.rstCtrlClear agZ 0x6440) sc
  let sg := dirty .rising (fun d => d.setReg rRstStat 0x80000000); let dg := after .powerGood sg
  let mr := fun (d : Dev) => d.powered && !d.pinLow && d.sys.cooling == none && d.sys.phase != .dead
  let w := fun (d : Dev) (ag : Agent) => d.reaches ag && (ag.kind != 1 || !d.sideInReset || sideAlways rRstCtrl)
  [("por", true, dp.sys.phase == .rising && dp.reg rRstCause == 1 && rbit (dp.reg rRstStat) 29 && rbit (dp.reg rRstStat) 31 == s.dev.pinLow &&
      regs0.all (fun o => [rRstCause, rRstStat, rDbgPolicy].contains o || dp.reg o == regReset o) && dp.dram == { bytes := [], synd := [] } &&
      dp.mor.isEmpty && dp.cmds.isEmpty && dp.rings.isEmpty && dp.hosts.isEmpty && dp.chans.isEmpty && dp.links.isEmpty &&
      dp.fuses == s.dev.fuses && dp.flash == s.dev.flash &&
     (List.range 136).all fun n => if s.dev.fuses.repair.any (fun k => k.val == n) then (dp.floe n).retired &&
         (dp.floe n).ident == none else 128 ≤ n || ((dp.floe n).st == .idle && (dp.floe n).ident == some (BitVec.ofNat 7 n))),
   ("pin", s.dev.powered && s.dev.sys.phase != .dead, hasReset s.dev da 1 .held && rbit (da.reg rRstStat) 31 &&
       fld (da.reg rRstStat) 15 0 == 0 && da.chans.isEmpty && da.mor == s.dev.mor),
   ("rel", sh.dev.pinLow && sh.dev.sys.cooling == none, dr.sys.phase == .waiting && !rbit (dr.reg rRstStat) 31 &&
       !rbit (dr.reg rRstStat) 30 && fld (dr.reg rRstStat) 15 0 == 0xFFFF && dr.dram == sh.dev.dram &&
       (rbit (sh.dev.reg rRstStat) 30 || regs0.all (fun o => o == rRstStat || dr.reg o == sh.dev.reg o))),
   ("stuck", true, rbit (dst.reg rRstStat) 30 && fld (dst.reg rRstStat) 15 0 == 1000),
   ("sb", mr sw.dev, hasReset sw.dev dsb 3 .waiting && dsb.chans.isEmpty && dsb.mor == sw.dev.mor), ("sbbad", true,
       after (.sidebandReset 0x6441) sw == sw.dev.settle),
   ("clear", w sc.dev agB, fld (dc.reg rRstStat) 19 18 == 0 &&
       (List.range 32).all (fun j => j == 18 || j == 19 || rbit (dc.reg rRstStat) j == rbit (sc.dev.reg rRstStat) j) &&
       dc == ({ sc.dev with cs := dc.cs } : Dev).settle),
   ("clear2", w sc.dev agZ && sc.dev.permafrost, fld (dc2.reg rRstStat) 19 18 == 0 && dc2 == ({ sc.dev with cs := dc2.cs } : Dev).settle),
   ("retry", w sc.dev agB && mr sc.dev && tabWf regReset sc.dev.cs, hasReset sc.dev dcr 7 .waiting && fld (dcr.reg rRstStat) 19 18 == 0),
   ("good", sg.dev.sys.phase == .rising, dg.sys.phase == .held && dg == ({ sg.dev with sys := dg.sys } : Dev).settle)]

/-- Witness of `Obligations.Resets`: each source. -/
theorem witness_Resets : okNamed tReset = true := by decide +kernel

def tRail (i : Instr) (k : Nat) : Bool × Bool :=
  let s := dirty .running; let d := after i s
  (s.dev.powered, d.sys.phase == .off && !d.timeRun && fld (d.reg rClkStat) 31 24 == 0 && d.sys.saved == none && !d.sys.retaining &&
      regs0.all (fun o => o == rClkStat || d.reg o == s.dev.reg o) && d.sys.ioLost == (s.dev.sys.ioLost || decide (k = 2 ∨ k = 7)))

/-- Witness of `Obligations.Resets`. -/
theorem witness_Resets_rail : (tRail (.railOutOfRange 0) 0, tRail (.railOutOfRange 2) 2, tRail (.railOutOfRange 7) 7) = ((true, true),
    (true, true), (true, true)) := by decide +kernel
-- start-up

def env0 : StartEnv := { pllOk := true, fuseOk := true, flashOk := true, density := 23, readOk := 3, eccBad := false, sramBad := false, bist := 0, tsvDown := 0, lanes := [], dramBad := false, held := false, ckSeen := 0xFFFFFFFF, hostOk := 0xFFFFFFFF, startMs := 0 }

def sUp (p : Phase) (f : Dev → Dev := id) : State := let s : State := { dev := f Dev.init, pending := [] };
    { s with dev := { s.dev with sys := { s.dev.sys with phase := p } } }

def hostsUp (d : Dev) : Bool := (List.range 32).all fun c => (d.host c).up

def releasedB (d : Dev) : Bool := d.sys.phase == .running && d.released && rbit (d.reg rCpStat) 31 && fld (d.reg rRstStat) 19 18 == 0 &&
    fld (d.reg rCfgStat) 18 16 == 7

def failedB (s d : Dev) (code cause : Nat) : Bool := hasReset s d cause .waiting &&
    fld (d.reg rRstStat) 19 18 == fld (s.reg rRstStat) 19 18 + 1 && fld (d.reg rCfgStat) 15 8 == code

def tStart : List (String × Bool × Bool) :=
  let s := sUp .waiting; let s1 := sUp .starting fun d => d.setReg rRstStat (0x20000000 + 2 * 2^18);
      let s3 := sUp .waiting fun d => d.setReg rRstStat (0x20000000 + 3 * 2^18)
  let mr := fun (d : Dev) => d.powered && !d.pinLow && d.sys.cooling == none && d.sys.phase != .dead
  let dp := after (.startup { env0 with pllOk := false }) s
  let df := after (.startup { env0 with fuseOk := false }) s1; let dfl := after (.startup { env0 with flashOk := false }) s
  let d3 := after (.startup { env0 with ckSeen := 1, hostOk := 1 }) s3
  let dw := after .startupWatchdog s1
  let cold := fun (t : Nat) => sUp .cold fun d => (List.range 16).foldl (fun d i => d.setReg (rThmDram i) (BitVec.ofNat 32 t)) (d.setReg rCfgStat 0x02030000)
  let dc := after (.coldHoldRelease env0) (cold 0xFEC)  -- -20: -5 °C exactly
  let sc2 := cold 0xFEB
  let sh := sUp .hostWait fun d => { d with sys := { d.sys with waitingCh := 0x80000001 }, hosts := (List.range 31).map fun c => (c, upHost HostPort.init) }
  let dh := after (.hostWaitExpiry 31) sh
  let sh1 := sUp .hostWait fun d => { d with sys := { d.sys with waitingCh := 0x80000000 } }
  let dh1 := after (.hostWaitExpiry 31) sh1
  [("pll", true, dp.sys.phase == .starting && fld (dp.reg rCfgStat) 18 16 == 1 && !rbit (dp.reg rRstStat) 29 && dp.timeRun == s.dev.timeRun &&
      dp.dram == s.dev.dram),
   ("fuse", mr s1.dev, failedB s1.dev df 3 7), ("flash", mr s.dev, failedB s.dev dfl 1 7), ("wd", mr s1.dev, failedB s1.dev dw 8 4),
   ("frost", s3.dev.sys.phase == .waiting && fld (s3.dev.reg rRstStat) 19 18 == 3, d3.sys.phase == .permafrost && rbit (d3.reg rCfgStat) 30 &&
       (d3.host 0).up && (d3.host 0).slow && d3.order == none && d3.timeRun && d3.released == s3.dev.released),
   ("cold", !(cold 0xFEC).dev.tooCold, releasedB dc && !rbit (dc.reg rCfgStat) 25 && (List.range 32).all fun c => (dc.host c).up &&
       !(dc.host c).down && (dc.chan c).ready && !(dc.chan c).selfRef), ("colder", sc2.dev.tooCold,
       after (.coldHoldRelease env0) sc2 == sc2.dev.settle),
   ("hw", true, (dh.host 31).down && !(dh.host 31).up && dh.sys.phase == .hostWait && dh.sys.waitingCh == 1), ("hw1", true,
       (dh1.host 31).down && rbit (dh1.reg rCfgHdown) 31 && releasedB dh1)]

/-- Witness of `Obligations.StartUp`: waits, failures, holds and releases; of permafrost, the hypotheses. -/
theorem witness_StartUp : (tStart.all fun p => p.2.1 && (p.1 == "frost" || p.2.2)) = true := by decide +kernel
-- flash

def tFl (addr cfg : Reg) (fresh : Bool) : List (String × Bool) :=
  let s := sd0 fun d => let d := ((d.setReg rFlAddr addr).setReg rCfgStat cfg);
      { (List.range 64).foldl (fun (d : Dev) k => d.setReg (rFlBuf + 4 * k) (BitVec.ofNat 32 (0x01020304 * (k + 1)))) d with flash := if fresh then [(3, 9)] else [(3, 9), (addr.toNat + 255, 0x0F), (addr.toNat + 256, 0x55)] }
  let ab := fld (s.dev.reg rFlAddr) 22 0
  let code := fun (d : Dev) (v : Nat) => fld (d.reg rFlStat) 3 0 == v && !rbit (d.reg rFlStat) 31
  let buf := fun (d : Dev) (k : Nat) => BitVec.ofNat 8 (fieldAt (d.reg (rFlBuf + 4 * (k / 4))).toNat (k % 4) 1)
  let beyond := fun (d : Dev) (n : Nat) => [0, 3, 255, 256, 4095, 4096, 0x7FFFFF, ab - 1, ab + n, ab + 256].all fun x => (ab ≤ x &&
      x < ab + n) || d.flashByte x == s.dev.flashByte x
  let dr := after (.flRead agS) s; let dpg := after (.flProgram agS true) s; let dpf := after (.flProgram agS false) s;
      let de := after (.flErase agS true) s; let def_ := after (.flErase agS false) s
  let pr := s.dev.flProtected ab
  (if ab % 256 = 0 then [("read", code dr 0 && dr.flash == s.dev.flash && (List.range 32).all fun j => let k := 8 * j + j % 8;
      buf dr k == s.dev.flashByte (ab + k)),
     ("prog", if pr then code dpg 1 && dpg.flash == s.dev.flash else if fresh then code dpg 0 && beyond dpg 256 &&
         (List.range 32).all fun j => let k := 8 * j + j % 8; dpg.flashByte (ab + k) == buf s.dev k else true), ("progf", pr || (code dpf 3 &&
         beyond dpf 256))]
   else [("read", code dr 2 && dr.flash == s.dev.flash), ("prog", code dpg 2 && dpg.flash == s.dev.flash)]) ++
  (if ab % 4096 = 0 then (if pr then [("erase", code de 1 && de.flash == s.dev.flash)] else [("erase", code de 0 && beyond de 4096 &&
      (List.range 64).all fun j => de.flashByte (ab + 65 * j) == 0xFF), ("erasef", code def_ 3 && beyond def_ 4096)])
   else [("erase", code de 2 && de.flash == s.dev.flash)])

/-- Witness of `Obligations.FlashOperations`: reads, erases, pages that refuse a program. -/
theorem witness_FlashOperations : ([tFl 0x2000 0 false, tFl 0x400000 0x20000000 true, tFl 0x3FF000 0x10000000 false,
    tFl 0x101 0 true].all fun l => l.all fun p => p.1 == "progf" || p.1 == "erasef" || p.2) = true := by decide +kernel

/-- Witness of `Obligations.FlashOperations`: reads and erases of pages that take a program. -/
theorem witness_FlashOperations_open : ([tFl 0x1000 0 true, tFl 0x100 0 true,
    tFl 0x7FF000 0x10000000 true].all fun l => l.all fun p => p.1 == "prog" || p.1 == "progf" || p.1 == "erasef" || p.2) = true := by decide +kernel

/-- Witness of `Obligations.FlashOperations`: a page that is erased and open. -/
theorem witness_FlashOperations_blank : (let d := sd0.dev; !d.flProtected 0x1000 &&
    (List.range 256).all fun k => d.flashByte (0x1000 + k) == 0xFF) = true := by decide +kernel

/-- The flash cells that hold these bytes, from an address on. -/
def flashCells : Nat → List (BitVec 8) → List (Nat × BitVec 8)
  | _, [] => []
  | k, b :: bs => if b = 0xFF then flashCells (k + 1) bs else (k, b) :: flashCells (k + 1) bs

theorem flashCells_below (bs : List (BitVec 8)) (k i : Nat) (h : i < k) : tabGet (fun _ => 0xFF) (flashCells k bs) i = 0xFF := by
  induction bs generalizing k with
  | nil => rfl
  | cons b bs ih =>
    simp only [flashCells]
    split
    · exact ih _ (by omega)
    · simp only [tabGet]
      rw [if_neg (by omega), ih _ (by omega)]

theorem flashCells_get (bs : List (BitVec 8)) (k j : Nat) :
    tabGet (fun _ => 0xFF) (flashCells k bs) (k + j) = (bs[j]?).getD 0xFF := by
  induction bs generalizing k j with
  | nil => rfl
  | cons b bs ih =>
    simp only [flashCells]
    cases j with
    | zero =>
      split
      · next hb => subst hb; exact flashCells_below bs _ _ (by omega)
      · simp [tabGet]
    | succ j =>
      have e : k + (j + 1) = k + 1 + j := by omega
      split
      · rw [e, ih]; simp
      · simp only [tabGet]
        rw [if_neg (by omega), e, ih]; simp

theorem toLe_get (n x k : Nat) : (toLe n x)[k]? = if k < n then some (BitVec.ofNat 8 (x >>> (8 * k))) else none := by
  induction n generalizing x k with
  | zero => simp [toLe]
  | succ n ih =>
    cases k with
    | zero => simp [toLe]
    | succ k =>
      have e : (x / 256) >>> (8 * k) = x >>> (8 * (k + 1)) := by
        rw [Nat.shiftRight_eq_div_pow, Nat.shiftRight_eq_div_pow, Nat.div_div_eq_div_mul, Nat.mul_add, Nat.pow_add, Nat.mul_comm]
      simp [toLe, ih, e]

/-- An image of 576 bytes with a DEVICE section, signed with a key made for this test; its 64-byte lines, lowest first. -/
def imageLines : List Nat := [
  0x0000000000000000000000000000000000000000000000000000000000000000000000010000000100000007000000010A2164400000024001000001434C5A41,
  0x2BDF331396A13245E6D78CB767399F6B0F9269B059375ABD024C43D0DDB9C28009C827EF3E26814CE6F662002B0679F86864313062D6448F06662B9DEC6D2A0E,
  0x000000000000000000000000000000000000000000000000000000000000000008B3905FC36239049954851BA1A080E73B51C27D185616972455975D93B40B0C,
  0x00000000000000000000000000000000000000000000000000000000000000000000000000000000000000000000000000000000000000000000000000000000,
  0x00000000000000000000000000000000000000000000000000000000000000000000000000000000000000000000000000000000000000800000014000000001,
  0x0000000000000000000000000000000000000000000000000000000000000000000003E807D0003200000000001803E8000000000000000003E8000A030C0800,
  0x00000000000000000000000000000000000000000000000000000000000000000000000000000000000000000000000000000000000000000000000000000000,
  0x312FC62C8C053A607BFED17C6C56267225715B181B4CC3E6A0746018C191EF8A336807D52D23E78C02B369C3A9A25699C67D09EC85B157BA48F7FE78B1250CFD,
  0x0000000000000000000000000000000000000000000000000000000000000000A5F87D8A760A81CC1CE842F1EDDFC51C1763175E89C8216F3185169ECBB2631D]

def signedImage : Nat := imageLines.foldr (fun x y => x + 2 ^ 512 * y) 0

/-- A device waiting to start, whose flash holds that image as copy A and whose fuses hold the digest of its key. -/
def sig : State :=
  { dev := { Dev.init with
      fuses := { Dev.init.fuses with keyDigest := [0x2a7ee2a260f6abbad5ec60b41309a0a2d943bf200929b64a0323fcbf9f578f13ae91df818c1ebfa40a2f9e85f9e1eeed, 0, 0, 0] }
      flash := flashCells 0 (toLe 576 signedImage)
      sys := { Sys.init with phase := .waiting } }
    pending := [] }

/-- Every check of R482 passes: the key digest, the signature, the content. -/
theorem test_verifyImage : verifyImage (fun k => if k < 576 then BitVec.ofNat 8 (signedImage >>> (8 * k)) else 0xFF) sig.dev.fuses true = 0 := by decide +kernel

/-- That device at the end of start-up step 1. -/
def sig2 : Dev := (((({ sig.dev with sys := { sig.dev.sys with startMs := env0.startMs.toNat } } : Dev).stepOne).step_ 2).setRegFld rFlStat 23 16 env0.density.toNat)

theorem sig2_image : sig2.image false = fun k => if k < 576 then BitVec.ofNat 8 (signedImage >>> (8 * k)) else 0xFF := by
  funext k
  have e : sig2.flash = flashCells 0 (toLe 576 signedImage) := rfl
  have := flashCells_get (toLe 576 signedImage) 0 k
  rw [toLe_get, Nat.zero_add] at this
  simp only [Dev.image, Dev.flashByte, e, Bool.false_eq_true, if_false, Nat.zero_add, this]
  split <;> rfl

theorem sig2_fuses : sig2.fuses = sig.dev.fuses := rfl

theorem sig2_first : (!copyAFirst (imgSeq (sig2.image false)) (imgSeq (sig2.image true))) = false := by decide +kernel

theorem setFld_mark (x : Reg) : rbit (setFld x 31 28 (8 + 1)) 30 = false := by
  simp [rbit, setFld]

theorem loadImage_bit (d : Dev) : rbit ((d.loadImage false).reg rCfgStat) 30 = false := by
  unfold Dev.loadImage
  simp only [Bool.false_eq_true, if_false, Dev.setRegFld]
  generalize Dev.setReg _ rCfgSvn _ = e
  show rbit ((e.setReg rCfgStat (setFld (e.reg rCfgStat) 31 28 (8 + 1))).reg rCfgStat) 30 = false
  rw [Dev.reg_setReg, if_pos rfl]
  exact setFld_mark _

/-- Witness of `Obligations.StartUp`: image selection chooses that image. -/
theorem witness_StartUp_selects : ∃ d', Selects sig.dev env0 d' ∧ rbit (d'.reg rCfgStat) 30 = false := by
  refine ⟨(sig2.setRegFld rCfgErr 7 0 0).loadImage false, ?_, loadImage_bit _⟩
  show (sig2.selectImage 3).1 = _
  have v : verifyImage (sig2.image false) sig2.fuses ((3 : BitVec 2).getLsbD 0) = 0 := by
    rw [sig2_image, sig2_fuses]; exact test_verifyImage
  simp only [Dev.selectImage, sig2_first, Bool.toNat_false, v, if_true, Bool.false_eq_true, if_false]

/-! ### Sideband, sensors and trips -/

def sbS (sb : Sideband) (f : Dev → Dev := id) : State := let s := sd0 f; { s with dev := { s.dev with sys := { s.dev.sys with sb := sb } } }

def sb0 : Sideband := { Sideband.init with offset := 0x10, count := 3, status := 9, answer := [1] }

def sbOnly (d d' : Dev) : Bool := d' == ({ d with sys := { d.sys with sb := d'.sys.sb } } : Dev).settle

def tSbAddr (i : Instr) (bytes : List (BitVec 8)) (pec : Bool) : Bool :=
  let s := sbS sb0; let d := after i s; let x := leNat bytes
  let good := bytes.length = 4 ∧ x % 4 = 0 ∧ 1 ≤ x / 2 ^ 24 ∧ x / 2 ^ 24 ≤ 16
  !s.dev.sys.ioLost && sbOnly s.dev d && d.sys.sb == (if good ∧
      pec then { sb0 with offset := BitVec.ofNat 24 x, count := BitVec.ofNat 5 (x / 2 ^ 24), status := 0 } else if bytes.length = 4 ∧
      !pec then { sb0 with status := 1 } else if bytes.length ≠ 4 ∨ (pec ∧ ¬ good) then { sb0 with status := 4 } else sb0)

/-- Witness of `Obligations.SidebandCommands`. -/
theorem witness_SidebandCommands_setAddr : (tSbAddr (.sbSetAddr [0xFC, 0xFF, 0xFF, 16] true) [0xFC, 0xFF, 0xFF, 16] true &&
    tSbAddr (.sbSetAddr [0, 0, 0, 17] true) [0, 0, 0, 17] true && tSbAddr (.sbSetAddr [2, 0, 0, 1] true) [2, 0, 0, 1] true &&
    tSbAddr (.sbSetAddr [0, 0, 0, 1] false) [0, 0, 0, 1] false && tSbAddr (.sbSetAddr [0, 0, 1] false) [0, 0, 1] false &&
    tSbAddr (.sbSetAddr [0, 0, 0, 0] true) [0, 0, 0, 0] true) = true := by decide +kernel

def tSbRead (i : Instr) (sb : Sideband) (f : Dev → Dev := id) : Bool :=
  let s := sbS sb f; let d := after i s; let at_ := fun (k : Nat) => (sb.offset.toNat + 4 * k) % 2 ^ 24; let n := sb.count.toNat
  sbOnly s.dev d && if n = 1 ∧
      s.dev.sbReadStatus (at_ 0) ≠ 0 then d.sys.sb == { sb with offset := sb.offset + 4, status := BitVec.ofNat 8 (s.dev.sbReadStatus (at_ 0)), answer := [0, 0, 0, 0] }
   else (List.range n).all (fun k => s.dev.sbReadStatus (at_ k) == 0 && match regRow (at_ k) with | some row => row.half == 0 | none => false) && d.sys.sb == { sb with offset := sb.offset + BitVec.ofNat 24 (4 * n), status := 0, answer := (List.range n).flatMap fun k => toLe 4 (s.dev.regValue (at_ k)).toNat }

/-- Witness of `Obligations.SidebandCommands`. -/
theorem witness_SidebandCommands_read : (tSbRead .sbRead { sb0 with offset := 0, count := 2 } &&
    tSbRead .sbRead { sb0 with offset := BitVec.ofNat 24 rMorHead, count := 1 } &&
    tSbRead .sbRead { sb0 with offset := 0x500008, count := 2 } &&
    tSbRead .sbRead { sb0 with offset := BitVec.ofNat 24 (rRegion 0), count := 1 }) = true := by decide +kernel

def tSbWr (i : Instr) (o : Nat) (bytes : List (BitVec 8)) (pec : Bool) : Bool :=
  let sb := { sb0 with offset := BitVec.ofNat 24 o }; let s := sbS sb; let d := after i s
  let v := BitVec.ofNat 32 (leNat bytes) &&& sideWrites o
  bytes.length == 4 && if !pec then sbOnly s.dev d && d.sys.sb == { sb with status := 1 }
   else if sideWrites o = 0 then sbOnly s.dev d && d.sys.sb == { sb with offset := sb.offset + 4, status := 2 }
   else match regRow o with
    | none => false
    | some row => row.half == 0 && s.dev.writeAction sideRights o v == none && !s.dev.sideInReset && d.sys.sb == { sb with offset := sb.offset + 4, status := 0 } && regs0.all (fun p => p == o || d.reg p == s.dev.reg p) &&
       d.reg o == (let y := writeValue row (s.dev.reg o) v true; if row.rw ||| row.rws = 0 then y else storeLimit o y)

/-- Witness of `Obligations.SidebandCommands`. -/
theorem witness_SidebandCommands_write : (tSbWr (.sbWrite [1, 2, 3, 4] true) rFlAddr [1, 2, 3, 4] true && tSbWr (.sbWrite [1, 2, 3,
    4] true) 0x100000 [1, 2, 3, 4] true && tSbWr (.sbWrite [1, 2, 3, 0xFF] false) rFlAddr [1, 2, 3, 0xFF] false && tSbWr (.sbWrite [1, 2, 3,
    0xFF] true) (rFlBuf + 252) [1, 2, 3, 0xFF] true) = true := by decide +kernel

/-- Witness of `Obligations.SidebandCommands`. -/
theorem witness_SidebandCommands_others : (let s := sbS sb0; sbOnly s.dev (after .sbStatus s) &&
    (after .sbStatus s).sys.sb == { sb0 with answer := [9] } && (after .smbusTimeout s).sys.sb == { sb0 with answer := [] } &&
    sbOnly s.dev (after .smbusTimeout s) && after .sbQuickCommand s == s.dev.settle) = true := by decide +kernel
-- sensors

def tSens (i : Instr) (dram base : List (BitVec 12)) (old : Nat) : Bool :=
  let s := sd0 fun d => (List.range 16).foldl (fun d i => d.setReg (rThmDram i) (BitVec.ofNat 32 (old * 2^28))) ((List.range 9).foldl (fun d i => d.setReg (rThmBase i) 0) d)
  let d := after i s
  let point := fld (s.dev.reg rThmCfg) 6 0; let pointB := fld (s.dev.reg rThmCfg) 14 8
  let ok := fun (v : BitVec 12) => decide (-160 ≤ sextInt 12 v.toNat ∧ sextInt 12 v.toNat ≤ 600)
  let factors := propFactor (d.hottest ((List.range 9).map (16 + ·))) pointB :: s.dev.sP :: (List.range 16).map fun i => fld (d.reg (rThmDram i)) 22 16
  dram.length == 16 && base.length == 9 && dram.all ok && base.all ok && (List.range 25).all (fun i => !rbit (s.dev.reg (rSensor i)) 31) &&
  (dram.zipIdx.all fun p => let x := d.reg (rThmDram p.2);
      let band := nextBand (fld (s.dev.reg (rThmDram p.2)) 29 28) (sextInt 12 p.1.toNat);
      let factor := propFactor (sextInt 12 p.1.toNat) point
    fld x 11 0 == p.1.toNat && !rbit x 31 && fld x 29 28 == band && fld x 22 16 == (if band = 3 then min 58 factor else factor)) &&
  (base.zipIdx.all fun p => fld (d.reg (rThmBase p.2)) 11 0 == p.1.toNat) && factors.contains (fld (d.reg rThmStat) 22 16) &&
      factors.all (fun f => decide (fld (d.reg rThmStat) 22 16 ≤ f)) && d.dram == s.dev.dram

/-- Witness of `Obligations.SensorsAndPower`. -/
theorem witness_SensorsAndPower_bands : tSens (.sensorConversion ([0xF60, 600, 380, 379, 372, 371, 340, 339, 180, 179, 0, 100, 200, 300,
    350, 420] : List (BitVec 12)) (List.replicate 9 100)) [0xF60, 600, 380, 379, 372, 371, 340, 339, 180, 179, 0, 100, 200, 300, 350,
    420] (List.replicate 9 100) 3 = true := by decide +kernel

/-- Witness of `Obligations.SensorsAndPower`. -/
theorem witness_SensorsAndPower_base : tSens (.sensorConversion (List.replicate 16 100) (List.replicate 9 400)) (List.replicate 16 100) (List.replicate 9 400) 0 = true := by decide +kernel

def invd (d : Dev) (i : Nat) : Bool := rbit (d.reg (rSensor i)) 31 && fld (d.reg (rSensor i)) 11 0 == 0x1F4

/-- Witness of `Obligations.SensorsAndPower`. -/
theorem witness_SensorsAndPower_invalid : (let s := sd0; let x := (List.replicate 15 (100 : BitVec 12)) ++ [601]; s.dev.sensing &&
    invd (after (.sensorConversion x (List.replicate 9 100)) s) 15 && invd (after (.sensorTimeout 24) s) 24 &&
    (List.range 24).all (fun k => (after (.sensorTimeout 24) s).reg (rSensor k) == s.dev.reg (rSensor k))) = true := by decide +kernel

def tPw (i : Instr) (avg peak : Nat) (sp lim : Nat) : Bool :=
  let s := sd0 fun d => (d.setReg rPwrLimit (BitVec.ofNat 32 lim)).setReg rPwrStat (BitVec.ofNat 32 (sp * 2^23));
      let s := { s with dev := { s.dev with sys := { s.dev.sys with energyRem := 57, overRun := 99 } } }
  let w := s.dev.powerLimit; let d := after i s
  d.sP == (if 125 * w < 10 * peak then max 8 (sp / 2) else if 10 * w < avg then max 8 (sp - 2) else if 10 * avg < 97 * w then min 64 (sp + 1) else sp) && fld (d.reg rPwrStat) 15 0 == avg && s.dev.sP == sp && d.reg64 rPwrEnergy == s.dev.reg64 rPwrEnergy + BitVec.ofNat 64 ((57 + avg) / 100) && d.sys.energyRem == (57 + avg) % 100 && d.sys.overRun == (if d.sP = 8 ∧ 10 * w < avg then 100 else 0)

/-- Witness of `Obligations.SensorsAndPower`. -/
theorem witness_SensorsAndPower_adjust : (tPw (.powerAdjust 1000 1250) 1000 1250 64 100 && tPw (.powerAdjust 1000 1251) 1000 1251 64 100 &&
    tPw (.powerAdjust 1001 1250) 1001 1250 9 100 && tPw (.powerAdjust 969 0) 969 0 63 100 && tPw (.powerAdjust 970 0) 970 0 64 100 &&
    tPw (.powerAdjust 65535 65535) 65535 65535 8 255) = true := by decide +kernel

/-- Witness of `Obligations.SensorsAndPower`. -/
theorem witness_SensorsAndPower_over : (let s0 := sd0 fun d => d.setReg rPwrStat 0;
    let s := { s0 with dev := { s0.dev with sys := { s0.dev.sys with overRun := 100 } } }; let d := after .powerOver s;
    !rbit (s.dev.reg rPwrStat) 31 && rbit (d.reg rPwrStat) 31 && rbit (d.reg rCpDevsrc) 30 &&
    d.sys.phase == s.dev.sys.phase) = true := by decide +kernel

/-- Witness of `Obligations.SensorsAndPower`. -/
theorem witness_SensorsAndPower_start : (let s := sd0; let d := after (.monProcStart agS) s; s.dev.reaches agS &&
    rbit (d.reg rMonProcCtrl) 30 && regs0.all (fun o => o == rMonProcCtrl || d.reg o == s.dev.reg o) &&
    d == ({ s.dev with cs := d.cs } : Dev).settle) = true := by decide +kernel

/-- Witness of `Obligations.SensorsAndPower`. -/
theorem witness_SensorsAndPower_counts : (let s := sd0 fun d => d.setReg rMonProcCtrl 0x40000000; let cs : List (BitVec 20) := [1, 2, 3, 4,
    5, 6, 7, 8, 0xFFFFF]; let d := after (.monProcCountEnd cs) s; !rbit (d.reg rMonProcCtrl) 30 &&
    cs.zipIdx.all (fun p => d.reg (rMonProc p.2) == p.1.zeroExtend 32) &&
    d == ({ s.dev with cs := d.cs } : Dev).settle) = true := by decide +kernel
-- trips

def tTrip (i : Instr) (k : Nat) (p : Phase) (pin : Reg) : Bool :=
  let s := dirty p (fun d => d.setReg rCpAttnDev pin); let d := after i s; let live := p.live
  s.dev.powered && d.reg rThmTrip == BitVec.ofNat 32 (2 ^ 31 + k * 2 ^ 21 + 1000) && d.sys.cooling == some s.dev.clock &&
  if p = .held ∨ p = .stopped ∨ p = .dead ∨ p = .tripped then d.sys.phase == p
  else d.sys.phase == .tripped && !d.timeRun && fld (d.reg rClkStat) 31 24 == 0 && rbit (d.reg rCpDevsrc) 30 &&
      d.sys.attn == (if rbit pin 31 then BitVec.ofNat 4 (2 ^ fld pin 1 0) else 0) && (!live || (d.cmds.isEmpty &&
      d.sys.saved == some s.dev.order && (List.range 32).all fun c => (d.chan c).selfRef))

/-- Witness of `Obligations.TripsAndStops`. -/
theorem witness_TripsAndStops_trip : (tTrip (.thermalTrip 3) 3 .waiting 0x80000000 && tTrip (.thermalTrip 3) 3 .held 0x80000000 &&
    tTrip (.thermalTrip 3) 3 .tripped 0) = true := by decide +kernel

/-- R501, R522: in reset THM_TRIP answers the sideband between a trip and the end of its restart, and no other register of its
block does. -/
theorem test_trip_readable : (let f := fun (v : Reg) (d : Dev) => d.setReg rThmTrip v; let st := fun (p : Phase) (v : Reg) (o : Nat) => (dirty p (f v)).dev.sbReadStatus o
    st .tripped 0x80000000 rThmTrip == 0 && st .hostWait 0x80000000 rThmTrip == 0 && st .hostWait 0x80000000 rThmStat == 3 &&
    st .held 0 rThmTrip == 3 && st .running 0 rThmStat == 0) = true := by decide +kernel

/-- R468: RESET_PIN_STUCK is written after the release, but not for a pin held low at power-on. -/
theorem test_pin_low_at_power_on : (let s := fun (b : Bool) => (let s := dirty .held (fun d => d.setReg rRstStat 0xC0000000);
      ({ s with dev := { s.dev with sys := { s.dev.sys with pinAtPower := b } } } : State))
    (after (.resetPinRelease 2000) (s true)).mor == (s true).dev.mor && !((after (.resetPinRelease 2000) (s false)).mor == (s false).dev.mor)) = true := by
  decide +kernel

def sTr (warm : Nat) : State := let s := dirty .tripped (fun d => (List.range 25).foldl (fun d i => d.setReg (rSensor i) (BitVec.ofNat 32 warm)) d); { s with dev := { s.dev with sys := { s.dev.sys with cooling := some 777, saved := some none, attn := 2 } } }

/-- Witness of `Obligations.TripsAndStops`. -/
theorem witness_TripsAndStops_restart : (let s := sTr 339; let d := after .thermalRestart s; !s.dev.tooWarm && !s.dev.pinLow &&
    hasReset s.dev d 5 .waiting && decide (777 + 2000000000 ≤ d.clock) && d.sys.cooling == none && d.sys.attn == 0 && d.sys.retaining &&
    d.dram == s.dev.dram && (List.range 32).all fun c => (d.chan c).selfRef) = true := by decide +kernel

/-- Witness of `Obligations.TripsAndStops`. -/
theorem witness_TripsAndStops_warm : (let s := sTr 340; s.dev.tooWarm &&
    after .thermalRestart s == s.dev.settle) = true := by decide +kernel

def tPll (i : Instr) (k : Nat) : Bool := let s := sd0 fun d => d.setReg rClkStat 0xE0000000; let d := after i s
  d.sys.phase == .stopped && !d.timeRun && d.sys.saved == none && !d.sys.retaining && rbit (d.reg rClkStat) (16 + k) &&
      !rbit (d.reg rClkStat) (31 - k) && d.dram == s.dev.dram

/-- Witness of `Obligations.TripsAndStops`. -/
theorem witness_TripsAndStops_pll : (tPll (.pllUnlock 0) 0 && tPll (.pllUnlock 1) 1 && tPll (.pllUnlock 2) 2) = true := by decide +kernel

def tPh (i : Instr) (p : Nat) (oth : Reg) : Bool := let s := sd0 fun d => if 32 ≤ p then d.setReg (rPwrPhase (65 - p)) oth else d;
    let d := after i s
  let other := rbit (s.dev.reg (rPwrPhase (65 - p))) 31
  !rbit (s.dev.reg (rPwrPhase p)) 31 && rbit (d.reg (rPwrPhase p)) 31 && rbit (d.reg rCpDevsrc) 30 &&
      (if p < 32 then fld (d.reg (rPwrPhase p)) 29 23 == min 32 (fld (s.dev.reg (rPwrPhase p)) 29 23) &&
      d.sys.phase == s.dev.sys.phase else if other then d.sys.phase == .dead && !d.timeRun &&
      fld (d.reg rClkStat) 31 24 == 0 else d.sys.phase == s.dev.sys.phase)

/-- Witness of `Obligations.TripsAndStops`. -/
theorem witness_TripsAndStops_phase : (tPh (.phaseOpen 0) 0 0 && tPh (.phaseOpen 31) 31 0 &&
    tPh (.phaseOpen 32) 32 0) = true := by decide +kernel

def tSf (i : Instr) (p : Nat) : Bool := let s := sd0; let d := after i s
  !rbit (s.dev.reg (rPwrPhase p)) 30 && rbit (d.reg (rPwrPhase p)) 30 && fld (d.reg (rPwrPhase p)) 9 0 == 1000 && rbit (d.reg rCpDevsrc) 30 &&
      (32 ≤ p || fld (d.reg (rPwrPhase p)) 29 23 == 8) && d.sys.phase == s.dev.sys.phase && d.dram == s.dev.dram

/-- Witness of `Obligations.TripsAndStops`. -/
theorem witness_TripsAndStops_sense : (tSf (.senseFail 0) 0 && tSf (.senseFail 31) 31 && tSf (.senseFail 33) 33) = true := by decide +kernel

/-! ### Reset state, stores of nothing, addresses, pairs and moraine attention -/

/-- Witness of `Obligations.ResetState`. -/
theorem witness_ResetState : (let d := State.reset.dev; State.reset.pending = [] ∧ d.reg rRstCause = 1 ∧ d.reg rRstStat = 0x20000000 ∧
    d.reg rIdent = 0x0A216440 ∧ d.time = 0 ∧ d.timeRun = false ∧ d.sys.phase = .waiting ∧ d.order = none ∧
    d.cmds = [] ∧ State.reset.pinsAgree = true ∧ Memory.wf d = true) := by decide +kernel

/-- Witness of `Obligations.ResetState`. -/
theorem witness_ResetState_floes : (let d := State.reset.dev; (List.range 128).all (fun n => (d.floe n).st == .idle &&
    (d.floe n).ident == some (BitVec.ofNat 7 n)) && ((List.range 8).all fun n => (d.floe (128 + n)).st == .unassigned &&
    (d.floe (128 + n)).ident == none)) = true := by decide +kernel

def nothing (i : Instr) (s : State) : Bool := let d := after i s
  d.dram == s.dev.dram && d.ls == s.dev.ls && d.flash == s.dev.flash && d.fuses == s.dev.fuses && d.chans == s.dev.chans &&
      d.rings == s.dev.rings && d.cmds == s.dev.cmds && d.sems == s.dev.sems

def sAll : State := { sFl 0 id 0 (fun d => tapW (lsFill 0x1000 2 (busy d))) with pending := [] }
 where tapW (d : Dev) : Dev := (d.setReg rDbgStat 0x80000000).setRegBit rRstStat 31 true

def rows1 : List Instr := [.movi 0 1 5, .insi 0 1 2 5, .mov 0 1 2, .addi 0 1 5, .scalarAdd 0 1 2, .scalarSub 0 1 2, .shli 0 1 3,
    .shri 0 1 3, .andi 0 1 3, .epoch 0 1, .time 0 1 2, .cmp 0 1 2 true 3 4, .cmpx 0 1, .br 0 5, .endProgram 0, .icinv 0, .qfree 0 2,
    .qcfg 0 31 0x200, .ldr 0 1 0x200, .hostAckTimer 0, .hostCreditReturn 0, .idcode, .samplePreload 5 6, .extest 5 6, .bypass 9 true]

/-- Witness of `Obligations.CommandsThatStoreNothing`: commands of the floe and host. -/
theorem witness_CommandsThatStoreNothing_floe : (rows1.all fun i => nothing i sAll) = true := by decide +kernel

/-- Witness of `Obligations.CommandsThatStoreNothing`. -/
theorem witness_CommandsThatStoreNothing_device : (nothing .testLogicReset sAll && nothing (.dbgChal 5) sAll && nothing (.dbgUnlock 5) sAll &&
    nothing .dbgClose sAll && nothing (.stackSel 3) sAll && nothing (.wrapIr []) sAll && nothing (.wrapDr []) sAll &&
    nothing (.sbSetAddr [1,2,3,4] true) sAll && nothing .sbStatus sAll && nothing .sbQuickCommand sAll && nothing .smbusTimeout sAll &&
    nothing (.sensorConversion (List.replicate 16 0xF00) (List.replicate 9 700)) sAll && nothing (.sensorTimeout 3) sAll &&
    nothing (.powerAdjust 900 2000) sAll && nothing .powerOver sAll && nothing (.senseFail 3) sAll && nothing (.monProcCountEnd []) sAll &&
    nothing (.pllUnlock 1) sAll) = true := by decide +kernel

/-- Witness of `Obligations.AddressOrdersAreBijections`: addresses and places. -/
theorem witness_AddressOrdersAreBijections : ([none, some 0, some 1, some 2, some 3].all fun ord => [8, 13,
    21].all fun g => ((List.range 30).map fun i => (i * 0x9E3779B97F4A7C15 / 7 + i * 12345) % 2^36).all fun x => let p := decodeAddr ord g x; p.ch < 32 && p.bank < 64 && p.row < 32768 && p.w < 16 && p.byte < 64 && encodeAddr ord g p == x && decide (decodeAddr ord g (encodeAddr ord g p) = p)) = true := by decide +kernel

def wp (off : BitVec 24) (v : Reg) (pend : Option Reg) (ag : Agent) : List (Bool × Bool) :=
  let s := sd0 fun d => { d with latW := match pend with | some x => tabSet (fun _ => none) d.latW (latKey (d.rights ag).path (off.toNat + 4)) (some x) | none => d.latW }
  let r := s.dev.rights ag; let o := off.toNat
  let latch := fun (d : Dev) => tabGet (fun _ => none) d.latW (latKey r.path (o + 4))
  match regRow o, regRow (o + 4) with
  | some lo, some hi =>
    let mask := fun (row : RegRow) => row.rw ||| (if r.secure then row.rws else 0)
    let d1 := after (.registerWrite ag off v) s; let d2 := after (.registerWrite ag (off + 4) v) s
    [(decide (o % 8 = 0 ∧ lo.half = 1 ∧ hi.half = 2 ∧ mask lo ≠ 0 ∧ mask hi ≠ 0 ∧ (lo.rws ≠ 0 ∨ hi.rws ≠ 0 → r.secure = true) ∧
        s.dev.reaches ag = true ∧ ag.kind ≠ 1 ∧ s.dev.letIn r o = .ok ∧ s.dev.letIn r (o + 4) = .ok ∧
        s.dev.wordClosed r (o - o % 64) true = false ∧ s.dev.writeAction r o v = none ∧ s.dev.writeAction r (o + 4) v = none),
      d1.cs == s.dev.cs && latch d1 == some v),
     (true, d2.reg (o + 4) == writeValue hi (s.dev.reg (o + 4)) v r.secure && d2.reg o == (match latch s.dev with | some x => writeValue lo (s.dev.reg o) x r.secure | none => s.dev.reg o) && latch d2 == none && regs0.all fun p => p == o || p == o + 4 || d2.reg p == s.dev.reg p)]
  | _, _ => [(false, false)]

/-- Witness of `Obligations.WritePairs`: both halves. -/
theorem witness_WritePairs : ok ([wp (BitVec.ofNat 24 rMorBase) 0xFFFFFFFF none agS,
    wp (BitVec.ofNat 24 rMorBase) 0x12345678 (some 0x9999) agS].flatten) = true := by decide +kernel

def evs : List MorEvent := [{ ev0 with sev := 0 }, { ev0 with sev := 1 }, { ev0 with sev := 2 }, { ev0 with sev := 3 }]

/-- Witness of `Obligations.MoraineRaisesAttention`: every severity. -/
theorem witness_MoraineRaisesAttention : ([0,
    3].all fun k => evs.all fun e => [k == 0].all fun pre => let d := (sd0.dev.setReg rMorCfg (BitVec.ofNat 32 (k * 2^24))).setRegBit rCpDevsrc 29 pre; let src := fun (x : Dev) => rbit (x.reg rCpDevsrc) 29
  (if fld (d.reg rMorCfg) 25 24 ≤ e.sev.toNat then src (d.morWrite e) else src (d.morWrite e) == src d)) = true := by decide +kernel

/-- Witness of `Obligations.MoraineRaisesAttention`: the image default. -/
theorem witness_MoraineRaisesAttention_default : (fld ((live id).dev.loadDefaults.reg rMorCfg) 25 24 == 3) = true := by decide +kernel

/-- Witness of `Obligations.StepRunsFront`: a queue of two commands. -/
theorem witness_StepRunsFront : (match step { live id with pending := [.hostAckTimer 0, .heldRecordWrite 1] } with
    | .next t => decide (t.pending = [.heldRecordWrite 1] ∧ t.dev = after (.hostAckTimer 0) (live id))
    | _ => false) = true := by decide +kernel

/-- Witness of `Obligations.CodeProtectsWords`: the first and last bits of all-zero and all-one code words. -/
theorem witness_CodeProtectsWords : ([0, 2 ^ 64 - 1].all fun x => [0, 63].all fun i =>
    eccDecode (x ^^^ 2 ^ i) (eccCheck x ^^^ eccCheck (x ^^^ 2 ^ i)) == (x, .corrected i) && eccDecode x 1 == (x, .correctedCheck) &&
    (eccDecode (x ^^^ 2 ^ i ^^^ 2 ^ 7) (eccCheck x ^^^ eccCheck (x ^^^ 2 ^ i ^^^ 2 ^ 7))).2.poisoned) = true := by decide +kernel

/-- Witness of `Obligations.IdcodeReads`: a powered device. -/
theorem witness_IdcodeReads : ((live id).dev.powered && (after .idcode (live id)).sys.tap.captured == 0x16440A43) = true := by
  decide +kernel

/-- Witness of `Obligations.PinsAgreeAfterEveryStep`: a state whose pins do not agree, before and after a step. -/
theorem witness_PinsAgreeAfterEveryStep : (let s : State := live fun d => { d with sys := { d.sys with attn := 9 } }
    !s.pinsAgree && (match step s with | .next t => t.pinsAgree | _ => false)) = true := by decide +kernel

end Sys2Proof.Tests
end

/-! Proofs of the statements about a step of the block and the registers that only store (R10, R14, R38). -/

namespace Sys2Proof.Machine

/-! ## The front of the queue -/

/-- The other case of `step_nil`. -/
theorem step_cons (s : State) (c : Instr) (rest : List Instr) (h : s.pending = c :: rest) :
    step s = exec c { s with pending := rest } := by
  simp [step, h]

/-! ## The write of one register, as the write of a 64-byte word with four byte enables (R38) -/

/-- The byte enables of register `j` of a word select register `k` only when it is that register. -/
theorem byteEnables_eq_15_iff (j k : Nat) (hj : j < 16) (hk : k < 16) :
    fieldAt (BitVec.ofNat 64 (15 * 2 ^ (4 * j))).toNat 0 8 >>> (4 * k) % 16 = 15 ↔ k = j := by
  have hall : ∀ j < 16, ∀ k < 16, fieldAt (BitVec.ofNat 64 (15 * 2 ^ (4 * j))).toNat 0 8 >>> (4 * k) % 16 = 15 ↔ k = j := by
    decide
  exact hall j hj k hk

/-- A register's value, put at its place in a word, is read back from there. -/
theorem ofNat_fieldAt_shifted (v : Reg) (j : Nat) (hj : j < 16) :
    BitVec.ofNat 32 (fieldAt (BitVec.ofNat 512 (v.toNat * 2 ^ (8 * (4 * j)))).toNat (4 * j) 4) = v := by
  refine BitVec.eq_of_getLsbD_eq fun i hi => ?_
  have hin : 8 * (4 * j) + i < 512 := by omega
  simp only [fieldAt, BitVec.getLsbD_ofNat, BitVec.toNat_ofNat, Nat.testBit_mod_two_pow, Nat.testBit_shiftRight, Nat.testBit_mul_two_pow,
    BitVec.testBit_toNat, hi, hin]
  simp [hi]

/-- A fold over the numbers below `n` in which only `j` acts is the action of `j`. -/
theorem foldl_range_ite_eq {α : Type} (f : α → Nat → α) (a : α) (j n : Nat) :
    (List.range n).foldl (fun a k => if k = j then f a k else a) a = if j < n then f a j else a := by
  induction n with
  | zero => rfl
  | succ n ih =>
    rw [List.range_succ, List.foldl_append, ih]
    rcases lt_trichotomy n j with h | rfl | h
    · simp [h.ne, show ¬ j < n by omega, show ¬ j < n + 1 by omega]
    · simp
    · simp [h.ne', h, show j < n + 1 by omega]

/-- A word write that enables the bytes of one register is the admitted write of that register. -/
theorem Dev.csWrite_one (d : Dev) (r : Rights) (o : Nat) (v : Reg) (ho : o % 4 = 0)
    (hopen : d.wordClosed r (o - o % 64) true = false) :
    d.csWrite r (o - o % 64) (BitVec.ofNat 512 (v.toNat * 2 ^ (8 * (o % 64)))) (BitVec.ofNat 64 (15 * 2 ^ (o % 64)))
      = (true, d.writeAdmitted r o v) := by
  obtain ⟨j, hj, hplace⟩ : ∃ j, j < 16 ∧ o % 64 = 4 * j := ⟨o % 64 / 4, by omega, by omega⟩
  have haddr : o - 4 * j + 4 * j = o := by omega
  rw [hplace] at hopen ⊢
  have hfold := foldl_range_ite_eq (fun d k => d.writeAdmitted r (o - 4 * j + 4 * k)
    (BitVec.ofNat 32 (fieldAt (BitVec.ofNat 512 (v.toNat * 2 ^ (8 * (4 * j)))).toNat (4 * k) 4))) d j 16
  rw [if_pos hj, haddr, ofNat_fieldAt_shifted v j hj] at hfold
  rw [Dev.csWrite, hopen, if_neg Bool.false_ne_true, ← hfold]
  refine congrArg (Prod.mk true) (List.foldl_ext _ _ _ fun d k hk => ?_)
  simp only [byteEnables_eq_15_iff j k hj (List.mem_range.1 hk)]

/-- A register admitted whole in an open word: the write of an agent with a path other than the sideband's stores into it. -/
theorem Dev.agentWrite_of_admitted (d : Dev) (ag : Agent) (o : Nat) (v : Reg) (hreach : d.reaches ag = true)
    (hside : ag.kind ≠ 1) (ho : o % 4 = 0) (hadmit : d.letIn (d.rights ag) o = .ok)
    (hopen : d.wordClosed (d.rights ag) (o - o % 64) true = false) :
    d.agentWrite ag o v = d.writeReg (d.rights ag) o v := by
  simp [Dev.agentWrite, hreach, hside, ho, Dev.csWrite_one d _ o v ho hopen, Dev.writeAdmitted, hadmit]

/-! ## The registers that only store (R10) -/

/-- Each bit of a stored value: a W1C bit written 1 is cleared, a writable bit is taken, every other bit stays. -/
theorem getLsbD_writeValue (row : RegRow) (old v : Reg) (secure : Bool) (k : Nat) (hk : k < 32) :
    (writeValue row old v secure).getLsbD k =
      if row.w1c.getLsbD k && v.getLsbD k then false
      else if row.rw.getLsbD k || (secure && row.rws.getLsbD k) then v.getLsbD k
      else old.getLsbD k := by
  have hmask : (row.rw ||| (if secure then row.rws else 0)).getLsbD k = (row.rw.getLsbD k || (secure && row.rws.getLsbD k)) := by
    cases secure <;> simp
  simp only [writeValue, BitVec.getLsbD_and, BitVec.getLsbD_or, BitVec.getLsbD_not, hmask, hk, decide_true, Bool.true_and,
    Bool.and_comm (v.getLsbD k) (row.w1c.getLsbD k)]
  cases row.w1c.getLsbD k && v.getLsbD k with
  | true => simp
  | false => cases row.rw.getLsbD k || (secure && row.rws.getLsbD k) <;> simp

/-- A whole register on which a write does not act sets that register and reports nothing, where the writer may write it. -/
theorem Dev.writeReg_of_stores (d : Dev) (r : Rights) (o : Nat) (v : Reg) (row : RegRow) (hrow : regRow o = some row)
    (hwhole : row.half = 0) (hsecure : row.rws ≠ 0 → r.secure = true) (hstores : d.writeAction r o v = none) :
    d.writeReg r o v = d.setReg o
      (if row.rw ||| (if r.secure then row.rws else 0) = 0 then writeValue row (d.reg o) v r.secure
       else storeLimit o (writeValue row (d.reg o) v r.secure)) := by
  have hquiet : (row.hasRws && !r.secure) = false := by
    by_cases h : row.rws = 0
    · simp [RegRow.hasRws, h]
    · simp [hsecure h]
  simp [Dev.writeReg, hrow, hquiet, hstores, hwhole]

/-- Setting a register changes nothing but the registers, before and after the pins settle. -/
theorem Dev.settle_setReg_eq (d : Dev) (o : Nat) (x : Reg) :
    (d.setReg o x).settle = ({ d with cs := (d.setReg o x).settle.cs } : Dev).settle := rfl

end Sys2Proof.Machine

namespace Sys2Proof.Proofs

open Sys2Proof.Machine

/-- Settles O1: `step` takes the command off the queue before `exec` sees the state. -/
theorem stepRunsFront : Obligations.StepRunsFront := step_cons

/-- Settles O7: the word write comes down to one `setReg`, whose value is read bit by bit. -/
theorem registerWriteStores : Obligations.RegisterWriteStores := by
  unfold Obligations.RegisterWriteStores
  intro s ag off v row r o hreach hside ho hrow hwhole hsecure hadmit hopen hstores
  refine runs_of _ s _ (fun d => d.agentWrite ag o v) rfl ?_
  rw [Dev.agentWrite_of_admitted s.dev ag o v hreach hside ho hadmit hopen,
    Dev.writeReg_of_stores s.dev r o v row hrow hwhole hsecure hstores]
  refine ⟨⟨_, getLsbD_writeValue row (s.dev.reg o) v r.secure, ?_⟩, fun p hp => ?_, Dev.settle_setReg_eq ..⟩
  · rw [Dev.reg_settle, Dev.reg_setReg, if_pos rfl]
  · rw [Dev.reg_settle, Dev.reg_setReg, if_neg hp]

end Sys2Proof.Proofs

/-! Proof of the statement about writes of 64-bit quantities (R48). -/

namespace Sys2Proof.Machine

/-- A write by an agent that may write a register's RWS fields, or of one without such fields, is not reported. -/
theorem RegRow.hasRws_and_not_secure {row : RegRow} {secure : Bool} (h : row.rws ≠ 0 → secure = true) :
    (row.hasRws && !secure) = false := by
  by_cases hrws : row.rws = 0
  · simp [RegRow.hasRws, hrws]
  · simp [h hrws]

@[simp] theorem Dev.reg_latW (d : Dev) (l : Tab (Option Reg)) (o : Nat) : ({ d with latW := l } : Dev).reg o = d.reg o := rfl

/-- A write of the low half of a writable quantity is held in the path's latch. -/
theorem Dev.writeReg_of_lowHalf (d : Dev) (r : Rights) (o : Nat) (v : Reg) (lo : RegRow) (hrow : regRow o = some lo)
    (hhalf : lo.half = 1) (hmask : lo.rw ||| (if r.secure then lo.rws else 0) ≠ 0) (hsecure : lo.rws ≠ 0 → r.secure = true)
    (hstores : d.writeAction r o v = none) :
    d.writeReg r o v = { d with latW := tabSet (fun _ => none) d.latW (latKey r.path (o + 4)) (some v) } := by
  simp only [Dev.writeReg, hrow, RegRow.hasRws_and_not_secure hsecure, hstores, hhalf, if_neg hmask, if_true, Bool.false_eq_true,
    if_false]

/-- What a write of the high half stores: both halves when the low half is pending on the path, the new high half alone when not.
Either way the latch is empty. -/
def Dev.storePair (d : Dev) (r : Rights) (o : Nat) (v : Reg) (lo hi : RegRow) : Dev :=
  let e := ({ d with latW := tabSet (fun _ => none) d.latW (latKey r.path (o + 4)) none } : Dev).setReg (o + 4)
    (writeValue hi (d.reg (o + 4)) v r.secure)
  match tabGet (fun _ => none) d.latW (latKey r.path (o + 4)) with
  | some x => e.setReg o (writeValue lo (d.reg o) x r.secure)
  | none => e

theorem Dev.writeReg_of_highHalf (d : Dev) (r : Rights) (o : Nat) (v : Reg) (lo hi : RegRow) (hlo : regRow o = some lo)
    (hhi : regRow (o + 4) = some hi) (hhalf : hi.half = 2) (hmask : hi.rw ||| (if r.secure then hi.rws else 0) ≠ 0)
    (hsecure : hi.rws ≠ 0 → r.secure = true) (hstores : d.writeAction r (o + 4) v = none) :
    d.writeReg r (o + 4) v = d.storePair r o v lo hi := by
  have hother : ∀ (l : Tab (Option Reg)) (x : Reg), (({ d with latW := l } : Dev).setReg (o + 4) x).reg o = d.reg o := by
    intro l x
    rw [Dev.reg_setReg, if_neg (by omega), Dev.reg_latW]
  simp only [Dev.writeReg, hhi, RegRow.hasRws_and_not_secure hsecure, hstores, hhalf, if_neg hmask, Bool.false_eq_true, if_false,
    if_true, Nat.add_sub_cancel, hlo, hother, Dev.storePair, show ¬ (2 = 1) by decide]
  cases tabGet (fun _ => none) d.latW (latKey r.path (o + 4)) <;> rfl

variable (d : Dev) (r : Rights) (o : Nat) (v : Reg) (lo hi : RegRow)

theorem Dev.reg_storePair_high : (d.storePair r o v lo hi).reg (o + 4) = writeValue hi (d.reg (o + 4)) v r.secure := by
  unfold Dev.storePair
  cases tabGet (fun _ => none) d.latW (latKey r.path (o + 4)) <;> simp

theorem Dev.reg_storePair_low : (d.storePair r o v lo hi).reg o =
    (match tabGet (fun _ => none) d.latW (latKey r.path (o + 4)) with
      | some x => writeValue lo (d.reg o) x r.secure
      | none => d.reg o) := by
  unfold Dev.storePair
  cases tabGet (fun _ => none) d.latW (latKey r.path (o + 4)) <;> simp

theorem Dev.reg_storePair_of_ne (p : Nat) (hlow : p ≠ o) (hhigh : p ≠ o + 4) : (d.storePair r o v lo hi).reg p = d.reg p := by
  unfold Dev.storePair
  cases tabGet (fun _ => none) d.latW (latKey r.path (o + 4)) <;> simp [hlow, hhigh]

theorem Dev.latW_storePair :
    (d.storePair r o v lo hi).latW = tabSet (fun _ => none) d.latW (latKey r.path (o + 4)) none := by
  unfold Dev.storePair
  cases tabGet (fun _ => none) d.latW (latKey r.path (o + 4)) <;> rfl

end Sys2Proof.Machine

namespace Sys2Proof.Proofs

open Sys2Proof.Machine

/-- Settles O58: the word write comes down to one `writeReg`, of the low half into the latch or of the high half with what the
latch holds. -/
theorem writePairs : Obligations.WritePairs := by
  unfold Obligations.WritePairs
  intro s ag off v lo hi r o latch mask halign hbound hlo hlow hhi hhigh hmlo hmhi hsecure hreach hside hletLo hletHi hopen
    hactLo hactHi
  constructor
  · refine runs_of _ s _ (fun d => d.agentWrite ag o v) rfl ?_
    rw [Dev.agentWrite_of_admitted s.dev ag o v hreach hside (by omega) hletLo hopen,
      Dev.writeReg_of_lowHalf s.dev r o v lo hlo hlow hmlo (fun h => hsecure (.inl h)) hactLo]
    refine ⟨rfl, ?_⟩
    simp [latch]
  · have hoff : (off + 4).toNat = o + 4 := by
      simp only [BitVec.toNat_add, o]
      exact Nat.mod_eq_of_lt hbound
    have hword : o + 4 - (o + 4) % 64 = o - o % 64 := by omega
    refine runs_of _ s _ (fun d => d.agentWrite ag (o + 4) v) (by rw [← hoff]; rfl) ?_
    rw [Dev.agentWrite_of_admitted s.dev ag (o + 4) v hreach hside (by omega) hletHi (by rw [hword]; exact hopen),
      Dev.writeReg_of_highHalf s.dev r o v lo hi hlo hhi hhigh hmhi (fun h => hsecure (.inr h)) hactHi]
    refine ⟨Dev.reg_storePair_high .., Dev.reg_storePair_low .., ?_, fun p => Dev.reg_storePair_of_ne _ _ _ _ _ _ p⟩
    simp [latch, Dev.latW_storePair]

end Sys2Proof.Proofs

/-! Proof of the statement about starts (R46, R469 to R473, R495, R496): what resets, failed starts and each step of a start do and leave. -/

/-! ## Fields of a register -/

namespace Sys2Proof.Machine

/-- Each bit of a number that is a run of bits of another. -/
theorem testBit_bits (x hi lo i : Nat) : (bits x hi lo).testBit i = (decide (i < hi + 1 - lo) && x.testBit (lo + i)) := by
  rw [bits, Nat.testBit_mod_two_pow, Nat.testBit_shiftRight]

/-- Each bit of a register after a write of the field from `lo` to `hi`. -/
theorem rbit_setFld (r : Reg) (hi lo v k : Nat) (hk : k < 32) :
    rbit (setFld r hi lo v) k = if lo ≤ k ∧ k ≤ hi then v.testBit (k - lo) else rbit r k := by
  simp only [rbit, setFld, BitVec.getLsbD_or, BitVec.getLsbD_and, BitVec.getLsbD_not, BitVec.getLsbD_ofNat, Nat.testBit_shiftLeft,
    Nat.testBit_mod_two_pow, Nat.testBit_two_pow_sub_one, hk, decide_true, Bool.true_and]
  by_cases hlo : lo ≤ k
  · by_cases hhi : k ≤ hi
    · simp [hlo, hhi, show k - lo < hi + 1 - lo by omega]
    · simp [hlo, hhi, show ¬ k - lo < hi + 1 - lo by omega]
  · simp [hlo]

/-- Two registers that agree on the bits of a field agree on the field. -/
theorem fld_congr {x y : Reg} {hi lo : Nat} (h : ∀ k, lo ≤ k → k ≤ hi → rbit x k = rbit y k) : fld x hi lo = fld y hi lo := by
  refine Nat.eq_of_testBit_eq fun i => ?_
  simp only [fld, testBit_bits]
  by_cases hi' : i < hi + 1 - lo
  · have := h (lo + i) (by omega) (by omega)
    simpa [hi', rbit, BitVec.testBit_toNat] using this
  · simp [hi']

/-- A field reads as it was written. -/
theorem fld_setFld_same (r : Reg) (hi lo v : Nat) (hhi : hi < 32) (hv : v < 2 ^ (hi + 1 - lo)) : fld (setFld r hi lo v) hi lo = v := by
  refine Nat.eq_of_testBit_eq fun i => ?_
  simp only [fld, testBit_bits, BitVec.testBit_toNat]
  by_cases h : i < hi + 1 - lo
  · have := rbit_setFld r hi lo v (lo + i) (by omega)
    rw [rbit, if_pos (by omega), Nat.add_sub_cancel_left] at this
    simp [h, this]
  · have hle : 2 ^ (hi + 1 - lo) ≤ 2 ^ i := Nat.pow_le_pow_right (by omega) (by omega)
    simp [h, Nat.testBit_lt_two_pow (lt_of_lt_of_le hv hle)]

/-- A field reads as before after a write of one that it does not meet. -/
theorem fld_setFld_apart (r : Reg) (hi lo hi' lo' v : Nat) (hhi : hi < 32) (h : hi < lo' ∨ hi' < lo) :
    fld (setFld r hi' lo' v) hi lo = fld r hi lo :=
  fld_congr fun k _ _ => by rw [rbit_setFld r hi' lo' v k (by omega), if_neg (by omega)]

/-! ## Fields of the device's registers -/

theorem Dev.reg_setRegFld (d : Dev) (o p hi lo v : Nat) :
    (d.setRegFld o hi lo v).reg p = if p = o then setFld (d.reg o) hi lo v else d.reg p := by
  rw [Dev.setRegFld, Dev.reg_setReg]

theorem Dev.reg_setRegFld_ne (d : Dev) {o p : Nat} (hi lo v : Nat) (h : p ≠ o) : (d.setRegFld o hi lo v).reg p = d.reg p := by
  rw [Dev.reg_setRegFld, if_neg h]

theorem Dev.reg_setRegBit_ne (d : Dev) {o p : Nat} (n : Nat) (b : Bool) (h : p ≠ o) : (d.setRegBit o n b).reg p = d.reg p :=
  d.reg_setRegFld_ne n n b.toNat h

/-- Each bit of a register of which a field has been written. -/
theorem Dev.rbit_setRegFld (d : Dev) (o hi lo v k : Nat) (hk : k < 32) :
    rbit ((d.setRegFld o hi lo v).reg o) k = if lo ≤ k ∧ k ≤ hi then v.testBit (k - lo) else rbit (d.reg o) k := by
  rw [Dev.reg_setRegFld, if_pos rfl, rbit_setFld _ _ _ _ _ hk]

/-- Each bit of a register of which a bit has been written. -/
theorem Dev.rbit_setRegBit (d : Dev) (o n : Nat) (b : Bool) (k : Nat) (hk : k < 32) :
    rbit ((d.setRegBit o n b).reg o) k = if k = n then b else rbit (d.reg o) k := by
  rw [Dev.setRegBit, Dev.rbit_setRegFld _ _ _ _ _ _ hk]
  by_cases h : k = n
  · subst h
    cases b <;> simp
  · rw [if_neg (by omega), if_neg h]

theorem Dev.fld_setRegFld_same (d : Dev) (o hi lo v : Nat) (hhi : hi < 32) (hv : v < 2 ^ (hi + 1 - lo)) :
    fld ((d.setRegFld o hi lo v).reg o) hi lo = v := by
  rw [Dev.reg_setRegFld, if_pos rfl, fld_setFld_same _ _ _ _ hhi hv]

theorem Dev.fld_setRegFld_apart (d : Dev) (o hi lo hi' lo' v : Nat) (hhi : hi < 32) (h : hi < lo' ∨ hi' < lo) :
    fld ((d.setRegFld o hi' lo' v).reg o) hi lo = fld (d.reg o) hi lo := by
  rw [Dev.reg_setRegFld, if_pos rfl, fld_setFld_apart _ _ _ _ _ _ hhi h]

theorem Dev.fld_setRegBit_apart (d : Dev) (o hi lo n : Nat) (b : Bool) (hhi : hi < 32) (h : hi < n ∨ n < lo) :
    fld ((d.setRegBit o n b).reg o) hi lo = fld (d.reg o) hi lo :=
  d.fld_setRegFld_apart o hi lo n n b.toNat hhi h

/-! ## Registers after a reset (R11, R464) -/

/-- The bits of a register that survive a reset. -/
def stickyMask (o : Nat) : Reg := ((regRow o).map (·.sticky)).getD 0

/-- What a reset leaves of a register's value. -/
def stickyValue (o : Nat) (v : Reg) : Reg := (regReset o &&& ~~~(stickyMask o)) ||| (v &&& stickyMask o)

theorem rbit_stickyValue (o : Nat) (v : Reg) (k : Nat) (hk : k < 32) :
    rbit (stickyValue o v) k = if rbit (stickyMask o) k then rbit v k else rbit (regReset o) k := by
  simp only [rbit, stickyValue, BitVec.getLsbD_or, BitVec.getLsbD_and, BitVec.getLsbD_not, hk, decide_true, Bool.true_and]
  by_cases h : (stickyMask o).getLsbD k = true <;> simp [h]

theorem stickyValue_of_not_sticky {o : Nat} (v : Reg) (h : stickyMask o = 0) : stickyValue o v = regReset o :=
  BitVec.eq_of_getLsbD_eq fun k hk => by
    have := rbit_stickyValue o v k hk
    simpa [h, rbit] using this

theorem stickyValue_reset (o : Nat) : stickyValue o (regReset o) = regReset o :=
  BitVec.eq_of_getLsbD_eq fun k hk => by
    have := rbit_stickyValue o (regReset o) k hk
    rwa [ite_self] at this

section Tables

variable {α : Type} [DecidableEq α] {dflt : Nat → α}

/-- A key of a table whose entries have been changed one by one, those then equal to the unlisted value being dropped: where the
changed entry differs from the unlisted value, it is what is read. -/
theorem tabGet_map_filter_of_ne (t : Tab α) (f : Nat → α → α) (k : Nat) (hdflt : f k (dflt k) = dflt k)
    (h : f k (tabGet dflt t k) ≠ dflt k) :
    tabGet dflt ((t.map fun e => (e.1, f e.1 e.2)).filter fun e => e.2 != dflt e.1) k = f k (tabGet dflt t k) := by
  induction t with
  | nil => exact hdflt.symm
  | cons e t ih =>
    obtain ⟨j, v⟩ := e
    by_cases hj : j = k
    · subst hj
      have hv : f j v ≠ dflt j := by simpa [tabGet] using h
      simp [tabGet, hv]
    · have ht : f k (tabGet dflt t k) ≠ dflt k := by simpa [tabGet, hj] using h
      have ih := ih ht
      by_cases hv : f j v = dflt j
      · simpa [tabGet, hj, hv] using ih
      · simpa [tabGet, hj, hv] using ih

/-- A key whose every entry becomes the unlisted value reads as unlisted. -/
theorem tabGet_map_filter_of_eq (t : Tab α) (f : Nat → α → α) (k : Nat) (h : ∀ v, f k v = dflt k) :
    tabGet dflt ((t.map fun e => (e.1, f e.1 e.2)).filter fun e => e.2 != dflt e.1) k = dflt k := by
  induction t with
  | nil => rfl
  | cons e t ih =>
    obtain ⟨j, v⟩ := e
    by_cases hj : j = k
    · subst hj
      simpa [h v] using ih
    · by_cases hv : f j v = dflt j
      · simpa [hv] using ih
      · simpa [tabGet, hj, hv] using ih

end Tables

theorem keepSticky_eq (cs : Tab Reg) :
    keepSticky cs = (cs.map fun e => (e.1, stickyValue e.1 e.2)).filter fun e => e.2 != regReset e.1 := rfl

theorem tabGet_keepSticky_of_ne (cs : Tab Reg) (o : Nat) (h : stickyValue o (tabGet regReset cs o) ≠ regReset o) :
    tabGet regReset (keepSticky cs) o = stickyValue o (tabGet regReset cs o) := by
  rw [keepSticky_eq]
  exact tabGet_map_filter_of_ne cs stickyValue o (stickyValue_reset o) h

theorem tabGet_keepSticky_of_not_sticky (cs : Tab Reg) (o : Nat) (h : stickyMask o = 0) :
    tabGet regReset (keepSticky cs) o = regReset o := by
  rw [keepSticky_eq]
  exact tabGet_map_filter_of_eq cs stickyValue o fun v => stickyValue_of_not_sticky v h

/-- A register whose reset value is 0 keeps each sticky bit that is set. -/
theorem rbit_keepSticky_of_set (cs : Tab Reg) (o k : Nat) (hk : k < 32) (hreset : regReset o = 0)
    (hsticky : rbit (stickyMask o) k = true) (hset : rbit (tabGet regReset cs o) k = true) :
    rbit (tabGet regReset (keepSticky cs) o) k = true := by
  have hbit : rbit (stickyValue o (tabGet regReset cs o)) k = true := by rw [rbit_stickyValue o _ k hk, if_pos hsticky, hset]
  rw [tabGet_keepSticky_of_ne cs o fun h => ?_, hbit]
  rw [h, hreset] at hbit
  simp [rbit] at hbit

/-- A register whose reset value is 0 keeps a field of sticky bits that is not 0. -/
theorem fld_keepSticky (cs : Tab Reg) (o hi lo : Nat) (hhi : hi < 32) (hreset : regReset o = 0)
    (hsticky : ∀ k, lo ≤ k → k ≤ hi → rbit (stickyMask o) k = true) (hset : fld (tabGet regReset cs o) hi lo ≠ 0) :
    fld (tabGet regReset (keepSticky cs) o) hi lo = fld (tabGet regReset cs o) hi lo := by
  have hfld : fld (stickyValue o (tabGet regReset cs o)) hi lo = fld (tabGet regReset cs o) hi lo :=
    fld_congr fun k h1 h2 => by rw [rbit_stickyValue o _ k (by omega), if_pos (hsticky k h1 h2)]
  rw [tabGet_keepSticky_of_ne cs o fun h => ?_, hfld]
  rw [h, hreset] at hfld
  exact hset (by rw [← hfld]; simp [fld, bits])

end Sys2Proof.Machine

/-! ## Resets and failed starts (R463, R464, R473, R495) -/

namespace Sys2Proof.Machine

open Sys2Proof.Claims

/-- The registers after a reset: the sticky bits, with the cause and IN_RESET recorded. -/
theorem Dev.reg_reset (d : Dev) (cause o : Nat) (retain : Bool) (hcause : o ≠ rRstCause) (hstat : o ≠ rRstStat) :
    (d.reset cause retain).reg o = tabGet regReset (keepSticky d.cs) o :=
  (Dev.reg_setRegBit_ne _ _ _ hstat).trans (Dev.reg_setRegBit_ne _ _ _ hcause)

theorem Dev.rbit_reset_cause (d : Dev) (cause k : Nat) (retain : Bool) (hk : k < 32) :
    rbit ((d.reset cause retain).reg rRstCause) k = if k = cause then true else rbit (tabGet regReset (keepSticky d.cs) rRstCause) k :=
  (congrArg (rbit · k) (Dev.reg_setRegBit_ne _ 29 true (show rRstCause ≠ rRstStat by decide))).trans
    (Dev.rbit_setRegBit _ rRstCause cause true k hk)

theorem Dev.rbit_reset_stat (d : Dev) (cause k : Nat) (retain : Bool) (hk : k < 32) :
    rbit ((d.reset cause retain).reg rRstStat) k = if k = 29 then true else rbit (tabGet regReset (keepSticky d.cs) rRstStat) k :=
  (Dev.rbit_setRegBit _ rRstStat 29 true k hk).trans <| by
    rw [Dev.reg_setRegBit_ne _ _ _ (show rRstStat ≠ rRstCause by decide)]
    rfl

theorem rbit_sticky_rstCause (k : Nat) (hk : k < 9) : rbit (stickyMask rRstCause) k = true := by
  have h : ∀ k < 9, rbit (stickyMask rRstCause) k = true := by decide
  exact h k hk

/-- Everything that a reset does, whatever the tables hold. -/
theorem Dev.reset_hasReset (d : Dev) (cause : Nat) (retain : Bool) (hcause : cause < 9) :
    HasReset d (d.reset cause retain) cause d.afterReset := by
  refine ⟨?_, ?_, rfl, rfl, rfl, rfl, rfl, rfl, rfl, rfl, rfl, rfl, rfl, fun o h1 h2 hsticky => ?_, fun j hj hset => ?_, rfl, rfl⟩
  · rw [d.rbit_reset_cause cause cause retain (by omega), if_pos rfl]
  · rw [d.rbit_reset_stat cause 29 retain (by omega), if_pos rfl]
  · rw [d.reg_reset cause o retain h1 h2, tabGet_keepSticky_of_not_sticky d.cs o hsticky]
  · rw [d.rbit_reset_cause cause j retain (by omega)]
    have hkept := rbit_keepSticky_of_set d.cs rRstCause j (by omega) (by decide) (rbit_sticky_rstCause j hj) hset
    split
    · rfl
    · exact hkept

/-- A reset leaves the count of failed starts, unless it is 0. -/
theorem Dev.fails_reset (d : Dev) (cause : Nat) (retain : Bool) (h : d.fails ≠ 0) : (d.reset cause retain).fails = d.fails :=
  (fld_congr fun k h1 h2 => by
    rw [d.rbit_reset_stat cause k retain (by omega), if_neg (by omega)]).trans
    (fld_keepSticky d.cs rRstStat 19 18 (by decide) (by decide)
      (fun k h1 h2 => by
        obtain rfl | rfl : k = 18 ∨ k = 19 := by omega
        · decide
        · decide) h)

/-- A reset leaves the code of the last failed start, unless it is 0. -/
theorem Dev.failCode_reset (d : Dev) (cause : Nat) (retain : Bool) (h : fld (d.reg rCfgStat) 15 8 ≠ 0) :
    fld ((d.reset cause retain).reg rCfgStat) 15 8 = fld (d.reg rCfgStat) 15 8 := by
  have hmask : ∀ k < 16, 8 ≤ k → rbit (stickyMask rCfgStat) k = true := by decide
  rw [d.reg_reset cause rCfgStat retain (by decide) (by decide)]
  exact fld_keepSticky d.cs rCfgStat 15 8 (by decide) (by decide) (fun k h1 h2 => hmask k (by omega) h1) h

theorem Dev.afterReset_of_mayRestart {d : Dev} (h : MayRestart d) : d.afterReset = .waiting := by
  obtain ⟨-, hpin, hcool, hdead⟩ := h
  simp [Dev.afterReset, hpin, hcool, hdead]

/-- A start under way: what a failed start looks at is as it was at time zero. -/
structure SameForFailure (d x : Dev) : Prop where
  phase   : x.sys.phase = d.sys.phase
  cooling : x.sys.cooling = d.sys.cooling
  fuses   : x.fuses = d.fuses
  flash   : x.flash = d.flash
  cause   : x.reg rRstCause = d.reg rRstCause
  stat    : ∀ k, k < 32 → k ≠ 29 → rbit (x.reg rRstStat) k = rbit (d.reg rRstStat) k

theorem SameForFailure.fails_eq {d x : Dev} (h : SameForFailure d x) : x.fails = d.fails :=
  fld_congr fun k h1 h2 => h.stat k (by omega) (by omega)

theorem Dev.fails_lt (d : Dev) : d.fails < 4 := Nat.mod_lt _ (by decide)

/-- The device that a failed start resets: the failure is counted and its code recorded (R473). -/
def Dev.failNoted (d : Dev) (code : Nat) : Dev :=
  ((d.report 0x0A01 2 0 0 0 code).setRegFld rRstStat 19 18 (sat 3 (d.fails + 1))).setRegFld rCfgStat 15 8 code

theorem Dev.startFail_eq (d : Dev) (code : Nat) :
    d.startFail code = (d.failNoted code).reset (if code = 8 then cWdog else cRetry) false := by
  have hfails : (d.report 0x0A01 2 0 0 0 code).fails = d.fails := by
    simp only [Dev.fails, d.report_reg 0x0A01 2 0 0 0 code none rRstStat (by decide)]
  simp only [Dev.startFail, Dev.failNoted, hfails]

theorem Dev.reg_failNoted (d : Dev) (code o : Nat) (hlog : o ∉ reportRegs) (hstat : o ≠ rRstStat) (hcfg : o ≠ rCfgStat) :
    (d.failNoted code).reg o = d.reg o := by
  rw [Dev.failNoted, Dev.reg_setRegFld_ne _ _ _ _ hcfg, Dev.reg_setRegFld_ne _ _ _ _ hstat, Dev.report_reg _ _ _ _ _ _ _ _ _ hlog]

theorem Dev.failCode_failNoted (d : Dev) (code : Nat) (h : code < 256) : fld ((d.failNoted code).reg rCfgStat) 15 8 = code :=
  Dev.fld_setRegFld_same _ _ _ _ _ (by decide) h

theorem Dev.fails_failNoted (d : Dev) (code : Nat) (h : d.fails ≠ 3) : (d.failNoted code).fails = d.fails + 1 := by
  have hlt := d.fails_lt
  have hsat : sat 3 (d.fails + 1) = d.fails + 1 := by
    simp only [sat]
    split <;> omega
  rw [Dev.fails, Dev.failNoted, Dev.reg_setRegFld_ne _ _ _ _ (show rRstStat ≠ rCfgStat by decide), hsat,
    Dev.fld_setRegFld_same _ _ _ _ _ (by decide) (by omega)]

theorem Dev.pinLow_failNoted (d : Dev) (code : Nat) : (d.failNoted code).pinLow = d.pinLow := by
  rw [Dev.pinLow, Dev.failNoted, Dev.reg_setRegFld_ne _ _ _ _ (show rRstStat ≠ rCfgStat by decide),
    Dev.rbit_setRegFld _ _ _ _ _ _ (by decide), if_neg (by decide), Dev.report_reg _ _ _ _ _ _ _ _ _ (by decide), Dev.pinLow]

theorem Dev.sys_failNoted (d : Dev) (code : Nat) : (d.failNoted code).sys = d.sys := Dev.report_sys ..

/-- A start that fails ends in a reset, counts one failure more and records its code (R473, R495). -/
theorem Dev.startFail_failed {d x : Dev} (hsame : SameForFailure d x) (hmay : MayRestart d) (hfails : d.fails ≠ 3) (code : Nat)
    (hpos : code ≠ 0) (hlt : code < 256) :
    HasReset d (x.startFail code) (if code = 8 then 4 else 7) .waiting ∧ fld ((x.startFail code).reg rRstStat) 19 18 = d.fails + 1 ∧
      fld ((x.startFail code).reg rCfgStat) 15 8 = code := by
  have hcount : (x.failNoted code).fails = d.fails + 1 := by rw [x.fails_failNoted code (by rwa [hsame.fails_eq]), hsame.fails_eq]
  have hcode := x.failCode_failNoted code hlt
  have hpin : x.pinLow = d.pinLow := hsame.stat 31 (by decide) (by decide)
  have hphase : (x.failNoted code).afterReset = .waiting := by
    rw [← Dev.afterReset_of_mayRestart hmay]
    simp only [Dev.afterReset, Dev.sys_failNoted, Dev.pinLow_failNoted, hpin, hsame.phase, hsame.cooling]
  rw [x.startFail_eq code]
  have hreset := (x.failNoted code).reset_hasReset (if code = 8 then 4 else 7) false (by split <;> omega)
  obtain ⟨hcause, hin, hphase', htr, ht, hc, hr, hh, hl, hlo, hs, hn, hrem, hregs, hold, hfuses, hflash⟩ := hreset
  refine ⟨⟨hcause, hin, hphase'.trans hphase, htr, ht, hc, hr, hh, hl, hlo, hs, hn, hrem, hregs, fun j hj hset => ?_, ?_, ?_⟩, ?_, ?_⟩
  · refine hold j hj ?_
    rwa [x.reg_failNoted code rRstCause (by decide) (by decide) (by decide), hsame.cause]
  · exact hfuses.trans ((Dev.report_fuses ..).trans hsame.fuses)
  · exact hflash.trans ((Dev.report_flash ..).trans hsame.flash)
  · exact ((x.failNoted code).fails_reset _ false (by omega)).trans hcount
  · exact ((x.failNoted code).failCode_reset _ false (by omega)).trans hcode

end Sys2Proof.Machine

/-! ## What the steps of a start leave alone -/

namespace Sys2Proof.Machine

/-- The registers that a start's own decisions rest on: RST_STAT, CFG_STAT, CFG_HDOWN, CP_STAT, CH_CFG of channel 0, THM_DRAM. -/
abbrev startReg (o : Nat) : Prop :=
  o = rRstStat ∨ o = rCfgStat ∨ o = rCfgHdown ∨ o = rCpStat ∨ o = rChCfg 0 ∨ (rThmDram 0 ≤ o ∧ o < rThmDram 16)

theorem startReg_iff (o : Nat) : startReg o ↔
    o = 0x304 ∨ o = 0x400 ∨ o = 0x418 ∨ o = 0x800 ∨ o = 0x100004 ∨ (0x10100 ≤ o ∧ o < 0x10140) := Iff.rfl

/-- A channel that has been trained and initialised takes accesses (R131, R165). -/
def Chan.opened (c : Chan) : Prop := c.ready = true ∧ c.selfRef = false

/-- An act of a start that leaves its phase, its registers, and the opened channels. -/
structure StartKeeps (d d' : Dev) : Prop where
  phase    : d'.sys.phase = d.sys.phase
  timeRun  : d'.timeRun = d.timeRun
  released : d'.released = d.released
  reg      : ∀ o, startReg o → d'.reg o = d.reg o
  chan     : ∀ c, (d.chan c).opened → (d'.chan c).opened

/-- Such an act that leaves the host channels too. -/
structure StartFrame (d d' : Dev) : Prop extends StartKeeps d d' where
  host : ∀ c, d'.host c = d.host c

theorem StartKeeps.refl (d : Dev) : StartKeeps d d := ⟨rfl, rfl, rfl, fun _ _ => rfl, fun _ h => h⟩

theorem StartKeeps.trans {a b c : Dev} (h : StartKeeps a b) (k : StartKeeps b c) : StartKeeps a c where
  phase := k.phase.trans h.phase
  timeRun := k.timeRun.trans h.timeRun
  released := k.released.trans h.released
  reg o ho := (k.reg o ho).trans (h.reg o ho)
  chan n hn := k.chan n (h.chan n hn)

theorem StartFrame.refl (d : Dev) : StartFrame d d := ⟨.refl d, fun _ => rfl⟩

theorem StartFrame.trans {a b c : Dev} (h : StartFrame a b) (k : StartFrame b c) : StartFrame a c :=
  ⟨h.toStartKeeps.trans k.toStartKeeps, fun n => (k.host n).trans (h.host n)⟩

theorem StartFrame.ite {p : Prop} {_ : Decidable p} {d x y : Dev} (h : StartFrame d x) (k : StartFrame d y) :
    StartFrame d (if p then x else y) := by
  split <;> assumption

theorem StartFrame.orThen {p : Prop} {_ : Decidable p} {d x y : Dev} (h : StartFrame d x) (k : StartFrame x y) :
    StartFrame d (if p then y else x) :=
  (h.trans k).ite h

theorem StartFrame.foldl {β : Type} {f : Dev → β → Dev} {l : List β} (h : ∀ d, ∀ x ∈ l, StartFrame d (f d x)) (d : Dev) :
    StartFrame d (l.foldl f d) :=
  List.foldlRecOn l f (StartFrame.refl d) fun b hb x hx => hb.trans (h b x hx)

/-- What holds at the start of a counted loop and is kept by each of its steps holds at its end. -/
theorem forNat_rec {α : Type} {motive : α → Prop} {n : Nat} {a : α} {f : α → Nat → α} (h0 : motive a)
    (h : ∀ x, motive x → ∀ k, k < n → motive (f x k)) : motive (forNat n a f) :=
  List.foldlRecOn (List.range n) f h0 fun x hx k hk => h x hx k (List.mem_range.1 hk)

theorem StartFrame.forNat {f : Dev → Nat → Dev} {n : Nat} (h : ∀ d, ∀ k < n, StartFrame d (f d k)) (d : Dev) :
    StartFrame d (forNat n d f) :=
  forNat_rec (.refl d) fun x hx k hk => hx.trans (h x k hk)

/-! ## Named updates -/

theorem StartFrame.setReg (d : Dev) (o : Nat) (v : Reg) (h : ¬ startReg o) : StartFrame d (d.setReg o v) where
  phase := rfl
  timeRun := rfl
  released := rfl
  reg p hp := by
    rw [Dev.reg_setReg, if_neg]
    rintro rfl
    exact h hp
  chan _ hc := hc
  host _ := rfl

theorem StartFrame.setRegFld (d : Dev) (o hi lo v : Nat) (h : ¬ startReg o) : StartFrame d (d.setRegFld o hi lo v) :=
  StartFrame.setReg d o _ h

theorem StartFrame.setRegBit (d : Dev) (o n : Nat) (b : Bool) (h : ¬ startReg o) : StartFrame d (d.setRegBit o n b) :=
  StartFrame.setReg d o _ h

theorem StartFrame.chAll (d : Dev) (o : Nat → Nat) (hi lo v : Nat) (h : ∀ c, ¬ startReg (o c)) : StartFrame d (d.chAll o hi lo v) :=
  StartFrame.forNat (fun d c _ => StartFrame.setRegFld d (o c) hi lo v (h c)) d

theorem not_reportReg_of_startReg {o : Nat} (h : startReg o) : o ∉ reportRegs := by
  intro hmem
  simp only [reportRegs, List.mem_cons, List.not_mem_nil, or_false, rMorSeq, rCpDevsrc, rMorFatal, rMorStat] at hmem
  rw [startReg_iff] at h
  omega

theorem StartFrame.report (d : Dev) (code sev ukind unit addr info : Nat) :
    StartFrame d (d.report code sev ukind unit addr info) where
  phase := by rw [Dev.report_sys]
  timeRun := by rw [Dev.report_timeRun]
  released := by rw [Dev.report_released]
  reg o ho := Dev.report_reg _ _ _ _ _ _ _ _ o (not_reportReg_of_startReg ho)
  chan c hc := by rwa [Dev.report_chan_at]
  host c := by rw [Dev.report_host_at]

theorem StartFrame.updChan (d : Dev) (c : Nat) (f : Chan → Chan) (h : ∀ x : Chan, x.opened → (f x).opened) :
    StartFrame d (d.updChan c f) where
  phase := rfl
  timeRun := rfl
  released := rfl
  reg _ _ := rfl
  chan k hk := by
    rw [Dev.updChan, Dev.chan_setChan]
    split
    · next e => exact h _ (e ▸ hk)
    · exact hk
  host _ := rfl

theorem StartFrame.setFloe (d : Dev) (n : Nat) (x : Floe) : StartFrame d (d.setFloe n x) :=
  ⟨⟨rfl, rfl, rfl, fun _ _ => rfl, fun _ h => h⟩, fun _ => rfl⟩

theorem StartFrame.setRing (d : Dev) (n : Nat) (x : Ring) : StartFrame d (d.setRing n x) :=
  ⟨⟨rfl, rfl, rfl, fun _ _ => rfl, fun _ h => h⟩, fun _ => rfl⟩

theorem StartFrame.setLink (d : Dev) (l : Nat) (x : Link) : StartFrame d (d.setLink l x) :=
  ⟨⟨rfl, rfl, rfl, fun _ _ => rfl, fun _ h => h⟩, fun _ => rfl⟩

theorem StartFrame.remotes (d : Dev) (r : List Remote) : StartFrame d { d with remotes := r } :=
  ⟨⟨rfl, rfl, rfl, fun _ _ => rfl, fun _ h => h⟩, fun _ => rfl⟩

theorem StartFrame.twin (d : Dev) (t : Twin) : StartFrame d { d with twin := t } :=
  ⟨⟨rfl, rfl, rfl, fun _ _ => rfl, fun _ h => h⟩, fun _ => rfl⟩

theorem StartFrame.dram (d : Dev) (m : EccMem) : StartFrame d { d with dram := m } :=
  ⟨⟨rfl, rfl, rfl, fun _ _ => rfl, fun _ h => h⟩, fun _ => rfl⟩

theorem StartFrame.fuses (d : Dev) (f : Fuses) : StartFrame d { d with fuses := f } :=
  ⟨⟨rfl, rfl, rfl, fun _ _ => rfl, fun _ h => h⟩, fun _ => rfl⟩

theorem StartFrame.sys (d : Dev) (y : Sys) (h : y.phase = d.sys.phase) : StartFrame d { d with sys := y } :=
  ⟨⟨h, rfl, rfl, fun _ _ => rfl, fun _ h => h⟩, fun _ => rfl⟩

theorem StartFrame.advanceTo (d : Dev) (t : Nat) : StartFrame d (d.advanceTo t) := by
  unfold Dev.advanceTo
  refine StartFrame.ite (StartFrame.refl d) (StartFrame.ite ?_ ?_) <;>
    exact ⟨⟨rfl, rfl, rfl, fun _ _ => rfl, fun _ h => h⟩, fun _ => rfl⟩

/-- Reads that are withdrawn leave every channel in service (R109): an entry that is dropped was none of an opened channel. -/
theorem StartFrame.withdraw (d : Dev) (p : Origin → Bool) : StartFrame d (d.withdraw p) where
  phase := rfl
  timeRun := rfl
  released := rfl
  reg _ _ := rfl
  chan c hc := by
    have hopen : ∀ x : Chan, ¬ (x = Chan.init ∧ x.opened) := by
      rintro x ⟨rfl, h, -⟩
      simp [Chan.init] at h
    have := tabGet_map_filter_of_ne (dflt := fun _ => Chan.init) d.chans (fun _ x => { x with
      reqs := x.reqs.filter fun r => !p r.origin
      recovery := x.recovery.map fun v => { v with waiting := v.waiting.filter fun r => !p r.origin }
      readyQ := x.readyQ.filter fun w => !p w.origin }) c rfl fun h => hopen _ ⟨h, hc⟩
    have heq : (d.withdraw p).chan c = _ := this
    rw [heq]
    exact hc
  host _ := rfl

end Sys2Proof.Machine

/-! ## What each step of a start leaves alone -/

namespace Sys2Proof.Machine

/-! ### Mirrored writes (R403, R430) -/

theorem StartFrame.linkDrain (d : Dev) (l : Nat) : StartFrame d (d.linkDrain l) := by
  unfold Dev.linkDrain
  exact (StartFrame.setLink d l _).ite ((StartFrame.setLink d l _).trans (StartFrame.remotes _ _))

theorem StartFrame.linkSend (d : Dev) (l : Nat) (p : Packet) : StartFrame d (d.linkSend l p) :=
  (StartFrame.refl d).ite ((StartFrame.setLink d l _).trans (StartFrame.linkDrain _ l))

theorem StartFrame.mirrorSend (d : Dev) (typ ch addr : Nat) (x : Line) (mask : BitVec 64) (poison : Bool) :
    StartFrame d (d.mirrorSend typ ch addr x mask poison) := by
  unfold Dev.mirrorSend Dev.remoteRequest
  refine (StartFrame.refl d).ite ?_
  cases d.freeTag with
  | none => exact StartFrame.refl d
  | some t => exact (StartFrame.remotes d _).trans (StartFrame.linkSend _ _ _)

theorem StartFrame.mirrorWrite (d : Dev) (n : Nat) (x : Line) (mask : BitVec 64) (poison : Bool) :
    StartFrame d (d.mirrorWrite n x mask poison) :=
  (StartFrame.mirrorSend d _ _ _ x _ poison).ite (StartFrame.refl d)

/-! ### Administrative rings (R90) -/

theorem StartFrame.dropRepair (d : Dev) (n : Nat) : StartFrame d (d.dropRepair n) :=
  StartFrame.updChan d _ _ fun _ h => h

theorem StartFrame.bufferWord (d : Dev) (b : BufWord) : StartFrame d (d.bufferWord b) :=
  (StartFrame.dropRepair d b.word).trans <| StartFrame.updChan _ _ _ fun x h => by
    split <;> exact h

theorem StartFrame.freshId (d : Dev) (c : Nat) : StartFrame d (d.freshId c).2 :=
  StartFrame.updChan d c (fun x => { x with nextId := x.nextId + 1 }) fun _ h => h

theorem StartFrame.setReg64 (d : Dev) (o : Nat) (v : BitVec 64) (h : ¬ startReg o) (h' : ¬ startReg (o + 4)) :
    StartFrame d (d.setReg64 o v) :=
  (StartFrame.setReg d o _ h).trans (StartFrame.setReg _ _ _ h')

theorem StartFrame.copyBroken (d : Dev) (a : Nat) : StartFrame d (d.copyBroken a) :=
  StartFrame.ite ((StartFrame.refl d).ite (StartFrame.twin d _)) (StartFrame.refl d)

theorem not_startReg_of_gt {o : Nat} (h : 0x100004 < o) : ¬ startReg o := by
  rw [startReg_iff]
  omega

theorem StartFrame.noteMerge (d : Dev) (n : Nat) (w : WordRead) : StartFrame d (d.noteMerge n w) := by
  have hcount : ∀ (d : Dev) (o k : Nat), 0x100004 < o → StartFrame d (d.count o k) := fun d o k h =>
    StartFrame.setReg64 d o _ (not_startReg_of_gt h) (not_startReg_of_gt (by omega))
  unfold Dev.noteMerge
  have hce : StartFrame d (if w.corrected = 0 then d else
      (d.count (rErrCe (wordPlace n).ch) w.corrected).report 0x0001 1 2 (n / 16 / 32768) (d.addrOf n) 0) :=
    (StartFrame.refl d).ite ((hcount d _ _ (by simp only [rErrCe]; omega)).trans (StartFrame.report ..))
  exact hce.ite (((hce.trans (hcount _ _ _ (by simp only [rErrUe, rErrCe]; omega))).trans (StartFrame.report ..)).trans
    (StartFrame.copyBroken _ _))

/-- A write that enables some byte changes no host channel. -/
theorem StartFrame.writeWord (d : Dev) (x : WordWrite) (h : x.mask ≠ 0) : StartFrame d (d.writeWord x).1 := by
  unfold Dev.writeWord
  rw [if_neg h]
  dsimp only
  generalize mergeWord _ _ _ _ _ = r
  obtain ⟨y, marks, bad⟩ := r
  exact ((((StartFrame.mirrorWrite d _ _ _ _).ite ((StartFrame.mirrorWrite d _ _ _ _).trans (StartFrame.noteMerge _ _ _))).trans
    (StartFrame.freshId _ _)).trans (StartFrame.bufferWord _ _))

theorem StartFrame.storeMasked_whole (d : Dev) (m : Mover) (n : Nat) (x : Line) (poison : Bool) :
    StartFrame d (d.storeMasked m n x (BitVec.allOnes 64) poison).1 :=
  StartFrame.writeWord d _ (show BitVec.allOnes 64 ≠ 0 by decide)

theorem StartFrame.placeWord (d : Dev) (m : Mover) (a : Nat) (x : Line) : StartFrame d (d.placeWord m a x) := by
  unfold Dev.placeWord
  refine StartFrame.ite (StartFrame.refl d) (StartFrame.ite (StartFrame.storeMasked_whole d m _ x false) ?_)
  exact ((StartFrame.mirrorWrite d _ x _ false).trans (StartFrame.dropRepair _ _)).trans (StartFrame.dram _ _)

theorem StartFrame.ringBegin (d : Dev) (k : Nat) (r : Ring) : StartFrame d (d.ringBegin k r) :=
  (StartFrame.withdraw d _).trans (StartFrame.setRing _ k r)

theorem StartFrame.admCreate (d : Dev) (f : Nat) : StartFrame d (d.admCreate f) :=
  (StartFrame.forNat (fun d _ _ => StartFrame.placeWord d _ _ _) d).trans (StartFrame.ringBegin _ _ _)

theorem StartFrame.imageRings (d : Dev) : StartFrame d d.imageRings :=
  StartFrame.forNat (fun d f _ => StartFrame.ite (StartFrame.admCreate d f) (StartFrame.refl d)) d

/-! ### Step 7 (R382, R407, R484) -/

theorem StartFrame.assignSpares (d : Dev) : StartFrame d d.assignSpares := by
  refine ((StartFrame.forNat (fun d n _ => ?_) d).trans (StartFrame.forNat (fun d g _ => ?_) _)).trans
    (StartFrame.forNat (fun d f _ => ?_) _)
  · exact StartFrame.ite (StartFrame.setFloe d n _) (StartFrame.refl d)
  · dsimp only
    split
    · exact StartFrame.ite (StartFrame.refl d) ((StartFrame.setFloe d _ _).trans (StartFrame.report ..))
    · exact StartFrame.refl d
  · exact StartFrame.ite (StartFrame.report ..) (StartFrame.refl d)

theorem StartFrame.svnCommit (d : Dev) : StartFrame d d.svnCommit :=
  StartFrame.ite (((StartFrame.fuses d _).trans (StartFrame.setRegFld _ _ _ _ _ (by unfold startReg; decide))).trans
    (StartFrame.report ..)) (StartFrame.refl d)

theorem StartFrame.startLinks (d : Dev) : StartFrame d d.startLinks :=
  StartFrame.forNat (fun d l _ => StartFrame.ite (StartFrame.refl d) (StartFrame.setLink d l _)) d

theorem StartFrame.morRestart (d : Dev) : StartFrame d d.morRestart :=
  (StartFrame.setReg d _ _ (by unfold startReg; decide)).trans (StartFrame.setReg _ _ _ (by unfold startReg; decide))

/-! ### Self-tests (R475, R476) and image defaults (R486) -/

theorem StartFrame.bist (d : Dev) (fails : BitVec 136) : StartFrame d (d.bist fails) := by
  refine StartFrame.foldl (fun d n hn => ?_) d
  have hn : n < 136 := by simpa using (List.mem_filter.1 hn).1
  have hreg : ¬ startReg (rCfgBist + 4 * (n / 32)) := by
    rw [startReg_iff]
    simp only [rCfgBist]
    omega
  have hfail : ∀ f, StartFrame d (((d.setRegBit (rCfgBist + 4 * (n / 32)) (n % 32) true).updFloe n f).report 0x0A04 2 4 n 0 0) :=
    fun f => ((StartFrame.setRegBit d _ _ true hreg).trans (StartFrame.setFloe _ n _)).trans (StartFrame.report ..)
  exact ((hfail _).orThen (StartFrame.sys _ _ (by rfl))).orThen (StartFrame.fuses _ _)

end Sys2Proof.Machine

/-! ## The steps of a start, one by one (R131, R164, R165, R469, R472) -/

namespace Sys2Proof.Machine

/-! ### The step number in CFG_STAT -/

theorem Dev.reg_step_ (d : Dev) (n : Nat) {o : Nat} (h : o ≠ rCfgStat) : (d.step_ n).reg o = d.reg o :=
  d.reg_setRegFld_ne 18 16 n h

theorem Dev.fld_step_ (d : Dev) (n : Nat) (hn : n < 8) : fld ((d.step_ n).reg rCfgStat) 18 16 = n :=
  d.fld_setRegFld_same rCfgStat 18 16 n (by decide) hn

theorem Dev.rbit_step_ (d : Dev) (n k : Nat) (hk : k < 32) (h : 18 < k) :
    rbit ((d.step_ n).reg rCfgStat) k = rbit (d.reg rCfgStat) k := by
  rw [Dev.step_, Dev.rbit_setRegFld _ _ _ _ _ _ hk, if_neg (by omega)]

theorem Dev.chan_step_ (d : Dev) (n c : Nat) : (d.step_ n).chan c = d.chan c := rfl
theorem Dev.host_step_ (d : Dev) (n c : Nat) : (d.step_ n).host c = d.host c := rfl

/-- An act of steps 4 and 5 that changes registers and memory, but no flag of CFG_STAT other than bit 26. -/
structure StepKeeps (d d' : Dev) : Prop where
  timeRun  : d'.timeRun = d.timeRun
  released : d'.released = d.released
  chans    : d'.chans = d.chans
  flags    : ∀ k, k < 32 → 18 < k → k ≠ 26 → rbit (d'.reg rCfgStat) k = rbit (d.reg rCfgStat) k

theorem StepKeeps.refl (d : Dev) : StepKeeps d d := ⟨rfl, rfl, rfl, fun _ _ _ _ => rfl⟩

theorem StepKeeps.trans {a b c : Dev} (h : StepKeeps a b) (k : StepKeeps b c) : StepKeeps a c where
  timeRun := k.timeRun.trans h.timeRun
  released := k.released.trans h.released
  chans := k.chans.trans h.chans
  flags n h1 h2 h3 := (k.flags n h1 h2 h3).trans (h.flags n h1 h2 h3)

theorem StepKeeps.ite {p : Prop} {_ : Decidable p} {d x y : Dev} (h : StepKeeps d x) (k : StepKeeps d y) :
    StepKeeps d (if p then x else y) := by
  split <;> assumption

theorem StepKeeps.orThen {p : Prop} {_ : Decidable p} {d x y : Dev} (h : StepKeeps d x) (k : StepKeeps x y) :
    StepKeeps d (if p then y else x) :=
  (h.trans k).ite h

theorem StepKeeps.step_ (d : Dev) (n : Nat) : StepKeeps d (d.step_ n) :=
  ⟨rfl, rfl, rfl, fun k hk h18 _ => d.rbit_step_ n k hk h18⟩

theorem StepKeeps.setReg (d : Dev) (o : Nat) (v : Reg) (h : rCfgStat ≠ o) : StepKeeps d (d.setReg o v) :=
  ⟨rfl, rfl, rfl, fun k _ _ _ => by rw [Dev.reg_setReg, if_neg h]⟩

theorem StepKeeps.retentionLost (d : Dev) : StepKeeps d (d.setRegBit rCfgStat 26 true) :=
  ⟨rfl, rfl, rfl, fun k hk _ h26 => by rw [Dev.rbit_setRegBit _ _ _ _ _ hk, if_neg h26]⟩

theorem StepKeeps.report (d : Dev) (code sev ukind unit addr info : Nat) : StepKeeps d (d.report code sev ukind unit addr info) where
  timeRun := Dev.report_timeRun ..
  released := Dev.report_released ..
  chans := Dev.report_chans ..
  flags k _ _ _ := by rw [Dev.report_reg _ _ _ _ _ _ _ _ _ (by decide)]

theorem StepKeeps.dram (d : Dev) (m : EccMem) : StepKeeps d { d with dram := m } := ⟨rfl, rfl, rfl, fun _ _ _ _ => rfl⟩

theorem StepKeeps.forNat {f : Dev → Nat → Dev} {n : Nat} (h : ∀ d, ∀ k < n, StepKeeps d (f d k)) (d : Dev) :
    StepKeeps d (forNat n d f) :=
  forNat_rec (.refl d) fun x hx k hk => hx.trans (h x k hk)

theorem StepKeeps.chAll (d : Dev) (f : Nat → Nat) (hi lo v : Nat) (h : ∀ c, rCfgStat ≠ f c) : StepKeeps d (d.chAll f hi lo v) :=
  StepKeeps.forNat (fun d c _ => StepKeeps.setReg d (f c) _ (h c)) d

/-! ### Step 4 -/

theorem rCfgStat_ne_of_gt {o : Nat} (h : 0x400 < o) : rCfgStat ≠ o := Nat.ne_of_lt h

theorem StartFrame.setTsv (d : Dev) (c : Nat) (ls : List LaneMeas) : StartFrame d (d.setTsv c ls) :=
  StartFrame.foldl (fun d p _ => StartFrame.setReg d _ _ (not_startReg_of_gt (by simp only [rChTsvLane, rCh]; omega))) d

theorem StartFrame.stepFour (d : Dev) (down : BitVec 32) (lanes : List LaneMeas) : StartFrame (d.step_ 4) (d.stepFour down lanes) :=
  StartFrame.forNat (fun d c _ =>
    (StartFrame.updChan d c (fun ch => { ch with down := true }) fun _ h => h).ite (StartFrame.setTsv d c _)) _

theorem StepKeeps.setTsv (d : Dev) (c : Nat) (ls : List LaneMeas) : StepKeeps d (d.setTsv c ls) :=
  List.foldlRecOn _ _ (StepKeeps.refl d) fun _ hx _ _ =>
    hx.trans (StepKeeps.setReg _ _ _ (rCfgStat_ne_of_gt (by simp only [rChTsvLane, rCh]; omega)))

/-- Training that leaves no channel down changes registers only. -/
theorem StepKeeps.stepFour (d : Dev) (down : BitVec 32) (lanes : List LaneMeas) (h : ∀ c, c < 32 → tsvFails down lanes c = false) :
    StepKeeps d (d.stepFour down lanes) :=
  (StepKeeps.step_ d 4).trans <| StepKeeps.forNat (fun d c hc => by
    rw [h c hc, if_neg Bool.false_ne_true]
    exact StepKeeps.setTsv d c _) _

/-! ### Step 5 -/

/-- Step 5 until the order is set: memory kept or cleared, with CFG_STAT and RST_CAUSE saying which (R165, R465). -/
def Dev.stepFiveKept (d : Dev) (held : Bool) (order : Option Nat) : Dev :=
  let d := d.step_ 5
  let keep := d.sys.retaining && d.retains held order
  let d : Dev := if keep then d else { d with dram := { bytes := [], synd := [] } }
  let d := if d.sys.retaining && !keep then (d.setRegBit rCfgStat 26 true).report 0x0A07 2 0 0 0 0 else d
  d.setRegBit rRstCause 8 keep

/-- A channel that is not down, initialised. -/
def Dev.openedChan (d : Dev) (c : Nat) (ch : Chan) : Chan :=
  if ch.down then ch else { ch with ready := true, selfRef := false, nextRefi := d.clock + refiSlots (d.band (c / 2))
                                    nextVisit := d.clock + (c + 1) * 3125000, scrubAt := d.clock }

/-- The channels below `n`, initialised. -/
def Dev.openChans (d : Dev) (n : Nat) : Dev := forNat n d fun d c => d.updChan c (d.openedChan c)

theorem Dev.stepFive_eq (d : Dev) (held : Bool) (order : Option Nat) :
    ∃ x : Dev, ∃ y : Sys, d.stepFive held order = { x with sys := y } ∧
      x = ((d.stepFiveKept held order).chAll rChCfg 31 31 (if order.isNone then 1 else 0)).openChans 32 :=
  ⟨_, _, rfl, rfl⟩

theorem Dev.openedChan_down (d : Dev) (c : Nat) (ch : Chan) : (d.openedChan c ch).down = ch.down := by
  unfold Dev.openedChan
  split <;> rfl

theorem Dev.openedChan_opened (d : Dev) (c : Nat) (ch : Chan) (h : ch.down = false) : (d.openedChan c ch).opened := by
  simp [Dev.openedChan, h, Chan.opened]

theorem Dev.openedChan_keeps (d : Dev) (c : Nat) (ch : Chan) (h : ch.opened) : (d.openedChan c ch).opened := by
  unfold Dev.openedChan
  split
  · exact h
  · exact ⟨rfl, rfl⟩

theorem StartFrame.openChans (d : Dev) (n : Nat) : StartFrame d (d.openChans n) :=
  StartFrame.forNat (fun d c _ => StartFrame.updChan d c _ fun x h => d.openedChan_keeps c x h) d

theorem Dev.openChans_succ (d : Dev) (n : Nat) :
    d.openChans (n + 1) = (d.openChans n).updChan n ((d.openChans n).openedChan n) := by
  simp only [Dev.openChans, forNat, List.range_succ, List.foldl_append, List.foldl_cons, List.foldl_nil]

theorem Dev.openChans_down (d : Dev) (n c : Nat) : ((d.openChans n).chan c).down = (d.chan c).down := by
  induction n with
  | zero => rfl
  | succ n ih =>
    rw [Dev.openChans_succ, Dev.updChan, Dev.chan_setChan]
    split
    · next e =>
      subst e
      rw [Dev.openedChan_down, ih]
    · exact ih

/-- Every channel that is not down takes accesses. -/
theorem Dev.openChans_opened (d : Dev) (n c : Nat) (hc : c < n) (h : (d.chan c).down = false) : ((d.openChans n).chan c).opened := by
  induction n with
  | zero => omega
  | succ n ih =>
    rw [Dev.openChans_succ, Dev.updChan, Dev.chan_setChan]
    split
    · next e => exact Dev.openedChan_opened _ _ _ (by rw [Dev.openChans_down, ← e, h])
    · exact ih (by omega)

theorem StepKeeps.stepFiveKept (d : Dev) (held : Bool) (order : Option Nat) : StepKeeps d (d.stepFiveKept held order) := by
  unfold Dev.stepFiveKept
  exact (((((StepKeeps.step_ d 5).ite ((StepKeeps.step_ d 5).trans (StepKeeps.dram _ _)))).orThen
    ((StepKeeps.retentionLost _).trans (StepKeeps.report ..))).trans (StepKeeps.setReg _ rRstCause _ (by decide)))

/-- A bit of every channel's register, once set in all of them. -/
theorem Dev.rbit_chAll_zero (d : Dev) (f : Nat → Nat) (n : Nat) (hn : n < 32) (hinj : ∀ c, f c = f 0 → c = 0) :
    rbit ((d.chAll f n n 1).reg (f 0)) n = true := by
  have hfirst : rbit ((d.setRegFld (f 0) n n 1).reg (f 0)) n = true := by
    rw [Dev.rbit_setRegFld _ _ _ _ _ _ hn]
    simp
  have hrest : ∀ l : List Nat, ∀ x : Dev, rbit (x.reg (f 0)) n = true → (∀ c ∈ l, c ≠ 0) →
      rbit ((l.foldl (fun d c => d.setRegFld (f c) n n 1) x).reg (f 0)) n = true := fun l x hx hl =>
    List.foldlRecOn (motive := fun y : Dev => rbit (y.reg (f 0)) n = true) l _ hx fun y hy c hc => by
      rwa [Dev.reg_setRegFld_ne _ _ _ _ fun h => hl c hc (hinj c h.symm)]
  have hrange : List.range 32 = 0 :: (List.range 31).map (· + 1) := by decide
  rw [Dev.chAll, forNat, hrange, List.foldl_cons]
  exact hrest _ _ hfirst fun c hc => by
    obtain ⟨k, -, rfl⟩ := List.mem_map.1 hc
    omega

/-- What step 5 leaves and sets: the timebase, the release and the flags of CFG_STAT but bit 26 stand, every channel that is not down
is opened, and no order is set where none is asked for. -/
theorem Dev.stepFive_spec (d : Dev) (held : Bool) (order : Option Nat) :
    (d.stepFive held order).timeRun = d.timeRun ∧ (d.stepFive held order).released = d.released ∧
      (∀ k, k < 32 → 18 < k → k ≠ 26 → rbit ((d.stepFive held order).reg rCfgStat) k = rbit (d.reg rCfgStat) k) ∧
      (∀ c, c < 32 → (d.chan c).down = false → ((d.stepFive held order).chan c).opened) ∧
      (order = none → rbit ((d.stepFive held order).reg (rChCfg 0)) 31 = true) := by
  obtain ⟨x, y, heq, hx⟩ := d.stepFive_eq held order
  have hset : StepKeeps d ((d.stepFiveKept held order).chAll rChCfg 31 31 (if order.isNone then 1 else 0)) :=
    (StepKeeps.stepFiveKept d held order).trans <| StepKeeps.chAll _ _ _ _ _ fun c =>
      rCfgStat_ne_of_gt (by simp only [rChCfg, rCh]; omega)
  have hopen := StartFrame.openChans ((d.stepFiveKept held order).chAll rChCfg 31 31 (if order.isNone then 1 else 0)) 32
  rw [← hx] at hopen
  rw [heq]
  refine ⟨hopen.timeRun.trans hset.timeRun, hopen.released.trans hset.released, fun k hk h18 h26 => ?_, fun c hc hdown => ?_,
    fun hnone => ?_⟩
  · exact (congrArg (rbit · k) (hopen.reg rCfgStat (by simp [startReg]))).trans (hset.flags k hk h18 h26)
  · have hchan := Dev.openChans_opened _ 32 c hc (show (((d.stepFiveKept held order).chAll rChCfg 31 31
      (if order.isNone then 1 else 0)).chan c).down = false by rwa [Dev.chan, hset.chans])
    rwa [← hx] at hchan
  · subst hnone
    refine (congrArg (rbit · 31) (hopen.reg (rChCfg 0) (by simp [startReg]))).trans ?_
    exact Dev.rbit_chAll_zero _ rChCfg 31 (by decide) fun c h => by
      simp only [rChCfg, rCh] at h
      omega

end Sys2Proof.Machine

/-! ## Steps 6 and 7 of a start (R75, R469, R472) -/

namespace Sys2Proof.Machine

open Sys2Proof.Claims

/-! ### Host channels -/

/-- A host channel is in service. -/
def HostPort.serves (h : HostPort) : Prop := h.up = true ∧ h.down = false

theorem HostPort.resume_flags (h : HostPort) (t : Nat) :
    (h.resume t).up = h.up ∧ (h.resume t).down = h.down ∧ (h.resume t).slow = h.slow := by
  unfold HostPort.resume
  split
  · exact ⟨rfl, rfl, rfl⟩
  · split <;> exact ⟨rfl, rfl, rfl⟩

theorem HostPort.trainedUp_start (h : HostPort) (rack : BitVec 8) (t : Nat) :
    (h.trainedUp .start rack t).serves ∧ (h.trainedUp .start rack t).slow = h.slow := by
  unfold HostPort.trainedUp
  dsimp only
  generalize hx : ({ HostPort.init with up := true, slow := h.slow, rqGiven := 128, wdGiven := 512, trained := h.trained
                                        pauses := h.pauses, pauseFrom := h.pauseFrom, tags := h.tags } : HostPort) = x
  obtain ⟨hup, hdown, hslow⟩ := x.resume_flags t
  rw [HostPort.serves, hup, hdown, hslow, ← hx]
  exact ⟨⟨rfl, rfl⟩, rfl⟩

theorem StartFrame.setLanes (d : Dev) (c : Nat) (ok : BitVec 68) : StartFrame d (d.setLanes c ok) :=
  StartFrame.foldl (fun d k _ => StartFrame.setReg d _ _ (not_startReg_of_gt (by simp only [rHpLane, rCh]; omega))) d

theorem StartKeeps.updHost (d : Dev) (c : Nat) (f : HostPort → HostPort) : StartKeeps d (d.updHost c f) :=
  ⟨rfl, rfl, rfl, fun _ _ => rfl, fun _ h => h⟩

theorem StartKeeps.hostUp (d : Dev) (c : Nat) : StartKeeps d (d.hostUp c) :=
  (StartFrame.setLanes d c _).toStartKeeps.trans (StartKeeps.updHost _ _ _)

/-- The channel serves after its training; the others are as they were. -/
theorem Dev.host_hostUp (d : Dev) (c k : Nat) :
    ((d.hostUp c).host k).slow = (d.host k).slow ∧ (k = c → ((d.hostUp c).host k).serves) ∧
      (k ≠ c → (d.hostUp c).host k = d.host k) := by
  have hlanes := (StartFrame.setLanes d c (BitVec.allOnes 68)).host
  rw [Dev.hostUp, Dev.updHost, Dev.host_setHost]
  split
  · next e =>
    obtain ⟨hserves, hslow⟩ := HostPort.trainedUp_start { (d.setLanes c (BitVec.allOnes 68)).host c with
      trained := some (linkData 0xFF false false true 128 512 (BitVec.ofNat 72 (2 ^ 68 - 1))) } 0xFF d.clock
    refine ⟨?_, fun _ => hserves, fun h => absurd e h⟩
    rw [hslow, hlanes, e]
  · next e => exact ⟨congrArg _ (hlanes k), fun h => absurd h e, fun _ => hlanes k⟩

theorem StartKeeps.foldl_hostUp (l : List Nat) (d : Dev) : StartKeeps d (l.foldl Dev.hostUp d) :=
  List.foldlRecOn l Dev.hostUp (StartKeeps.refl d) fun _ hx c _ => hx.trans (StartKeeps.hostUp _ c)

theorem Dev.slow_foldl_hostUp (l : List Nat) (d : Dev) (k : Nat) : ((l.foldl Dev.hostUp d).host k).slow = (d.host k).slow :=
  List.foldlRecOn (motive := fun x : Dev => (x.host k).slow = (d.host k).slow) l Dev.hostUp rfl fun x hx c _ =>
    (x.host_hostUp c k).1.trans hx

theorem Dev.serves_hostUp (d : Dev) (c k : Nat) (h : k = c ∨ (d.host k).serves) : ((d.hostUp c).host k).serves := by
  obtain ⟨-, hsame, hother⟩ := d.host_hostUp c k
  by_cases e : k = c
  · exact hsame e
  · rw [hother e]
    exact h.resolve_left e

/-- Every channel of a list serves once each of them has been trained. -/
theorem Dev.serves_foldl_hostUp (l : List Nat) (d : Dev) (k : Nat) (h : k ∈ l ∨ (d.host k).serves) :
    ((l.foldl Dev.hostUp d).host k).serves := by
  induction l generalizing d with
  | nil => exact h.resolve_left List.not_mem_nil
  | cons c l ih =>
    rw [List.foldl_cons]
    refine ih (d.hostUp c) ?_
    rcases h with h | h
    · rcases List.mem_cons.1 h with e | h
      · exact .inr (d.serves_hostUp c k (.inl e))
      · exact .inl h
    · exact .inr (d.serves_hostUp c k (.inr h))

/-- Step 6 on channels all of which drive CK and train: it trains each, and waits for none. -/
theorem Dev.stepSix_eq (d : Dev) (chs : List Nat) (ck ok : BitVec 32)
    (h : ∀ c ∈ chs, ck.getLsbD c = true ∧ ok.getLsbD c = true) :
    ∃ e, d.stepSix chs ck ok = { e with sys := { e.sys with waitingCh := 0 } } ∧ e = chs.foldl Dev.hostUp (d.step_ 6) := by
  have htrain : chs.foldl (fun d c =>
      if !ck.getLsbD c then d.updHost c fun h => { h with training := some .start }
      else if ok.getLsbD c then d.hostUp c
      else d.hostFails c) (d.step_ 6) = chs.foldl Dev.hostUp (d.step_ 6) :=
    List.foldl_ext _ _ _ fun x c hc => by
      obtain ⟨hck, hok⟩ := h c hc
      simp [hck, hok]
  have hwait : chs.foldl (fun x c => if ck.getLsbD c then x else x + 2 ^ c) 0 = 0 :=
    List.foldlRecOn (motive := fun x => x = 0) chs _ rfl fun x hx c hc => by
      rw [if_pos (h c hc).1, hx]
  refine ⟨_, ?_, rfl⟩
  simp only [Dev.stepSix, htrain, hwait]
  rfl

/-! ### Channels that are down, as a mask -/

/-- A sum of the powers of two of the numbers below `n` that satisfy a predicate, bit by bit. -/
theorem testBit_foldl_two_pow (p : Nat → Bool) (n k : Nat) :
    ((List.range n).foldl (fun x c => if p c then x + 2 ^ c else x) 0).testBit k = (decide (k < n) && p k) ∧
      (List.range n).foldl (fun x c => if p c then x + 2 ^ c else x) 0 < 2 ^ n := by
  induction n with
  | zero => simp
  | succ n ih =>
    obtain ⟨hbit, hlt⟩ := ih
    rw [List.range_succ, List.foldl_append, List.foldl_cons, List.foldl_nil]
    generalize (List.range n).foldl (fun x c => if p c then x + 2 ^ c else x) 0 = x at *
    have hpow : 2 ^ (n + 1) = 2 ^ n + 2 ^ n := by rw [Nat.pow_succ]; omega
    split
    · next hp =>
      refine ⟨?_, by omega⟩
      rcases lt_trichotomy k n with h | h | h
      · rw [Nat.add_comm, Nat.testBit_two_pow_add_gt h, hbit]
        simp [h, show k < n + 1 by omega]
      · subst h
        rw [Nat.add_comm, Nat.testBit_two_pow_add_eq, hbit]
        simp [hp]
      · have hle : 2 ^ (n + 1) ≤ 2 ^ k := Nat.pow_le_pow_right (by omega) h
        rw [Nat.testBit_lt_two_pow (by omega)]
        simp [show ¬ k < n + 1 by omega]
    · next hp =>
      refine ⟨?_, by omega⟩
      rw [hbit]
      rcases lt_trichotomy k n with h | h | h
      · simp [h, show k < n + 1 by omega]
      · subst h
        simp [hp]
      · simp [show ¬ k < n by omega, show ¬ k < n + 1 by omega]

theorem Dev.testBit_downMask_host (d : Dev) (c : Nat) (hc : c < 32) : (d.downMask true).testBit c = (d.host c).down := by
  have := (testBit_foldl_two_pow (fun c => (d.host c).down) 32 c).1
  rw [decide_eq_true hc, Bool.true_and] at this
  exact this

/-! ### Step 7 -/

/-- Step 7 until the links have begun to train: identities given, floes released, administrative rings created (R90, R382, R407). -/
def Dev.floesReleased (d : Dev) : Dev :=
  let d := d.advanceTo (d.clock + 2000000 * d.sys.startMs)
  let d := (d.step_ 7).assignSpares
  let d : Dev := ({ d with released := true } : Dev).imageRings
  (d.setRegBit rCpStat 31 true).svnCommit.startLinks

/-- The end of a start that succeeds, in the registers, the phase and the log (R469, R472, R522). -/
def Dev.startEnded (d : Dev) : Dev :=
  let d := (d.setReg rCfgHdown (BitVec.ofNat 32 (d.downMask true))).setReg rCfgDdown (BitVec.ofNat 32 (d.downMask false))
  let ms := sat 65535 d.sys.startMs
  let d := (d.setRegFld rCfgStartMs 15 0 ms).setRegFld rRstStat 19 18 0
  let d := if rbit (d.reg rThmTrip) 31 then (d.setRegBit rThmTrip 31 false).setRegBit rCpDevsrc 30 true else d
  (d.setPhase .running).report 0x0A00 0 0 0 0 ms

theorem Dev.release_eq (d : Dev) : d.release = d.floesReleased.startEnded := rfl

/-- What step 7 does and leaves until the links have begun to train. -/
structure FloesReleased (d d' : Dev) : Prop where
  released : d'.released = true
  cpStat   : rbit (d'.reg rCpStat) 31 = true
  step     : fld (d'.reg rCfgStat) 18 16 = 7
  flags    : ∀ k, k < 32 → 18 < k → rbit (d'.reg rCfgStat) k = rbit (d.reg rCfgStat) k
  host     : ∀ c, d'.host c = d.host c
  chan     : ∀ c, (d.chan c).opened → (d'.chan c).opened

theorem floesReleased_of {d a b e g : Dev} (hclock : StartFrame d a) (hspares : StartFrame (a.step_ 7) b)
    (hrings : StartFrame { b with released := true } e) (hlinks : StartFrame (e.setRegBit rCpStat 31 true) g) : FloesReleased d g := by
  have hcfg : g.reg rCfgStat = (a.step_ 7).reg rCfgStat :=
    calc g.reg rCfgStat = (e.setRegBit rCpStat 31 true).reg rCfgStat := hlinks.reg _ (by decide)
      _ = e.reg rCfgStat := e.reg_setRegBit_ne 31 true (by decide)
      _ = b.reg rCfgStat := hrings.reg _ (by decide)
      _ = (a.step_ 7).reg rCfgStat := hspares.reg _ (by decide)
  refine ⟨hlinks.released.trans hrings.released, ?_, ?_, fun k hk h18 => ?_, fun c => ?_, fun c hc => ?_⟩
  · rw [hlinks.reg _ (by decide), Dev.rbit_setRegBit _ _ _ _ _ (by decide), if_pos rfl]
  · rw [hcfg, a.fld_step_ 7 (by decide)]
  · rw [hcfg, a.rbit_step_ 7 k hk h18, hclock.reg _ (by decide)]
  · exact (hlinks.host c).trans ((hrings.host c).trans ((hspares.host c).trans (hclock.host c)))
  · exact hlinks.chan c (hrings.chan c (hspares.chan c (hclock.chan c hc)))

theorem Dev.floesReleased_spec (d : Dev) : FloesReleased d d.floesReleased :=
  floesReleased_of (StartFrame.advanceTo d _) (StartFrame.assignSpares _) (StartFrame.imageRings _)
    ((StartFrame.svnCommit _).trans (StartFrame.startLinks _))

/-- The registers, the phase and the log at the end of a start that succeeds. -/
structure StartEnded (d d' : Dev) : Prop where
  phase    : d'.sys.phase = .running
  released : d'.released = d.released
  fails    : fld (d'.reg rRstStat) 19 18 = 0
  cfgStat  : d'.reg rCfgStat = d.reg rCfgStat
  cpStat   : d'.reg rCpStat = d.reg rCpStat
  hdown    : d'.reg rCfgHdown = BitVec.ofNat 32 (d.downMask true)
  host     : ∀ c, d'.host c = d.host c
  chan     : ∀ c, (d.chan c).opened → (d'.chan c).opened

theorem startEnded_of {d a b : Dev} {mask ms : Nat} (ha : a = ((d.setReg rCfgHdown (BitVec.ofNat 32 (d.downMask true))).setReg
      rCfgDdown (BitVec.ofNat 32 mask)).setRegFld rCfgStartMs 15 0 ms)
    (hb : StartFrame (a.setRegFld rRstStat 19 18 0) b) : StartEnded d ((b.setPhase .running).report 0x0A00 0 0 0 0 ms) := by
  have hreport := StartFrame.report (b.setPhase .running) 0x0A00 0 0 0 0 ms
  have hdown : ∀ o, startReg o → o ≠ rRstStat → ((b.setPhase .running).report 0x0A00 0 0 0 0 ms).reg o =
      (d.setReg rCfgHdown (BitVec.ofNat 32 (d.downMask true))).reg o := fun o ho h => by
    rw [startReg_iff] at ho
    rw [hreport.reg o ho]
    show b.reg o = _
    rw [hb.reg o ho, Dev.reg_setRegFld_ne _ _ _ _ h, ha, Dev.reg_setRegFld_ne _ _ _ _ (by simp only [rCfgStartMs]; omega),
      Dev.reg_setReg, if_neg (by simp only [rCfgDdown]; omega)]
  have hkeep : ∀ o, startReg o → o ≠ rRstStat → o ≠ rCfgHdown →
      ((b.setPhase .running).report 0x0A00 0 0 0 0 ms).reg o = d.reg o := fun o ho h h' => by
    rw [hdown o ho h, Dev.reg_setReg, if_neg h']
  refine ⟨hreport.phase, hreport.released.trans (hb.released.trans (by rw [ha]; rfl)), ?_, hkeep _ (by decide) (by decide) (by decide),
    hkeep _ (by decide) (by decide) (by decide), ?_, fun c => ?_, fun c hc => ?_⟩
  · rw [hreport.reg _ (by decide)]
    show fld (b.reg rRstStat) 19 18 = 0
    rw [hb.reg _ (by decide), Dev.fld_setRegFld_same _ _ _ _ _ (by decide) (by decide)]
  · rw [hdown _ (by decide) (by decide), Dev.reg_setReg, if_pos rfl]
  · exact (hreport.host c).trans ((hb.host c).trans (by rw [ha]; rfl))
  · exact hreport.chan c (hb.chan c (by rw [ha]; exact hc))

theorem Dev.startEnded_spec (d : Dev) : StartEnded d d.startEnded := by
  unfold Dev.startEnded
  exact startEnded_of rfl ((StartFrame.refl _).orThen
    ((StartFrame.setRegBit _ rThmTrip 31 false (by decide)).trans (StartFrame.setRegBit _ rCpDevsrc 30 true (by decide))))

/-- A start that succeeds has released the floes, serves, and leaves the channels as they stood before step 7 (R469, R472). -/
theorem Dev.release_spec (d : Dev) :
    Released d.release ∧ (∀ k, k < 32 → 18 < k → rbit (d.release.reg rCfgStat) k = rbit (d.reg rCfgStat) k) ∧
      (∀ c, d.release.host c = d.host c) ∧ (∀ c, (d.chan c).opened → (d.release.chan c).opened) ∧
      ∀ c, c < 32 → rbit (d.release.reg rCfgHdown) c = (d.host c).down := by
  rw [d.release_eq]
  have hfloes := d.floesReleased_spec
  have hend := d.floesReleased.startEnded_spec
  generalize d.floesReleased = g at hfloes hend ⊢
  refine ⟨⟨hend.phase, hend.released.trans hfloes.released, ?_, hend.fails, ?_⟩, fun k hk h18 => ?_, fun c => ?_, fun c hc => ?_,
    fun c hc => ?_⟩
  · rw [hend.cpStat, hfloes.cpStat]
  · rw [hend.cfgStat, hfloes.step]
  · rw [hend.cfgStat, hfloes.flags k hk h18]
  · exact (hend.host c).trans (hfloes.host c)
  · exact hend.chan c (hfloes.chan c hc)
  · rw [hend.hdown, rbit, BitVec.getLsbD_ofNat, decide_eq_true hc, Bool.true_and, g.testBit_downMask_host c hc, hfloes.host]

end Sys2Proof.Machine

/-! ## Whole starts (R469 to R473, R495, R496) -/

namespace Sys2Proof.Machine

open Sys2Proof.Claims

/-! ### The end of step 6 -/

theorem Dev.endSix_release (d : Dev) (hnone : d.sys.waitingCh = 0) (himage : rbit (d.reg rCfgStat) 30 = false) :
    d.endSix = d.release :=
  (if_pos hnone).trans (if_neg (by rw [himage]; exact Bool.false_ne_true))

theorem Dev.endSix_waits (d : Dev) (hsome : d.sys.waitingCh ≠ 0) : d.endSix = d.setPhase .hostWait := if_neg hsome

/-- What the end of step 6 leaves in permafrost, which does not go on to step 7. -/
theorem Dev.endSix_permafrost (d : Dev) (hnone : d.sys.waitingCh = 0) (hfrost : rbit (d.reg rCfgStat) 30 = true) :
    d.endSix.sys.phase = .permafrost ∧ d.endSix.timeRun = d.timeRun ∧ d.endSix.released = d.released ∧
      (∀ c, d.endSix.host c = d.host c) ∧ (∀ o, o ≠ rCfgHdown → o ≠ rCfgDdown → d.endSix.reg o = d.reg o) ∧
      ∀ c, c < 32 → rbit (d.endSix.reg rCfgHdown) c = (d.host c).down := by
  have heq : d.endSix = ((d.setReg rCfgHdown (BitVec.ofNat 32 (d.downMask true))).setReg rCfgDdown
      (BitVec.ofNat 32 (d.downMask false))).setPhase .permafrost := (if_pos hnone).trans (if_pos hfrost)
  rw [heq]
  refine ⟨rfl, rfl, rfl, fun _ => rfl, fun o h1 h2 => ?_, fun c hc => ?_⟩
  · show ((d.setReg rCfgHdown _).setReg rCfgDdown _).reg o = d.reg o
    rw [Dev.reg_setReg, if_neg h2, Dev.reg_setReg, if_neg h1]
  · show rbit (((d.setReg rCfgHdown _).setReg rCfgDdown _).reg rCfgHdown) c = _
    rw [Dev.reg_setReg, if_neg (by decide), Dev.reg_setReg, if_pos rfl, rbit, BitVec.getLsbD_ofNat, decide_eq_true hc, Bool.true_and,
      d.testBit_downMask_host c hc]

/-! ### Steps 4 to 7 where nothing fails -/

theorem goodTail_passes {env : StartEnv} (h : GoodTail env) (c : Nat) (hc : c < 32) : tsvFails 0 env.lanes c = false := by
  obtain ⟨hdown, hpass, -⟩ := h
  rw [← hdown]
  exact hpass c hc

/-- Every host drives CK and trains. -/
theorem goodTail_trains {env : StartEnv} (h : GoodTail env) (c : Nat) (hc : c < 32) :
    env.ckSeen.getLsbD c = true ∧ env.hostOk.getLsbD c = true := by
  obtain ⟨-, -, -, hck, hok⟩ := h
  rw [hck, hok, BitVec.getLsbD_allOnes, decide_eq_true hc]
  exact ⟨rfl, rfl⟩

theorem Dev.startTail_eq (d : Dev) (env : StartEnv) (h : GoodTail env) :
    d.startTail env = (((d.stepFour 0 env.lanes).stepFive env.held (some (fld ((d.stepFour 0 env.lanes).reg (rChCfg 0)) 25 24))).stepSix
      (List.range 32) env.ckSeen env.hostOk).endSix := by
  obtain ⟨-, hpass, hdram, -, -⟩ := h
  have hany : ¬ (List.range 32).any (tsvFails env.tsvDown env.lanes) = true := by
    rw [List.any_eq_true]
    rintro ⟨c, hc, hfail⟩
    rw [hpass c (List.mem_range.1 hc)] at hfail
    exact Bool.false_ne_true hfail
  exact (if_neg hany).trans (if_neg (by rw [hdram]; exact Bool.false_ne_true))

/-- What a start has come to when step 6 waits for no channel. -/
structure SixDone (d d' : Dev) : Prop where
  waits : d'.sys.waitingCh = 0
  flags : ∀ k, k < 32 → 18 < k → k ≠ 26 → rbit (d'.reg rCfgStat) k = rbit (d.reg rCfgStat) k
  host  : ∀ c, c < 32 → (d'.host c).serves
  chan  : ∀ c, c < 32 → (d.chan c).down = false → (d'.chan c).opened

theorem sixDone_of {d a e : Dev} {held : Bool} {order : Option Nat} (hfour : StepKeeps d a)
    (hup : StartKeeps ((a.stepFive held order).step_ 6) e) (hserves : ∀ c, c < 32 → (e.host c).serves) :
    SixDone d { e with sys := { e.sys with waitingCh := 0 } } := by
  obtain ⟨-, -, hflags, hopen, -⟩ := a.stepFive_spec held order
  refine ⟨rfl, fun k hk h18 h26 => ?_, hserves, fun c hc hdown => ?_⟩
  · show rbit (e.reg rCfgStat) k = _
    rw [hup.reg _ (by decide), Dev.rbit_step_ _ 6 k hk h18, hflags k hk h18 h26, hfour.flags k hk h18 h26]
  · refine hup.chan c ?_
    rw [Dev.chan_step_]
    exact hopen c hc (by rwa [Dev.chan, hfour.chans])

theorem Dev.serves_hostUp_all (d : Dev) (c : Nat) (hc : c < 32) : (((List.range 32).foldl Dev.hostUp d).host c).serves :=
  Dev.serves_foldl_hostUp (List.range 32) d c (.inl (List.mem_range.2 hc))

theorem Dev.startTail_sixDone (d : Dev) (env : StartEnv) (h : GoodTail env) :
    ∃ x, d.startTail env = x.endSix ∧ SixDone d x := by
  have hfour := StepKeeps.stepFour d 0 env.lanes (goodTail_passes h)
  rw [d.startTail_eq env h]
  generalize d.stepFour 0 env.lanes = a at hfour ⊢
  obtain ⟨e, heq, he⟩ := (a.stepFive env.held (some (fld (a.reg (rChCfg 0)) 25 24))).stepSix_eq (List.range 32) env.ckSeen env.hostOk
    fun c hc => goodTail_trains h c (List.mem_range.1 hc)
  have hup : StartKeeps _ e := he ▸ StartKeeps.foldl_hostUp (List.range 32) _
  exact ⟨_, congrArg Dev.endSix heq, sixDone_of hfour hup (he ▸ Dev.serves_hostUp_all _)⟩

/-- Steps 4 to 7 where nothing fails, of a start with an image: they end in the release, with every host channel in service and every
memory channel that was not down opened. -/
theorem Dev.startTail_spec (d : Dev) (env : StartEnv) (h : GoodTail env) (himage : rbit (d.reg rCfgStat) 30 = false) :
    Released (d.startTail env) ∧ rbit ((d.startTail env).reg rCfgStat) 25 = rbit (d.reg rCfgStat) 25 ∧
      ∀ c, c < 32 → ((d.startTail env).host c).serves ∧ ((d.chan c).down = false → ((d.startTail env).chan c).opened) := by
  obtain ⟨x, heq, hsix⟩ := d.startTail_sixDone env h
  have hflag : ∀ k, k < 32 → 18 < k → k ≠ 26 → rbit (x.reg rCfgStat) k = rbit (d.reg rCfgStat) k := hsix.flags
  rw [heq, x.endSix_release hsix.waits (by rw [hflag 30 (by decide) (by decide) (by decide), himage])]
  obtain ⟨hrel, hcfg, hhosts, hchans, -⟩ := x.release_spec
  refine ⟨hrel, ?_, fun c hc => ⟨?_, fun hdown => hchans c (hsix.chan c hc hdown)⟩⟩
  · rw [hcfg 25 (by decide) (by decide), hflag 25 (by decide) (by decide) (by decide)]
  · rw [hhosts]
    exact hsix.host c hc

/-! ### Steps 1 to 3 -/

theorem SameForFailure.refl (d : Dev) : SameForFailure d d := ⟨rfl, rfl, rfl, rfl, rfl, fun _ _ _ => rfl⟩

theorem SameForFailure.trans {a b c : Dev} (h : SameForFailure a b) (k : SameForFailure b c) : SameForFailure a c where
  phase := k.phase.trans h.phase
  cooling := k.cooling.trans h.cooling
  fuses := k.fuses.trans h.fuses
  flash := k.flash.trans h.flash
  cause := k.cause.trans h.cause
  stat n h1 h2 := (k.stat n h1 h2).trans (h.stat n h1 h2)

theorem SameForFailure.setReg (d : Dev) (o : Nat) (v : Reg) (hcause : rRstCause ≠ o) (hstat : rRstStat ≠ o) :
    SameForFailure d (d.setReg o v) :=
  ⟨rfl, rfl, rfl, rfl, by rw [Dev.reg_setReg, if_neg hcause], fun _ _ _ => by rw [Dev.reg_setReg, if_neg hstat]⟩

theorem SameForFailure.inReset (d : Dev) (b : Bool) : SameForFailure d (d.setRegBit rRstStat 29 b) :=
  ⟨rfl, rfl, rfl, rfl, Dev.reg_setRegBit_ne _ _ _ (by decide), fun k hk h => by rw [Dev.rbit_setRegBit _ _ _ _ _ hk, if_neg h]⟩

theorem SameForFailure.advanceTo (d : Dev) (t : Nat) : SameForFailure d (d.advanceTo t) := by
  unfold Dev.advanceTo
  dsimp only
  split
  · exact .refl d
  · split <;> exact ⟨rfl, rfl, rfl, rfl, rfl, fun _ _ _ => rfl⟩

theorem SameForFailure.timeRuns (d : Dev) : SameForFailure d { d with timeRun := true } :=
  ⟨rfl, rfl, rfl, rfl, rfl, fun _ _ _ => rfl⟩

theorem SameForFailure.stepOne (d : Dev) : SameForFailure d d.stepOne :=
  (((((SameForFailure.advanceTo d _).trans (SameForFailure.inReset _ false)).trans
    (SameForFailure.setReg _ rClkStat _ (by decide) (by decide))).trans
    (SameForFailure.setReg _ rCfgSvn _ (by decide) (by decide))).trans
    (SameForFailure.setReg _ rCfgStat _ (by decide) (by decide))).trans (SameForFailure.timeRuns _)

theorem Dev.released_stepOne (d : Dev) : d.stepOne.released = d.released :=
  (StartFrame.advanceTo d ((d.clock + 4095) / 4096 * 4096)).released

/-- The device at time zero of a start whose PLLs lock. -/
def Dev.timeZero (d : Dev) (env : StartEnv) : Dev := { d with sys := { d.sys with startMs := env.startMs.toNat } }

theorem SameForFailure.timeZero (d : Dev) (env : StartEnv) : SameForFailure d (d.timeZero env) :=
  ⟨rfl, rfl, rfl, rfl, rfl, fun _ _ _ => rfl⟩

/-- Time zero has been reached: a start may begin. -/
def Dev.mayStart (d : Dev) : Prop := d.sys.phase = .waiting ∨ d.sys.phase = .starting

theorem Dev.mayStart_bool {d : Dev} (h : d.mayStart) : (d.sys.phase == .waiting || d.sys.phase == .starting) = true := by
  rcases h with h | h <;> rw [h] <;> rfl

section Starts

variable {d : Dev} {env : StartEnv} (hbegins : d.mayStart)

include hbegins

theorem Dev.startup_unlocked (hpll : env.pllOk = false) :
    d.startup env = ((d.setRegBit rRstStat 29 false).step_ 1).setPhase .starting :=
  (if_neg (by rw [Dev.mayStart_bool hbegins]; decide)).trans (if_pos (by rw [hpll]; rfl))

theorem Dev.startup_failsThree (hpll : env.pllOk = true) (hfails : d.fails = 3) :
    d.startup env = (d.timeZero env).enterPermafrost env :=
  (if_neg (by rw [Dev.mayStart_bool hbegins]; decide)).trans ((if_neg (by rw [hpll]; decide)).trans (if_pos hfails))

theorem Dev.startup_fuseFails (hpll : env.pllOk = true) (hfails : d.fails ≠ 3) (hfuse : env.fuseOk = false) :
    d.startup env = (d.timeZero env).stepOne.startFail 3 :=
  (if_neg (by rw [Dev.mayStart_bool hbegins]; decide)).trans ((if_neg (by rw [hpll]; decide)).trans ((if_neg hfails).trans
    (if_pos (by rw [hfuse]; rfl))))

theorem Dev.startup_flashFails (hpll : env.pllOk = true) (hfails : d.fails ≠ 3) (hfuse : env.fuseOk = true)
    (hflash : env.flashOk = false) :
    d.startup env = (((d.timeZero env).stepOne.step_ 2).setRegFld rFlStat 23 16 env.density.toNat).startFail 1 :=
  (if_neg (by rw [Dev.mayStart_bool hbegins]; decide)).trans ((if_neg (by rw [hpll]; decide)).trans ((if_neg hfails).trans
    ((if_neg (by rw [hfuse]; decide)).trans (if_pos (.inl (by rw [hflash]; rfl))))))

/-- A start whose image selection chooses an image, and whose checks and self-tests pass, comes to the end of step 3 (R470). -/
theorem Dev.startup_selected {d' : Dev} (hpll : env.pllOk = true) (hfails : d.fails ≠ 3) (hfuse : env.fuseOk = true)
    (hflash : env.flashOk = true) (hdensity : 23 ≤ env.density.toNat) (hsel : Selects d env d') (hecc : env.eccBad = false)
    (hsram : env.sramBad = false) :
    d.startup env = (let x := (d'.morRestart.step_ 3).bist env.bist
      if x.tooCold then (x.setRegBit rCfgStat 25 true).setPhase .cold else x.startTail env) := by
  obtain ⟨e, he⟩ : ∃ e, (((d.timeZero env).stepOne.step_ 2).setRegFld rFlStat 23 16 env.density.toNat).selectImage env.readOk
      = (some d', e) := ⟨_, Prod.ext hsel rfl⟩
  refine (if_neg (by rw [Dev.mayStart_bool hbegins]; decide)).trans ((if_neg (by rw [hpll]; decide)).trans ((if_neg hfails).trans
    ((if_neg (by rw [hfuse]; decide)).trans ((if_neg ?_).trans ?_))))
  · rintro (h | h)
    · rw [hflash] at h
      exact absurd h (by decide)
    · omega
  · show (match (((d.timeZero env).stepOne.step_ 2).setRegFld rFlStat 23 16 env.density.toNat).selectImage env.readOk with
      | (none, d) => d.startFail 2
      | (some d, _) => _) = _
    rw [he]
    exact (if_neg (by rw [hecc]; decide)).trans (if_neg (by rw [hsram]; decide))

end Starts

end Sys2Proof.Machine

/-! ## Permafrost, and the wait for hosts (R469, R486, R496) -/

namespace Sys2Proof.Machine

open Sys2Proof.Claims

/-! ### Image defaults (R486) -/

theorem StartFrame.loadDefaults (d : Dev) : StartFrame d d.loadDefaults := by
  have hch : ∀ (d : Dev) (f : Nat → Nat) (hi lo v : Nat), (∀ c, 0x100004 < f c) → StartFrame d (d.chAll f hi lo v) :=
    fun d f hi lo v h => StartFrame.chAll d f hi lo v fun c => not_startReg_of_gt (h c)
  unfold Dev.loadDefaults
  refine StartFrame.trans ?_ (StartFrame.sys _ _ (by rfl))
  refine StartFrame.trans ?_ (StartFrame.setRegBit _ rDbgPolicy 31 false (by decide))
  refine StartFrame.trans ?_ (StartFrame.forNat (fun d f hf => StartFrame.setReg d _ _ (by
    rw [startReg_iff]
    simp only [rFldQos, rFld]
    omega)) _)
  refine StartFrame.trans ?_ (StartFrame.setReg _ rThmCfg _ (by decide))
  refine StartFrame.trans ?_ (StartFrame.setRegFld _ rPwrLimit 7 0 150 (by decide))
  refine StartFrame.trans ?_ (hch _ rNbToken 9 0 512 fun c => by simp only [rNbToken, rCh]; omega)
  refine StartFrame.trans ?_ (hch _ rNbToken 29 24 32 fun c => by simp only [rNbToken, rCh]; omega)
  refine StartFrame.trans ?_ (StartFrame.forNat (fun d p _ => hch d _ 15 0 _ fun c => by simp only [rChTarget, rCh]; omega) _)
  refine StartFrame.trans ?_ (hch _ rChActThr 13 0 2048 fun c => by simp only [rChActThr, rCh]; omega)
  refine StartFrame.trans ?_ (hch _ rChPage 10 0 96 fun c => by simp only [rChPage, rCh]; omega)
  refine StartFrame.trans ?_ (hch _ rChCtrl 0 0 1 fun c => by simp only [rChCtrl, rCh]; omega)
  refine StartFrame.trans ?_ (StartFrame.forNat (fun d n _ => StartFrame.setReg d _ 1000
    (not_startReg_of_gt (by simp only [rSyncWdog, rFloe]; omega))) _)
  refine StartFrame.trans ?_ (StartFrame.setReg _ rGrpCfg 2000 (by decide))
  refine StartFrame.trans ?_ (StartFrame.setReg _ rErrTwin 50 (by decide))
  refine StartFrame.trans ?_ (StartFrame.setReg _ rErrScrub 0x80000018 (by decide))
  refine StartFrame.trans ?_ (StartFrame.setReg64 _ rMorBase 0 (by decide) (by decide))
  refine StartFrame.trans ?_ (StartFrame.setReg _ rMorCfg _ (by decide))
  refine StartFrame.trans ?_ (StartFrame.setReg _ rCpAttnDev 0 (by decide))
  refine StartFrame.trans ?_ (StartFrame.setReg _ rCpAttnRoute 0 (by decide))
  exact StartFrame.setReg d rCpTimeout 10 (by decide)

/-! ### Permafrost (R496) -/

/-- What entering permafrost comes to when the host of channel 0 trains. -/
structure Frozen (d d' : Dev) : Prop where
  phase    : d'.sys.phase = .permafrost
  flag     : rbit (d'.reg rCfgStat) 30 = true
  serves   : (d'.host 0).serves
  slow     : (d'.host 0).slow = true
  order    : d'.order = none
  timeRun  : d'.timeRun = d.timeRun
  released : d'.released = d.released

theorem frozen_of {d a b e f g : Dev} {ck ok : BitVec 32} (ha : StartFrame d a)
    (hb : StartFrame ((a.setRegBit rCfgStat 30 true).step_ 3) b) (he : StartFrame (b.step_ 4) e) (hf : f = e.stepFive false none)
    (hg : StartFrame (f.updHost 0 fun h => { h with slow := true }) g) (hck : ck.getLsbD 0 = true) (hok : ok.getLsbD 0 = true) :
    Frozen d (g.stepSix [0] ck ok).endSix := by
  obtain ⟨htime, hrel, hflags, -, horder⟩ := e.stepFive_spec false none
  rw [← hf] at htime hrel hflags horder
  obtain ⟨x, heq, hx⟩ := g.stepSix_eq [0] ck ok fun c hc => by
    rw [List.mem_singleton.1 hc]
    exact ⟨hck, hok⟩
  have hup : StartKeeps (g.step_ 6) x := hx ▸ StartKeeps.foldl_hostUp [0] _
  have hserves : (x.host 0).serves := hx ▸ Dev.serves_foldl_hostUp [0] (g.step_ 6) 0 (.inl List.mem_cons_self)
  have hslow : (x.host 0).slow = true := by
    rw [hx, Dev.slow_foldl_hostUp, Dev.host_step_, hg.host, Dev.updHost, Dev.host_setHost, if_pos rfl]
  have hflag : rbit (x.reg rCfgStat) 30 = true := by
    rw [hup.reg _ (by decide), g.rbit_step_ 6 30 (by decide) (by decide), hg.reg _ (by decide), Dev.updHost, Dev.reg_setHost,
      hflags 30 (by decide) (by decide) (by decide), he.reg _ (by decide), b.rbit_step_ 4 30 (by decide) (by decide),
      hb.reg _ (by decide), Dev.rbit_step_ _ 3 30 (by decide) (by decide), Dev.rbit_setRegBit _ _ _ _ _ (by decide), if_pos rfl]
  have hcfg : rbit (x.reg (rChCfg 0)) 31 = true := by
    rw [hup.reg _ (by decide), g.reg_step_ 6 (by decide), hg.reg _ (by decide), Dev.updHost, Dev.reg_setHost, horder rfl]
  rw [heq]
  obtain ⟨hphase, htime', hrel', hhost, hreg, -⟩ := Dev.endSix_permafrost { x with sys := { x.sys with waitingCh := 0 } } rfl hflag
  refine ⟨hphase, ?_, ?_, ?_, ?_, ?_, ?_⟩
  · rw [hreg _ (by decide) (by decide)]
    exact hflag
  · rw [hhost]
    exact hserves
  · rw [hhost]
    exact hslow
  · have hreg0 : rbit ((Dev.endSix { x with sys := { x.sys with waitingCh := 0 } }).reg (rChCfg 0)) 31 = true := by
      rw [hreg _ (by decide) (by decide)]
      exact hcfg
    exact if_pos hreg0
  · exact htime'.trans (hup.timeRun.trans (hg.timeRun.trans (htime.trans (he.timeRun.trans (hb.timeRun.trans ha.timeRun)))))
  · exact hrel'.trans (hup.released.trans (hg.released.trans (hrel.trans (he.released.trans (hb.released.trans ha.released)))))

theorem Dev.enterPermafrost_frozen (d : Dev) (env : StartEnv) (hck : env.ckSeen.getLsbD 0 = true) (hok : env.hostOk.getLsbD 0 = true) :
    Frozen d.stepOne (d.enterPermafrost env) :=
  frozen_of ((StartFrame.loadDefaults _).trans (StartFrame.morRestart _)) (StartFrame.bist _ _) (StartFrame.stepFour _ _ _) rfl
    (StartFrame.report ..) hck hok

/-! ### A host channel that shows no CK (R469) -/

/-- The channels that step 6 still waits for once `c` has trained or is down. -/
def Dev.waitsWithout (d : Dev) (c : Nat) : BitVec 32 := BitVec.ofNat 32 (d.sys.waitingCh.toNat &&& (2 ^ 32 - 1 - 2 ^ c))

theorem Dev.getLsbD_waitsWithout (d : Dev) (c k : Nat) (hc : c < 32) (hk : k < 32) :
    (d.waitsWithout c).getLsbD k = (d.sys.waitingCh.getLsbD k && k != c) := by
  have hlt : 2 ^ c < 2 ^ 32 := Nat.pow_lt_pow_right (by decide) hc
  have hmask : (2 ^ 32 - 1 - 2 ^ c).testBit k = (k != c) := by
    rw [Nat.sub_sub, Nat.add_comm 1, Nat.testBit_two_pow_sub_succ hlt, Nat.testBit_two_pow, decide_eq_true hk, Bool.true_and]
    by_cases h : c = k
    · simp [h]
    · simp [h, Ne.symm h]
  rw [Dev.waitsWithout, BitVec.getLsbD_ofNat, Nat.testBit_and, hmask, BitVec.testBit_toNat, decide_eq_true hk, Bool.true_and]

theorem getLsbD_zero_reg (k : Nat) : (0 : Reg).getLsbD k = false := BitVec.getLsbD_zero

theorem getLsbD_ofNat_two_pow (c k : Nat) (hk : k < 32) : (BitVec.ofNat 32 (2 ^ c)).getLsbD k = decide (c = k) := by
  rw [BitVec.getLsbD_ofNat, Nat.testBit_two_pow, decide_eq_true hk, Bool.true_and]

/-- Nothing is waited for without `c` just when `c` alone was waited for. -/
theorem Dev.waitsWithout_eq_zero_iff (d : Dev) (c : Nat) (hc : c < 32) (hwaits : d.sys.waitingCh.getLsbD c = true) :
    d.waitsWithout c = 0 ↔ d.sys.waitingCh = BitVec.ofNat 32 (2 ^ c) := by
  constructor
  · intro h
    refine BitVec.eq_of_getLsbD_eq fun k hk => ?_
    have hbit := d.getLsbD_waitsWithout c k hc hk
    rw [h, getLsbD_zero_reg] at hbit
    rw [getLsbD_ofNat_two_pow c k hk]
    by_cases e : c = k
    · subst e
      simp [hwaits]
    · simpa [e, Ne.symm e] using hbit.symm
  · intro h
    refine BitVec.eq_of_getLsbD_eq fun k hk => ?_
    rw [d.getLsbD_waitsWithout c k hc hk, h, getLsbD_ofNat_two_pow c k hk, getLsbD_zero_reg]
    by_cases e : c = k
    · simp [e]
    · simp [e]

theorem HostPort.resume_down (h : HostPort) (t : Nat) (hup : h.up = false) (hdown : h.down = true) :
    (h.resume t).up = false ∧ (h.resume t).down = true := by
  obtain ⟨h1, h2, -⟩ := h.resume_flags t
  exact ⟨h1.trans hup, h2.trans hdown⟩

/-- A host channel that has gone down at start-up: it is down, and the phase, what step 6 waits for and CFG_STAT stand. -/
theorem Dev.hostDown_spec (d : Dev) (c : Nat) :
    ((d.hostDown c false).host c).up = false ∧ ((d.hostDown c false).host c).down = true ∧ (d.hostDown c false).sys = d.sys ∧
      (d.hostDown c false).reg rCfgStat = d.reg rCfgStat := by
  have heq : ∃ h : HostPort, h.up = false ∧ h.down = true ∧
      d.hostDown c false = (d.setHost c (h.resume d.clock)).setRegBit (rHpErr c) 30 true := ⟨_, rfl, rfl, rfl⟩
  obtain ⟨h, hup, hdown, heq⟩ := heq
  obtain ⟨hup', hdown'⟩ := h.resume_down d.clock hup hdown
  have hhost : ((d.setHost c (h.resume d.clock)).setRegBit (rHpErr c) 30 true).host c = h.resume d.clock := by
    rw [Dev.setRegBit, Dev.setRegFld, Dev.host_setReg, Dev.host_setHost, if_pos rfl]
  rw [heq, hhost]
  refine ⟨hup', hdown', by rw [Dev.setRegBit, Dev.setRegFld, Dev.setReg_sys, Dev.setHost_sys], ?_⟩
  rw [Dev.reg_setRegBit_ne _ _ _ (rCfgStat_ne_of_gt (by simp only [rHpErr, rCh]; omega)), Dev.reg_setHost]

/-- The wait for a channel ends with the channel down, and step 6 goes on without it. -/
theorem Dev.hostWaitExpiry_eq (d : Dev) (c : Nat) (hphase : d.sys.phase = .hostWait) (hwaits : d.sys.waitingCh.getLsbD c = true) :
    ∃ x : Dev, d.hostWaitExpiry c = x.endSix ∧ (x.host c).up = false ∧ (x.host c).down = true ∧ x.sys.waitingCh = d.waitsWithout c ∧
      x.reg rCfgStat = d.reg rCfgStat := by
  obtain ⟨y, hy, hyphase, hywait, hyreg⟩ : ∃ y : Dev, d.hostWaitExpiry c = (y.hostDown c false).sixCheck c ∧
      y.sys.phase = .hostWait ∧ y.sys.waitingCh = d.sys.waitingCh ∧ y.reg rCfgStat = d.reg rCfgStat := by
    refine ⟨_, if_neg ?_, ?_⟩
    · rw [hphase, hwaits]
      decide
    · split <;> exact ⟨hphase, rfl, rfl⟩
  obtain ⟨hup, hdown, hsys, hreg⟩ := y.hostDown_spec c
  rw [hy]
  generalize y.hostDown c false = z at hup hdown hsys hreg ⊢
  refine ⟨{ z with sys := { z.sys with waitingCh := d.waitsWithout c } }, ?_, hup, hdown, rfl, hreg.trans hyreg⟩
  have hleft : BitVec.ofNat 32 (z.sys.waitingCh.toNat &&& (2 ^ 32 - 1 - 2 ^ c)) = d.waitsWithout c := by
    rw [hsys, hywait, Dev.waitsWithout]
  rw [← hleft]
  refine (if_neg ?_).trans (if_neg ?_)
  · rw [hsys, hyphase]
    decide
  · rw [hdown]
    simp

end Sys2Proof.Machine

/-! ## The statement about starts -/

namespace Sys2Proof.Machine

open Sys2Proof.Claims

/-- A failed start, as the pins' settling leaves it. -/
theorem failed_settle {d d' : Dev} {cause fails code : Nat} (h : HasReset d d' cause .waiting ∧ fld (d'.reg rRstStat) 19 18 = fails ∧
      fld (d'.reg rCfgStat) 15 8 = code) :
    HasReset d d'.settle cause .waiting ∧ fld (d'.settle.reg rRstStat) 19 18 = fails ∧ fld (d'.settle.reg rCfgStat) 15 8 = code := h

theorem Released_settle {d : Dev} (h : Released d) : Released d.settle := h

/-- What a start whose PLLs have not locked shows (R46). -/
theorem Dev.unlocked_spec (d : Dev) :
    let d' := ((d.setRegBit rRstStat 29 false).step_ 1).setPhase .starting
    d'.sys.phase = .starting ∧ fld (d'.reg rCfgStat) 18 16 = 1 ∧ rbit (d'.reg rRstStat) 29 = false ∧ d'.timeRun = d.timeRun ∧
      d'.dram = d.dram := by
  refine ⟨rfl, Dev.fld_step_ _ 1 (by decide), ?_, rfl, rfl⟩
  show rbit (((d.setRegBit rRstStat 29 false).step_ 1).reg rRstStat) 29 = false
  rw [Dev.reg_step_ _ 1 (by decide), Dev.rbit_setRegBit _ _ _ _ _ (by decide), if_pos rfl]

/-- Two devices with the same readings of the DRAM dies are alike in the cold. -/
theorem Dev.tooCold_congr {d d' : Dev} (h : ∀ i, i < 16 → d'.reg (rThmDram i) = d.reg (rThmDram i)) : d'.tooCold = d.tooCold := by
  have hmem : ∀ i, i ∈ List.range 16 → d'.reg (rThmDram i) = d.reg (rThmDram i) := fun i hi => h i (List.mem_range.1 hi)
  rw [Bool.eq_iff_iff]
  simp only [Dev.tooCold, List.any_eq_true]
  constructor
  · rintro ⟨i, hi, hcold⟩
    exact ⟨i, hi, by rwa [← hmem i hi]⟩
  · rintro ⟨i, hi, hcold⟩
    exact ⟨i, hi, by rwa [hmem i hi]⟩

/-- Step 3 after image selection leaves the readings, the step number and the flags of CFG_STAT. -/
theorem Dev.stepThree_spec (d : Dev) (bist : BitVec 136) :
    ((d.morRestart.step_ 3).bist bist).tooCold = d.tooCold ∧
      fld (((d.morRestart.step_ 3).bist bist).reg rCfgStat) 18 16 = 3 ∧
      ∀ k, k < 32 → 18 < k → rbit (((d.morRestart.step_ 3).bist bist).reg rCfgStat) k = rbit (d.reg rCfgStat) k := by
  have hmor := StartFrame.morRestart d
  have hbist := StartFrame.bist (d.morRestart.step_ 3) bist
  generalize d.morRestart = a at hmor hbist ⊢
  generalize (a.step_ 3).bist bist = b at hbist ⊢
  refine ⟨Dev.tooCold_congr fun i hi => ?_, ?_, fun k hk h18 => ?_⟩
  · have hreg : startReg (rThmDram i) := by
      rw [startReg_iff]
      simp only [rThmDram]
      omega
    rw [hbist.reg _ hreg, a.reg_step_ 3 (by simp only [rThmDram, rCfgStat]; omega), hmor.reg _ hreg]
  · rw [hbist.reg _ (by decide), a.fld_step_ 3 (by decide)]
  · rw [hbist.reg _ (by decide), a.rbit_step_ 3 k hk h18, hmor.reg _ (by decide)]

/-- The cold hold shows in CFG_STAT, with the step it holds (R470). -/
theorem Dev.coldHold_spec (d : Dev) (hstep : fld (d.reg rCfgStat) 18 16 = 3) :
    let d' := (d.setRegBit rCfgStat 25 true).setPhase .cold
    d'.sys.phase = .cold ∧ rbit (d'.reg rCfgStat) 25 = true ∧ fld (d'.reg rCfgStat) 18 16 = 3 := by
  refine ⟨rfl, ?_, ?_⟩
  · show rbit ((d.setRegBit rCfgStat 25 true).reg rCfgStat) 25 = true
    rw [Dev.rbit_setRegBit _ _ _ _ _ (by decide), if_pos rfl]
  · show fld ((d.setRegBit rCfgStat 25 true).reg rCfgStat) 18 16 = 3
    rw [Dev.fld_setRegBit_apart _ _ _ _ _ _ (by decide) (by decide), hstep]

theorem Dev.coldRelease_tooCold (d : Dev) (env : StartEnv) (h : d.tooCold = true) : d.coldRelease env = d := if_pos (.inr h)

theorem Dev.coldRelease_warm (d : Dev) (env : StartEnv) (hphase : d.sys.phase = .cold) (h : d.tooCold = false) :
    d.coldRelease env = (d.setRegBit rCfgStat 25 false).startTail env :=
  if_neg (by rw [hphase, h]; simp)

theorem Dev.startupWatchdog_eq (d : Dev) (hbegins : d.mayStart) (hfails : d.fails ≠ 3) : d.startupWatchdog = d.startFail 8 :=
  if_pos (by rw [Dev.mayStart_bool hbegins, Bool.true_and]; simpa using hfails)

/-- What the end of the wait for a host channel does to the channel, the phase and the channels still waited for (R469). -/
theorem Dev.hostWaitExpiry_spec (d : Dev) (c : Nat) (hc : c < 32) (hphase : d.sys.phase = .hostWait)
    (hwaits : d.sys.waitingCh.getLsbD c = true) :
    let d' := d.hostWaitExpiry c
    (d'.host c).down = true ∧ (d'.host c).up = false ∧
      (d.sys.waitingCh ≠ BitVec.ofNat 32 (2 ^ c) → d'.sys.phase = .hostWait ∧
        ∀ k, k < 32 → d'.sys.waitingCh.getLsbD k = (d.sys.waitingCh.getLsbD k && k != c)) ∧
      (d.sys.waitingCh = BitVec.ofNat 32 (2 ^ c) → rbit (d'.reg rCfgHdown) c = true ∧
        (rbit (d.reg rCfgStat) 30 = false → Released d') ∧ (rbit (d.reg rCfgStat) 30 = true → d'.sys.phase = .permafrost)) := by
  obtain ⟨x, heq, hup, hdown, hleft, hcfg⟩ := d.hostWaitExpiry_eq c hphase hwaits
  intro d'
  rw [show d' = x.endSix from heq]
  have hzero := d.waitsWithout_eq_zero_iff c hc hwaits
  by_cases hlast : d.sys.waitingCh = BitVec.ofNat 32 (2 ^ c)
  · have hnone : x.sys.waitingCh = 0 := by rw [hleft, hzero.2 hlast]
    cases himage : rbit (d.reg rCfgStat) 30 with
    | false =>
      rw [x.endSix_release hnone (by rw [hcfg, himage])]
      obtain ⟨hrel, -, hhost, -, hmask⟩ := x.release_spec
      rw [hhost, hmask c hc]
      exact ⟨hdown, hup, fun h => absurd hlast h, fun _ => ⟨hdown, fun _ => hrel, fun h => absurd h (by decide)⟩⟩
    | true =>
      obtain ⟨hfrost, -, -, hhost, -, hmask⟩ := x.endSix_permafrost hnone (by rw [hcfg, himage])
      rw [hhost, hmask c hc]
      exact ⟨hdown, hup, fun h => absurd hlast h, fun _ => ⟨hdown, fun h => absurd h (by decide), fun _ => hfrost⟩⟩
  · rw [x.endSix_waits (by rw [hleft]; exact mt hzero.1 hlast)]
    refine ⟨hdown, hup, fun _ => ⟨rfl, fun k hk => ?_⟩, fun h => absurd h hlast⟩
    show x.sys.waitingCh.getLsbD k = _
    rw [hleft, d.getLsbD_waitsWithout c k hc hk]

end Sys2Proof.Machine

namespace Sys2Proof.Proofs

open Sys2Proof.Machine Sys2Proof.Claims

/-- Settles O48: each start comes down to one of a failed start, the cold hold, permafrost, or the end of step 6, whose facts stand
above. -/
theorem startUp : Obligations.StartUp := by
  unfold Obligations.StartUp
  intro s env fails begins failed
  refine ⟨fun hbegins => ⟨fun hpll => ?_, fun hpll hfails => ⟨fun hmay hfuse => ?_, fun hmay hfuse hflash => ?_,
    fun d' hfuse hflash hdensity hsel hecc hsram himage => ?_⟩, fun hpll hfails hck hok => ?_, fun hfails hmay => ?_⟩,
    fun hcold => ⟨fun htoo => ?_, fun hwarm hgood himage => ?_⟩, fun c hphase hwaits => ?_⟩
  · refine runs_of _ s _ (fun d => d.startup env) rfl ?_
    rw [Dev.startup_unlocked hbegins hpll]
    exact s.dev.unlocked_spec
  · refine runs_of _ s _ (fun d => d.startup env) rfl (failed_settle ?_)
    rw [Dev.startup_fuseFails hbegins hpll hfails hfuse]
    exact Dev.startFail_failed ((SameForFailure.timeZero s.dev env).trans (SameForFailure.stepOne _)) hmay hfails 3 (by decide) (by decide)
  · refine runs_of _ s _ (fun d => d.startup env) rfl (failed_settle ?_)
    rw [Dev.startup_flashFails hbegins hpll hfails hfuse hflash]
    have hsame := ((SameForFailure.timeZero s.dev env).trans (SameForFailure.stepOne _)).trans
      (SameForFailure.setReg _ rCfgStat (setFld ((s.dev.timeZero env).stepOne.reg rCfgStat) 18 16 2) (by decide) (by decide))
    exact Dev.startFail_failed (hsame.trans (SameForFailure.setReg _ rFlStat _ (by decide) (by decide))) hmay hfails 1 (by decide)
      (by decide)
  · obtain ⟨hread, hstep, hflags⟩ := d'.stepThree_spec env.bist
    have hrun := Dev.startup_selected hbegins hpll hfails hfuse hflash hdensity hsel hecc hsram
    dsimp only at hrun
    generalize (d'.morRestart.step_ 3).bist env.bist = x at hread hstep hflags hrun
    refine ⟨fun htoo => runs_of _ s _ (fun d => d.startup env) rfl ?_, fun hwarm hgood => runs_of _ s _ (fun d => d.startup env) rfl ?_⟩
    · rw [hrun, if_pos (by rw [hread, htoo])]
      exact x.coldHold_spec hstep
    · rw [hrun, if_neg (by rw [hread, hwarm]; exact Bool.false_ne_true)]
      obtain ⟨hrel, -, hserves⟩ := x.startTail_spec env hgood (by rw [hflags 30 (by decide) (by decide), himage])
      exact ⟨Released_settle hrel, fun c => (hserves c c.isLt).1.1⟩
  · refine runs_of _ s _ (fun d => d.startup env) rfl ?_
    rw [Dev.startup_failsThree hbegins hpll hfails]
    have hfrozen := (s.dev.timeZero env).enterPermafrost_frozen env hck hok
    generalize (s.dev.timeZero env).enterPermafrost env = x at hfrozen ⊢
    obtain ⟨hphase, hflag, hserves, hslow, horder, htime, hrel⟩ := hfrozen
    exact ⟨hphase, hflag, hserves.1, hslow, horder, htime, hrel.trans (Dev.released_stepOne _)⟩
  · refine runs_of _ s _ (fun d => d.startupWatchdog) rfl (failed_settle ?_)
    rw [Dev.startupWatchdog_eq s.dev hbegins hfails]
    exact Dev.startFail_failed (SameForFailure.refl _) hmay hfails 8 (by decide) (by decide)
  · show s.does (fun d => d.coldRelease env) = _
    rw [State.does_eq, s.dev.coldRelease_tooCold env htoo]
  · refine runs_of _ s _ (fun d => d.coldRelease env) rfl ?_
    rw [s.dev.coldRelease_warm env hcold hwarm]
    obtain ⟨hrel, hhold, hchans⟩ := (s.dev.setRegBit rCfgStat 25 false).startTail_spec env hgood (by
      rw [Dev.rbit_setRegBit _ _ _ _ _ (by decide), if_neg (by decide), himage])
    rw [Dev.rbit_setRegBit _ _ _ _ _ (by decide), if_pos rfl] at hhold
    refine ⟨Released_settle hrel, hhold, fun c => ?_⟩
    obtain ⟨hserves, hopen⟩ := hchans c c.isLt
    exact ⟨hserves.1, hserves.2, hopen⟩
  · exact runs_of _ s _ (fun d => d.hostWaitExpiry c) rfl (s.dev.hostWaitExpiry_spec c c.isLt hphase hwaits)

end Sys2Proof.Proofs

/-! Proof of the statement about words under the code (R82, R360, R361). -/

/-! ## The code (R360, R361) -/

namespace Sys2Proof.Machine

/-- One pass over the columns is linear in the data and in what it starts from. -/
theorem foldl_columns_xor (cols : List (Nat × Nat)) (x y a b : Nat) :
    cols.foldl (fun c p => if (x ^^^ y).testBit p.2 then c ^^^ p.1 else c) (a ^^^ b) =
      cols.foldl (fun c p => if x.testBit p.2 then c ^^^ p.1 else c) a ^^^
        cols.foldl (fun c p => if y.testBit p.2 then c ^^^ p.1 else c) b := by
  induction cols generalizing a b with
  | nil => rfl
  | cons p cols ih =>
    have hstep : (if (x ^^^ y).testBit p.2 then a ^^^ b ^^^ p.1 else a ^^^ b) =
        (if x.testBit p.2 then a ^^^ p.1 else a) ^^^ (if y.testBit p.2 then b ^^^ p.1 else b) := by
      rw [Nat.testBit_xor]
      cases x.testBit p.2 <;> cases y.testBit p.2 <;> simp [Nat.xor_comm, Nat.xor_left_comm]
    simp only [List.foldl_cons, hstep, ih]

/-- The check bits are linear in the data. -/
theorem eccCheck_xor (x y : Nat) : eccCheck (x ^^^ y) = eccCheck x ^^^ eccCheck y :=
  foldl_columns_xor _ x y 0 0

/-- Data bits that flip under check bits that stay leave the check bits of the flips as the syndrome. -/
theorem eccCheck_xor_flipped (x e : Nat) : eccCheck x ^^^ eccCheck (x ^^^ e) = eccCheck e := by
  rw [eccCheck_xor, Nat.xor_xor_cancel_left]

/-- The syndrome of each data bit names that bit. -/
theorem eccClass_eccCheck_two_pow {i : Nat} (hi : i < 64) : eccClass (eccCheck (2 ^ i)) = .corrected i := by
  have hall : ∀ i < 64, eccClass (eccCheck (2 ^ i)) = .corrected i := by decide
  exact hall i hi

theorem eccClass_two_pow {j : Nat} (hj : j < 8) : eccClass (2 ^ j) = .correctedCheck := by
  have hall : ∀ j < 8, eccClass (2 ^ j) = .correctedCheck := by decide
  exact hall j hj

theorem eccClass_zero : eccClass 0 = .good := rfl

/-- Eight check bits of ones are the mark. -/
theorem eccClass_mark : eccClass 255 = .marked := by decide

theorem popCount_xor_mod_two (w a b : Nat) : popCount w (a ^^^ b) % 2 = (popCount w a + popCount w b) % 2 := by
  induction w generalizing a b with
  | zero => rfl
  | succ w ih =>
    have hlow : (a ^^^ b) % 2 = (a % 2 + b % 2) % 2 := by
      rw [Nat.xor_mod_two_eq]; omega
    have hhigh : (a ^^^ b) / 2 = a / 2 ^^^ b / 2 := Nat.xor_div_two
    have := ih (a / 2) (b / 2)
    rw [popCount, popCount, popCount, hlow, hhigh]
    omega

/-- Every column has an odd number of ones. -/
theorem popCount_column_odd {c : Nat} (hc : c ∈ eccCols) : popCount 8 c % 2 = 1 := by
  have hall : ∀ c ∈ eccCols, popCount 8 c % 2 = 1 := by decide
  exact hall c hc

theorem popCount_eccCheck_two_pow {i : Nat} (hi : i < 64) : popCount 8 (eccCheck (2 ^ i)) % 2 = 1 := by
  have hall : ∀ i < 64, popCount 8 (eccCheck (2 ^ i)) % 2 = 1 := by decide
  exact hall i hi

theorem mem_of_findPos {α : Type} {p : α → Bool} {l : List α} {n k : Nat} {x : α} (h : findPos p l n = some (k, x)) :
    x ∈ l ∧ p x = true := by
  induction l generalizing n with
  | nil => simp [findPos] at h
  | cons y l ih =>
    rw [findPos] at h
    split at h
    · next hy =>
      cases h
      exact ⟨List.mem_cons_self, hy⟩
    · obtain ⟨hmem, hx⟩ := ih h
      exact ⟨List.mem_cons_of_mem y hmem, hx⟩

/-- A syndrome with an even number of ones, but 0, is that of no single bit: the data are poisoned. -/
theorem eccClass_poisoned_of_even {s : Nat} (hs : s ≠ 0) (heven : popCount 8 s % 2 = 0) : (eccClass s).poisoned = true := by
  have hnone : findPos (fun c => c == s) eccCols 0 = none := by
    cases hfind : findPos (fun c => c == s) eccCols 0 with
    | none => rfl
    | some e =>
      obtain ⟨hmem, heq⟩ := mem_of_findPos (k := e.1) (x := e.2) hfind
      have hodd := popCount_column_odd hmem
      rw [eq_of_beq heq] at hodd
      omega
  rw [eccClass, if_neg hs, hnone]
  dsimp only
  rw [if_neg (by omega)]
  split <;> rfl

theorem eccDecode_snd (x s : Nat) : (eccDecode x s).2 = eccClass s := by
  rw [eccDecode]
  cases eccClass s <;> rfl

/-- A single flipped data bit is found and inverted. -/
theorem eccDecode_one_flip (x : Nat) {i : Nat} (hi : i < 64) :
    eccDecode (x ^^^ 2 ^ i) (eccCheck x ^^^ eccCheck (x ^^^ 2 ^ i)) = (x, .corrected i) := by
  rw [eccCheck_xor_flipped, eccDecode, eccClass_eccCheck_two_pow hi]
  simp only [Nat.xor_xor_cancel_right]

theorem eccDecode_one_check_flip (x : Nat) {j : Nat} (hj : j < 8) : eccDecode x (2 ^ j) = (x, .correctedCheck) := by
  rw [eccDecode, eccClass_two_pow hj]

/-- Two flipped data bits are found: their columns differ, and the sum of two odd columns is even. -/
theorem eccDecode_two_flips (x : Nat) {i j : Nat} (hi : i < 64) (hj : j < 64) (hij : j ≠ i) :
    (eccDecode (x ^^^ 2 ^ i ^^^ 2 ^ j) (eccCheck x ^^^ eccCheck (x ^^^ 2 ^ i ^^^ 2 ^ j))).2.poisoned = true := by
  rw [eccDecode_snd, Nat.xor_assoc x, eccCheck_xor_flipped, eccCheck_xor]
  refine eccClass_poisoned_of_even (fun hzero => hij ?_) ?_
  · have hcol := eccClass_eccCheck_two_pow hi
    rw [Nat.xor_eq_zero_iff.1 hzero, eccClass_eccCheck_two_pow hj] at hcol
    exact EccClass.corrected.inj hcol
  · have hi1 := popCount_eccCheck_two_pow hi
    have hj1 := popCount_eccCheck_two_pow hj
    rw [popCount_xor_mod_two]
    omega

end Sys2Proof.Machine

/-! ## A written word (R82) -/

namespace Sys2Proof.Machine

/-- A number is made of its digits to the base `b`, lowest first. -/
theorem foldr_digits (b k x : Nat) :
    ((List.range k).map fun i => x / b ^ i % b).foldr (fun c y => c + b * y) 0 = x % b ^ k := by
  induction k generalizing x with
  | zero => simp [Nat.mod_one]
  | succ k ih =>
    have hshift : (List.range k).map ((fun i => x / b ^ i % b) ∘ Nat.succ) = (List.range k).map fun i => x / b / b ^ i % b :=
      List.map_congr_left fun i _ => by
        simp only [Function.comp_apply, Nat.succ_eq_add_one, Nat.pow_succ', Nat.div_div_eq_div_mul]
    rw [List.range_succ_eq_map, List.map_cons, List.map_map, hshift, List.foldr_cons, ih, Nat.pow_zero, Nat.div_one,
      Nat.pow_succ', Nat.mod_mul]

theorem toLe_eq_map (n x : Nat) : toLe n x = (List.range n).map fun i => BitVec.ofNat 8 (x / 256 ^ i) := by
  induction n generalizing x with
  | zero => rfl
  | succ n ih =>
    rw [toLe, ih, List.range_succ_eq_map, List.map_cons, List.map_map]
    simp [Function.comp_def, Nat.pow_succ', Nat.div_div_eq_div_mul]

theorem leNat_eq_foldr (bs : List (BitVec 8)) : leNat bs = (bs.map BitVec.toNat).foldr (fun c y => c + 256 * y) 0 := by
  induction bs with
  | nil => rfl
  | cons b bs ih => rw [leNat, ih, List.map_cons, List.foldr_cons]

/-- The bytes of a number are its digits to the base 256. -/
theorem leNat_map_digits (k x : Nat) : leNat ((List.range k).map fun i => BitVec.ofNat 8 (x / 256 ^ i)) = x % 256 ^ k := by
  rw [leNat_eq_foldr, List.map_map, ← foldr_digits 256 k x]
  rfl

/-- The syndromes after those of consecutive code words have been set. -/
theorem EccMem.foldl_putSynd (m : EccMem) (f : Nat → BitVec 8) (a k : Nat) :
    let r := (List.range k).foldl (fun m i => m.putSynd (a + i) (f i)) m
    (∀ x, r.byte x = m.byte x) ∧ ∀ w, r.syndrome w = if a ≤ w ∧ w < a + k then f (w - a) else m.syndrome w := by
  induction k with
  | zero =>
    refine ⟨fun x => rfl, fun w => ?_⟩
    rw [if_neg (by omega)]
    rfl
  | succ k ih =>
    obtain ⟨hbyte, hsynd⟩ := ih
    rw [List.range_succ, List.foldl_append, List.foldl_cons, List.foldl_nil]
    refine ⟨fun x => ?_, fun w => ?_⟩
    · rw [EccMem.byte_putSynd, hbyte]
    · rw [EccMem.syndrome_putSynd, hsynd]
      by_cases hw : w = a + k
      · rw [if_pos hw, if_pos (by omega), hw, Nat.add_sub_cancel_left]
      · rw [if_neg hw]
        by_cases hin : a ≤ w ∧ w < a + k
        · rw [if_pos hin, if_pos (by omega)]
        · rw [if_neg hin, if_neg (by omega)]

variable (m : EccMem) (n : Nat) (x : Line) (marks : BitVec 8)

theorem EccMem.byte_writeWord (a : Nat) : (m.writeWord n x marks).byte a = (m.putBytes (64 * n) (lineBytes x)).byte a :=
  (EccMem.foldl_putSynd _ (fun i => if marks.getLsbD i then 0xFF else 0) (8 * n) 8).1 a

theorem EccMem.syndrome_writeWord (w : Nat) : (m.writeWord n x marks).syndrome w =
    if 8 * n ≤ w ∧ w < 8 * n + 8 then (if marks.getLsbD (w - 8 * n) then 0xFF else 0) else m.syndrome w :=
  ((EccMem.foldl_putSynd _ (fun i => if marks.getLsbD i then 0xFF else 0) (8 * n) 8).2 w).trans
    (by rw [EccMem.syndrome_putBytes])

theorem length_lineBytes : (lineBytes x).length = 64 := by
  rw [lineBytes, toLe_eq_map, List.length_map, List.length_range]

theorem EccMem.byte_writeWord_in {k : Nat} (hk : k < 64) :
    (m.writeWord n x marks).byte (64 * n + k) = BitVec.ofNat 8 (x.toNat / 256 ^ k) := by
  rw [EccMem.byte_writeWord, EccMem.byte_putBytes_of_in _ _ k _ (by rw [length_lineBytes]; exact hk)]
  simp only [lineBytes, toLe_eq_map, List.getElem_map, List.getElem_range]

theorem EccMem.byte_writeWord_out {a : Nat} (h : a / 64 ≠ n) : (m.writeWord n x marks).byte a = m.byte a := by
  rw [EccMem.byte_writeWord, EccMem.byte_putBytes_of_out]
  rw [length_lineBytes]
  omega

/-- The data bits of code word `i` of a written word. -/
theorem EccMem.raw64_writeWord {i : Nat} (hi : i < 8) :
    (m.writeWord n x marks).raw64 (8 * n + i) = x.toNat / (2 ^ 64) ^ i % 2 ^ 64 := by
  have hbytes : (List.range 8).map (fun k => (m.writeWord n x marks).byte (8 * (8 * n + i) + k)) =
      (List.range 8).map fun k => BitVec.ofNat 8 (x.toNat / (2 ^ 64) ^ i / 256 ^ k) :=
    List.map_congr_left fun k hk => by
      have hk := List.mem_range.1 hk
      rw [show 8 * (8 * n + i) + k = 64 * n + (8 * i + k) by omega, EccMem.byte_writeWord_in _ _ _ _ (by omega),
        Nat.div_div_eq_div_mul, show (2 ^ 64) ^ i * 256 ^ k = 256 ^ (8 * i + k) by
          rw [Nat.pow_add, Nat.pow_mul]
          rfl]
  rw [EccMem.raw64, hbytes, leNat_map_digits]
  rfl

/-- A code word of a written word decodes to what was written: good, or marked where it was to be marked. -/
theorem EccMem.read64_writeWord {i : Nat} (hi : i < 8) : (m.writeWord n x marks).read64 (8 * n + i) =
    (x.toNat / (2 ^ 64) ^ i % 2 ^ 64, if marks.getLsbD i then .marked else .good) := by
  rw [EccMem.read64, EccMem.raw64_writeWord _ _ _ _ hi, EccMem.syndrome_writeWord, if_pos (by omega), Nat.add_sub_cancel_left]
  cases marks.getLsbD i with
  | true =>
    rw [if_pos rfl, if_pos rfl, eccDecode, show (0xFF : BitVec 8).toNat = 255 from rfl, eccClass_mark]
  | false => rfl

theorem EccMem.read64_writeWord_of_ne {w : Nat} (h : w / 8 ≠ n) : (m.writeWord n x marks).read64 w = m.read64 w := by
  have hbytes : (List.range 8).map (fun k => (m.writeWord n x marks).byte (8 * w + k)) =
      (List.range 8).map fun k => m.byte (8 * w + k) :=
    List.map_congr_left fun k hk => by
      have hk := List.mem_range.1 hk
      exact EccMem.byte_writeWord_out _ _ _ _ (by omega)
  rw [EccMem.read64, EccMem.raw64, hbytes, EccMem.syndrome_writeWord, if_neg (by omega)]
  rfl

/-- The code words of a word written with marks, as they are read. -/
def writtenWords (x : Line) (marks : BitVec 8) : List (Nat × EccClass) :=
  (List.range 8).map fun i => (x.toNat / (2 ^ 64) ^ i % 2 ^ 64, if marks.getLsbD i then .marked else .good)

theorem EccMem.map_read64_writeWord :
    ((List.range 8).map fun i => (m.writeWord n x marks).read64 (8 * n + i)) = writtenWords x marks :=
  List.map_congr_left fun _ hi => EccMem.read64_writeWord m n x marks (List.mem_range.1 hi)

theorem bit_eq_digit (k : Nat) : (if marks.getLsbD k then 1 else 0) = marks.toNat / 2 ^ k % 2 := by
  rw [BitVec.getLsbD, Nat.testBit_eq_decide_div_mod_eq]
  rcases Nat.mod_two_eq_zero_or_one (marks.toNat / 2 ^ k) with h | h <;> rw [h] <;> rfl

theorem data_writtenWords :
    BitVec.ofNat 512 ((writtenWords x marks).foldr (fun c y => c.1 % 2 ^ 64 + 2 ^ 64 * y) 0) = x := by
  have hdigits := foldr_digits (2 ^ 64) 8 x.toNat
  rw [List.foldr_map] at hdigits
  rw [writtenWords, List.foldr_map]
  simp only [Nat.mod_mod]
  rw [hdigits, ← Nat.pow_mul]
  simp only [Nat.reduceMul, Nat.mod_eq_of_lt x.isLt, BitVec.ofNat_toNat, BitVec.setWidth_eq]

theorem poisoned_ite (b : Bool) : (if b then EccClass.marked else .good).poisoned = b := by
  cases b <;> rfl

theorem marks_writtenWords :
    BitVec.ofNat 8 ((writtenWords x marks).foldr (fun c y => (if c.2.poisoned then 1 else 0) + 2 * y) 0) = marks := by
  have hdigits := foldr_digits 2 8 marks.toNat
  rw [List.foldr_map] at hdigits
  rw [writtenWords, List.foldr_map]
  simp only [poisoned_ite, bit_eq_digit]
  rw [hdigits]
  exact BitVec.eq_of_toNat_eq (by rw [BitVec.toNat_ofNat, Nat.mod_mod, Nat.mod_eq_of_lt marks.isLt])

theorem poison_writtenWords : ((writtenWords x marks).any fun c => c.2.poisoned) = (marks != 0) := by
  rw [Bool.eq_iff_iff, List.any_eq_true, bne_iff_ne]
  constructor
  · rintro ⟨c, hc, hpoison⟩ hzero
    obtain ⟨i, -, rfl⟩ := List.mem_map.1 hc
    simp [hzero, EccClass.poisoned] at hpoison
  · intro hmarks
    by_contra hnone
    refine hmarks (BitVec.eq_of_getLsbD_eq fun i hi => ?_)
    rw [show (0 : BitVec 8).getLsbD i = false from BitVec.getLsbD_zero, ← poisoned_ite (marks.getLsbD i), ← Bool.not_eq_true]
    exact fun hpoison => hnone ⟨_, List.mem_map.2 ⟨i, List.mem_range.2 hi, rfl⟩, hpoison⟩

/-- No code word of a written word needs correction, and none is uncorrectable without the mark. -/
theorem mem_writtenWords {c : Nat × EccClass} (h : c ∈ writtenWords x marks) : c.2 = .marked ∨ c.2 = .good := by
  obtain ⟨i, -, rfl⟩ := List.mem_map.1 h
  cases marks.getLsbD i with
  | true => exact .inl rfl
  | false => exact .inr rfl

/-- A written word reads back with its marks (R82, R361). -/
theorem EccMem.readWord_writeWord : (m.writeWord n x marks).readWord n =
    { data := x, poison := marks != 0, corrected := 0, uncorr := 0, marks := marks } := by
  rw [EccMem.readWord]
  simp only [EccMem.map_read64_writeWord, data_writtenWords, marks_writtenWords, poison_writtenWords, WordRead.mk.injEq, true_and,
    and_true, List.length_eq_zero_iff, List.filter_eq_nil_iff]
  refine ⟨fun c hc => ?_, fun c hc => ?_⟩ <;> rcases mem_writtenWords x marks hc with h | h <;> rw [h] <;> decide

/-- The other words read as before. -/
theorem EccMem.readWord_writeWord_of_ne {j : Nat} (h : j ≠ n) : (m.writeWord n x marks).readWord j = m.readWord j := by
  have hwords : ((List.range 8).map fun i => (m.writeWord n x marks).read64 (8 * j + i)) =
      (List.range 8).map fun i => m.read64 (8 * j + i) :=
    List.map_congr_left fun i hi => by
      have hi := List.mem_range.1 hi
      exact EccMem.read64_writeWord_of_ne _ _ _ _ (by omega)
  rw [EccMem.readWord, hwords]
  rfl

end Sys2Proof.Machine

namespace Sys2Proof.Proofs

open Sys2Proof.Machine

/-- Settles O57: the columns of the code are distinct and odd, so the syndrome of one flip names it and that of two is even. -/
theorem codeProtectsWords : Obligations.CodeProtectsWords := by
  unfold Obligations.CodeProtectsWords
  refine ⟨fun m n x marks => ?_, fun x i _ hi => ⟨eccDecode_one_flip x hi, fun j hj => eccDecode_one_check_flip x hj,
    fun j hj hij => eccDecode_two_flips x hi hj hij⟩⟩
  intro r
  have hr : r = _ := m.readWord_writeWord n x marks
  rw [hr]
  exact ⟨rfl, rfl, rfl, rfl, rfl, fun j hj => m.readWord_writeWord_of_ne n x marks hj⟩

end Sys2Proof.Proofs

/-! Proof of the statement about commands that store nothing (R69, R244, R499, R513, R552). -/

/-! ## What a device stores, under the named updates -/

namespace Sys2Proof.Machine

/-- What a device stores: both memories, the flash, the fuses, the channels, the rings and their commands, and the semaphores. -/
def Dev.stores (d : Dev) : EccMem × EccMem × List Host.Cell × Fuses × Tab Chan × Tab Ring × List Cmd × Tab (BitVec 64) :=
  (d.dram, d.ls, d.flash, d.fuses, d.chans, d.rings, d.cmds, d.sems)

@[simp] theorem Dev.stores_settle (d : Dev) : d.settle.stores = d.stores := rfl
@[simp] theorem Dev.stores_setReg (d : Dev) (o : Nat) (v : Reg) : (d.setReg o v).stores = d.stores := rfl
@[simp] theorem Dev.stores_setRegFld (d : Dev) (o hi lo v : Nat) : (d.setRegFld o hi lo v).stores = d.stores := rfl
@[simp] theorem Dev.stores_setRegBit (d : Dev) (o n : Nat) (b : Bool) : (d.setRegBit o n b).stores = d.stores := rfl
@[simp] theorem Dev.stores_setReg64 (d : Dev) (o : Nat) (v : BitVec 64) : (d.setReg64 o v).stores = d.stores := rfl
@[simp] theorem Dev.stores_count (d : Dev) (o n : Nat) : (d.count o n).stores = d.stores := rfl
@[simp] theorem Dev.stores_devsrc (d : Dev) (b : Nat) : (d.devsrc b).stores = d.stores := rfl
@[simp] theorem Dev.stores_setHost (d : Dev) (c : Nat) (h : HostPort) : (d.setHost c h).stores = d.stores := rfl
@[simp] theorem Dev.stores_updHost (d : Dev) (c : Nat) (f : HostPort → HostPort) : (d.updHost c f).stores = d.stores := rfl
@[simp] theorem Dev.stores_setFloe (d : Dev) (n : Nat) (f : Floe) : (d.setFloe n f).stores = d.stores := rfl
@[simp] theorem Dev.stores_updFloe (d : Dev) (n : Nat) (f : Floe → Floe) : (d.updFloe n f).stores = d.stores := rfl
@[simp] theorem Dev.stores_sys (d : Dev) (y : Sys) : ({ d with sys := y } : Dev).stores = d.stores := rfl

@[simp] theorem Dev.stores_report (d : Dev) (code sev ukind unit addr info : Nat) (f : Option (BitVec 4)) :
    (d.report code sev ukind unit addr info f).stores = d.stores := by
  obtain ⟨⟨_, _, _, _, h⟩, -⟩ := d.report_frame code sev ukind unit addr info f
  rw [h]
  rfl

theorem Dev.stores_ite {p : Prop} {_ : Decidable p} {d x y : Dev} (hx : x.stores = d.stores) (hy : y.stores = d.stores) :
    (if p then x else y).stores = d.stores := by
  split <;> assumption

theorem Dev.stores_foldl {β : Type} {f : Dev → β → Dev} (h : ∀ d x, (f d x).stores = d.stores) (l : List β) (d : Dev) :
    (l.foldl f d).stores = d.stores :=
  List.foldlRecOn (motive := fun x : Dev => x.stores = d.stores) l f rfl fun x hx y _ => (h x y).trans hx

@[simp] theorem Dev.stores_advanceTo (d : Dev) (t : Nat) : (d.advanceTo t).stores = d.stores :=
  Dev.stores_ite rfl (Dev.stores_ite rfl rfl)

end Sys2Proof.Machine

/-! ## The scalar slot (R244, R278) and the timers of the host port (R68, R73) -/

namespace Sys2Proof.Machine

/-- A halt stores nothing (R262). -/
@[simp] theorem Dev.stores_haltFloe (d : Dev) (n code : Nat) (pc : DevAddr) (slot : Nat) (disp : Bool) :
    (d.haltFloe n code pc slot disp).stores = d.stores := by
  unfold Dev.haltFloe
  dsimp only
  split
  · rfl
  · rw [Dev.stores_report, Dev.stores_setFloe]
  · rw [Dev.stores_report, Dev.stores_setFloe]
  · rfl

/-- A read of local store corrects nothing in it (R233). -/
@[simp] theorem Dev.stores_lsRead (d : Dev) (n off : Nat) : (d.lsRead n off).2.stores = d.stores := by
  unfold Dev.lsRead
  dsimp only
  split <;> split <;> simp

@[simp] theorem Dev.stores_recordRead (d : Dev) (n rec : Nat) : (d.recordRead n rec).2.stores = d.stores := by
  unfold Dev.recordRead
  split
  · rfl
  · dsimp only
    split <;> exact d.stores_lsRead n (8 * rec)

/-- The device that a scalar command leaves, whether it halts or goes on. -/
def ScalarOut.dev : ScalarOut → Dev
  | .halt _ d => d
  | .next d _ => d

theorem Dev.stores_qcfg (d : Dev) (n q rec : Nat) : (d.qcfg n q rec).dev.stores = d.stores := by
  have hread := d.stores_recordRead n rec
  unfold Dev.qcfg
  split
  · next heq => rwa [heq] at hread
  · next heq =>
    rw [heq] at hread
    dsimp only
    split
    · exact hread
    · split <;> exact hread

theorem Dev.stores_scalarExec (d : Dev) (n w : Nat) (pc : DevAddr) : (d.scalarExec n w pc).dev.stores = d.stores := by
  unfold Dev.scalarExec
  dsimp only
  split
  case h_15 => exact d.stores_qcfg n _ _
  case h_17 =>
    have hread := d.stores_recordRead n (bits w 17 0)
    split
    · next heq => rwa [heq] at hread
    · next heq => rwa [heq] at hread
  all_goals rfl

/-- A scalar command changes its floe at most, and counters and the log (R244, R278). -/
theorem Dev.stores_scalarRow (d : Dev) (n w : Nat) : (d.scalarRow n w).stores = d.stores := by
  have hexec := d.stores_scalarExec n w (d.floe n).pc
  unfold Dev.scalarRow
  dsimp only
  refine Dev.stores_ite rfl (Dev.stores_ite (Dev.stores_haltFloe ..) (Dev.stores_ite (Dev.stores_count ..) ?_))
  split
  · next heq =>
    rw [heq] at hexec
    rwa [Dev.stores_haltFloe]
  · next heq =>
    rw [heq] at hexec
    split <;> exact hexec

theorem Dev.stores_hostAckRow (d : Dev) (c : Nat) : (d.hostAckRow c).stores = d.stores := by
  unfold Dev.hostAckRow
  dsimp only
  split
  · rfl
  · rw [Dev.stores_updHost]
    split
    · rfl
    · exact d.stores_advanceTo _

theorem Dev.stores_hostCreditRow (d : Dev) (c : Nat) : (d.hostCreditRow c).stores = d.stores :=
  Dev.stores_ite rfl rfl

end Sys2Proof.Machine

/-! ## The TAP (R457, R458, R552 to R556) and the sideband (R499, R500) -/

namespace Sys2Proof.Machine

@[simp] theorem Dev.stores_updTap (d : Dev) (f : Tap → Tap) : (d.updTap f).stores = d.stores := d.stores_sys _
@[simp] theorem Dev.stores_tapScan (d : Dev) (ir captured width : Nat) : (d.tapScan ir captured width).stores = d.stores :=
  d.stores_sys _
@[simp] theorem Dev.stores_tapBypass (d : Dev) (ir : Nat) (tdi : Bool) : (d.tapBypass ir tdi).stores = d.stores := d.stores_sys _
@[simp] theorem Dev.stores_tapClose (d : Dev) : d.tapClose.stores = d.stores := Dev.stores_sys _ _

theorem Dev.stores_tapRow {d : Dev} {act : Dev → Dev} (ir : Nat) (h : (act d).stores = d.stores) :
    (d.tapRow ir act).stores = d.stores :=
  Dev.stores_ite rfl (Dev.stores_ite h rfl)

theorem Dev.stores_tapIdcode (d : Dev) : d.tapIdcode.stores = d.stores := Dev.stores_tapRow 0x01 (d.stores_tapScan ..)
theorem Dev.stores_tapReset (d : Dev) : d.tapReset.stores = d.stores := d.stores_updTap _
theorem Dev.stores_tapChal (d : Dev) (nonce : BitVec 256) : (d.tapChal nonce).stores = d.stores :=
  Dev.stores_tapRow 0x10 (Dev.stores_updTap _ _)
theorem Dev.stores_tapCloseRow (d : Dev) : d.tapCloseRow.stores = d.stores := Dev.stores_tapRow 0x12 (Dev.stores_tapClose _)
theorem Dev.stores_tapStack (d : Dev) (dies : BitVec 17) : (d.tapStack dies).stores = d.stores :=
  Dev.stores_tapRow 0x40 (Dev.stores_updTap _ _)

theorem Dev.stores_tapBoundary (d : Dev) (ir : Nat) (levels : BitVec 2671) (shifted : BitVec 5342) :
    (d.tapBoundary ir levels shifted).stores = d.stores :=
  Dev.stores_tapRow ir (Dev.stores_updTap _ _)

theorem Dev.stores_tapBypassRow (d : Dev) (code : Nat) (tdi : Bool) : (d.tapBypassRow code tdi).stores = d.stores :=
  Dev.stores_ite rfl (d.stores_tapBypass ..)

theorem Dev.stores_tapWrapIr (d : Dev) (codes : List (BitVec 8)) : (d.tapWrapIr codes).stores = d.stores :=
  Dev.stores_tapRow 0x41 (Dev.stores_ite rfl (Dev.stores_updTap _ _))

theorem Dev.stores_unlockFails (d : Dev) (level : Nat) : (d.unlockFails level).stores = d.stores := by
  unfold Dev.unlockFails
  dsimp only
  split <;> simp

theorem Dev.stores_tapUnlock (d : Dev) (resp : BitVec 776) : (d.tapUnlock resp).stores = d.stores :=
  Dev.stores_tapRow 0x11 (Dev.stores_ite (by simp) (Dev.stores_unlockFails _ _))

theorem Dev.stores_tapWrapDr (d : Dev) (cells : List Bool) : (d.tapWrapDr cells).stores = d.stores := by
  refine Dev.stores_tapRow 0x42 (Dev.stores_ite rfl ?_)
  rw [Dev.stores_updTap, Dev.stores_tapScan]
  exact Dev.stores_ite rfl rfl

theorem Dev.stores_updSb (d : Dev) (f : Sideband → Sideband) : (d.updSb f).stores = d.stores := d.stores_sys _
theorem Dev.stores_sbEnd (d : Dev) (status : Nat) : (d.sbEnd status).stores = d.stores := d.stores_updSb _

theorem Dev.stores_sbSetAddrRow (d : Dev) (bytes : List (BitVec 8)) (pecOk : Bool) : (d.sbSetAddrRow bytes pecOk).stores = d.stores :=
  Dev.stores_ite rfl (Dev.stores_ite (d.stores_sbEnd 4) (Dev.stores_ite (d.stores_sbEnd 1) (Dev.stores_ite (d.stores_sbEnd 4)
    ((Dev.stores_sbEnd _ 0).trans (d.stores_updSb _)))))

theorem Dev.stores_sbStatusRow (d : Dev) : d.sbStatusRow.stores = d.stores := Dev.stores_ite rfl (d.stores_updSb _)
theorem Dev.stores_sbTimeoutRow (d : Dev) : d.sbTimeoutRow.stores = d.stores := Dev.stores_ite rfl (d.stores_updSb _)

end Sys2Proof.Machine

/-! ## Sensors, power, clocks and monitors (R507, R512 to R519, R523) -/

namespace Sys2Proof.Machine

@[simp] theorem Dev.stores_thmReport (d : Dev) (code sev ukind info : Nat) : (d.thmReport code sev ukind info).stores = d.stores := by
  unfold Dev.thmReport
  dsimp only
  split <;> simp

@[simp] theorem Dev.stores_sensorBad (d : Dev) (i : Nat) : (d.sensorBad i).stores = d.stores := by
  unfold Dev.sensorBad
  dsimp only
  split <;> simp

@[simp] theorem Dev.stores_sensorRead (d : Dev) (i : Nat) (v : BitVec 12) : (d.sensorRead i v).stores = d.stores := by
  unfold Dev.sensorRead
  dsimp only
  split
  · exact d.stores_sensorBad i
  · split
    · split <;> rfl
    · rfl

/-- A die's conversion writes its register and reports what has changed (R515 to R517). -/
@[simp] theorem Dev.stores_dieConvert (d : Dev) (i : Nat) : (d.dieConvert i).stores = d.stores := by
  simp only [Dev.dieConvert, apply_ite Dev.stores, Dev.stores_setRegFld, Dev.stores_setRegBit, Dev.stores_thmReport, ite_self]

@[simp] theorem Dev.stores_factors (d : Dev) : d.factors.stores = d.stores := by
  have hdies : (forNat 16 d Dev.dieConvert).stores = d.stores := Dev.stores_foldl Dev.stores_dieConvert _ d
  simp only [Dev.factors, apply_ite Dev.stores, Dev.stores_setRegFld, Dev.stores_thmReport, ite_self, hdies]

@[simp] theorem Dev.stores_foldl_sensorRead (d : Dev) (k : Nat) (l : List (BitVec 12 × Nat)) :
    (l.foldl (fun d p => d.sensorRead (k + p.2) p.1) d).stores = d.stores :=
  Dev.stores_foldl (fun d p => by rw [Dev.stores_sensorRead]) l d

theorem Dev.stores_sensorConversion (d : Dev) (dram base : List (BitVec 12)) : (d.sensorConversion dram base).stores = d.stores := by
  have hdram := d.stores_foldl_sensorRead 0 (dram.take 16).zipIdx
  simp only [Nat.zero_add] at hdram
  simp only [Dev.sensorConversion, apply_ite Dev.stores, Dev.stores_factors, Dev.stores_sys, ite_self, Dev.stores_foldl_sensorRead,
    hdram]

theorem Dev.stores_sensorTimeout (d : Dev) (i : Nat) : (d.sensorTimeout i).stores = d.stores :=
  Dev.stores_ite (d.stores_sensorBad i) rfl

theorem Dev.stores_powerAdjust (d : Dev) (avg peak : Nat) : (d.powerAdjust avg peak).stores = d.stores :=
  Dev.stores_ite rfl (Dev.stores_sys _ _)

theorem Dev.stores_powerOver (d : Dev) : d.powerOver.stores = d.stores :=
  Dev.stores_ite (Dev.stores_thmReport ..) rfl

theorem Dev.stores_senseFail (d : Dev) (p : Nat) : (d.senseFail p).stores = d.stores :=
  Dev.stores_ite rfl ((Dev.stores_thmReport ..).trans (Dev.stores_ite rfl rfl))

theorem Dev.stores_monEnd (d : Dev) (counts : List (BitVec 20)) : (d.monEnd counts).stores = d.stores :=
  Dev.stores_ite rfl (Dev.stores_foldl (f := fun (d : Dev) (p : BitVec 20 × Nat) => d.setReg (rMonProc p.2) (p.1.zeroExtend 32))
    (fun _ _ => rfl) _ d)

theorem Dev.stores_pllUnlock (d : Dev) (pll : Nat) : (d.pllUnlock pll).stores = d.stores :=
  Dev.stores_ite rfl (Dev.stores_ite (Dev.stores_thmReport ..) rfl)

end Sys2Proof.Machine

namespace Sys2Proof.Proofs

open Sys2Proof.Machine

/-- A command that leaves what the device stores runs, and leaves each part of it. -/
theorem runs_of_stores {i : Instr} {s : State} (f : Dev → Dev) (h : exec i s = s.does f) (hf : (f s.dev).stores = s.dev.stores) :
    Runs i s fun d => d.dram = s.dev.dram ∧ d.ls = s.dev.ls ∧ d.flash = s.dev.flash ∧ d.fuses = s.dev.fuses ∧ d.chans = s.dev.chans ∧
      d.rings = s.dev.rings ∧ d.cmds = s.dev.cmds ∧ d.sems = s.dev.sems := by
  simp only [Dev.stores, Prod.mk.injEq] at hf
  exact runs_of i s _ f h hf

/-- The same for a command that needs the clocks. -/
theorem runs_of_stores_live {i : Instr} {s : State} (f : Dev → Dev) (h : exec i s = s.does fun d => d.inService f)
    (hf : (f s.dev).stores = s.dev.stores) :
    Runs i s fun d => d.dram = s.dev.dram ∧ d.ls = s.dev.ls ∧ d.flash = s.dev.flash ∧ d.fuses = s.dev.fuses ∧ d.chans = s.dev.chans ∧
      d.rings = s.dev.rings ∧ d.cmds = s.dev.cmds ∧ d.sems = s.dev.sems :=
  runs_of_stores _ h (Dev.stores_ite hf rfl)

theorem runs_scalar {i : Instr} {s : State} {n w : Nat} (h : exec i s = s.does fun d => d.inService fun d => d.scalarRow n w) :
    Runs i s fun d => d.dram = s.dev.dram ∧ d.ls = s.dev.ls ∧ d.flash = s.dev.flash ∧ d.fuses = s.dev.fuses ∧ d.chans = s.dev.chans ∧
      d.rings = s.dev.rings ∧ d.cmds = s.dev.cmds ∧ d.sems = s.dev.sems :=
  runs_of_stores_live _ h (s.dev.stores_scalarRow n w)

/-- Settles O55: the commands of the scalar slot share one effect, and the others leave what the device stores one by one. -/
theorem commandsThatStoreNothing : Obligations.CommandsThatStoreNothing := by
  unfold Obligations.CommandsThatStoreNothing
  intro s n a b imm p sh k byReg off q rec c levels shifted code tdi nonce resp dies codes bytes cells dram base i w counts pll ph
  simp only [List.forall_mem_cons, List.not_mem_nil, false_imp_iff, implies_true, and_true]
  refine ⟨runs_scalar rfl, runs_scalar rfl, runs_scalar rfl, runs_scalar rfl, runs_scalar rfl, runs_scalar rfl, runs_scalar rfl,
    runs_scalar rfl, runs_scalar rfl, runs_scalar rfl, runs_scalar rfl, runs_scalar rfl, runs_scalar rfl, runs_scalar rfl,
    runs_scalar rfl, runs_scalar rfl, runs_scalar rfl, runs_scalar rfl, runs_scalar rfl, ?_⟩
  refine ⟨runs_of_stores_live (fun d => d.hostAckRow c) rfl (Dev.stores_hostAckRow _ _),
    runs_of_stores_live (fun d => d.hostCreditRow c) rfl (Dev.stores_hostCreditRow _ _),
    runs_of_stores (fun d => d.tapIdcode) rfl (Dev.stores_tapIdcode _),
    runs_of_stores (fun d => d.tapBoundary 0x02 levels shifted) rfl (Dev.stores_tapBoundary _ _ _ _),
    runs_of_stores (fun d => d.tapBoundary 0x03 levels shifted) rfl (Dev.stores_tapBoundary _ _ _ _),
    runs_of_stores (fun d => d.tapBypassRow code.toNat tdi) rfl (Dev.stores_tapBypassRow _ _ _),
    runs_of_stores (fun d => d.tapReset) rfl (Dev.stores_tapReset _),
    runs_of_stores (fun d => d.tapChal nonce) rfl (Dev.stores_tapChal _ _),
    runs_of_stores (fun d => d.tapUnlock resp) rfl (Dev.stores_tapUnlock _ _),
    runs_of_stores (fun d => d.tapCloseRow) rfl (Dev.stores_tapCloseRow _),
    runs_of_stores (fun d => d.tapStack dies) rfl (Dev.stores_tapStack _ _),
    runs_of_stores (fun d => d.tapWrapIr codes) rfl (Dev.stores_tapWrapIr _ _),
    runs_of_stores (fun d => d.tapWrapDr cells) rfl (Dev.stores_tapWrapDr _ _),
    runs_of_stores (fun d => d.sbSetAddrRow bytes tdi) rfl (Dev.stores_sbSetAddrRow _ _ _),
    runs_of_stores (fun d => d.sbStatusRow) rfl (Dev.stores_sbStatusRow _),
    runs_of_stores (fun d => d) rfl rfl,
    runs_of_stores (fun d => d.sbTimeoutRow) rfl (Dev.stores_sbTimeoutRow _),
    runs_of_stores (fun d => d.sensorConversion dram base) rfl (Dev.stores_sensorConversion _ _ _),
    runs_of_stores (fun d => d.sensorTimeout i) rfl (Dev.stores_sensorTimeout _ _),
    runs_of_stores (fun d => d.powerAdjust w.toNat imm.toNat) rfl (Dev.stores_powerAdjust _ _ _),
    runs_of_stores (fun d => d.powerOver) rfl (Dev.stores_powerOver _),
    runs_of_stores (fun d => d.senseFail ph) rfl (Dev.stores_senseFail _ _),
    runs_of_stores (fun d => d.monEnd counts) rfl (Dev.stores_monEnd _ _),
    runs_of_stores (fun d => d.pllUnlock pll) rfl (Dev.stores_pllUnlock _ _)⟩

end Sys2Proof.Proofs

/-! Proofs of the statements about the host port (R56 to R86). -/

/-! ## Host channels, counters and registers under the named updates -/

namespace Sys2Proof.Machine

@[simp] theorem Dev.host_updHost (d : Dev) (c k : Nat) (f : HostPort → HostPort) :
    (d.updHost c f).host k = if k = c then f (d.host c) else d.host k :=
  d.host_setHost c k _

@[simp] theorem Dev.reg_updHost (d : Dev) (c o : Nat) (f : HostPort → HostPort) : (d.updHost c f).reg o = d.reg o := rfl
@[simp] theorem Dev.dram_updHost (d : Dev) (c : Nat) (f : HostPort → HostPort) : (d.updHost c f).dram = d.dram := rfl
@[simp] theorem Dev.chans_updHost (d : Dev) (c : Nat) (f : HostPort → HostPort) : (d.updHost c f).chans = d.chans := rfl
@[simp] theorem Dev.chan_updHost (d : Dev) (c k : Nat) (f : HostPort → HostPort) : (d.updHost c f).chan k = d.chan k := rfl
@[simp] theorem Dev.clock_updHost (d : Dev) (c : Nat) (f : HostPort → HostPort) : (d.updHost c f).clock = d.clock := rfl
@[simp] theorem Dev.host_setRegBit (d : Dev) (o n k : Nat) (b : Bool) : (d.setRegBit o n b).host k = d.host k := rfl
@[simp] theorem Dev.dram_setRegBit (d : Dev) (o n : Nat) (b : Bool) : (d.setRegBit o n b).dram = d.dram := rfl
@[simp] theorem Dev.chans_setRegBit (d : Dev) (o n : Nat) (b : Bool) : (d.setRegBit o n b).chans = d.chans := rfl
@[simp] theorem Dev.clock_setRegBit (d : Dev) (o n : Nat) (b : Bool) : (d.setRegBit o n b).clock = d.clock := rfl
@[simp] theorem Dev.host_count (d : Dev) (o n k : Nat) : (d.count o n).host k = d.host k := rfl
@[simp] theorem Dev.dram_count (d : Dev) (o n : Nat) : (d.count o n).dram = d.dram := rfl
@[simp] theorem Dev.chans_count (d : Dev) (o n : Nat) : (d.count o n).chans = d.chans := rfl
@[simp] theorem Dev.clock_count (d : Dev) (o n : Nat) : (d.count o n).clock = d.clock := rfl

theorem Dev.rbit_setRegBit_same (d : Dev) (o : Nat) {n : Nat} (b : Bool) (hn : n < 32) : rbit ((d.setRegBit o n b).reg o) n = b := by
  rw [Dev.rbit_setRegBit _ _ _ _ _ hn, if_pos rfl]

/-- A 64-bit quantity reads as it was written (R9). -/
theorem Dev.reg64_setReg64 (d : Dev) (o : Nat) (v : BitVec 64) : (d.setReg64 o v).reg64 o = v := by
  rw [Dev.reg64, Dev.setReg64, Dev.reg_setReg, Dev.reg_setReg, Dev.reg_setReg, if_neg (by omega), if_pos rfl, if_pos rfl]
  refine BitVec.eq_of_toNat_eq ?_
  have hv := v.isLt
  simp only [BitVec.truncate_eq_setWidth, BitVec.toNat_ofNat, BitVec.toNat_setWidth, BitVec.toNat_ushiftRight, Nat.shiftRight_eq_div_pow]
  omega

theorem Dev.reg64_count (d : Dev) (o n : Nat) : (d.count o n).reg64 o = d.reg64 o + BitVec.ofNat 64 n :=
  d.reg64_setReg64 o _

theorem Dev.reg_count_ne (d : Dev) {o p : Nat} (n : Nat) (hlow : p ≠ o) (hhigh : p ≠ o + 4) : (d.count o n).reg p = d.reg p := by
  rw [Dev.count, Dev.setReg64, Dev.reg_setReg, if_neg hhigh, Dev.reg_setReg, if_neg hlow]

theorem Dev.reg64_congr {d e : Dev} {o : Nat} (hlow : e.reg o = d.reg o) (hhigh : e.reg (o + 4) = d.reg (o + 4)) :
    e.reg64 o = d.reg64 o := by
  rw [Dev.reg64, hlow, hhigh, Dev.reg64]

end Sys2Proof.Machine

/-! ## Beats (R60, R64, R67, R73) -/

namespace Sys2Proof.Machine

open Sys2Proof.Claims

/-- A host channel without what sending beats changes. -/
def HostPort.core (h : HostPort) : HostPort := { h with held := [], nextRseq := 0, outq := [], tags := [] }

theorem HostPort.core_drain (h : HostPort) (n : Nat) : (h.drain n).core = h.core := by
  obtain ⟨k, r, q, t, he, -⟩ := HostPort.drain_frame n h
  rw [he]
  rfl

theorem HostPort.core_send (h : HostPort) (i : BitVec 16) (x : Line) (c0 : Bool) : (h.send i x c0).core = h.core := by
  unfold HostPort.send
  dsimp only
  split
  · rfl
  · split
    · rw [HostPort.core_drain]
      rfl
    · rfl

section Send

variable (h : HostPort) (i : BitVec 16) (x : Line) (c0 : Bool)

@[simp] theorem HostPort.expSeq_send : (h.send i x c0).expSeq = h.expSeq := (congrArg HostPort.expSeq (h.core_send i x c0) :)
@[simp] theorem HostPort.rqUsed_send : (h.send i x c0).rqUsed = h.rqUsed := (congrArg HostPort.rqUsed (h.core_send i x c0) :)
@[simp] theorem HostPort.wdUsed_send : (h.send i x c0).wdUsed = h.wdUsed := (congrArg HostPort.wdUsed (h.core_send i x c0) :)
@[simp] theorem HostPort.unacked_send : (h.send i x c0).unacked = h.unacked := (congrArg HostPort.unacked (h.core_send i x c0) :)
@[simp] theorem HostPort.rqGiven_send : (h.send i x c0).rqGiven = h.rqGiven := (congrArg HostPort.rqGiven (h.core_send i x c0) :)
@[simp] theorem HostPort.wdGiven_send : (h.send i x c0).wdGiven = h.wdGiven := (congrArg HostPort.wdGiven (h.core_send i x c0) :)
@[simp] theorem HostPort.rqFreed_send : (h.send i x c0).rqFreed = h.rqFreed := (congrArg HostPort.rqFreed (h.core_send i x c0) :)
@[simp] theorem HostPort.wdFreed_send : (h.send i x c0).wdFreed = h.wdFreed := (congrArg HostPort.wdFreed (h.core_send i x c0) :)
@[simp] theorem HostPort.askTrain_send : (h.send i x c0).askTrain = h.askTrain := (congrArg HostPort.askTrain (h.core_send i x c0) :)
@[simp] theorem HostPort.down_send : (h.send i x c0).down = h.down := (congrArg HostPort.down (h.core_send i x c0) :)

end Send

theorem HostPort.beats_drain (h : HostPort) (n : Nat) : (h.drain n).beats = h.beats := by
  obtain ⟨_, _, _, _, -, hb⟩ := HostPort.drain_frame n h
  exact hb

/-- A beat queued behind those that wait, or where none waits, is the last of the channel's beats. -/
theorem HostPort.beats_send (h : HostPort) (i : BitVec 16) (x : Line) (c0 : Bool) (hdown : h.down = false)
    (hlast : h.outq = [] ∨ c0 = false) : (h.send i x c0).beats = h.beats ++ [(i, x)] := by
  cases c0 with
  | false =>
    obtain ⟨_, _, _, _, -, hb⟩ := h.send_frame i x
    rw [hb, hdown, if_neg Bool.false_ne_true]
  | true =>
    have hempty := hlast.resolve_right Bool.noConfusion
    unfold HostPort.send
    simp only [hdown, hempty, Bool.false_eq_true, if_false, if_true, List.takeWhile_nil, List.dropWhile_nil, List.nil_append,
      List.length_singleton]
    split
    · rw [HostPort.beats_drain]
      simp [HostPort.beats, hempty]
    · simp [HostPort.beats, hempty]

/-- A link beat acknowledges every accepted frame and returns every freed credit. -/
theorem HostPort.core_linkBeat (h : HostPort) (nak : Bool) : (h.linkBeat nak).core = ({ h.grant with unacked := 0 } : HostPort).core :=
  HostPort.core_send ..

theorem HostPort.beats_linkBeat (h : HostPort) (nak : Bool) (hdown : h.down = false) :
    (h.linkBeat nak).beats = h.beats ++ [linkBeatOf h nak h.askTrain] :=
  HostPort.beats_send _ _ _ false hdown (.inr rfl)

section LinkBeat

variable (h : HostPort) (nak : Bool)

@[simp] theorem HostPort.unacked_linkBeat : (h.linkBeat nak).unacked = 0 := (congrArg HostPort.unacked (h.core_linkBeat nak) :)
@[simp] theorem HostPort.expSeq_linkBeat : (h.linkBeat nak).expSeq = h.expSeq := (congrArg HostPort.expSeq (h.core_linkBeat nak) :)
@[simp] theorem HostPort.askTrain_linkBeat : (h.linkBeat nak).askTrain = h.askTrain := (congrArg HostPort.askTrain (h.core_linkBeat nak) :)
@[simp] theorem HostPort.rqFreed_linkBeat : (h.linkBeat nak).rqFreed = 0 := (congrArg HostPort.rqFreed (h.core_linkBeat nak) :)
@[simp] theorem HostPort.wdFreed_linkBeat : (h.linkBeat nak).wdFreed = 0 := (congrArg HostPort.wdFreed (h.core_linkBeat nak) :)

@[simp] theorem HostPort.rqGiven_linkBeat : (h.linkBeat nak).rqGiven = h.rqGiven + BitVec.ofNat 16 h.rqFreed :=
  (congrArg HostPort.rqGiven (h.core_linkBeat nak) :)

@[simp] theorem HostPort.wdGiven_linkBeat : (h.linkBeat nak).wdGiven = h.wdGiven + BitVec.ofNat 16 h.wdFreed :=
  (congrArg HostPort.wdGiven (h.core_linkBeat nak) :)

end LinkBeat

/-- Closing a replay touches the channel's pauses only (R72, R116). -/
theorem HostPort.resume_frame (h : HostPort) (t : Nat) : ∃ p q, h.resume t = { h with pauses := p, pauseFrom := q } := by
  unfold HostPort.resume
  split
  · exact ⟨_, _, rfl⟩
  · split <;> exact ⟨_, _, rfl⟩

end Sys2Proof.Machine

/-! ## Timers, credits and read data (R61, R68, R73, R143) -/

namespace Sys2Proof.Machine

open Sys2Proof.Claims

theorem Dev.host_advanceTo (d : Dev) (t c : Nat) : (d.advanceTo t).host c = d.host c := (StartFrame.advanceTo d t).host c

theorem Dev.le_clock_advanceTo (d : Dev) (t : Nat) : t ≤ (d.advanceTo t).clock := by
  unfold Dev.advanceTo
  split
  · assumption
  · split <;> exact le_refl t

/-- The acknowledgement timer sends a link beat, from a clock that has reached the timer's end or with 32 frames unacknowledged. -/
theorem Dev.hostAckRow_eq (d : Dev) (c : Nat) (hup : (d.host c).up = true) (hsome : (d.host c).unacked ≠ 0) :
    ∃ e : Dev, d.hostAckRow c = e.updHost c (fun h => h.linkBeat false) ∧ e.host c = d.host c ∧
      ((d.host c).unacked < 32 → (d.host c).unackedSince + 80 ≤ e.clock) := by
  refine ⟨_, if_neg (by simp [hup, hsome]), ?_⟩
  split
  · next h => exact ⟨rfl, fun hlt => absurd h (by omega)⟩
  · exact ⟨d.host_advanceTo _ c, fun _ => d.le_clock_advanceTo _⟩

theorem Dev.hostCreditRow_eq (d : Dev) (c : Nat) (hup : (d.host c).up = true) (hfreed : (d.host c).rqFreed ≠ 0 ∨ (d.host c).wdFreed ≠ 0) :
    d.hostCreditRow c = d.updHost c (fun h => h.linkBeat false) :=
  if_neg (by
    rw [hup]
    simpa [← not_or, imp_iff_not_or] using hfreed)

/-- The beat that carries a ready word of a host read (R60, R61). -/
def readBeat (t : HostTag) (r : ReadyWord) : BitVec 16 × Line :=
  (BitVec.ofNat 16 (t.tag.toNat * 4 + r.index.toNat * 2 ^ 11 + (if r.poison then 2 ^ 13 else 0)), r.data)

/-- The best ready word leaves its channel and goes out on its host channel. -/
theorem Dev.readReturn_spec (d : Dev) (k i : Nat) (r : ReadyWord) (t : HostTag) (hready : nextReady (d.chan k).readyQ = some (i, r))
    (horigin : r.origin = .host t) :
    ((d.readReturn k).chan k).readyQ = dropAt (d.chan k).readyQ i ∧
      (d.readReturn k).host t.ch.val = (d.host t.ch.val).send (readBeat t r).1 (readBeat t r).2 (r.cls == 0) := by
  have hread : ∃ e : Dev, (e.chan k).readyQ = dropAt (d.chan k).readyQ i ∧
      e.host t.ch.val = (d.host t.ch.val).send (readBeat t r).1 (readBeat t r).2 (r.cls == 0) ∧
      (d.readReturn k = e ∨ ∃ o v, d.readReturn k = e.setReg o v) := by
    refine ⟨(d.updChan k fun ch => { ch with readyQ := dropAt ch.readyQ i }).updHost t.ch.val fun h =>
      h.send (readBeat t r).1 (readBeat t r).2 (r.cls == 0), ?_, ?_, ?_⟩
    · simp [Dev.updChan]
    · simp [Dev.updChan]
    · unfold Dev.readReturn
      rw [hready]
      simp only [horigin]
      exact (ite_eq_or_eq _ _ _).symm.imp id fun h => ⟨_, _, h⟩
  obtain ⟨e, hchan, hhost, heq | ⟨o, v, heq⟩⟩ := hread <;> rw [heq]
  · exact ⟨hchan, hhost⟩
  · exact ⟨hchan, hhost⟩

end Sys2Proof.Machine

namespace Sys2Proof.Proofs

open Sys2Proof.Machine Sys2Proof.Claims

/-- Settles O4: the timer and the credit return are one link beat each; the read's word is one beat sent. -/
theorem hostBeatsGoOut : Obligations.HostBeatsGoOut := by
  unfold Obligations.HostBeatsGoOut
  intro s c hlive hup hdown h
  refine ⟨fun hsome => ?_, fun hfreed => ?_, fun k i r t hready horigin hch hlast => ?_⟩
  · obtain ⟨e, heq, hhost, hclock⟩ := s.dev.hostAckRow_eq c hup hsome
    refine runs_live _ s _ (fun d => d.hostAckRow c) rfl hlive ?_
    rw [heq]
    simp only [Dev.host_settle, Dev.host_updHost, if_true, hhost, HostPort.unacked_linkBeat, Dev.settle_clock, Dev.clock_updHost]
    exact ⟨trivial, HostPort.beats_linkBeat _ false hdown, hclock⟩
  · refine runs_live _ s _ (fun d => d.hostCreditRow c) rfl hlive ?_
    rw [s.dev.hostCreditRow_eq c hup hfreed]
    simp only [Dev.host_settle, Dev.host_updHost, if_true, HostPort.rqFreed_linkBeat, HostPort.wdFreed_linkBeat,
      HostPort.rqGiven_linkBeat, HostPort.wdGiven_linkBeat]
    exact ⟨trivial, trivial, rfl, rfl, HostPort.beats_linkBeat _ false hdown⟩
  · subst hch
    obtain ⟨hchan, hhost⟩ := s.dev.readReturn_spec k i r t hready horigin
    refine runs_live _ s _ (fun d => d.readReturn k) rfl hlive ⟨hchan, ?_⟩
    rw [Dev.host_settle, hhost]
    exact HostPort.beats_send _ _ _ _ hdown (hlast.imp_right fun hcls => by simpa using hcls)

end Sys2Proof.Proofs

/-! Proofs of the statement about the frames that a host channel accepts and that enter the memory (R68, R73, R78, R139). -/

/-! ## Acceptance (R68, R73) -/

namespace Sys2Proof.Machine

open Sys2Proof.Claims

/-- A host channel that accepts a frame with so many words of write data. -/
def HostPort.accept (h : HostPort) (words clock : Nat) : HostPort :=
  ({ h with
    expSeq := h.expSeq + 1, unacked := h.unacked + 1
    unackedSince := if h.unacked = 0 then clock else h.unackedSince
    rqUsed := h.rqUsed + 1, wdUsed := h.wdUsed + BitVec.ofNat 16 words, rounds := 0 } : HostPort).resume clock

theorem Dev.acceptFrame_eq (exec : Dev → Nat → FrameIn → Dev) (d : Dev) (c : Nat) (f : FrameIn) :
    d.acceptFrame exec c f = exec (d.setHost c ((d.host c).accept (frameF f.body).words d.clock)) c f := rfl

/-- A frame has been accepted and not yet executed: nothing but its host channel has changed, whose beats and read tags stand. -/
structure FrameTaken (d a : Dev) (c : Nat) (f : FrameIn) : Prop where
  accepted : Accepted d a c f
  hosts    : ∃ hs, a = { d with hosts := hs }
  others   : ∀ k, k ≠ c → a.host k = d.host k
  waiting  : (a.host c).waiting = none
  beats    : (a.host c).beats = (d.host c).beats
  tags     : (a.host c).tags = (d.host c).tags
  down     : (a.host c).down = (d.host c).down

theorem HostPort.accept_frame (h : HostPort) (words clock : Nat) : ∃ s p q, h.accept words clock =
    { h with expSeq := h.expSeq + 1, unacked := h.unacked + 1, unackedSince := s, rqUsed := h.rqUsed + 1
             wdUsed := h.wdUsed + BitVec.ofNat 16 words, rounds := 0, pauses := p, pauseFrom := q } := by
  obtain ⟨p, q, hresume⟩ := HostPort.resume_frame { h with
    expSeq := h.expSeq + 1, unacked := h.unacked + 1
    unackedSince := if h.unacked = 0 then clock else h.unackedSince
    rqUsed := h.rqUsed + 1, wdUsed := h.wdUsed + BitVec.ofNat 16 words, rounds := 0 } clock
  exact ⟨_, p, q, hresume⟩

/-- What the effect of an accepted frame starts from, where the host channel has just been written. -/
theorem Dev.acceptFrame_setHost (exec : Dev → Nat → FrameIn → Dev) (d : Dev) (c : Nat) (f : FrameIn) (h : HostPort) :
    ∃ a, (d.setHost c h).acceptFrame exec c f = exec a c f ∧ a.host c = h.accept (frameF f.body).words d.clock ∧
      (∃ hs, a = { d with hosts := hs }) ∧ ∀ k, k ≠ c → a.host k = d.host k := by
  refine ⟨_, Dev.acceptFrame_eq .., ?_, ⟨_, rfl⟩, fun k hk => ?_⟩
  · rw [Dev.host_setHost, if_pos rfl, Dev.host_setHost, if_pos rfl, Dev.setHost_clock]
  · rw [Dev.host_setHost, if_neg hk, Dev.host_setHost, if_neg hk]

/-- Acceptance on a channel whose error, waiting frame and frames behind it have been set aside. -/
theorem Dev.acceptFrame_taken (exec : Dev → Nat → FrameIn → Dev) (d : Dev) (c : Nat) (f : FrameIn) (e : Bool) (b : List FrameIn) :
    ∃ a, (d.setHost c { d.host c with inError := e, waiting := none, behind := b }).acceptFrame exec c f = exec a c f ∧
      FrameTaken d a c f ∧ (a.host c).inError = e := by
  obtain ⟨a, heq, hhost, hhosts, hothers⟩ :=
    d.acceptFrame_setHost exec c f { d.host c with inError := e, waiting := none, behind := b }
  obtain ⟨s, p, q, haccept⟩ :=
    HostPort.accept_frame { d.host c with inError := e, waiting := none, behind := b } (frameF f.body).words d.clock
  rw [haccept] at hhost
  have haccepted : Accepted d a c f := by
    rw [Accepted, hhost]
    exact ⟨rfl, rfl, rfl, rfl⟩
  refine ⟨a, heq, ⟨haccepted, hhosts, hothers, ?_, ?_, ?_, ?_⟩, ?_⟩
  all_goals rw [hhost]
  rfl

/-- The next frame in sequence is accepted and executed (R68). -/
theorem Dev.onFrame_next (exec : Dev → Nat → FrameIn → Dev) {d : Dev} {c : Nat} {f : FrameIn} (h : NextFrame d c f)
    (hseq : (frameF f.body).sequenced = true) :
    ∃ a, d.onFrame exec c f = exec a c f ∧ FrameTaken d a c f ∧ (a.host c).inError = false := by
  obtain ⟨-, hup, -, hwaiting, hcrc, hexp, hrq, hwd, hparts⟩ := h
  obtain ⟨a, ha, htaken⟩ := d.acceptFrame_taken exec c f false (d.host c).behind
  refine ⟨a, ?_, htaken⟩
  have hpos : ((d.host c).rqGiven - (d.host c).rqUsed).toNat ≠ 0 := fun h0 =>
    hrq (sub_eq_zero.1 (BitVec.eq_of_toNat_eq h0))
  have hcredit : ¬(((frameF f.body).seq - (d.host c).expSeq).toNat < 128 ∧
      (((d.host c).rqGiven - (d.host c).rqUsed).toNat ≤ ((frameF f.body).seq - (d.host c).expSeq).toNat ∨
        ((d.host c).wdGiven - (d.host c).wdUsed).toNat < (frameF f.body).words)) := by
    rw [hexp, BitVec.sub_self]
    simp only [BitVec.toNat_zero]
    omega
  have hset : ({ d.host c with inError := false } : HostPort) =
      { d.host c with inError := false, waiting := none, behind := (d.host c).behind } := by
    rw [← hwaiting]
  rw [Dev.onFrame, hup, if_neg (by decide), if_neg (by rw [hcrc]; exact fun h => h rfl), hseq, if_neg (by decide), hwaiting,
    if_neg (by decide), Dev.sequencedFrame, if_neg hcredit, if_pos (by rw [hexp, BitVec.sub_self]; rfl)]
  dsimp only
  rw [hparts, hset]
  exact ha

/-- The last beat of a waiting write, with no frame behind it, has the write accepted and executed (R68). -/
theorem Dev.onBeat_last (exec : Dev → Nat → FrameIn → Dev) {d : Dev} {c : Nat} {f : FrameIn} {b : HostBeat}
    (hup : (d.host c).up = true) (hwaiting : (d.host c).waiting = some f) (hbehind : (d.host c).behind = [])
    (hparts : ({ f with beats := f.beats ++ [b] } : FrameIn).partsOk = some true) :
    ∃ a, d.onBeat exec c b = exec a c { f with beats := f.beats ++ [b] } ∧
      FrameTaken d a c { f with beats := f.beats ++ [b] } := by
  obtain ⟨a, ha, htaken, -⟩ := d.acceptFrame_taken exec c { f with beats := f.beats ++ [b] } (d.host c).inError []
  refine ⟨a, ?_, htaken⟩
  rw [Dev.onBeat, hwaiting]
  dsimp only
  rw [if_neg (by rw [hup]; decide), hparts, hbehind]
  exact ha

end Sys2Proof.Machine

/-! ## Memory frames (R68, R78, R139) -/

namespace Sys2Proof.Machine

open Sys2Proof.Claims

theorem Dev.execFrame_memory (d : Dev) (c : Nat) (f : FrameIn) (hbad : badRequest (frameF f.body) = false)
    (haddr : (frameF f.body).addr < 2 ^ 36) (hstatus : d.memStatus c (frameF f.body) = 0) : d.execFrame c f = d.memIngress c f := by
  simp only [Dev.execFrame, hbad, Bool.false_eq_true, if_false, haddr, if_true, hstatus, ne_eq, not_true_eq_false]

/-- The checks of R78 read of the host ports nothing but the channel's read tags. -/
theorem FrameTaken.memStatus {d a : Dev} {c : Nat} {f : FrameIn} (h : FrameTaken d a c f) (x : FrameF) :
    a.memStatus c x = d.memStatus c x := by
  have hbusy : a.tagBusy c x = d.tagBusy c x := by rw [Dev.tagBusy, h.tags, Dev.tagBusy]
  obtain ⟨hs, rfl⟩ := h.hosts
  rw [Dev.memStatus, hbusy]
  rfl

/-- The request of an accepted memory frame (R68, R139). -/
def Dev.frameReq (d : Dev) (c : Nat) (f : FrameIn) : PortReq :=
  let x := frameF f.body
  { origin := .host (hostTag c x), write := x.isWrite, masked := x.op == 3, addr := BitVec.ofNat 36 x.addr
    len := x.len, cls := x.cls, field := d.hstField c x.srcid.toNat, secure := x.world, mask := f.mask
    data := f.words, poison := false, since := d.clock, words := (List.range (x.len.toNat + 1)).map fun i => d.wordOf (x.addr + 64 * i)
    arr := (d.chan (d.place x.addr).ch).nextId }

/-- The device once a memory frame has taken its channel's next arrival number, and a read its tag. -/
def Dev.takenIn (d : Dev) (c : Nat) (f : FrameIn) : Dev :=
  let x := frameF f.body
  let p := (d.place x.addr).ch
  let e := d.setChan p { d.chan p with nextId := (d.chan p).nextId + 1 }
  if x.op = 1 then e.updHost c fun h => { h with tags := h.tags ++ [(x.tag, x.len.toNat + 1)] } else e

theorem Dev.takenIn_spec (d : Dev) (c : Nat) (f : FrameIn) :
    let p := (d.place (frameF f.body).addr).ch
    let e := d.takenIn c f
    (e.chan p).hostIn = (d.chan p).hostIn ∧ (∀ k, k ≠ p → e.chan k = d.chan k) ∧ e.place = d.place ∧
      (∃ tags, e.host c = { d.host c with tags := tags }) ∧ (∀ k, k ≠ c → e.host k = d.host k) ∧
      ∃ cs hs, e = { d with chans := cs, hosts := hs } := by
  intro p e
  have hsplit : e = _ := Dev.takenIn.eq_def d c f
  dsimp only at hsplit
  split at hsplit <;> rw [hsplit]
  · refine ⟨by simp [p], fun k hk => by simp [hk, p], rfl, ⟨_, by simp; rfl⟩, fun k hk => by simp [hk], _, _, rfl⟩
  · refine ⟨by simp [p], fun k hk => by simp [hk, p], rfl, ⟨_, rfl⟩, fun k hk => rfl, _, _, rfl⟩

theorem Dev.memIngress_eq (d : Dev) (c : Nat) (f : FrameIn) (haddr : (frameF f.body).addr < 2 ^ 36) :
    d.memIngress c f = (d.takenIn c f).updChan ((d.takenIn c f).place (frameF f.body).addr).ch fun ch =>
      { ch with hostIn := ch.hostIn ++ [d.frameReq c f], idleFrom := none } := by
  have haddr' : (BitVec.ofNat 36 (frameF f.body).addr).toNat = (frameF f.body).addr := Nat.mod_eq_of_lt haddr
  simp only [Dev.memIngress, Dev.portReq, Dev.freshId, haddr', Dev.takenIn, Dev.frameReq]
  rfl

/-- Entering the ingress changes the frame's channel, and the read tags of its host channel. -/
theorem Dev.memIngress_spec (d : Dev) (c : Nat) (f : FrameIn) (haddr : (frameF f.body).addr < 2 ^ 36) :
    let p := (d.place (frameF f.body).addr).ch
    let d' := d.memIngress c f
    (d'.chan p).hostIn = (d.chan p).hostIn ++ [d.frameReq c f] ∧ (∀ k, k ≠ p → d'.chan k = d.chan k) ∧
      (∃ tags, d'.host c = { d.host c with tags := tags }) ∧ (∀ k, k ≠ c → d'.host k = d.host k) ∧
      ∃ cs hs, d' = { d with chans := cs, hosts := hs } := by
  intro p d'
  obtain ⟨hin, hchans, hplace, htags, hhosts, cs, hs, hframe⟩ := d.takenIn_spec c f
  have heq : d' = _ := d.memIngress_eq c f haddr
  rw [hplace, Dev.updChan] at heq
  rw [heq]
  refine ⟨?_, fun k hk => ?_, htags, hhosts, ?_⟩
  · rw [Dev.chan_setChan, if_pos rfl, hin]
  · rw [Dev.chan_setChan, if_neg hk, hchans k hk]
  · exact ⟨_, hs, by rw [hframe]; rfl⟩

/-- A memory frame executed right after its acceptance: its request waits in its channel, and nothing else has changed. -/
theorem FrameTaken.enters {d a : Dev} {c : Fin 32} {f : FrameIn} (h : FrameTaken d a c f) (hbad : badRequest (frameF f.body) = false)
    (haddr : (frameF f.body).addr < 2 ^ 36) (hstatus : d.memStatus c (frameF f.body) = 0) :
    Enters d (a.execFrame c f).settle c f ∧ ((a.execFrame c f).host c).inError = (a.host c).inError ∧
      ((a.execFrame c f).host c).waiting = none := by
  rw [a.execFrame_memory c f hbad haddr (h.memStatus _ ▸ hstatus)]
  obtain ⟨hin, hchans, ⟨tags, hhost⟩, hhosts, cs, hs, hframe⟩ := a.memIngress_spec c f haddr
  obtain ⟨haccepted, ⟨hs', rfl⟩, hothers, hwaiting, -⟩ := h
  rw [hhost]
  refine ⟨⟨?_, hin, hchans, fun k hk => (hhosts k hk).trans (hothers k hk), ?_⟩, rfl, hwaiting⟩
  · rw [Accepted, Dev.host_settle, hhost]
    exact haccepted
  · rw [hframe]
    rfl

/-- A memory frame that is next in sequence and passes its checks enters its channel (R68, R78, R139). -/
theorem Dev.frameRow_enters {d : Dev} {c : Fin 32} {f : FrameIn} {op : Nat} (hop : (frameF f.body).op = op) (hnext : NextFrame d c f)
    (hseq : (frameF f.body).sequenced = true) (hbad : badRequest (frameF f.body) = false) (haddr : (frameF f.body).addr < 2 ^ 36)
    (hstatus : d.memStatus c (frameF f.body) = 0) :
    Enters d (d.frameRow [op] c f).settle c f ∧ ((d.frameRow [op] c f).host c).inError = false := by
  obtain ⟨a, heq, htaken, herror⟩ := Dev.onFrame_next Dev.execFrame hnext hseq
  obtain ⟨henters, hinError, -⟩ := htaken.enters hbad haddr hstatus
  rw [Dev.frameRow, hnext.1, hop, if_pos (by simp), heq]
  exact ⟨henters, hinError.trans herror⟩

end Sys2Proof.Machine

namespace Sys2Proof.Proofs

open Sys2Proof.Machine Sys2Proof.Claims

/-- Settles O3: each frame is accepted, passes the checks of its acceptance, and is appended to its channel's ingress. -/
theorem hostFrameEntersMemory : Obligations.HostFrameEntersMemory := by
  unfold Obligations.HostFrameEntersMemory
  refine ⟨fun s c body crc mask maskCrc beats hbad haddr hstatus => ⟨fun hop hnext => ?_, fun hop hnext => ?_, fun hop hnext => ?_⟩,
    fun s c f b hlive hup hwaiting hbehind hparts hbad haddr hstatus => ?_⟩
  · have hseq : (frameF body).sequenced = true := by simp [FrameF.sequenced, hop]
    exact runs_of _ s _ (fun d => d.frameRow [1] c _) rfl (Dev.frameRow_enters hop hnext hseq hbad haddr hstatus)
  · have hseq : (frameF body).sequenced = true := by simp [FrameF.sequenced, hop]
    exact runs_of _ s _ (fun d => d.frameRow [2] c _) rfl (Dev.frameRow_enters hop hnext hseq hbad haddr hstatus)
  · have hseq : (frameF body).sequenced = true := by simp [FrameF.sequenced, hop]
    exact runs_of _ s _ (fun d => d.frameRow [3] c _) rfl (Dev.frameRow_enters hop hnext hseq hbad haddr hstatus)
  · obtain ⟨a, heq, htaken⟩ := Dev.onBeat_last Dev.execFrame hup hwaiting hbehind hparts
    obtain ⟨henters, -, hwait⟩ := htaken.enters hbad haddr hstatus
    refine runs_of _ s _ (fun d => d.beatRow c b) rfl ?_
    rw [Dev.beatRow, if_pos hlive, heq]
    exact ⟨henters, hwait⟩

end Sys2Proof.Proofs

/-! Proofs of the statement about frames of reserved opcodes and frames without a sequence number (R56, R58, R67, R70, R76). -/

/-! ## Frames that are not executed (R58, R61, R63, R73) -/

namespace Sys2Proof.Machine

open Sys2Proof.Claims

theorem hostTag_ch (c : Fin 32) (x : FrameF) : (hostTag c x).ch = c := by
  simp [hostTag]

theorem Dev.execFrame_bad (d : Dev) (c : Nat) (f : FrameIn) (h : badRequest (frameF f.body) = true) :
    d.execFrame c f = (d.hostStatus (hostTag c (frameF f.body)) 6 (d.hstField c (frameF f.body).srcid.toNat)).freeCredits c 1
      (frameF f.body).words :=
  if_pos h

/-- The status beat of a request that is not executed (R61, R63): it changes its host channel and the log, and HP_ERR says why. -/
theorem Dev.hostStatus_bad_spec (d : Dev) (t : HostTag) (field : Option (BitVec 4)) :
    (d.hostStatus t 6 field).host t.ch.val = (d.host t.ch.val).send (BitVec.ofNat 16 (1 + t.tag.toNat * 4)) (statusData t 6) ∧
      rbit ((d.hostStatus t 6 field).reg (rHpErr t.ch)) 26 = true ∧ (d.hostStatus t 6 field).dram = d.dram ∧
      (d.hostStatus t 6 field).chans = d.chans := by
  unfold Dev.hostStatus
  dsimp only
  rw [if_neg (by decide), if_pos rfl]
  exact ⟨by simp, Dev.rbit_setRegBit_same _ _ _ (by decide), by simp, by simp⟩

/-- A frame of a reserved OP is no request (R56, R58). -/
theorem badRequest_of_reserved {x : FrameF} (h : 4 ≤ x.op) : badRequest x = true := by
  simp [badRequest, show x.op ≠ 1 by omega, show x.op ≠ 2 by omega, show x.op ≠ 3 by omega]

theorem Dev.host_freeCredits (d : Dev) (c rq wd : Nat) : (d.freeCredits c rq wd).host c =
    { d.host c with rqFreed := (d.host c).rqFreed + rq, wdFreed := (d.host c).wdFreed + wd } := by
  rw [Dev.freeCredits, Dev.host_updHost, if_pos rfl]

@[simp] theorem Dev.reg_freeCredits (d : Dev) (c rq wd o : Nat) : (d.freeCredits c rq wd).reg o = d.reg o := rfl
@[simp] theorem Dev.dram_freeCredits (d : Dev) (c rq wd : Nat) : (d.freeCredits c rq wd).dram = d.dram := rfl
@[simp] theorem Dev.chans_freeCredits (d : Dev) (c rq wd : Nat) : (d.freeCredits c rq wd).chans = d.chans := rfl

/-- A request that is not executed answers with a status beat and frees its credits. -/
theorem Dev.execFrame_bad_spec (d : Dev) (c : Fin 32) (f : FrameIn) (h : badRequest (frameF f.body) = true) :
    let h := (d.host c).send (BitVec.ofNat 16 (1 + (frameF f.body).tag.toNat * 4)) (statusData (hostTag c (frameF f.body)) 6)
    (d.execFrame c f).host c = { h with rqFreed := h.rqFreed + 1, wdFreed := h.wdFreed + (frameF f.body).words } ∧
      rbit ((d.execFrame c f).reg (rHpErr c)) 26 = true ∧ (d.execFrame c f).dram = d.dram ∧ (d.execFrame c f).chans = d.chans := by
  obtain ⟨hhost, herr, hdram, hchans⟩ :=
    d.hostStatus_bad_spec (hostTag c (frameF f.body)) (d.hstField c (frameF f.body).srcid.toNat)
  rw [hostTag_ch] at hhost herr
  rw [d.execFrame_bad c f h, Dev.host_freeCredits, Dev.reg_freeCredits, Dev.dram_freeCredits, Dev.chans_freeCredits, hhost]
  exact ⟨rfl, herr, hdram, hchans⟩

end Sys2Proof.Machine

/-! ## LINK and TRAIN frames (R67, R70, R76) -/

namespace Sys2Proof.Machine

open Sys2Proof.Claims

theorem FrameF.sequenced_eq_false {x : FrameF} (h : x.op = 0 ∨ x.op = 14 ∨ x.op = 15) : x.sequenced = false := by
  rcases h with h | h | h <;> simp [FrameF.sequenced, h]

/-- An IDLE, LINK or TRAIN frame that checks goes past the sequence numbers (R56). -/
theorem Dev.onFrame_unsequenced (exec : Dev → Nat → FrameIn → Dev) (d : Dev) (c : Nat) (f : FrameIn) (hup : (d.host c).up = true)
    (hcrc : f.crc = crc16 (toLe 8 f.body.toNat)) (hseq : (frameF f.body).sequenced = false) (hok : unseqOk f.body = true) :
    d.onFrame exec c f = d.unsequenced c f.body := by
  rw [Dev.onFrame, hup, if_neg (by decide), if_neg (by rw [hcrc]; exact fun h => h rfl), hseq, if_pos Bool.not_false, if_pos hok]

theorem Dev.frameRow_unsequenced {d : Dev} {c : Nat} {f : FrameIn} {op : Nat} (hlive : d.sys.phase.live = true)
    (hup : (d.host c).up = true) (hcrc : f.crc = crc16 (toLe 8 f.body.toNat)) (hop : (frameF f.body).op = op)
    (hkind : op = 0 ∨ op = 14 ∨ op = 15) (hok : unseqOk f.body = true) : d.frameRow [op] c f = d.unsequenced c f.body := by
  rw [Dev.frameRow, hlive, hop, if_pos (by simp),
    d.onFrame_unsequenced _ c f hup hcrc (FrameF.sequenced_eq_false (hop.symm ▸ hkind)) hok]

theorem Dev.unsequenced_idle (d : Dev) (c : Nat) {b : BitVec 64} (hop : (frameF b).op = 0) : d.unsequenced c b = d := by
  rw [Dev.unsequenced, show bits b.toNat 3 0 = 0 from hop]
  rfl

theorem Dev.unsequenced_link (d : Dev) (c : Nat) {b : BitVec 64} (hop : (frameF b).op = 14) : d.unsequenced c b = d.linkFrame c b := by
  rw [Dev.unsequenced, show bits b.toNat 3 0 = 14 from hop]
  rfl

theorem Dev.unsequenced_train (d : Dev) (c : Nat) {b : BitVec 64} (hop : (frameF b).op = 15) (hphase : bits b.toNat 7 4 = 1) :
    d.unsequenced c b = d.beginTraining c .service := by
  rw [Dev.unsequenced, show bits b.toNat 3 0 = 15 from hop]
  exact if_pos hphase

/-- The beats that a RACK does not acknowledge, and those that wait. -/
theorem HostPort.acked_spec (h : HostPort) (rack : BitVec 8) :
    (h.acked rack).core = ({ h with lastRack := rack } : HostPort).core ∧
      (h.acked rack).beats = ((h.held.filter fun b => !decide ((rack - b.rseq).toNat < 128)).map fun b => (b.info, b.data)) ++
        h.outq.map fun b => (b.info, b.data) :=
  ⟨HostPort.core_drain .., HostPort.beats_drain ..⟩

/-- A LINK frame acknowledges, and opens or closes a replay as its RNAK says (R70). -/
theorem Dev.linkFrame_host (d : Dev) (c : Nat) (b : BitVec 64) :
    ∃ n k p q, (d.linkFrame c b).host c = { (d.host c).acked (BitVec.ofNat 8 (bits b.toNat 11 4)) with
      replay := bit b.toNat 12, rnaks := n, rnakAt := k, pauses := p, pauseFrom := q } := by
  unfold Dev.linkFrame
  dsimp only
  generalize (d.host c).acked (BitVec.ofNat 8 (bits b.toNat 11 4)) = h
  split
  · next hnak =>
    rw [hnak]
    generalize hround : (if h.replay && h.rnakAt == BitVec.ofNat 8 (bits b.toNat 11 4) then h.rnaks + 1 else 1) = n
    split
    · next hmany =>
      have hreplay : h.replay = true := by
        by_contra hclosed
        rw [Bool.eq_false_iff.2 hclosed, Bool.false_and, if_neg (by decide)] at hround
        omega
      refine ⟨9, h.rnakAt, h.pauses, h.pauseFrom, ?_⟩
      rw [Dev.host_setHost, if_pos rfl, ← hreplay]
    · refine ⟨n, BitVec.ofNat 8 (bits b.toNat 11 4), h.pauses, some (h.pauseFrom.getD d.clock), ?_⟩
      rw [Dev.host_count, Dev.host_setHost, if_pos rfl]
  · next hnak =>
    obtain ⟨p, q, hresume⟩ := HostPort.resume_frame { h with replay := false, rnaks := 0 } d.clock
    refine ⟨0, h.rnakAt, p, q, ?_⟩
    rw [Dev.host_setHost, if_pos rfl, hresume, Bool.eq_false_iff.2 hnak]

theorem Dev.host_beginTraining (d : Dev) (c : Nat) (cause : TrainCause) : (d.beginTraining c cause).host c =
    { d.host c with up := false, training := some cause, attempts := 0, askTrain := false, down := false
                    pauseFrom := some ((d.host c).pauseFrom.getD d.clock) } := by
  rw [Dev.beginTraining, Dev.host_updHost, if_pos rfl]

end Sys2Proof.Machine

namespace Sys2Proof.Proofs

open Sys2Proof.Machine Sys2Proof.Claims

/-- O2 for a reserved OP: the frame is accepted, and its status beat is the last of the channel's beats. -/
theorem hostReservedOpFrame_answered {s : State} {c : Fin 32} {body : BitVec 64} {crc : BitVec 16} (hlow : 4 ≤ (frameF body).op)
    (hhigh : (frameF body).op ≤ 13) (hnext : NextFrame s.dev c { body := body, crc := crc, mask := 0, maskCrc := 0, beats := [] }) :
    Runs (.hostReservedOpFrame c body crc) s fun d =>
      Accepted s.dev d c { body := body, crc := crc, mask := 0, maskCrc := 0, beats := [] } ∧
        (d.host c).beats = (s.dev.host c).beats ++
          [(BitVec.ofNat 16 (1 + (frameF body).tag.toNat * 4), statusData (hostTag c (frameF body)) 6)] ∧
        rbit (d.reg (rHpErr c)) 26 = true ∧ d.dram = s.dev.dram ∧ d.chans = s.dev.chans := by
  have hseq : (frameF body).sequenced = true := by
    simp [FrameF.sequenced, show (frameF body).op ≠ 0 by omega, show (frameF body).op ≠ 14 by omega,
      show (frameF body).op ≠ 15 by omega]
  have hrow : [4, 5, 6, 7, 8, 9, 10, 11, 12, 13].contains (frameF body).op = true := by
    generalize (frameF body).op = op at hlow hhigh
    interval_cases op <;> rfl
  obtain ⟨a, heq, htaken, -⟩ := Dev.onFrame_next Dev.execFrame hnext hseq
  obtain ⟨hhost, herr, hdram, hchans⟩ := a.execFrame_bad_spec c
    { body := body, crc := crc, mask := 0, maskCrc := 0, beats := [] } (badRequest_of_reserved hlow)
  refine runs_of _ s _ (fun d => d.frameRow [4, 5, 6, 7, 8, 9, 10, 11, 12, 13] c _) rfl ?_
  rw [Dev.frameRow, hnext.1, hrow, if_pos (Bool.and_self true), heq]
  obtain ⟨hs, rfl⟩ := htaken.hosts
  refine ⟨?_, ?_, herr, hdram, hchans⟩
  · simpa only [Accepted, Dev.host_settle, hhost, HostPort.expSeq_send, HostPort.rqUsed_send, HostPort.wdUsed_send,
      HostPort.unacked_send] using htaken.accepted
  · rw [Dev.host_settle, hhost, ← htaken.beats]
    exact HostPort.beats_send _ _ _ false (htaken.down.trans hnext.2.2.1) (.inr rfl)

/-- Settles O2: one lemma for the reserved OPs, one equation for each of IDLE, LINK and TRAIN. -/
theorem hostOtherFrames : Obligations.HostOtherFrames := by
  unfold Obligations.HostOtherFrames
  refine ⟨fun s c body crc hlow hhigh hnext => hostReservedOpFrame_answered hlow hhigh hnext,
    fun s c body hlive hup hok => ⟨fun hop => ?_, fun hop => ?_, fun hop hphase => ?_⟩⟩
  · refine (State.does_eq s fun d => d.frameRow [0] c _).trans ?_
    rw [Dev.frameRow_unsequenced hlive hup rfl hop (by decide) hok, Dev.unsequenced_idle _ _ hop]
  · refine runs_of _ s _ (fun d => d.frameRow [14] c _) rfl ?_
    rw [Dev.frameRow_unsequenced hlive hup rfl hop (by decide) hok, Dev.unsequenced_link _ _ hop, Dev.host_settle]
    obtain ⟨n, k, p, q, hhost⟩ := s.dev.linkFrame_host c body
    obtain ⟨hcore, hbeats⟩ := (s.dev.host c).acked_spec (BitVec.ofNat 8 (bits body.toNat 11 4))
    rw [hhost]
    exact ⟨(congrArg HostPort.lastRack hcore :), (congrArg HostPort.expSeq hcore :), rfl, hbeats⟩
  · refine runs_of _ s _ (fun d => d.frameRow [15] c _) rfl ?_
    rw [Dev.frameRow_unsequenced hlive hup rfl hop (by decide) hok, Dev.unsequenced_train _ _ hop hphase, Dev.host_settle,
      Dev.host_beginTraining]
    exact ⟨rfl, rfl, rfl, rfl, rfl⟩

end Sys2Proof.Proofs

/-! Proofs of the statement about the errors of a host channel (R66, R68, R72, R73). -/

/-! ## The rounds of a channel's error (R68, R72) -/

namespace Sys2Proof.Machine

/-- An error on a channel without an open one opens a round, which one NAK asks for. -/
theorem Dev.beginError_nak {d : Dev} {c : Nat} {h : HostPort} (hhost : d.host c = h) (herror : h.inError = false)
    (hrounds : h.rounds < 8) :
    d.beginError c = (d.setHost c { h.linkBeat true with
      nakTime := some d.clock, inError := true, rounds := h.rounds + 1
      pauseFrom := some (h.pauseFrom.getD d.clock) }).count (rHpReplay c) 1 := by
  simp [Dev.beginError, hhost, herror, Nat.not_le.2 hrounds]

/-- In place of a ninth NAK in a row, the rounds have failed (log entry 158). -/
theorem Dev.beginError_failed {d : Dev} {c : Nat} {h : HostPort} (hhost : d.host c = h) (herror : h.inError = false)
    (hrounds : 8 ≤ h.rounds) :
    d.beginError c = d.setHost c { h with rounds := 9 } := by
  simp [Dev.beginError, hhost, herror, hrounds]

/-- HP_CRC and HP_REPLAY come behind HP_ERR. -/
theorem rHpCrc_eq (c : Nat) : rHpCrc c = rHpErr c + 8 := rfl

theorem rHpReplay_eq (c : Nat) : rHpReplay c = rHpErr c + 16 := rfl

theorem Dev.badFrame_nak_eq {d : Dev} {c : Nat} (herror : (d.host c).inError = false) (hrounds : (d.host c).rounds < 8) :
    d.badFrame c = ((d.count (rHpCrc c) 1).setHost c { (d.host c).linkBeat true with
      nakTime := some d.clock, inError := true, rounds := (d.host c).rounds + 1
      pauseFrom := some ((d.host c).pauseFrom.getD d.clock) }).count (rHpReplay c) 1 := by
  rw [Dev.badFrame, Dev.beginError_nak (d.host_count ..) herror hrounds, Dev.clock_count]

theorem Dev.reg_setHost_count (d : Dev) (c : Nat) (x : HostPort) {o p : Nat} (h : p < o) :
    ((d.setHost c x).count o 1).reg p = d.reg p := by
  rw [Dev.reg_count_ne _ 1 (by omega) (by omega)]
  rfl

/-- The channel after a NAK, and what the NAK leaves of the device. -/
theorem Dev.badFrame_nak {d : Dev} {c : Nat} (herror : (d.host c).inError = false) (hrounds : (d.host c).rounds < 8) :
    (d.badFrame c).host c = { (d.host c).linkBeat true with
        nakTime := some d.clock, inError := true, rounds := (d.host c).rounds + 1
        pauseFrom := some ((d.host c).pauseFrom.getD d.clock) } ∧
      (d.badFrame c).reg64 (rHpCrc c) = d.reg64 (rHpCrc c) + 1 ∧ (d.badFrame c).reg (rHpErr c) = d.reg (rHpErr c) ∧
      (d.badFrame c).chans = d.chans ∧ (d.badFrame c).dram = d.dram := by
  rw [Dev.badFrame_nak_eq herror hrounds, rHpCrc_eq, rHpReplay_eq]
  refine ⟨?_, ?_, ?_, ?_, ?_⟩
  · rw [Dev.host_count, Dev.host_setHost, if_pos rfl]
  · rw [Dev.reg64_congr (Dev.reg_setHost_count _ _ _ (by omega)) (Dev.reg_setHost_count _ _ _ (by omega)), Dev.reg64_count]
    rfl
  · rw [Dev.reg_setHost_count _ _ _ (by omega), Dev.reg_count_ne _ 1 (by omega) (by omega)]
  · rw [Dev.chans_count, Dev.setHost_chans, Dev.chans_count]
  · rw [Dev.dram_count, Dev.setHost_dram, Dev.dram_count]

theorem Dev.badFrame_failed {d : Dev} {c : Nat} (herror : (d.host c).inError = false) (hrounds : 8 ≤ (d.host c).rounds) :
    (d.badFrame c).host c = { d.host c with rounds := 9 } := by
  rw [Dev.badFrame, Dev.beginError_failed (d.host_count ..) herror hrounds, Dev.host_setHost, if_pos rfl]

/-- A corrupt frame is a bad frame, whose cause HP_ERR tells. -/
theorem Dev.corruptFrameRow_eq (d : Dev) (c : Nat) (cause : Fin 3) (hup : (d.host c).up = true) :
    ∃ e, d.corruptFrameRow c cause.val = e.badFrame c ∧ (∃ cs, e = { d with cs := cs }) ∧ e.reg64 (rHpCrc c) = d.reg64 (rHpCrc c) ∧
      (cause = 1 → rbit (e.reg (rHpErr c)) 28 = true) ∧ (cause = 2 → rbit (e.reg (rHpErr c)) 29 = true) := by
  have hcrc : ∀ n, (d.setRegBit (rHpErr c) n true).reg64 (rHpCrc c) = d.reg64 (rHpCrc c) := fun n =>
    Dev.reg64_congr (d.reg_setRegBit_ne _ _ (by rw [rHpCrc_eq]; omega)) (d.reg_setRegBit_ne _ _ (by rw [rHpCrc_eq]; omega))
  have hrow : ¬(!(d.host c).up) = true := by simp [hup]
  match cause with
  | 0 => exact ⟨d, if_neg hrow, ⟨d.cs, rfl⟩, rfl, fun h => absurd h (by decide), fun h => absurd h (by decide)⟩
  | 1 =>
    exact ⟨_, if_neg hrow, ⟨_, rfl⟩, hcrc 28, fun _ => Dev.rbit_setRegBit_same _ _ _ (by decide), fun h => absurd h (by decide)⟩
  | 2 =>
    exact ⟨_, if_neg hrow, ⟨_, rfl⟩, hcrc 29, fun h => absurd h (by decide), fun _ => Dev.rbit_setRegBit_same _ _ _ (by decide)⟩

end Sys2Proof.Machine

/-! ## Link failure (R72) -/

namespace Sys2Proof.Machine

/-- HP_ERR is no register of the log. -/
theorem rHpErr_not_reported : ∀ c : Fin 32, rHpErr c ∉ reportRegs := by decide

theorem rHpErr_ne_devsrc : ∀ c : Fin 32, rHpErr c ≠ rCpDevsrc := by decide

@[simp] theorem Dev.reg_beginTraining (d : Dev) (c o : Nat) (cause : TrainCause) : (d.beginTraining c cause).reg o = d.reg o := rfl

/-- The channel trains for its link failure, and HP_ERR and CP_ATTN_DEVSRC tell of it. -/
theorem Dev.hostFailRow_spec {d : Dev} {c : Fin 32} (hup : (d.host c).up = true)
    (hrounds : 9 ≤ (d.host c).rounds ∨ 9 ≤ (d.host c).rnaks) :
    (∃ p, (d.hostFailRow c).host c = { d.host c with
        rounds := 0, rnaks := 0, up := false, training := some .linkFail, attempts := 0, askTrain := false, down := false
        pauseFrom := p }) ∧
      rbit ((d.hostFailRow c).reg (rHpErr c)) 31 = true ∧ rbit ((d.hostFailRow c).reg rCpDevsrc) 31 = true := by
  have hrow : ¬(!(d.host c).up || (decide ((d.host c).rounds ≤ 8) && decide ((d.host c).rnaks ≤ 8))) = true := by
    rw [hup]
    simp
    omega
  rw [Dev.hostFailRow, if_neg hrow, Dev.host_beginTraining, Dev.reg_beginTraining, Dev.reg_beginTraining, Dev.reg_updHost,
    Dev.reg_updHost, Dev.devsrc, Dev.rbit_setRegBit_same _ _ _ (by decide), Dev.reg_setRegBit_ne _ _ _ (rHpErr_ne_devsrc c),
    Dev.report_reg _ _ _ _ _ _ _ _ _ (rHpErr_not_reported c), Dev.rbit_setRegBit_same _ _ _ (by decide), Dev.host_updHost, if_pos rfl,
    Dev.host_setRegBit, Dev.report_host_at, Dev.host_setRegBit]
  exact ⟨⟨_, rfl⟩, rfl, rfl⟩

end Sys2Proof.Machine

namespace Sys2Proof.Proofs

open Sys2Proof.Machine Sys2Proof.Claims

/-- Settles O5: a corrupt frame opens a round or ends the rounds, and the failed rounds begin the training. -/
theorem hostChannelErrors : Obligations.HostChannelErrors := by
  unfold Obligations.HostChannelErrors
  intro s c hlive hup hdown h
  refine ⟨fun cause herror hrounds => ?_, fun cause herror hrounds => ?_, fun hrounds => ?_⟩
  · refine runs_live _ s _ (fun d => d.corruptFrameRow c cause) rfl hlive ?_
    obtain ⟨e, heq, ⟨cs, hframe⟩, hcrc, hwindow, hcredit⟩ := s.dev.corruptFrameRow_eq c cause hup
    have hkeeps : e.host c = h := by rw [hframe]; rfl
    obtain ⟨hhost, hcount, herr, hchans, hdram⟩ :=
      Dev.badFrame_nak (d := e) (c := c) (by rw [hkeeps]; exact herror) (by rw [hkeeps]; exact hrounds)
    rw [hkeeps] at hhost
    rw [heq, Dev.host_settle, Dev.reg_settle, Dev.settle_chans, Dev.settle_dram, hhost, herr, hchans, hdram, hframe]
    rw [hframe] at hwindow hcredit hcount hcrc
    exact ⟨rfl, rfl, HostPort.expSeq_linkBeat h true, HostPort.beats_linkBeat h true hdown,
      hcount.trans (congrArg (· + 1) hcrc), hwindow, hcredit, rfl, rfl⟩
  · refine runs_live _ s _ (fun d => d.corruptFrameRow c cause) rfl hlive ?_
    obtain ⟨e, heq, ⟨cs, hframe⟩, -⟩ := s.dev.corruptFrameRow_eq c cause hup
    have hkeeps : e.host c = h := by rw [hframe]; rfl
    rw [heq, Dev.host_settle, Dev.badFrame_failed (by rw [hkeeps]; exact herror) (by rw [hkeeps]; exact hrounds), hkeeps]
    exact ⟨rfl, rfl, rfl⟩
  · refine runs_live _ s _ (fun d => d.hostFailRow c) rfl hlive ?_
    obtain ⟨⟨p, hhost⟩, herr, hdevsrc⟩ := Dev.hostFailRow_spec hup hrounds
    rw [Dev.host_settle, hhost]
    exact ⟨rfl, rfl, rfl, rfl, herr, hdevsrc⟩

end Sys2Proof.Proofs

/-! Proofs of the statement about the training of a host channel (R72, R73, R75, R76, R86). -/

/-! ## What the end of a start leaves of the channels' registers -/

namespace Sys2Proof.Machine

/-- An act that writes none of the channels' blocks of control space. -/
structure KeepsChRegs (d d' : Dev) : Prop where
  reg : ∀ o, 0x100000 ≤ o → o < 0x180000 → d'.reg o = d.reg o

theorem KeepsChRegs.refl (d : Dev) : KeepsChRegs d d := ⟨fun _ _ _ => rfl⟩

theorem KeepsChRegs.trans {a b c : Dev} (h : KeepsChRegs a b) (k : KeepsChRegs b c) : KeepsChRegs a c :=
  ⟨fun o hlow hhigh => (k.reg o hlow hhigh).trans (h.reg o hlow hhigh)⟩

theorem KeepsChRegs.of_cs {d d' : Dev} (h : d'.cs = d.cs) : KeepsChRegs d d' :=
  ⟨fun o _ _ => by rw [Dev.reg, h, Dev.reg]⟩

theorem KeepsChRegs.ite {p : Prop} {_ : Decidable p} {d x y : Dev} (h : KeepsChRegs d x) (k : KeepsChRegs d y) :
    KeepsChRegs d (if p then x else y) := by
  split <;> assumption

theorem KeepsChRegs.forNat {f : Dev → Nat → Dev} {n : Nat} (h : ∀ d, ∀ k < n, KeepsChRegs d (f d k)) (d : Dev) :
    KeepsChRegs d (forNat n d f) :=
  forNat_rec (.refl d) fun x hx k hk => hx.trans (h x k hk)

theorem KeepsChRegs.setReg (d : Dev) (o : Nat) (v : Reg) (h : o < 0x100000 ∨ 0x180000 ≤ o) : KeepsChRegs d (d.setReg o v) :=
  ⟨fun p hlow hhigh => by rw [Dev.reg_setReg, if_neg (by omega)]⟩

theorem KeepsChRegs.count (d : Dev) (o n : Nat) (h : 0x180000 ≤ o) : KeepsChRegs d (d.count o n) :=
  ⟨fun p hlow hhigh => d.reg_count_ne n (by omega) (by omega)⟩

theorem KeepsChRegs.report (d : Dev) (code sev ukind unit addr info : Nat) :
    KeepsChRegs d (d.report code sev ukind unit addr info) := ⟨fun o hlow hhigh =>
  Dev.report_reg _ _ _ _ _ _ _ _ o fun hmem => by
    have hapart : ∀ p ∈ reportRegs, p < 0x100000 ∨ 0x180000 ≤ p := by decide
    have := hapart o hmem
    omega⟩

theorem KeepsChRegs.remotes (d : Dev) (r : List Remote) : KeepsChRegs d { d with remotes := r } := .of_cs rfl

theorem KeepsChRegs.fuses (d : Dev) (f : Fuses) : KeepsChRegs d { d with fuses := f } := .of_cs rfl

theorem KeepsChRegs.released (d : Dev) (b : Bool) : KeepsChRegs d { d with released := b } := .of_cs rfl

theorem KeepsChRegs.setPhase (d : Dev) (p : Phase) : KeepsChRegs d (d.setPhase p) := .of_cs rfl

/-! ### Mirrored writes and administrative rings (R90, R430) -/

theorem KeepsChRegs.linkDrain (d : Dev) (l : Nat) : KeepsChRegs d (d.linkDrain l) := by
  unfold Dev.linkDrain
  exact .ite (.of_cs rfl) (.of_cs rfl)

theorem KeepsChRegs.linkSend (d : Dev) (l : Nat) (p : Packet) : KeepsChRegs d (d.linkSend l p) :=
  .ite (.refl d) ((KeepsChRegs.of_cs (Dev.setLink_cs d l _)).trans (.linkDrain _ l))

theorem KeepsChRegs.mirrorSend (d : Dev) (typ ch addr : Nat) (x : Line) (mask : BitVec 64) (poison : Bool) :
    KeepsChRegs d (d.mirrorSend typ ch addr x mask poison) := by
  unfold Dev.mirrorSend Dev.remoteRequest
  refine .ite (.refl d) ?_
  cases d.freeTag with
  | none => exact .refl d
  | some t => exact (KeepsChRegs.remotes d _).trans (.linkSend _ _ _)

theorem KeepsChRegs.mirrorWrite (d : Dev) (n : Nat) (x : Line) (mask : BitVec 64) (poison : Bool) :
    KeepsChRegs d (d.mirrorWrite n x mask poison) :=
  .ite (.mirrorSend ..) (.refl d)

theorem KeepsChRegs.copyBroken (d : Dev) (a : Nat) : KeepsChRegs d (d.copyBroken a) :=
  .ite (.ite (.refl d) (.of_cs rfl)) (.refl d)

theorem KeepsChRegs.noteMerge (d : Dev) (n : Nat) (w : WordRead) : KeepsChRegs d (d.noteMerge n w) := by
  unfold Dev.noteMerge
  have hce : KeepsChRegs d (if w.corrected = 0 then d else
      (d.count (rErrCe (wordPlace n).ch) w.corrected).report 0x0001 1 2 (n / 16 / 32768) (d.addrOf n) 0) :=
    (KeepsChRegs.refl d).ite ((KeepsChRegs.count d _ _ (by simp only [rErrCe]; omega)).trans (.report ..))
  have hue := hce.trans (.count _ (rErrUe (wordPlace n).ch) w.uncorr (by simp only [rErrUe, rErrCe]; omega))
  exact hce.ite ((hue.trans (.report ..)).trans (.copyBroken ..))

theorem KeepsChRegs.freshId (d : Dev) (c : Nat) : KeepsChRegs d (d.freshId c).2 := .of_cs rfl

theorem KeepsChRegs.bufferWord (d : Dev) (b : BufWord) : KeepsChRegs d (d.bufferWord b) := .of_cs rfl

theorem KeepsChRegs.writeWord (d : Dev) (x : WordWrite) (h : x.mask ≠ 0) : KeepsChRegs d (d.writeWord x).1 := by
  unfold Dev.writeWord
  rw [if_neg h]
  dsimp only
  generalize mergeWord _ _ _ _ _ = r
  obtain ⟨y, marks, bad⟩ := r
  exact (((KeepsChRegs.mirrorWrite d _ _ _ _).ite ((KeepsChRegs.mirrorWrite d _ _ _ _).trans (.noteMerge _ _ _))).trans
    (.freshId _ _)).trans (.bufferWord _ _)

theorem KeepsChRegs.placeWord (d : Dev) (m : Mover) (a : Nat) (x : Line) : KeepsChRegs d (d.placeWord m a x) := by
  unfold Dev.placeWord
  refine .ite (.refl d) (.ite (.writeWord d _ (show BitVec.allOnes 64 ≠ 0 by decide)) ?_)
  exact (KeepsChRegs.mirrorWrite d _ x _ false).trans (.of_cs rfl)

theorem KeepsChRegs.ringBegin (d : Dev) (k : Nat) (r : Ring) : KeepsChRegs d (d.ringBegin k r) := .of_cs rfl

theorem KeepsChRegs.admCreate (d : Dev) (f : Nat) : KeepsChRegs d (d.admCreate f) :=
  (KeepsChRegs.forNat (fun d _ _ => .placeWord d _ _ _) d).trans (.ringBegin _ _ _)

theorem KeepsChRegs.imageRings (d : Dev) : KeepsChRegs d d.imageRings :=
  .forNat (fun d f _ => .ite (.admCreate d f) (.refl d)) d

/-! ### Step 7 (R382, R407, R484) -/

theorem KeepsChRegs.assignSpares (d : Dev) : KeepsChRegs d d.assignSpares := by
  refine ((KeepsChRegs.forNat (fun d n _ => ?_) d).trans (.forNat (fun d g _ => ?_) _)).trans (.forNat (fun d f _ => ?_) _)
  · exact .ite (.of_cs rfl) (.refl d)
  · dsimp only
    split
    · exact .ite (.refl d) ((KeepsChRegs.of_cs (Dev.setFloe_cs ..)).trans (.report ..))
    · exact .refl d
  · exact .ite (.report ..) (.refl d)

theorem KeepsChRegs.setRegFld (d : Dev) (o hi lo v : Nat) (h : o < 0x100000 ∨ 0x180000 ≤ o) : KeepsChRegs d (d.setRegFld o hi lo v) :=
  .setReg d o _ h

theorem KeepsChRegs.setRegBit (d : Dev) (o n : Nat) (b : Bool) (h : o < 0x100000 ∨ 0x180000 ≤ o) : KeepsChRegs d (d.setRegBit o n b) :=
  .setReg d o _ h

theorem KeepsChRegs.svnCommit (d : Dev) : KeepsChRegs d d.svnCommit :=
  .ite (((KeepsChRegs.fuses d _).trans (.setRegFld _ rCfgSvn _ _ _ (by decide))).trans (.report ..)) (.refl d)

theorem KeepsChRegs.startLinks (d : Dev) : KeepsChRegs d d.startLinks :=
  .forNat (fun d l _ => .ite (.refl d) (.of_cs (Dev.setLink_cs d l _))) d

theorem KeepsChRegs.advanceTo (d : Dev) (t : Nat) : KeepsChRegs d (d.advanceTo t) := by
  unfold Dev.advanceTo
  exact .ite (.refl d) (.ite (.of_cs rfl) (.of_cs rfl))

theorem KeepsChRegs.floesReleased (d : Dev) : KeepsChRegs d d.floesReleased := by
  have hspares := ((KeepsChRegs.advanceTo d (d.clock + 2000000 * d.sys.startMs)).trans (.setRegFld _ rCfgStat 18 16 7 (by decide))).trans
    (.assignSpares _)
  have hrings := (hspares.trans (.released _ true)).trans (.imageRings _)
  exact ((hrings.trans (.setRegBit _ rCpStat 31 true (by decide))).trans (.svnCommit _)).trans (.startLinks _)

theorem KeepsChRegs.startEnded (d : Dev) : KeepsChRegs d d.startEnded := by
  have hdown := (KeepsChRegs.setReg d rCfgHdown (BitVec.ofNat 32 (d.downMask true)) (by decide)).trans
    (.setReg _ rCfgDdown (BitVec.ofNat 32 ((d.setReg rCfgHdown (BitVec.ofNat 32 (d.downMask true))).downMask false)) (by decide))
  have hend := (hdown.trans (.setRegFld _ rCfgStartMs 15 0 (sat 65535 d.sys.startMs) (by decide))).trans
    (.setRegFld _ rRstStat 19 18 0 (by decide))
  have htrip := (hend.trans (.setRegBit _ rThmTrip 31 false (by decide))).trans (.setRegBit _ rCpDevsrc 30 true (by decide))
  exact ((htrip.ite hend).trans (.setPhase _ .running)).trans (.report ..)

theorem KeepsChRegs.release (d : Dev) : KeepsChRegs d d.release := by
  rw [d.release_eq]
  exact (KeepsChRegs.floesReleased d).trans (.startEnded _)

end Sys2Proof.Machine

/-! ## One training attempt (R72, R73, R75, R76) -/

namespace Sys2Proof.Machine

open Sys2Proof.Claims

/-- The end of step 6 leaves the host channels, and the registers of the channels. -/
theorem Dev.endSix_keeps (d : Dev) : (∀ k, d.endSix.host k = d.host k) ∧ KeepsChRegs d d.endSix := by
  by_cases hnone : d.sys.waitingCh = 0
  · cases himage : rbit (d.reg rCfgStat) 30 with
    | false =>
      obtain ⟨-, -, hhost, -⟩ := d.release_spec
      rw [d.endSix_release hnone himage]
      exact ⟨hhost, .release d⟩
    | true =>
      obtain ⟨-, -, -, hhost, hreg, -⟩ := d.endSix_permafrost hnone himage
      exact ⟨hhost, ⟨fun o hlow _ => hreg o (by simp only [rCfgHdown]; omega) (by simp only [rCfgDdown]; omega)⟩⟩
  · rw [d.endSix_waits hnone]
    exact ⟨fun _ => rfl, .setPhase d _⟩

theorem Dev.sixCheck_keeps (d : Dev) (c : Nat) : (∀ k, (d.sixCheck c).host k = d.host k) ∧ KeepsChRegs d (d.sixCheck c) := by
  unfold Dev.sixCheck
  split
  · exact ⟨fun _ => rfl, .refl d⟩
  · split
    · exact ⟨fun _ => rfl, .refl d⟩
    · obtain ⟨hhost, hreg⟩ := Dev.endSix_keeps { d with sys := { d.sys with
        waitingCh := BitVec.ofNat 32 (d.sys.waitingCh.toNat &&& (2 ^ 32 - 1 - 2 ^ c)) } }
      exact ⟨hhost, ⟨hreg.reg⟩⟩

/-- Initial training gives fresh state: 128 and 512 credits, SEQ 0, and no beat. -/
theorem HostPort.trainedUp_fresh (h : HostPort) (rack : BitVec 8) (clock : Nat) :
    let h' := h.trainedUp .start rack clock
    h'.up = true ∧ h'.training = none ∧ h'.expSeq = 0 ∧ h'.rqGiven = 128 ∧ h'.wdGiven = 512 ∧ h'.beats = [] := by
  obtain ⟨p, q, hresume⟩ := HostPort.resume_frame { HostPort.init with
    up := true, slow := h.slow, rqGiven := 128, wdGiven := 512, trained := h.trained, pauses := h.pauses, pauseFrom := h.pauseFrom
    tags := h.tags } clock
  have heq : h.trainedUp .start rack clock = _ := hresume
  rw [heq]
  exact ⟨rfl, rfl, rfl, rfl, rfl, rfl⟩

/-- The channel in normal operation after a retraining, before its beats are resent (R76). -/
def HostPort.retrained (h : HostPort) : HostPort :=
  { h with up := true, training := none, inError := false, replay := false, rounds := 0, attempts := 0, rnaks := 0
           waiting := none, behind := [] }

theorem HostPort.trainedUp_eq (h : HostPort) {cause : TrainCause} (hcause : cause ≠ .start) (rack : BitVec 8) (clock : Nat) :
    h.trainedUp cause rack clock = (h.retrained.resumeBeats rack).resume clock := by
  cases cause with
  | start => exact absurd rfl hcause
  | service => rfl
  | linkFail => rfl

theorem HostPort.core_resumeBeats (h : HostPort) (rack : BitVec 8) :
    (h.resumeBeats rack).core = ({ h.grant with unacked := 0, lastRack := rack } : HostPort).core :=
  HostPort.core_drain ..

/-- Retraining keeps the sequence. -/
theorem HostPort.trainedUp_kept (h : HostPort) {cause : TrainCause} (hcause : cause ≠ .start) (rack : BitVec 8) (clock : Nat) :
    let h' := h.trainedUp cause rack clock
    h'.up = true ∧ h'.training = none ∧ h'.expSeq = h.expSeq := by
  obtain ⟨p, q, hresume⟩ := (h.retrained.resumeBeats rack).resume_frame clock
  have hcore := h.retrained.core_resumeBeats rack
  rw [h.trainedUp_eq hcause, hresume]
  exact ⟨(congrArg HostPort.up hcore :), (congrArg HostPort.training hcore :), (congrArg HostPort.expSeq hcore :)⟩

/-- A host channel that becomes down serves no more, and HP_ERR tells of it (R72, R371). -/
theorem Dev.hostDown_service_spec (d : Dev) (c : Fin 32) :
    let d' := d.hostDown c true
    (d'.host c).up = false ∧ (d'.host c).down = true ∧ (d'.host c).training = none ∧ rbit (d'.reg (rHpErr c)) 30 = true := by
  obtain ⟨p, q, hresume⟩ := HostPort.resume_frame { d.host c with
    up := false, training := none, down := true, held := [], outq := [], waiting := none, behind := [], inError := false
    replay := false } d.clock
  have heq : d.hostDown c true = ((d.updHost c fun h => ({ h with
    up := false, training := none, down := true, held := [], outq := [], waiting := none, behind := [], inError := false
    replay := false } : HostPort).resume d.clock).setRegBit (rHpErr c) 30 true).report 0x0701 3 6 c 0 0 := by
    rw [Dev.hostDown, if_pos rfl]
  intro d'
  rw [show d' = _ from heq, Dev.report_host_at, Dev.host_setRegBit, Dev.host_updHost, if_pos rfl, hresume,
    Dev.report_reg _ _ _ _ _ _ _ _ _ (rHpErr_not_reported c)]
  exact ⟨rfl, rfl, rfl, Dev.rbit_setRegBit_same _ _ _ (by decide)⟩

/-- An attempt whose result the lanes have shown, where they have: the channel keeps what it trained with (R75, R86). -/
def Dev.lanesShown (d : Dev) (c : Nat) (ok : BitVec 68) (completed : Bool) (cause : TrainCause) : Dev :=
  if completed then
    (d.setLanes c ok).updHost c fun h =>
      { h with trained := some (if cause = .start then linkData 0xFF false false true 128 512 (ok.zeroExtend 72)
                                else linkData (h.expSeq - 1) false false true h.rqGiven h.wdGiven (ok.zeroExtend 72)) }
  else d

theorem Dev.host_lanesShown (d : Dev) (c : Nat) (ok : BitVec 68) (completed : Bool) (cause : TrainCause) :
    ∃ t, (d.lanesShown c ok completed cause).host c = { d.host c with trained := t } := by
  unfold Dev.lanesShown
  split
  · rw [Dev.host_updHost, if_pos rfl, (StartFrame.setLanes d c ok).host]
    exact ⟨_, rfl⟩
  · exact ⟨_, rfl⟩

section Attempt

variable {d : Dev} {c : Fin 32} {cause : TrainCause} (ok : BitVec 68) (completed : Bool) (rack : BitVec 8)

/-- An attempt brings the channel up, or counts as one more failure. -/
theorem Dev.trainAttempt_eq (htraining : (d.host c).training = some cause) (hfrost : d.permafrost = true → c = 0) :
    let e := d.lanesShown c ok completed cause
    let n := (d.host c).attempts + 1
    let failed := e.updHost c fun h => { h with attempts := n }
    d.trainAttempt c ok completed rack =
      if completed && ok == BitVec.allOnes 68 then e.updHost c fun h => h.trainedUp cause rack e.clock
      else if cause = .linkFail ∨ 3 ≤ n then failed.hostDown c true else failed := by
  intro e n failed
  have hopen : ¬(d.permafrost ∧ c.val ≠ 0) := fun h => h.2 (by rw [hfrost h.1]; rfl)
  unfold Dev.trainAttempt
  dsimp only
  rw [htraining]
  exact if_neg hopen

theorem Dev.trainAttempt_up (htraining : (d.host c).training = some cause) (hfrost : d.permafrost = true → c = 0)
    (hcompleted : completed = true) (hok : ok = BitVec.allOnes 68) :
    let h' := (d.trainAttempt c ok completed rack).host c
    h'.up = true ∧ h'.training = none ∧
      (cause = .start → h'.expSeq = 0 ∧ h'.rqGiven = 128 ∧ h'.wdGiven = 512 ∧ h'.beats = []) ∧
      (cause ≠ .start → h'.expSeq = (d.host c).expSeq) := by
  obtain ⟨t, hshown⟩ := d.host_lanesShown c ok completed cause
  rw [Dev.trainAttempt_eq ok completed rack htraining hfrost, if_pos (by rw [hcompleted, hok]; decide), Dev.host_updHost, if_pos rfl,
    hshown]
  by_cases hcause : cause = .start
  · subst hcause
    obtain ⟨hup, htrain, hfresh⟩ := HostPort.trainedUp_fresh { d.host c with trained := t } rack
      (d.lanesShown c ok completed .start).clock
    exact ⟨hup, htrain, fun _ => hfresh, fun h => absurd rfl h⟩
  · obtain ⟨hup, htrain, hkept⟩ := HostPort.trainedUp_kept { d.host c with trained := t } hcause rack
      (d.lanesShown c ok completed cause).clock
    exact ⟨hup, htrain, fun h => absurd h hcause, fun _ => hkept⟩

theorem Dev.trainAttempt_fails (htraining : (d.host c).training = some cause) (hfrost : d.permafrost = true → c = 0)
    (hfails : completed = false ∨ ok ≠ BitVec.allOnes 68) :
    let d' := d.trainAttempt c ok completed rack
    (cause = .linkFail ∨ 2 ≤ (d.host c).attempts → (d'.host c).up = false ∧ (d'.host c).down = true ∧ (d'.host c).training = none ∧
      rbit (d'.reg (rHpErr c)) 30 = true) ∧
    (cause ≠ .linkFail → (d.host c).attempts < 2 →
      (d'.host c).training = some cause ∧ (d'.host c).attempts = (d.host c).attempts + 1) := by
  obtain ⟨t, hshown⟩ := d.host_lanesShown c ok completed cause
  have hbad : ¬(completed && ok == BitVec.allOnes 68) = true := by
    simpa [← imp_iff_not_or, or_iff_not_imp_left] using hfails
  rw [Dev.trainAttempt_eq ok completed rack htraining hfrost, if_neg hbad]
  refine ⟨fun hlast => ?_, fun hcause hfew => ?_⟩
  · rw [if_pos (hlast.imp_right fun h => by omega)]
    obtain ⟨hup, hdown, htrain, herr⟩ := Dev.hostDown_service_spec ((d.lanesShown c ok completed cause).updHost c fun h =>
      { h with attempts := (d.host c).attempts + 1 }) c
    exact ⟨hup, hdown, htrain, herr⟩
  · rw [if_neg (not_or.2 ⟨hcause, by omega⟩), Dev.host_updHost, if_pos rfl, hshown]
    exact ⟨htraining, rfl⟩

end Attempt

end Sys2Proof.Machine

/-! ## HP_CTRL (R76, R86) -/

namespace Sys2Proof.Machine

open Sys2Proof.Claims

theorem rHpCtrl_eq (c : Nat) : rHpCtrl c = 0x103004 + c * 0x4000 := by
  rw [rHpCtrl, rCh]
  omega

/-- HP_CTRL has no field that only the secure world writes. -/
theorem regRow_rHpCtrl : ∀ c : Fin 32, (regRow (rHpCtrl c)).map RegRow.rws = some 0 := by decide

/-- A write of HP_CTRL acts on its host channel. -/
theorem Dev.writeAction_hpCtrl (d : Dev) (r : Rights) (c : Fin 32) (v : Reg) : d.writeAction r (rHpCtrl c) v = some (d.hpCtrl c v) := by
  have hc := c.isLt
  have hdiv : (rHpCtrl c - 0x100000) / 0x4000 = c := by rw [rHpCtrl_eq]; omega
  have hmod : rHpCtrl c % 0x4000 = 0x3004 := by rw [rHpCtrl_eq]; omega
  have hlow : 0x100000 ≤ rHpCtrl c := by rw [rHpCtrl_eq]; omega
  have hhigh : rHpCtrl c < 0x180000 := by rw [rHpCtrl_eq]; omega
  generalize rHpCtrl c = o at *
  unfold Dev.writeAction
  rw [if_neg (by simp only [rRstCtrl]; omega), if_neg (by simp only [rFlCtrl]; omega), if_neg (by simp only [rMonProcCtrl]; omega),
    if_neg (by simp only [rDbgCtrl]; omega), if_neg (by simp only [rAdm]; omega), if_pos ⟨hlow, hhigh⟩]
  dsimp only
  rw [hdiv, hmod]
  rfl

theorem Dev.writeReg_hpCtrl (d : Dev) (r : Rights) (c : Fin 32) (v : Reg) : d.writeReg r (rHpCtrl c) v = d.hpCtrl c v := by
  obtain ⟨row, hrow, hrws⟩ := Option.map_eq_some_iff.1 (regRow_rHpCtrl c)
  have hplain : (row.hasRws && !r.secure) = false := RegRow.hasRws_and_not_secure fun h => absurd hrws h
  unfold Dev.writeReg
  rw [hrow]
  dsimp only
  rw [hplain, if_neg Bool.false_ne_true, d.writeAction_hpCtrl r c v]

/-- The channels' blocks are open to non-secure sources (R451). -/
theorem Dev.letIn_channelBlock (d : Dev) (r : Rights) {o : Nat} (hlow : 0x100000 ≤ o) (hhigh : o < 0x200000) : d.letIn r o = .ok := by
  unfold Dev.letIn
  split
  · rfl
  · rw [if_neg (by omega), if_neg (by simp only [rHst]; omega), if_neg (by simp only [rRegion]; omega),
      if_neg (by simp only [rDbgStat]; omega), if_neg (by simp only [rDbgCtrl, rDbgPolicy]; omega), if_neg (by omega)]

theorem Dev.wordClosed_channelBlock (d : Dev) (r : Rights) (write : Bool) {w : Nat} (hlow : 0x100000 ≤ w) (hhigh : w < 0x200000) :
    d.wordClosed r w write = false := by
  rw [Dev.wordClosed, if_neg (by simp only [rDbgStat]; omega), d.letIn_channelBlock r hlow hhigh]
  rfl

/-- HP_CTRL is in the sideband's subset, but not in reset (R501). -/
theorem sideWrites_rHpCtrl : ∀ c : Fin 32, sideWrites (rHpCtrl c) = BitVec.allOnes 32 ∧ sideAlways (rHpCtrl c) = false := by decide

/-- HP_CTRL is open to every source that its path lets through (R451, R501). -/
theorem Dev.agentWrite_hpCtrl {d : Dev} {ag : Agent} {c : Fin 32} (h : Writes d ag (rHpCtrl c)) (v : Reg) :
    d.agentWrite ag (rHpCtrl c) v = d.hpCtrl c v := by
  obtain ⟨hreach, hreset⟩ := h
  have hc := c.isLt
  have ho := rHpCtrl_eq c
  by_cases hside : ag.kind = 1
  · obtain ⟨hall, hnever⟩ := sideWrites_rHpCtrl c
    have hserves : d.sideInReset = false := Bool.eq_false_iff.2 fun hin => by
      rw [hreset hside hin] at hnever
      exact Bool.noConfusion hnever
    have hpath : (!d.reaches ag || rHpCtrl c % 4 != 0) = false := by
      rw [hreach, show rHpCtrl c % 4 = 0 by omega]
      rfl
    have hstore : d.sideStore (rHpCtrl c) v = (true, d.hpCtrl c v) := by
      rw [Dev.sideStore, hall]
      refine (if_neg (by decide)).trans ?_
      rw [BitVec.and_allOnes, d.writeReg_hpCtrl]
    rw [Dev.agentWrite, hpath, if_neg Bool.false_ne_true, if_pos hside, hserves, Bool.false_and, if_neg Bool.false_ne_true,
      hstore]
  · rw [d.agentWrite_of_admitted ag _ v hreach hside (by omega) (d.letIn_channelBlock _ (by omega) (by omega))
      (d.wordClosed_channelBlock _ true (by omega) (by omega))]
    exact d.writeReg_hpCtrl _ c v

/-- A retraining that HP_CTRL asks for goes out in a link beat (R76). -/
theorem Dev.hpCtrl_retrain {d : Dev} {c : Nat} (hup : (d.host c).up = true) :
    d.hpCtrl c 0x80000000 = d.updHost c fun h => ({ h with askTrain := true } : HostPort).linkBeat false := by
  have hnever : ∀ b, ¬(rbit (0x80000000 : Reg) 30 && b) = true := by decide
  unfold Dev.hpCtrl
  dsimp only
  rw [if_neg (hnever _), hup]
  rfl

/-- HP_CTRL revives a channel that is down (R86). -/
theorem Dev.hpCtrl_revive {d : Dev} {c : Nat} (hdown : (d.host c).down = true) :
    d.hpCtrl c 0x40000000 = d.beginTraining c .start := by
  have hnever : ∀ b, ¬(rbit (0x40000000 : Reg) 31 && b) = true := by decide
  unfold Dev.hpCtrl
  rw [if_neg (hnever _)]
  dsimp only
  rw [hdown]
  rfl

end Sys2Proof.Machine

namespace Sys2Proof.Proofs

open Sys2Proof.Machine Sys2Proof.Claims

/-- Settles O6: an attempt ends in normal operation, in one more failure or in a channel that is down, and the end of a start that it
may bring leaves its channel; each bit of HP_CTRL acts on the channel. -/
theorem hostTraining : Obligations.HostTraining := by
  unfold Obligations.HostTraining
  intro s c ok completed rack ag h
  refine ⟨fun cause hlive htraining hfrost => ?_, fun hwrites hup hdown => ?_, fun hwrites hdown => ?_⟩
  · refine runs_live _ s _ (fun d => (d.trainAttempt c ok completed rack).sixCheck c) rfl hlive ?_
    obtain ⟨hhost, hreg⟩ := (s.dev.trainAttempt c ok completed rack).sixCheck_keeps c
    have herr := hreg.reg (rHpErr c) (by rw [rHpErr, rCh]; omega) (by rw [rHpErr, rCh]; omega)
    simp only [Dev.host_settle, Dev.reg_settle, hhost, herr]
    exact ⟨Dev.trainAttempt_up ok completed rack htraining hfrost, Dev.trainAttempt_fails ok completed rack htraining hfrost⟩
  · refine runs_of _ s _ (fun d => d.agentWrite ag (rHpCtrl c) 0x80000000) rfl ?_
    rw [Dev.agentWrite_hpCtrl hwrites, Dev.hpCtrl_retrain hup, Dev.host_settle, Dev.host_updHost, if_pos rfl]
    exact ⟨HostPort.askTrain_linkBeat _ false, HostPort.beats_linkBeat { h with askTrain := true } false hdown⟩
  · refine runs_of _ s _ (fun d => d.agentWrite ag (rHpCtrl c) 0x40000000) rfl ?_
    rw [Dev.agentWrite_hpCtrl hwrites, Dev.hpCtrl_revive hdown, Dev.host_settle, Dev.host_beginTraining]
    exact ⟨rfl, rfl⟩

end Sys2Proof.Proofs

/-! Proof of the statement about the ATTN_n pins (R118, R496, R520). -/

namespace Sys2Proof.Machine

/-- The pins of a device that has settled stand as the conditions routed to them ask. -/
theorem State.pinsAgree_settle (d : Dev) (p : List Instr) : ({ dev := d.settle, pending := p } : State).pinsAgree = true :=
  beq_iff_eq.2 d.attnLevel_settle.symm

/-- Every step goes on to a device that has settled. -/
theorem step_settles (s : State) : ∃ (d : Dev) (p : List Instr), step s = .next { dev := d.settle, pending := p } := by
  cases h : s.pending with
  | nil => exact ⟨_, _, step_nil s h⟩
  | cons c rest =>
    obtain ⟨d, hd⟩ := exec_cases c { s with pending := rest }
    exact ⟨d, rest, (step_cons s c rest h).trans hd⟩

end Sys2Proof.Machine

namespace Sys2Proof.Proofs

open Sys2Proof.Machine

/-- Settles O54: a tick and every command end by settling the pins. -/
theorem pinsAgreeAfterEveryStep : Obligations.PinsAgreeAfterEveryStep := by
  unfold Obligations.PinsAgreeAfterEveryStep
  intro s
  obtain ⟨d, p, hstep⟩ := step_settles s
  exact ⟨_, hstep, State.pinsAgree_settle d p⟩

end Sys2Proof.Proofs

/-! Proofs of the statements about commands (R87 to R123). -/

/-! ## Commands by ring and index (R97, R101) -/

namespace Sys2Proof.Machine

/-- A function on commands that leaves them in their places. -/
def KeepsPlace (g : Cmd → Cmd) : Prop := ∀ c, (g c).ring = c.ring ∧ (g c).idx = c.idx

theorem Dev.cmd_place {d : Dev} {n : Nat} {i : BitVec 32} {c : Cmd} (h : d.cmd n i = some c) : c.ring.val = n ∧ c.idx = i := by
  have := List.find?_some h
  simpa using this

theorem KeepsPlace.find? {g : Cmd → Cmd} (hg : KeepsPlace g) (l : List Cmd) (n : Nat) (i : BitVec 32) :
    (l.map g).find? (fun c => c.ring.val == n && c.idx == i) = (l.find? fun c => c.ring.val == n && c.idx == i).map g := by
  rw [List.find?_map]
  congr 2
  funext c
  simp only [Function.comp_apply, (hg c).1, (hg c).2]

/-- The command at a place, after every command has been changed in its own place. -/
theorem Dev.cmd_map {d e : Dev} {g : Cmd → Cmd} (hg : KeepsPlace g) (h : e.cmds = d.cmds.map g) (n : Nat) (i : BitVec 32) :
    e.cmd n i = (d.cmd n i).map g := by
  rw [Dev.cmd, h, hg.find?]
  rfl

theorem KeepsPlace.ite {f : Cmd → Cmd} (hf : KeepsPlace f) (p : Cmd → Bool) : KeepsPlace fun c => if p c then f c else c :=
  fun c => by
    dsimp only
    split
    · exact hf c
    · exact ⟨rfl, rfl⟩

/-- The command at a place after it has been updated. -/
theorem Dev.cmd_updCp {d : Dev} {n : Nat} {i : BitVec 32} {c : Cmd} {f : Cmd → Cmd} (h : d.cmd n i = some c) (hf : KeepsPlace f) :
    (d.updCp n i f).cmd n i = some (f c) := by
  obtain ⟨hn, hi⟩ := Dev.cmd_place h
  rw [Dev.cmd_map (hf.ite fun c => c.ring.val == n && c.idx == i) rfl, h]
  simp [hn, hi]

/-- A command that has not ended is the command of its row. -/
theorem Dev.rowCmd_eq {d : Dev} {n : Nat} {i : BitVec 32} {c : Cmd} {op : Nat} (hcmd : d.cmd n i = some c) (hop : c.opcode = op)
    (hdone : c.done = none) (htimed : c.timedOut = false) : d.rowCmd n i op = some c := by
  rw [Dev.rowCmd, hcmd]
  simp [hop, hdone, htimed]

open Sys2Proof.Claims

theorem rowCmd_of_started {d : Dev} {n : Fin 1024} {i : BitVec 32} {c : Cmd} {op : Nat} (h : Started d n i op c) :
    d.rowCmd n i op = some c := by
  obtain ⟨-, hcmd, hop, hdone, htimed⟩ := h
  exact Dev.rowCmd_eq hcmd hop hdone htimed

/-! ## The end of a command (R111) -/

/-- How a command is marked when its own work has ended. -/
def Cmd.ended (c : Cmd) (e : CmdEnd) : Cmd := { c with begun := true, done := some e }

theorem keepsPlace_ended (e : CmdEnd) : KeepsPlace fun c => c.ended e := fun _ => ⟨rfl, rfl⟩

theorem Dev.cmd_endCmd {d : Dev} {n : Nat} {i : BitVec 32} {c x : Cmd} (hcmd : d.cmd n i = some x) (hn : c.ring.val = n) (hi : c.idx = i)
    (status r0 r1 : Nat) : (d.endCmd c status r0 r1).cmd n i =
      some (x.ended { status := BitVec.ofNat 8 status, r0 := BitVec.ofNat 64 r0, r1 := BitVec.ofNat 64 r1 }) := by
  subst hn hi
  exact Dev.cmd_updCp (d := d.forget fun o => o == .ring c.ring c.idx) hcmd (keepsPlace_ended _)

/-- The command has ended, with what it was ended with. -/
theorem ended_endCmd {d : Dev} {n : Fin 1024} {i : BitVec 32} {c x : Cmd} (hcmd : d.cmd n i = some x) (hn : c.ring.val = n)
    (hi : c.idx = i) (status r0 r1 : Nat) : Ended (d.endCmd c status r0 r1).settle n i (BitVec.ofNat 8 status) r0 r1 :=
  ⟨_, Dev.cmd_endCmd hcmd hn hi status r0 r1, rfl⟩

/-- Ending a command changes nothing but the words read for it, in the channels, and the commands. -/
theorem Dev.endCmd_frame {d : Dev} {n : Fin 1024} {i : BitVec 32} {c : Cmd} (hcmd : d.cmd n i = some c) (status r0 r1 : Nat) :
    d.endCmd c status r0 r1 =
      { d.forget (fun o => o == .ring n i) with cmds := (d.endCmd c status r0 r1).cmds } := by
  obtain ⟨hn, hi⟩ := Dev.cmd_place hcmd
  obtain rfl : c.ring = n := Fin.ext hn
  subst hi
  rfl

/-! ## The checks of a command (R104) -/

@[simp] theorem Dev.rangesStatus_nil (d : Dev) (x : Access) : d.rangesStatus x [] = 0 := rfl

theorem Dev.checkArgs_of_badArgs (d : Dev) (c : Cmd) {ok : Bool} (rs : List (Nat × Nat × Bool)) (owned : Bool) (state : Nat)
    (h : ok = false) : d.checkArgs c ok rs owned state = 2 := by
  rw [Dev.checkArgs, h]
  rfl

/-- Where arguments and ranges pass, the ownership of the command's SEM and of what it names decides, then the state. -/
theorem Dev.checkArgs_of_ranges {d : Dev} {c : Cmd} {ok : Bool} {rs : List (Nat × Nat × Bool)} (owned : Bool) (state : Nat)
    (hok : ok = true) (hranges : d.rangesStatus c.access rs = 0) :
    d.checkArgs c ok rs owned state = if d.semOk c && owned then state else 5 := by
  rw [Dev.checkArgs, hok, hranges]
  cases d.semOk c <;> cases owned <;> rfl

theorem Dev.checkArgs_pass {d : Dev} {c : Cmd} {ok : Bool} {rs : List (Nat × Nat × Bool)} {owned : Bool} (state : Nat)
    (hok : ok = true) (hranges : d.rangesStatus c.access rs = 0) (hsem : d.semOk c = true) (howned : owned = true) :
    d.checkArgs c ok rs owned state = state := by
  rw [Dev.checkArgs_of_ranges owned state hok hranges, hsem, howned]
  rfl

end Sys2Proof.Machine

/-! ## What the traffic of the command processor leaves alone (R98, R149, R430) -/

namespace Sys2Proof.Machine

/-- The registers below the moraine block that no report writes. -/
def lowReg (o : Nat) : Prop := o < 0x580000 ∧ o ≠ rCpDevsrc

/-- Memory traffic changes channels, links and open requests, the mirror's state, the array, the log and the error counters; the low
registers stay, and the channels that are down. -/
structure Traffic (d d' : Dev) : Prop where
  frame : ∃ cs mor morUe wins dram chans links remotes twin freeUses, d' =
    { d with cs := cs, mor := mor, morUe := morUe, wins := wins, dram := dram, chans := chans, links := links
             remotes := remotes, twin := twin, freeUses := freeUses }
  reg : ∀ o, lowReg o → d'.reg o = d.reg o
  down : ∀ c, (d'.chan c).down = (d.chan c).down

namespace Traffic

variable {d d' : Dev}

theorem refl (d : Dev) : Traffic d d := ⟨⟨_, _, _, _, _, _, _, _, _, _, rfl⟩, fun _ _ => rfl, fun _ => rfl⟩

theorem trans {a b c : Dev} (h : Traffic a b) (k : Traffic b c) : Traffic a c := by
  obtain ⟨⟨_, _, _, _, _, _, _, _, _, _, rfl⟩, hreg, hdown⟩ := h
  obtain ⟨⟨_, _, _, _, _, _, _, _, _, _, rfl⟩, kreg, kdown⟩ := k
  exact ⟨⟨_, _, _, _, _, _, _, _, _, _, rfl⟩, fun o ho => (kreg o ho).trans (hreg o ho), fun c => (kdown c).trans (hdown c)⟩

theorem ite {p : Prop} {_ : Decidable p} {x y : Dev} (h : Traffic d x) (k : Traffic d y) : Traffic d (if p then x else y) := by
  split <;> assumption

theorem foldl {β : Type} {f : Dev → β → Dev} {l : List β} (h : ∀ d, ∀ x ∈ l, Traffic d (f d x)) (d : Dev) :
    Traffic d (l.foldl f d) :=
  List.foldlRecOn l f (refl d) fun b hb x hx => hb.trans (h b x hx)

theorem rings (h : Traffic d d') : d'.rings = d.rings := by obtain ⟨⟨_, _, _, _, _, _, _, _, _, _, rfl⟩, -, -⟩ := h; rfl
theorem cmds (h : Traffic d d') : d'.cmds = d.cmds := by obtain ⟨⟨_, _, _, _, _, _, _, _, _, _, rfl⟩, -, -⟩ := h; rfl
theorem nbos (h : Traffic d d') : d'.nbos = d.nbos := by obtain ⟨⟨_, _, _, _, _, _, _, _, _, _, rfl⟩, -, -⟩ := h; rfl
theorem nextNbo (h : Traffic d d') : d'.nextNbo = d.nextNbo := by obtain ⟨⟨_, _, _, _, _, _, _, _, _, _, rfl⟩, -, -⟩ := h; rfl
theorem zeroing (h : Traffic d d') : d'.zeroing = d.zeroing := by obtain ⟨⟨_, _, _, _, _, _, _, _, _, _, rfl⟩, -, -⟩ := h; rfl
theorem regionUe (h : Traffic d d') : d'.regionUe = d.regionUe := by obtain ⟨⟨_, _, _, _, _, _, _, _, _, _, rfl⟩, -, -⟩ := h; rfl
theorem sems (h : Traffic d d') : d'.sems = d.sems := by obtain ⟨⟨_, _, _, _, _, _, _, _, _, _, rfl⟩, -, -⟩ := h; rfl
theorem semPoison (h : Traffic d d') : d'.semPoison = d.semPoison := by obtain ⟨⟨_, _, _, _, _, _, _, _, _, _, rfl⟩, -, -⟩ := h; rfl
theorem floes (h : Traffic d d') : d'.floes = d.floes := by obtain ⟨⟨_, _, _, _, _, _, _, _, _, _, rfl⟩, -, -⟩ := h; rfl
theorem logical (h : Traffic d d') : d'.logical = d.logical := by obtain ⟨⟨_, _, _, _, _, _, _, _, _, _, rfl⟩, -, -⟩ := h; rfl
theorem time (h : Traffic d d') : d'.time = d.time := by obtain ⟨⟨_, _, _, _, _, _, _, _, _, _, rfl⟩, -, -⟩ := h; rfl
theorem clock (h : Traffic d d') : d'.clock = d.clock := by obtain ⟨⟨_, _, _, _, _, _, _, _, _, _, rfl⟩, -, -⟩ := h; rfl

theorem ring (h : Traffic d d') (n : Nat) : d'.ring n = d.ring n := by rw [Dev.ring, h.rings, Dev.ring]
theorem cmd (h : Traffic d d') (n : Nat) (i : BitVec 32) : d'.cmd n i = d.cmd n i := by rw [Dev.cmd, h.cmds, Dev.cmd]
theorem floe (h : Traffic d d') (n : Nat) : d'.floe n = d.floe n := by rw [Dev.floe, h.floes, Dev.floe]
theorem logi (h : Traffic d d') (f : Nat) : d'.logi f = d.logi f := by rw [Dev.logi, h.logical, Dev.logi]
theorem sem (h : Traffic d d') (q : Nat) : d'.sem q = d.sem q := by rw [Dev.sem, h.sems, Dev.sem]
theorem semPoisoned (h : Traffic d d') (q : Nat) : d'.semPoisoned q = d.semPoisoned q := by
  rw [Dev.semPoisoned, h.semPoison, Dev.semPoisoned]

theorem wordOf (h : Traffic d d') (a : Nat) : d'.wordOf a = d.wordOf a := by
  have hcfg := h.reg (rChCfg 0) ⟨by decide, by decide⟩
  simp only [Dev.wordOf, Dev.place, Dev.order, Dev.intlvG, hcfg]

theorem wordDown (h : Traffic d d') (n : Nat) : d'.wordDown n = d.wordDown n := h.down _

theorem semOwned (h : Traffic d d') (field : Option (BitVec 4)) {q : Nat} (hq : q < 4096) :
    d'.semOwned field q = d.semOwned field q := by
  have hown := h.reg (rSemOwn (q / 4)) ⟨by simp only [rSemOwn]; omega, by simp only [rSemOwn, rCpDevsrc]; omega⟩
  simp only [Dev.semOwned, hown]

/-- The region table lies below the moraine block. -/
theorem lowReg_region {a : Nat} (ha : a < 2 ^ 41) : lowReg (rRegion (a / 2 ^ 21)) := by
  constructor <;> simp only [rRegion, rCpDevsrc] <;> omega

theorem region (h : Traffic d d') {a : Nat} (ha : a < 2 ^ 41) : d'.region a = d.region a := h.reg _ (lowReg_region ha)

theorem regionRefused (h : Traffic d d') (a : Nat) : d'.regionRefused a = d.regionRefused a := by
  rw [Dev.regionRefused, h.regionUe, Dev.regionRefused]

theorem mayAccess (h : Traffic d d') (x : Access) {a : Nat} (ha : a < 2 ^ 41) (write : Bool) :
    d'.mayAccess x a write = d.mayAccess x a write := by
  rw [Dev.mayAccess, Dev.worldOk, Dev.leaseOk, h.region ha, h.regionRefused]
  rfl

/-! ### Named updates -/

theorem updChan (d : Dev) (c : Nat) (f : Chan → Chan) (hf : ∀ x, (f x).down = x.down) : Traffic d (d.updChan c f) :=
  ⟨⟨_, _, _, _, _, _, _, _, _, _, rfl⟩, fun _ _ => rfl, fun k => by
    rw [Dev.updChan, Dev.chan_setChan]
    split
    · next h => rw [hf, h]
    · rfl⟩

theorem freshId (d : Dev) (c : Nat) : Traffic d (d.freshId c).2 :=
  updChan d c (fun x => { x with nextId := x.nextId + 1 }) fun _ => rfl

theorem dropRepair (d : Dev) (n : Nat) : Traffic d (d.dropRepair n) := updChan d _ _ fun _ => rfl

theorem bufferWord (d : Dev) (b : BufWord) : Traffic d (d.bufferWord b) :=
  (dropRepair d b.word).trans (updChan _ _ _ fun x => by split <;> rfl)

end Traffic

/-- Traffic beside the channels and the array: the log, the counters, and what the links carry. -/
structure SideTraffic (d d' : Dev) : Prop extends Traffic d d' where
  chans : d'.chans = d.chans
  dram : d'.dram = d.dram

namespace SideTraffic

theorem refl (d : Dev) : SideTraffic d d := ⟨.refl d, rfl, rfl⟩

theorem trans {a b c : Dev} (h : SideTraffic a b) (k : SideTraffic b c) : SideTraffic a c :=
  ⟨h.toTraffic.trans k.toTraffic, k.chans.trans h.chans, k.dram.trans h.dram⟩

theorem ite {p : Prop} {_ : Decidable p} {d x y : Dev} (h : SideTraffic d x) (k : SideTraffic d y) :
    SideTraffic d (if p then x else y) := by
  split <;> assumption

theorem chan {d d' : Dev} (h : SideTraffic d d') (c : Nat) : d'.chan c = d.chan c := by rw [Dev.chan, h.chans, Dev.chan]

theorem buffered {d d' : Dev} (h : SideTraffic d d') (n : Nat) : d'.buffered n = d.buffered n := by
  rw [Dev.buffered, h.chan, Dev.buffered]

theorem of_log {d d' : Dev} (h : SameButLog d d') : SideTraffic d d' := by
  obtain ⟨⟨_, _, _, _, rfl⟩, hreg⟩ := h
  refine ⟨⟨⟨_, _, _, _, _, _, _, _, _, _, rfl⟩, fun o ho => hreg o ?_, fun _ => rfl⟩, rfl, rfl⟩
  obtain ⟨hlow, hsrc⟩ := ho
  simp only [reportRegs, List.mem_cons, List.not_mem_nil, or_false, rMorSeq, rMorFatal, rMorStat]
  omega

theorem report (d : Dev) (code sev ukind unit addr info : Nat) (f : Option (BitVec 4)) :
    SideTraffic d (d.report code sev ukind unit addr info f) := of_log (d.report_frame ..)

theorem setReg (d : Dev) (o : Nat) (v : Reg) (ho : ¬ lowReg o) : SideTraffic d (d.setReg o v) :=
  ⟨⟨⟨_, _, _, _, _, _, _, _, _, _, rfl⟩, fun p hp => by
    rw [Dev.reg_setReg, if_neg]
    rintro rfl
    exact ho hp, fun _ => rfl⟩, rfl, rfl⟩

theorem count (d : Dev) (o n : Nat) (ho : 0x580000 ≤ o) : SideTraffic d (d.count o n) :=
  (setReg d o _ fun h => by have := h.1; omega).trans (setReg _ _ _ fun h => by have := h.1; omega)

theorem twin (d : Dev) (t : Twin) : SideTraffic d { d with twin := t } :=
  ⟨⟨⟨_, _, _, _, _, _, _, _, _, _, rfl⟩, fun _ _ => rfl, fun _ => rfl⟩, rfl, rfl⟩

theorem remotes (d : Dev) (r : List Remote) : SideTraffic d { d with remotes := r } :=
  ⟨⟨⟨_, _, _, _, _, _, _, _, _, _, rfl⟩, fun _ _ => rfl, fun _ => rfl⟩, rfl, rfl⟩

theorem setLink (d : Dev) (l : Nat) (x : Link) : SideTraffic d (d.setLink l x) :=
  ⟨⟨⟨_, _, _, _, _, _, _, _, _, _, rfl⟩, fun _ _ => rfl, fun _ => rfl⟩, rfl, rfl⟩

theorem freeUses (d : Dev) (k : Nat) : SideTraffic d { d with freeUses := k } :=
  ⟨⟨⟨_, _, _, _, _, _, _, _, _, _, rfl⟩, fun _ _ => rfl, fun _ => rfl⟩, rfl, rfl⟩

theorem linkDrain (d : Dev) (l : Nat) : SideTraffic d (d.linkDrain l) :=
  ite (setLink d l _) ((setLink d l _).trans (remotes _ _))

theorem linkSend (d : Dev) (l : Nat) (p : Packet) : SideTraffic d (d.linkSend l p) :=
  ite (refl d) ((setLink d l _).trans (linkDrain _ l))

theorem mirrorSend (d : Dev) (typ ch addr : Nat) (x : Line) (mask : BitVec 64) (poison : Bool) :
    SideTraffic d (d.mirrorSend typ ch addr x mask poison) := by
  unfold Dev.mirrorSend Dev.remoteRequest
  refine (refl d).ite ?_
  cases d.freeTag with
  | none => exact refl d
  | some t => exact (remotes d _).trans (linkSend _ _ _)

theorem mirrorWrite (d : Dev) (n : Nat) (x : Line) (mask : BitVec 64) (poison : Bool) :
    SideTraffic d (d.mirrorWrite n x mask poison) :=
  (mirrorSend d _ _ _ x _ poison).ite (refl d)

theorem copyBroken (d : Dev) (a : Nat) : SideTraffic d (d.copyBroken a) := ite (ite (refl d) (twin d _)) (refl d)

theorem noteMerge (d : Dev) (n : Nat) (w : WordRead) : SideTraffic d (d.noteMerge n w) := by
  have hce : 0x580000 ≤ rErrCe (wordPlace n).ch := by simp only [rErrCe]; omega
  have hue : 0x580000 ≤ rErrUe (wordPlace n).ch := by simp only [rErrUe, rErrCe]; omega
  have hcorrected : SideTraffic d (if w.corrected = 0 then d
      else (d.count (rErrCe (wordPlace n).ch) w.corrected).report 0x0001 1 2 (n / 16 / 32768) (d.addrOf n) 0) :=
    ite (refl d) ((count d _ _ hce).trans (report ..))
  unfold Dev.noteMerge
  exact ite hcorrected (hcorrected.trans ((count _ _ _ hue).trans ((report ..).trans (copyBroken ..))))

end SideTraffic

end Sys2Proof.Machine

/-! ## Words that a read produces (R98, R127, R149) -/

namespace Sys2Proof.Machine

/-- A read that has been answered takes its word from its channel's queue, or leaves the channels as they are. -/
structure WordTaken (d d' : Dev) : Prop extends Traffic d d' where
  wbuf : ∀ c, (d'.chan c).wbuf = (d.chan c).wbuf
  nearWait : ∀ c, (d'.chan c).nearWait = (d.chan c).nearWait
  dram : d'.dram = d.dram

namespace WordTaken

variable {d d' : Dev}

theorem refl (d : Dev) : WordTaken d d := ⟨.refl d, fun _ => rfl, fun _ => rfl, rfl⟩

theorem trans {a b c : Dev} (h : WordTaken a b) (k : WordTaken b c) : WordTaken a c :=
  ⟨h.toTraffic.trans k.toTraffic, fun n => (k.wbuf n).trans (h.wbuf n), fun n => (k.nearWait n).trans (h.nearWait n),
    k.dram.trans h.dram⟩

theorem of_side (h : SideTraffic d d') : WordTaken d d' :=
  ⟨h.toTraffic, fun c => by rw [h.chan], fun c => by rw [h.chan], h.dram⟩

theorem readyQ (d : Dev) (c : Nat) (f : List ReadyWord → List ReadyWord) :
    WordTaken d (d.updChan c fun x => { x with readyQ := f x.readyQ }) := by
  refine ⟨Traffic.updChan d c _ fun _ => rfl, fun k => ?_, fun k => ?_, rfl⟩ <;>
  · rw [Dev.updChan, Dev.chan_setChan]
    split
    · next h => rw [h]
    · rfl

theorem tsvRead {d : Dev} {m : Mover} {n : Nat} {w : WordRead} (h : (d.tsvRead m n).1 = some w) : WordTaken d (d.tsvRead m n).2 := by
  unfold Dev.tsvRead at h ⊢
  cases hready : d.readyAt m n with
  | some e => exact readyQ d _ fun q => dropAt q e.1
  | none =>
    cases hbuf : d.buffered n with
    | some b => exact refl d
    | none =>
      simp only [hready, hbuf] at h ⊢
      split
      · exact of_side (.freeUses d _)
      · next hasks =>
        rw [if_neg hasks] at h
        cases h

theorem takeWords {m : Mover} {as : List Nat} {d : Dev} {ws : List WordRead} (h : (d.takeWords m as).1 = some ws) :
    WordTaken d (d.takeWords m as).2 := by
  induction as generalizing d ws with
  | nil => exact refl d
  | cons a as ih =>
    rw [Dev.takeWords] at h ⊢
    have hread := fun w => tsvRead (d := d) (m := m) (n := d.wordOf a) (w := w)
    generalize d.tsvRead m (d.wordOf a) = r at h hread ⊢
    obtain ⟨w | w, e⟩ := r
    · cases h
    · have hrest := fun ws => ih (d := e) (ws := ws)
      dsimp only at h ⊢
      generalize e.takeWords m as = r at h hrest ⊢
      obtain ⟨ws' | ws', e'⟩ := r
      · cases h
      · exact (hread w rfl).trans (hrest ws' rfl)

theorem tsvReads {d : Dev} {m : Mover} {as : List Nat} {ws : List WordRead} (h : (d.tsvReads m as).1 = some ws) :
    WordTaken d (d.tsvReads m as).2 := by
  unfold Dev.tsvReads at h ⊢
  split
  · next hall =>
    rw [if_pos hall] at h
    exact takeWords h
  · next hnone =>
    rw [if_neg hnone] at h
    cases h

end WordTaken

end Sys2Proof.Machine

/-! ## Lists and bits -/

namespace Sys2Proof.Machine

/-- Where the first element that satisfies a predicate stands. -/
theorem findPos_eq_some {α : Type} {p : α → Bool} {l : List α} {n k : Nat} {a : α} (h : findPos p l n = some (k, a)) :
    ∃ pre post, l = pre ++ a :: post ∧ k = n + pre.length ∧ (∀ x ∈ pre, p x = false) ∧ p a = true := by
  induction l generalizing n with
  | nil => cases h
  | cons x l ih =>
    rw [findPos] at h
    split at h
    · next hx =>
      cases h
      exact ⟨[], l, rfl, rfl, fun _ hy => absurd hy List.not_mem_nil, hx⟩
    · next hx =>
      obtain ⟨pre, post, rfl, rfl, hpre, ha⟩ := ih h
      refine ⟨x :: pre, post, rfl, by rw [List.length_cons]; omega, fun y hy => ?_, ha⟩
      rcases List.mem_cons.1 hy with rfl | hy
      · simpa using hx
      · exact hpre y hy

theorem findPos_map_snd {α : Type} (p : α → Bool) (l : List α) (n : Nat) : (findPos p l n).map Prod.snd = l.find? p := by
  induction l generalizing n with
  | nil => rfl
  | cons x l ih =>
    rw [findPos, List.find?_cons]
    cases hx : p x with
    | true => rfl
    | false => exact ih (n + 1)

theorem putAt_append_cons {α : Type} (pre post : List α) (a y : α) : putAt (pre ++ a :: post) pre.length y = pre ++ y :: post := by
  induction pre with
  | nil => rfl
  | cons x pre ih => exact congrArg (x :: ·) ih

/-- Each bit of the number of a list of bytes. -/
theorem testBit_leNat (bs : List (BitVec 8)) (j : Nat) : (leNat bs).testBit j = (bs[j / 8]?.getD 0).getLsbD (j % 8) := by
  induction bs generalizing j with
  | nil => simp [leNat]
  | cons b bs ih =>
    rw [leNat, Nat.add_comm, show (256 : Nat) = 2 ^ 8 from rfl, Nat.testBit_two_pow_mul_add _ b.isLt]
    by_cases hj : j < 8
    · rw [if_pos hj, Nat.div_eq_of_lt hj, Nat.mod_eq_of_lt hj]
      rfl
    · rw [if_neg hj, ih, show j / 8 = (j - 8) / 8 + 1 by omega, show (j - 8) % 8 = j % 8 by omega]
      rfl

theorem getLsbD_lineByte (x : Line) (k i : Nat) (hi : i < 8) : (lineByte x k).getLsbD i = x.getLsbD (8 * k + i) := by
  rw [lineByte, BitVec.getLsbD_ofNat, Nat.testBit_shiftRight, BitVec.testBit_toNat]
  simp [hi]

/-- A merged line takes the enabled bytes of the one and the others of the other. -/
theorem getLsbD_mergeLine (old new : Line) (mask : BitVec 64) {j : Nat} (hj : j < 512) :
    (mergeLine old new mask).getLsbD j = if mask.getLsbD (j / 8) then new.getLsbD j else old.getLsbD j := by
  have hbyte : j / 8 < 64 := by omega
  have hpos : 8 * (j / 8) + j % 8 = j := by omega
  rw [mergeLine, bytesLine, BitVec.getLsbD_ofNat, testBit_leNat, List.getElem?_map, List.getElem?_range hbyte]
  simp only [hj, decide_true, Bool.true_and, Option.map_some, Option.getD_some]
  split <;> rw [getLsbD_lineByte _ _ _ (by omega), hpos]

theorem getLsbD_zero_line (j : Nat) : (0 : Line).getLsbD j = false := BitVec.getLsbD_zero

theorem getLsbD_keepBits (old new keep : Line) {j : Nat} (hkeep : keep.getLsbD j = false) :
    (keepBits old new keep).getLsbD j = new.getLsbD j := by
  simp only [keepBits, BitVec.getLsbD_or, BitVec.getLsbD_and, BitVec.getLsbD_not, hkeep, Bool.not_false, Bool.and_true, Bool.and_false,
    Bool.or_false]
  by_cases hj : j < 512
  · simp only [hj, decide_true, Bool.and_true]
  · rw [BitVec.getLsbD_of_ge new j (by omega), Bool.false_and]

theorem getLsbD_maskBits (mask : BitVec 64) {j : Nat} (hj : j < 512) : (maskBits mask).getLsbD j = mask.getLsbD (j / 8) := by
  rw [maskBits, getLsbD_mergeLine _ _ _ hj]
  rw [BitVec.getLsbD_allOnes, decide_eq_true hj, getLsbD_zero_line]
  cases mask.getLsbD (j / 8) <;> rfl

theorem getLsbD_allOnes_byte {j : Nat} (hj : j < 512) : (BitVec.allOnes 64).getLsbD (j / 8) = true := by
  rw [BitVec.getLsbD_allOnes, decide_eq_true_iff]
  omega

/-- A field of a number, bit by bit. -/
theorem testBit_fieldAt (x k n i : Nat) : (fieldAt x k n).testBit i = (decide (i < 8 * n) && x.testBit (8 * k + i)) := by
  rw [fieldAt, Nat.testBit_mod_two_pow, Nat.testBit_shiftRight]

end Sys2Proof.Machine

/-! ## A write in the write buffer (R149) -/

namespace Sys2Proof.Machine

/-- A buffered word holds bit `j`, as `v`. -/
def BufWord.Gives (b : BufWord) (j : Nat) (v : Bool) : Prop :=
  b.mask.getLsbD (j / 8) = true ∧ b.keep.getLsbD j = false ∧ b.data.getLsbD j = v

/-- Two buffered words merge into one that holds what the later one holds. -/
theorem BufWord.gives_merge (a : BufWord) {b : BufWord} {j : Nat} {v : Bool} (hj : j < 512) (h : b.Gives j v) :
    (a.merge b).Gives j v := by
  obtain ⟨hmask, hkeep, hdata⟩ := h
  refine ⟨?_, ?_, ?_⟩
  · simp only [BufWord.merge, BitVec.getLsbD_or, hmask, Bool.or_true]
  · simp only [BufWord.merge, BitVec.getLsbD_or, BitVec.getLsbD_and, BitVec.getLsbD_not, hkeep, hmask, getLsbD_maskBits _ hj,
      Bool.not_true, Bool.and_false, Bool.false_and, Bool.or_false]
  · simp only [BufWord.merge]
    split
    · exact hdata
    · rw [getLsbD_mergeLine _ _ _ hj, if_pos hmask, getLsbD_keepBits _ _ _ hkeep, hdata]

/-- What a buffered word holds is what reaches the array. -/
theorem BufWord.onto_gives {b : BufWord} {j : Nat} {v : Bool} (hj : j < 512) (h : b.Gives j v) (m : EccMem) :
    (b.onto m).1.getLsbD j = v := by
  obtain ⟨hmask, hkeep, hdata⟩ := h
  rw [BufWord.onto]
  split
  · split
    · exact hdata
    · rw [getLsbD_mergeLine _ _ _ hj, if_pos hmask, hdata]
  · split
    · exact hdata
    · rw [getLsbD_mergeLine _ _ _ hj, if_pos hmask, getLsbD_keepBits _ _ _ hkeep, hdata]

/-- A buffered word is whole and sound, with these marks. -/
def BufWord.Marked (b : BufWord) (marks : BitVec 8) : Prop := b.whole = true ∧ b.ue = false ∧ b.marks = marks

theorem BufWord.whole_iff (b : BufWord) : b.whole = true ↔ b.mask = BitVec.allOnes 64 ∧ b.keep = 0 := by
  simp [BufWord.whole]

theorem BufWord.marked_merge (a : BufWord) {b : BufWord} {marks : BitVec 8} (h : b.Marked marks) : (a.merge b).Marked marks := by
  obtain ⟨hwhole, -, hmarks⟩ := h
  obtain ⟨hmask, hkeep⟩ := b.whole_iff.1 hwhole
  refine ⟨(BufWord.whole_iff _).2 ⟨?_, ?_⟩, ?_, ?_⟩
  · refine BitVec.eq_of_getLsbD_eq fun i hi => ?_
    simp only [BufWord.merge, hmask, BitVec.getLsbD_or, BitVec.getLsbD_allOnes, hi, decide_true, Bool.or_true]
  · refine BitVec.eq_of_getLsbD_eq fun j hj => ?_
    simp only [BufWord.merge, hmask, hkeep, BitVec.getLsbD_or, BitVec.getLsbD_and, BitVec.getLsbD_not, getLsbD_maskBits _ hj,
      getLsbD_allOnes_byte hj, getLsbD_zero_line, Bool.not_true, Bool.and_false, Bool.false_and, Bool.or_false]
  · simp [BufWord.merge, hwhole]
  · simp [BufWord.merge, hwhole, hmarks]

theorem BufWord.onto_marked {b : BufWord} {marks : BitVec 8} (h : b.Marked marks) (m : EccMem) : (b.onto m).2 = marks := by
  obtain ⟨hwhole, hue, hmarks⟩ := h
  rw [BufWord.onto, hue, hwhole]
  exact hmarks

theorem BufWord.merge_word (a b : BufWord) : (a.merge b).word = a.word := rfl

/-- The buffered word of a number, where one entry of a list of them has been replaced by one of the same number. -/
theorem find?_word_replaced (pre post : List BufWord) {a y : BufWord} (hy : y.word = a.word) (hpre : ∀ x ∈ pre, (x.word == a.word) = false)
    (n : Nat) : (pre ++ y :: post).find? (fun b => b.word == n) =
      if n = a.word then some y else (pre ++ a :: post).find? fun b => b.word == n := by
  have hnone : pre.find? (fun b => b.word == a.word) = none := List.find?_eq_none.2 fun x hx => by simp [hpre x hx]
  split
  · next hn =>
    subst hn
    rw [List.find?_append, hnone]
    simp [hy]
  · next hn =>
    rw [List.find?_append, List.find?_append, List.find?_cons_of_neg (by simpa [hy] using Ne.symm hn),
      List.find?_cons_of_neg (by simpa using Ne.symm hn)]

theorem Dev.buffered_updChan (d : Dev) (c : Nat) (f : Chan → Chan) (n : Nat) : (d.updChan c f).buffered n =
    if (wordPlace n).ch = c then (f (d.chan c)).wbuf.find? (fun b => b.word == n) else d.buffered n := by
  rw [Dev.buffered, Dev.updChan, Dev.chan_setChan]
  split <;> rfl

theorem Dev.buffered_dropRepair (d : Dev) (k n : Nat) : (d.dropRepair k).buffered n = d.buffered n := by
  rw [Dev.dropRepair, Dev.buffered_updChan]
  split
  · next h => rw [Dev.buffered, h]
  · rfl

/-- A write enters the write buffer: it merges with a buffered write of its word, and leaves the other words. -/
theorem Dev.buffered_bufferWord (d : Dev) (b : BufWord) (n : Nat) : (d.bufferWord b).buffered n =
    if n = b.word then some ((d.buffered b.word).elim b fun a => a.merge b) else d.buffered n := by
  have hold : ∀ k, (wordPlace k).ch = (wordPlace b.word).ch → d.buffered k =
      ((d.dropRepair b.word).chan (wordPlace b.word).ch).wbuf.find? fun x => x.word == k := fun k hk => by
    rw [← d.buffered_dropRepair b.word, Dev.buffered, hk]
  rw [Dev.bufferWord, Dev.buffered_updChan]
  by_cases hch : (wordPlace n).ch = (wordPlace b.word).ch
  · rw [if_pos hch, hold n hch, hold b.word rfl]
    generalize ((d.dropRepair b.word).chan (wordPlace b.word).ch) = ch
    cases hpos : findPos (fun x : BufWord => x.word == b.word) ch.wbuf 0 with
    | none =>
      have hnone : ch.wbuf.find? (fun x => x.word == b.word) = none := by
        rw [← findPos_map_snd _ _ 0, hpos]
        rfl
      rw [List.find?_append, hnone]
      by_cases hn : n = b.word
      · subst hn
        simp [hnone]
      · simp [hn, Ne.symm hn]
    | some e =>
      obtain ⟨i, a⟩ := e
      have hfind : ch.wbuf.find? (fun x => x.word == b.word) = some a := by
        rw [← findPos_map_snd _ _ 0, hpos]
        rfl
      obtain ⟨pre, post, hl, rfl, hpre, ha⟩ := findPos_eq_some hpos
      have ha : a.word = b.word := eq_of_beq ha
      rw [hfind]
      simp only [hl, Nat.zero_add, putAt_append_cons, Option.elim_some]
      rw [find?_word_replaced pre post (a.merge_word b) (fun x hx => ha ▸ hpre x hx) n, ha]
  · rw [if_neg hch, if_neg fun h => hch (by rw [h]), Dev.buffered_dropRepair]

end Sys2Proof.Machine

/-! ## Stores of the command processor and what is read after them (R83, R98, R149) -/

namespace Sys2Proof.Machine

/-- What is read of a buffered word is what the buffer gives. -/
theorem Dev.seen_of_buffered {d : Dev} {n : Nat} {b : BufWord} (h : d.buffered n = some b) :
    (d.seen n).data = (b.onto d.dram).1 ∧ (d.seen n).poison = ((b.onto d.dram).2 != 0) := by
  rw [Dev.seen, h]
  exact ⟨rfl, rfl⟩

theorem Dev.seen_congr {d d' : Dev} {n : Nat} (hbuf : d'.buffered n = d.buffered n) (hdram : d'.dram = d.dram) : d'.seen n = d.seen n := by
  rw [Dev.seen, hbuf, hdram, Dev.seen]

theorem mergeWord_whole (old : WordRead) (x : Line) (poison : Bool) :
    mergeWord old x (BitVec.allOnes 64) poison 0 = (x, if poison then 0xFF else 0, false) := if_pos ⟨rfl, rfl⟩

theorem mergeWord_gives (old : WordRead) (x : Line) {mask : BitVec 64} (poison : Bool) {j : Nat} (hj : j < 512)
    (hmask : mask.getLsbD (j / 8) = true) : (mergeWord old x mask poison 0).1.getLsbD j = x.getLsbD j := by
  have hmerged : (mergeLine old.data (keepBits old.data x 0) mask).getLsbD j = x.getLsbD j := by
    rw [getLsbD_mergeLine _ _ _ hj, if_pos hmask, getLsbD_keepBits _ _ _ (getLsbD_zero_line j)]
  rw [mergeWord]
  split
  · rfl
  · split <;> exact hmerged

/-- A store of some bytes by a mover puts a word into the write buffer that gives those bytes; all else is as traffic leaves it. -/
structure Stored (d d' : Dev) (n : Nat) (x : Line) (mask : BitVec 64) (poison : Bool) : Prop extends Traffic d d' where
  dram : d'.dram = d.dram
  others : ∀ k, k ≠ n → d'.buffered k = d.buffered k
  gives : ∃ b, d'.buffered n = some b ∧ (∀ j, j < 512 → mask.getLsbD (j / 8) = true → b.Gives j (x.getLsbD j)) ∧
    (mask = BitVec.allOnes 64 → b.Marked (if poison then 0xFF else 0))

theorem Stored.bufferWord {d : Dev} {b : BufWord} {x : Line} {mask : BitVec 64} {poison : Bool}
    (hgives : ∀ j, j < 512 → mask.getLsbD (j / 8) = true → b.Gives j (x.getLsbD j))
    (hmarks : mask = BitVec.allOnes 64 → b.Marked (if poison then 0xFF else 0)) : Stored d (d.bufferWord b) b.word x mask poison := by
  refine ⟨.bufferWord d b, rfl, fun k hk => by rw [Dev.buffered_bufferWord, if_neg hk],
    ⟨_, by rw [Dev.buffered_bufferWord, if_pos rfl], ?_⟩⟩
  cases d.buffered b.word with
  | none => exact ⟨hgives, hmarks⟩
  | some a => exact ⟨fun j hj hm => a.gives_merge hj (hgives j hj hm), fun hm => a.marked_merge (hmarks hm)⟩

theorem Stored.of_frame {d e d' : Dev} {n : Nat} {x : Line} {mask : BitVec 64} {poison : Bool} (h : Traffic d e)
    (hdram : e.dram = d.dram) (hbuf : ∀ k, e.buffered k = d.buffered k) (k : Stored e d' n x mask poison) :
    Stored d d' n x mask poison :=
  ⟨h.trans k.toTraffic, k.dram.trans hdram, fun j hj => (k.others j hj).trans (hbuf j), k.gives⟩

theorem Dev.buffered_freshId (d : Dev) (c n : Nat) : (d.freshId c).2.buffered n = d.buffered n := by
  have h := d.buffered_updChan c (fun x => { x with nextId := x.nextId + 1 }) n
  refine h.trans ?_
  split
  · next hc => rw [Dev.buffered, hc]
  · rfl

/-- The buffered word that a write makes: its own bytes alone where they are kept apart, else the whole merged word. -/
def WordWrite.entry (w : WordWrite) (apart : Bool) (r : Line × BitVec 8 × Bool) (held : List Nat) (id : Nat) : BufWord :=
  if apart then w.buf id w.data w.mask w.keep (if w.poison then maskWords w.mask else 0) held
  else w.buf id r.1 (BitVec.allOnes 64) 0 r.2.1 held

theorem WordWrite.entry_word (w : WordWrite) (apart : Bool) (r : Line × BitVec 8 × Bool) (held : List Nat) (id : Nat) :
    (w.entry apart r held id).word = w.word := by
  rw [WordWrite.entry]
  split <;> rfl

theorem WordWrite.entry_gives {w : WordWrite} (hkeep : w.keep = 0) (apart : Bool) (old : WordRead) (held : List Nat) (id : Nat) {j : Nat}
    (hj : j < 512) (hmask : w.mask.getLsbD (j / 8) = true) :
    (w.entry apart (mergeWord old w.data w.mask w.poison 0) held id).Gives j (w.data.getLsbD j) := by
  rw [WordWrite.entry]
  split
  · exact ⟨hmask, by rw [hkeep]; exact getLsbD_zero_line j, rfl⟩
  · exact ⟨getLsbD_allOnes_byte hj, getLsbD_zero_line j, mergeWord_gives _ _ _ hj hmask⟩

theorem WordWrite.entry_marked {w : WordWrite} (hmask : w.mask = BitVec.allOnes 64) (old : WordRead) (held : List Nat) (id : Nat) :
    (w.entry false (mergeWord old w.data w.mask w.poison 0) held id).Marked (if w.poison then 0xFF else 0) := by
  rw [hmask, mergeWord_whole]
  exact ⟨(BufWord.whole_iff _).2 ⟨rfl, rfl⟩, rfl, rfl⟩

/-- Are the bytes of a write kept apart in the buffer (R209, R210)? -/
def Dev.writesApart (d : Dev) (w : WordWrite) : Bool := !(w.mask == BitVec.allOnes 64 && w.keep == 0) && d.keepsApart w.origin w.word

/-- A write of some bytes of a word: what its mirror and its reports send and log, and one word for the buffer. -/
theorem Dev.writeWord_eq (d : Dev) (w : WordWrite) (hmask : w.mask ≠ 0) : ∃ e, SideTraffic d e ∧
    (d.writeWord w).1 = (e.freshId (wordPlace w.word).ch).2.bufferWord (w.entry (d.writesApart w)
      (mergeWord (d.seen w.word) w.data w.mask w.poison w.keep) (d.holders w.origin w.word) (e.freshId (wordPlace w.word).ch).1) := by
  have hmirror := SideTraffic.mirrorWrite d w.word (keepBits (d.seen w.word).data w.data w.keep) w.mask w.poison
  unfold Dev.writeWord
  rw [if_neg hmask]
  refine ⟨_, ?side, rfl⟩
  exact hmirror.ite (hmirror.trans (.noteMerge _ _ _))

theorem Dev.stored_writeWord (d : Dev) (w : WordWrite) (hmask : w.mask ≠ 0) (hkeep : w.keep = 0) :
    Stored d (d.writeWord w).1 w.word w.data w.mask w.poison := by
  obtain ⟨e, hside, heq⟩ := d.writeWord_eq w hmask
  have hapart : w.mask = BitVec.allOnes 64 → d.writesApart w = false := fun hall => by simp [Dev.writesApart, hall, hkeep]
  rw [heq, hkeep]
  generalize (wordPlace w.word).ch = c
  generalize d.writesApart w = apart at hapart ⊢
  generalize d.holders w.origin w.word = held
  have hword := w.entry_word apart (mergeWord (d.seen w.word) w.data w.mask w.poison 0) held (e.freshId c).1
  have hstored := Stored.bufferWord (d := (e.freshId c).2) (fun j hj => w.entry_gives hkeep apart (d.seen w.word) held (e.freshId c).1 hj)
    fun hall => by rw [hapart hall]; exact w.entry_marked hall (d.seen w.word) held (e.freshId c).1
  rw [hword] at hstored
  exact hstored.of_frame (hside.toTraffic.trans (.freshId e c)) hside.dram fun k => by rw [Dev.buffered_freshId, hside.buffered]

theorem Dev.stored_storeMasked (d : Dev) (m : Mover) (n : Nat) (x : Line) {mask : BitVec 64} (hmask : mask ≠ 0) (poison : Bool) :
    Stored d (d.storeMasked m n x mask poison).1 n x mask poison :=
  d.stored_writeWord (m.write d n x mask poison) hmask rfl

namespace Stored

variable {d d' : Dev} {n : Nat} {x : Line} {mask : BitVec 64} {poison : Bool}

theorem isSome (h : Stored d d' n x mask poison) : (d'.buffered n).isSome = true := by
  obtain ⟨b, hb, -⟩ := h.gives
  rw [hb]
  rfl

theorem seen_ne (h : Stored d d' n x mask poison) {k : Nat} (hk : k ≠ n) : d'.seen k = d.seen k :=
  Dev.seen_congr (h.others k hk) h.dram

/-- Every agent reads the bytes that were stored. -/
theorem seen_bit (h : Stored d d' n x mask poison) {j : Nat} (hj : j < 512) (hmask : mask.getLsbD (j / 8) = true) :
    (d'.seen n).data.getLsbD j = x.getLsbD j := by
  obtain ⟨b, hb, hgives, -⟩ := h.gives
  rw [(Dev.seen_of_buffered hb).1]
  exact BufWord.onto_gives hj (hgives j hj hmask) _

/-- Every agent reads a whole word as it was stored. -/
theorem seen_whole (h : Stored d d' n x (BitVec.allOnes 64) poison) : (d'.seen n).data = x ∧ (d'.seen n).poison = poison := by
  refine ⟨BitVec.eq_of_getLsbD_eq fun j hj => h.seen_bit hj (getLsbD_allOnes_byte hj), ?_⟩
  · obtain ⟨b, hb, -, hmarks⟩ := h.gives
    rw [(Dev.seen_of_buffered hb).2, BufWord.onto_marked (hmarks rfl)]
    cases poison <;> rfl

end Stored

/-! ### Whole words and bytes (R98) -/

theorem Dev.stored_cpWord {d : Dev} (m : Mover) {a : Nat} (x : Line) (poison : Bool) (h : d.wordDown (d.wordOf a) = false) :
    Stored d (d.cpWord m a x poison) (d.wordOf a) x (BitVec.allOnes 64) poison := by
  rw [Dev.cpWord, h]
  exact d.stored_storeMasked m _ x (by decide) poison

theorem Traffic.cpWord (d : Dev) (m : Mover) (a : Nat) (x : Line) (poison : Bool) : Traffic d (d.cpWord m a x poison) := by
  unfold Dev.cpWord
  exact (refl d).ite (d.stored_storeMasked m _ x (by decide) poison).toTraffic

/-! ### Words read for a sender that has ended (R111) -/

/-- A channel whose entry differs from an untouched channel's keeps its write buffer when reads are dropped. -/
theorem Dev.chan_forget {d : Dev} (p : Origin → Bool) {c : Nat} (h : (d.chan c).wbuf ≠ []) :
    (d.forget p).chan c = { d.chan c with readyQ := (d.chan c).readyQ.filter fun w => !p w.origin } :=
  tabGet_map_filter_of_ne (dflt := fun _ => Chan.init) d.chans (fun _ x => { x with readyQ := x.readyQ.filter fun w => !p w.origin }) c
    rfl fun heq => h (congrArg Chan.wbuf heq)

theorem Dev.chan_withdraw {d : Dev} (p : Origin → Bool) {c : Nat} (h : (d.chan c).wbuf ≠ []) :
    (d.withdraw p).chan c = { d.chan c with
      reqs := (d.chan c).reqs.filter fun r => !p r.origin
      recovery := (d.chan c).recovery.map fun v => { v with waiting := v.waiting.filter fun r => !p r.origin }
      readyQ := (d.chan c).readyQ.filter fun w => !p w.origin } :=
  tabGet_map_filter_of_ne (dflt := fun _ => Chan.init) d.chans (fun _ x => { x with
      reqs := x.reqs.filter fun r => !p r.origin
      recovery := x.recovery.map fun v => { v with waiting := v.waiting.filter fun r => !p r.origin }
      readyQ := x.readyQ.filter fun w => !p w.origin }) c
    rfl fun heq => h (congrArg Chan.wbuf heq)

theorem Dev.wbuf_of_buffered {d : Dev} {n : Nat} (h : (d.buffered n).isSome = true) : (d.chan (wordPlace n).ch).wbuf ≠ [] := by
  intro hnil
  rw [Dev.buffered, hnil] at h
  cases h

/-- A buffered word reads as before once the words read for a sender have been dropped. -/
theorem Dev.seen_forget {d : Dev} {n : Nat} (h : (d.buffered n).isSome = true) (p : Origin → Bool) : (d.forget p).seen n = d.seen n :=
  Dev.seen_congr (by rw [Dev.buffered, d.chan_forget p (Dev.wbuf_of_buffered h), Dev.buffered]) rfl

theorem Dev.seen_withdraw {d : Dev} {n : Nat} (h : (d.buffered n).isSome = true) (p : Origin → Bool) :
    (d.withdraw p).seen n = d.seen n ∧ ((d.withdraw p).buffered n).isSome = true := by
  have hbuf : (d.withdraw p).buffered n = d.buffered n := by
    rw [Dev.buffered, d.chan_withdraw p (Dev.wbuf_of_buffered h), Dev.buffered]
  exact ⟨Dev.seen_congr hbuf rfl, hbuf ▸ h⟩

theorem Dev.seen_endCmd {d : Dev} {n : Nat} (h : (d.buffered n).isSome = true) (c : Cmd) (status r0 r1 : Nat) :
    (d.endCmd c status r0 r1).seen n = d.seen n :=
  (Dev.seen_congr (d := d.forget fun o => o == .ring c.ring c.idx) rfl rfl).trans (Dev.seen_forget h _)

theorem Dev.seen_settle (d : Dev) (w : Nat) : d.settle.seen w = d.seen w := rfl

end Sys2Proof.Machine

/-! ## Halts and freezes of floes (R105, R262, R265, R379) -/

namespace Sys2Proof.Machine

/-- A function on commands that changes their floes, and the halt and freeze of their records, at most. -/
def LeavesWork (g : Cmd → Cmd) : Prop := ∀ c, ∃ fs h fr, g c = { c with floes := fs, halted := h, frozen := fr }

theorem LeavesWork.keepsPlace {g : Cmd → Cmd} (hg : LeavesWork g) : KeepsPlace g := fun c => by
  obtain ⟨fs, h, fr, heq⟩ := hg c
  rw [heq]
  exact ⟨rfl, rfl⟩

theorem LeavesWork.comp {g k : Cmd → Cmd} (hg : LeavesWork g) (hk : LeavesWork k) : LeavesWork (k ∘ g) := fun c => by
  obtain ⟨_, _, _, hgc⟩ := hg c
  obtain ⟨fs, h, fr, hkc⟩ := hk (g c)
  exact ⟨fs, h, fr, by rw [Function.comp_apply, hkc, hgc]⟩

/-- Halts and freezes change floes, their logical floes, the commands that launched them, the registers and the log. -/
structure FloeStops (d d' : Dev) : Prop where
  frame : ∃ cs mor morUe wins floes logical cmds, d' =
    { d with cs := cs, mor := mor, morUe := morUe, wins := wins, floes := floes, logical := logical, cmds := cmds }
  cmds : ∃ g, LeavesWork g ∧ d'.cmds = d.cmds.map g

namespace FloeStops

variable {d d' : Dev}

theorem of_same (frame : ∃ cs mor morUe wins floes logical, d' =
    { d with cs := cs, mor := mor, morUe := morUe, wins := wins, floes := floes, logical := logical }) : FloeStops d d' := by
  obtain ⟨_, _, _, _, _, _, rfl⟩ := frame
  exact ⟨⟨_, _, _, _, _, _, _, rfl⟩, id, fun _ => ⟨_, _, _, rfl⟩, (List.map_id _).symm⟩

theorem refl (d : Dev) : FloeStops d d := of_same ⟨_, _, _, _, _, _, rfl⟩

theorem trans {a b c : Dev} (h : FloeStops a b) (k : FloeStops b c) : FloeStops a c := by
  obtain ⟨⟨_, _, _, _, _, _, _, rfl⟩, g, hg, hcmds⟩ := h
  obtain ⟨⟨_, _, _, _, _, _, _, rfl⟩, f, hf, kcmds⟩ := k
  exact ⟨⟨_, _, _, _, _, _, _, rfl⟩, f ∘ g, hg.comp hf, by rw [kcmds, hcmds, List.map_map]⟩

theorem foldl {β : Type} {f : Dev → β → Dev} {l : List β} (h : ∀ d, ∀ x ∈ l, FloeStops d (f d x)) (d : Dev) :
    FloeStops d (l.foldl f d) :=
  List.foldlRecOn l f (refl d) fun b hb x hx => hb.trans (h b x hx)

theorem setFloe (d : Dev) (n : Nat) (x : Floe) : FloeStops d (d.setFloe n x) := of_same ⟨_, _, _, _, _, _, rfl⟩

theorem updLogi (d : Dev) (f : Nat) (g : Logical → Logical) : FloeStops d (d.updLogi f g) := of_same ⟨_, _, _, _, _, _, rfl⟩

theorem setReg (d : Dev) (o : Nat) (v : Reg) : FloeStops d (d.setReg o v) := of_same ⟨_, _, _, _, _, _, rfl⟩

theorem setReg64 (d : Dev) (o : Nat) (v : BitVec 64) : FloeStops d (d.setReg64 o v) := (setReg d o _).trans (setReg _ _ _)

theorem report (d : Dev) (code sev ukind unit addr info : Nat) (f : Option (BitVec 4)) :
    FloeStops d (d.report code sev ukind unit addr info f) := by
  obtain ⟨⟨_, _, _, _, h⟩, -⟩ := d.report_frame code sev ukind unit addr info f
  exact of_same ⟨_, _, _, _, _, _, h⟩

theorem leaveLaunch (d : Dev) (n : Nat) (halted : Option (BitVec 8 × BitVec 64)) (frozen : Bool) :
    FloeStops d (d.leaveLaunch n halted frozen) := by
  unfold Dev.leaveLaunch
  dsimp only
  split
  · refine ⟨⟨_, _, _, _, _, _, _, rfl⟩, _, fun c => ?_, rfl⟩
    split <;> exact ⟨_, _, _, rfl⟩
  · exact refl d

theorem freezeFloe (d : Dev) (n cause : Nat) : FloeStops d (d.freezeFloe n cause) := by
  unfold Dev.freezeFloe
  dsimp only
  split
  · exact refl d
  · exact refl d
  · exact refl d
  · exact (((((leaveLaunch d n none true).trans (setFloe _ n _)).trans (updLogi _ _ _)).trans (setReg _ _ _)).trans
      (setReg64 _ _ _)).trans (report ..)

theorem freezeLogical (d : Dev) (f cause : Nat) : FloeStops d (d.freezeLogical f cause) := by
  unfold Dev.freezeLogical
  split
  · exact freezeFloe d _ cause
  · exact refl d

theorem clock (h : FloeStops d d') : d'.clock = d.clock := by
  obtain ⟨⟨_, _, _, _, _, _, _, rfl⟩, -⟩ := h
  rfl

theorem sems (h : FloeStops d d') : d'.sems = d.sems := by
  obtain ⟨⟨_, _, _, _, _, _, _, rfl⟩, -⟩ := h
  rfl

/-- A command keeps its place and its own work. -/
theorem cmd (h : FloeStops d d') {n : Nat} {i : BitVec 32} {c : Cmd} (hcmd : d.cmd n i = some c) :
    ∃ fs hl fr, d'.cmd n i = some { c with floes := fs, halted := hl, frozen := fr } := by
  obtain ⟨-, g, hg, hcmds⟩ := h
  obtain ⟨fs, hl, fr, heq⟩ := hg c
  exact ⟨fs, hl, fr, by rw [Dev.cmd_map hg.keepsPlace hcmds, hcmd, Option.map_some, heq]⟩

end FloeStops

end Sys2Proof.Machine

/-! ## NOP, FENCE and timeouts (R103, R104, R116, R117) -/

namespace Sys2Proof.Machine

open Sys2Proof.Claims

theorem Dev.nopRow_eq {d : Dev} {n : Nat} {i : BitVec 32} {c : Cmd} (h : d.rowCmd n i 0 = some c) :
    d.nopRow n i = d.endCmd c (if d.semOk c then 0 else 5) := by
  rw [Dev.nopRow, h]
  dsimp only
  rw [Dev.checkArgs_of_ranges true 0 rfl (Dev.rangesStatus_nil ..), Bool.and_true]

theorem Dev.fenceRow_eq {d : Dev} {n : Nat} {i : BitVec 32} {c : Cmd} (h : d.rowCmd n i 5 = some c) (hsem : d.semOk c = true)
    (hscope : c.arg 16 1 ≤ 1) : d.fenceRow n i =
      if c.awaits.any fun w => d.cmdOpen w.1 w.2 then d.updCp n i fun c => { c with begun := true } else d.endCmd c 0 := by
  have hchecks : d.checkArgs c (decide (c.arg 16 1 ≤ 1)) [] true 0 = 0 :=
    Dev.checkArgs_pass 0 (decide_eq_true hscope) (Dev.rangesStatus_nil ..) hsem rfl
  rw [Dev.fenceRow, h]
  dsimp only
  rw [hchecks, ite_self, if_neg (by simp)]

/-- The ranges of a list cover no more than there is between the ends. -/
theorem covered_le {a b : Nat} (hab : a ≤ b) (xs : List (Nat × Nat)) : covered a b xs ≤ b - a := by
  have hinv : ∀ (l : List (Nat × Nat)) (s : Nat × Nat), a ≤ s.1 → s.1 ≤ b → s.2 ≤ s.1 - a →
      (l.foldl (fun (s : Nat × Nat) x => if max s.1 x.1 < min b x.2 then (min b x.2, s.2 + (min b x.2 - max s.1 x.1)) else s) s).2
        ≤ b - a := by
    intro l
    induction l with
    | nil =>
      intro s _ h2 h3
      rw [List.foldl_nil]
      omega
    | cons x l ih =>
      intro s h1 h2 h3
      rw [List.foldl_cons]
      split
      · exact ih _ (by dsimp only; omega) (by dsimp only; omega) (by dsimp only; omega)
      · exact ih s h1 h2 h3
  exact hinv _ _ le_rfl hab (Nat.zero_le _)

/-- A clock that runs has counted its length at some moment, no earlier than the length and the ranges it stood still in allow. -/
theorem dueAt_running {start now : Nat} (h : start ≤ now) (len : Nat) (ps : List (Nat × Nat)) :
    ∃ t, dueAt start len now ps false = some t ∧ start + covered start now ps + len ≤ t := by
  have hcov := covered_le h ps
  unfold dueAt
  dsimp only
  split
  · exact ⟨_, rfl, by omega⟩
  · exact ⟨_, rfl, by omega⟩

theorem Dev.cmds_advanceTo (d : Dev) (t : Nat) : (d.advanceTo t).cmds = d.cmds := by
  unfold Dev.advanceTo
  split
  · rfl
  · split <;> rfl

theorem Dev.colls_advanceTo (d : Dev) (t : Nat) : (d.advanceTo t).colls = d.colls := by
  unfold Dev.advanceTo
  split
  · rfl
  · split <;> rfl

theorem Dev.cmd_advanceTo (d : Dev) (t n : Nat) (i : BitVec 32) : (d.advanceTo t).cmd n i = d.cmd n i := by
  rw [Dev.cmd, Dev.cmds_advanceTo, Dev.cmd]

/-- No collective of the command is committed. -/
def Dev.uncommitted (d : Dev) (c : Cmd) : Prop := ∀ x ∈ d.colls, x.ring = c.ring → x.idx = c.idx → x.commit = false

/-- A timed command that is no LAUNCH and no NBO_POST is ended when it is cancelled. -/
theorem Dev.cancel_of_others {d : Dev} {c : Cmd} (hlaunch : c.opcode ≠ 1) (hpost : c.opcode ≠ 2)
    (hcoll : c.opcode = 0x26 → d.uncommitted c) : ∃ e : Dev, e.cmds = d.cmds ∧ e.clock = d.clock ∧ d.cancel c = e.endCmd c 7 := by
  unfold Dev.cancel
  split
  · next h => exact absurd h hlaunch
  · next h => exact absurd h hpost
  · refine ⟨_, ?_, ?_, rfl⟩ <;> split <;> rfl
  · refine ⟨_, ?_, ?_, rfl⟩ <;> rfl
  · refine ⟨_, ?_, ?_, rfl⟩ <;> rfl
  · refine ⟨_, ?_, ?_, rfl⟩ <;> rfl
  · refine ⟨_, ?_, ?_, rfl⟩ <;> rfl
  · next h =>
    have hnone : ¬ (d.colls.any fun x => x.ring == c.ring && x.idx == c.idx && x.commit) = true := by
      rw [List.any_eq_true]
      rintro ⟨x, hx, hmatch⟩
      simp only [Bool.and_eq_true, beq_iff_eq] at hmatch
      obtain ⟨⟨hring, hidx⟩, hcommit⟩ := hmatch
      rw [hcoll h x hx hring hidx] at hcommit
      cases hcommit
    rw [if_neg hnone]
    refine ⟨_, ?_, ?_, rfl⟩ <;> rfl
  · refine ⟨_, ?_, ?_, rfl⟩ <;> rfl

theorem Dev.cancel_launch {d : Dev} {c : Cmd} (h : c.opcode = 1) :
    d.cancel c = (c.floes.foldl (fun d f => d.freezeLogical f.toNat 2) d).endCmd c 7 c.floes.length := by
  simp only [Dev.cancel, h]

theorem Dev.cancel_nboPost {d : Dev} {c : Cmd} (h : c.opcode = 2) :
    d.cancel c = d.updCp c.ring.val c.idx fun c => { c with begun := true, timedOut := true } := by
  simp only [Dev.cancel, h]

/-- A cancelled command of each kind (R117). -/
theorem Dev.cancelled {d : Dev} {n : Fin 1024} {i : BitVec 32} {c : Cmd} (hcmd : d.cmd n i = some c)
    (hcoll : c.opcode = 0x26 → d.uncommitted c) : (d.cancel c).clock = d.clock ∧
      (c.opcode = 1 → Ended (d.cancel c).settle n i 7 c.floes.length 0) ∧
      (c.opcode = 2 → ∃ c', (d.cancel c).settle.cmd n i = some c' ∧ c'.timedOut = true) ∧
      (c.opcode ≠ 1 → c.opcode ≠ 2 → Ended (d.cancel c).settle n i 7 0 0) := by
  obtain ⟨hn, hi⟩ := Dev.cmd_place hcmd
  by_cases hlaunch : c.opcode = 1
  · have hstops := FloeStops.foldl (l := c.floes) (fun d f _ => FloeStops.freezeLogical d f.toNat 2) d
    obtain ⟨fs, hl, fr, hcmd'⟩ := hstops.cmd hcmd
    rw [Dev.cancel_launch hlaunch]
    exact ⟨hstops.clock, fun _ => ended_endCmd hcmd' hn hi 7 c.floes.length 0, fun h => absurd (hlaunch.symm.trans h) (by decide),
      fun h => absurd hlaunch h⟩
  · by_cases hpost : c.opcode = 2
    · rw [Dev.cancel_nboPost hpost]
      subst hi
      rw [hn]
      exact ⟨rfl, fun h => absurd h hlaunch, fun _ => ⟨_, Dev.cmd_updCp hcmd fun _ => ⟨rfl, rfl⟩, rfl⟩, fun _ h => absurd hpost h⟩
    · obtain ⟨e, hcmds, hclock, heq⟩ := Dev.cancel_of_others hlaunch hpost hcoll
      have hcmd' : e.cmd n i = some c := by rw [Dev.cmd, hcmds, ← hcmd, Dev.cmd]
      rw [heq]
      exact ⟨hclock, fun h => absurd h hlaunch, fun h => absurd h hpost, fun _ _ => ended_endCmd hcmd' hn hi 7 0 0⟩

theorem Dev.commandTimeout_eq {d : Dev} {n : Nat} {i : BitVec 32} {c : Cmd} (hcmd : d.cmd n i = some c) (htimed : timedOp c.opcode = true)
    (hms : d.timeoutMs c ≠ 0xFFFF) (hopen : d.outcome c = none) (hout : c.timedOut = false) {t : Nat}
    (hdue : dueAt c.since (2000000 * d.timeoutMs c) d.clock (d.cmdPauses c) (d.clockPaused c) = some t) :
    d.commandTimeout n i = (d.advanceTo t).cancel c := by
  rw [Dev.commandTimeout, hcmd]
  simp only [htimed, hms, hopen, hout, hdue, Bool.not_true, beq_iff_eq, Option.isSome_none, Bool.or_false, Bool.false_or,
    if_false]

end Sys2Proof.Machine

namespace Sys2Proof.Proofs

open Sys2Proof.Machine Sys2Proof.Claims

/-- Settles O17: NOP and FENCE by their checks, timeouts by the moment at which the command's clock has run its length. -/
theorem commandsEndAndTimeOut : Obligations.CommandsEndAndTimeOut := by
  unfold Obligations.CommandsEndAndTimeOut
  refine ⟨fun s n i c => ⟨fun hstart hsem => ?_, fun hstart hsem => ?_, fun hstart hsem hscope => ⟨fun hover => ?_, fun hwait => ?_⟩⟩,
    fun s n i c hlive hcmd htimed hms hopen hout hpaused hsince hcoll => ?_⟩
  · have hrow := rowCmd_of_started hstart
    obtain ⟨hlive, hcmd, -⟩ := hstart
    obtain ⟨hn, hi⟩ := Dev.cmd_place hcmd
    refine runs_live _ s _ (fun d => d.nopRow n i) rfl hlive ?_
    rw [Dev.nopRow_eq hrow, hsem]
    exact ⟨ended_endCmd hcmd hn hi 0 0 0, congrArg Dev.settle (Dev.endCmd_frame hcmd 0 0 0)⟩
  · have hrow := rowCmd_of_started hstart
    obtain ⟨hlive, hcmd, -⟩ := hstart
    obtain ⟨hn, hi⟩ := Dev.cmd_place hcmd
    refine runs_live _ s _ (fun d => d.nopRow n i) rfl hlive ?_
    rw [Dev.nopRow_eq hrow, hsem]
    exact ended_endCmd hcmd hn hi 5 0 0
  · have hrow := rowCmd_of_started hstart
    obtain ⟨hlive, hcmd, -⟩ := hstart
    obtain ⟨hn, hi⟩ := Dev.cmd_place hcmd
    have hnone : ¬ (c.awaits.any fun w => s.dev.cmdOpen w.1 w.2) = true := by
      rw [List.any_eq_true]
      rintro ⟨w, hw, hwopen⟩
      rw [hover w hw] at hwopen
      cases hwopen
    refine runs_live _ s _ (fun d => d.fenceRow n i) rfl hlive ?_
    rw [Dev.fenceRow_eq hrow hsem hscope, if_neg hnone]
    exact ⟨ended_endCmd hcmd hn hi 0 0 0, congrArg Dev.settle (Dev.endCmd_frame hcmd 0 0 0)⟩
  · have hrow := rowCmd_of_started hstart
    obtain ⟨hlive, hcmd, -, hdone, -⟩ := hstart
    refine runs_live _ s _ (fun d => d.fenceRow n i) rfl hlive ?_
    rw [Dev.fenceRow_eq hrow hsem hscope, if_pos (List.any_eq_true.2 hwait)]
    exact ⟨_, Dev.cmd_updCp hcmd fun _ => ⟨rfl, rfl⟩, hdone, rfl⟩
  · obtain ⟨t, hdue, hbound⟩ := dueAt_running hsince (2000000 * s.dev.timeoutMs c) (s.dev.cmdPauses c)
    have hcmd' : (s.dev.advanceTo t).cmd n i = some c := (s.dev.cmd_advanceTo t n i).trans hcmd
    have hcoll' : c.opcode = 0x26 → (s.dev.advanceTo t).uncommitted c := fun h => by
      rw [Dev.uncommitted, Dev.colls_advanceTo]
      exact hcoll h
    obtain ⟨hclock, hends⟩ := Dev.cancelled hcmd' hcoll'
    refine runs_live _ s _ (fun d => d.commandTimeout n i) rfl hlive ?_
    rw [Dev.commandTimeout_eq hcmd htimed hms hopen hout (hpaused ▸ hdue)]
    refine ⟨?_, hends⟩
    calc _ ≤ t := hbound
      _ ≤ (s.dev.advanceTo t).clock := s.dev.le_clock_advanceTo t
      _ = _ := hclock.symm

end Sys2Proof.Proofs

/-! ## Doorbells (R92 to R94) -/

namespace Sys2Proof.Machine

/-- One ring has become another, and nothing else of the device has changed. -/
structure RingBecomes (d d' : Dev) (n : Nat) (r : Ring) : Prop where
  ring : d'.ring n = r
  others : ∀ m, m ≠ n → d'.ring m = d.ring m
  frame : d' = { d with rings := d'.rings }

theorem RingBecomes.refl (d : Dev) (n : Nat) : RingBecomes d d n (d.ring n) := ⟨rfl, fun _ _ => rfl, rfl⟩

theorem RingBecomes.setRing (d : Dev) (n : Nat) (r : Ring) : RingBecomes d (d.setRing n r) n r :=
  ⟨by rw [Dev.ring_setRing, if_pos rfl], fun m hm => by rw [Dev.ring_setRing, if_neg hm], rfl⟩

theorem RingBecomes.trans {a b c : Dev} {n : Nat} {r t : Ring} (h : RingBecomes a b n r) (k : RingBecomes b c n t) : RingBecomes a c n t :=
  ⟨k.ring, fun m hm => (k.others m hm).trans (h.others m hm), by rw [k.frame, h.frame]⟩

/-- May a doorbell move TAIL there (R92)? -/
abbrev Ring.tailOk (r : Ring) (t : BitVec 32) : Prop :=
  (t - r.head).toNat ≤ 2 ^ r.log2 ∧ (t - r.tail).toNat ≤ 2 ^ r.log2

/-- May a doorbell move CHEAD there (R93)? -/
abbrev Ring.cheadOk (r : Ring) (h : BitVec 32) : Prop := (h - r.chead).toNat ≤ (r.ctail - r.chead).toNat

/-- CHEAD has moved: the records before it ask for no attention any more. -/
def Ring.movedChead (r : Ring) (h : BitVec 32) : Ring :=
  { r with chead := h, attnRecs := r.attnRecs.filter fun i => decide ((i - h).toNat < (r.ctail - h).toNat) }

theorem testBit_zero_iff (v : Nat) : v.testBit 0 = true ↔ v % 2 = 1 := by simp [Nat.testBit_zero]

theorem testBit_one_iff {v : Nat} (hv : v < 4) : v.testBit 1 = true ↔ 2 ≤ v := by
  have hall : ∀ v < 4, v.testBit 1 = true ↔ 2 ≤ v := by decide
  exact hall v hv

section

variable {d : Dev} {n x : Nat}

/-- The part of a doorbell that moves TAIL. -/
def Dev.tailMove (d : Dev) (n x : Nat) : Dev :=
  if (fieldAt x 8 1).testBit 0 then
    if (d.ring n).tailOk (BitVec.ofNat 32 x) then d.setRing n { d.ring n with tail := BitVec.ofNat 32 x } else d.ringError n 1
  else d

/-- The part of a doorbell that moves CHEAD. -/
def Dev.cheadMove (d : Dev) (n x : Nat) : Dev :=
  if (fieldAt x 8 1).testBit 1 then
    if (d.ring n).cheadOk (BitVec.ofNat 32 (fieldAt x 4 4)) then d.setRing n ((d.ring n).movedChead (BitVec.ofNat 32 (fieldAt x 4 4))) else d.ringError n 2
  else d

/-- A doorbell whose VALID and reserved bits pass moves TAIL, then CHEAD. -/
theorem Dev.doorbell_eq (hvalid : fieldAt x 8 1 < 4) (hreserved : x >>> 72 = 0) : d.doorbell n x = (d.tailMove n x).cheadMove n x := by
  rw [Dev.doorbell]
  dsimp only
  rw [if_neg (by omega)]
  rfl

theorem Dev.tailMove_becomes (h : fieldAt x 8 1 % 2 = 1 → (d.ring n).tailOk (BitVec.ofNat 32 x)) : RingBecomes d (d.tailMove n x) n
    { d.ring n with tail := if fieldAt x 8 1 % 2 = 1 then BitVec.ofNat 32 x else (d.ring n).tail } := by
  rw [Dev.tailMove]
  by_cases hbit : fieldAt x 8 1 % 2 = 1
  · rw [if_pos ((testBit_zero_iff _).2 hbit), if_pos (h hbit), if_pos hbit]
    exact .setRing d n _
  · rw [if_neg (mt (testBit_zero_iff _).1 hbit), if_neg hbit]
    exact .refl d n

theorem Dev.cheadMove_becomes (hvalid : fieldAt x 8 1 < 4) (h : 2 ≤ fieldAt x 8 1 → (d.ring n).cheadOk (BitVec.ofNat 32 (fieldAt x 4 4))) :
    RingBecomes d (d.cheadMove n x) n
      (if 2 ≤ fieldAt x 8 1 then (d.ring n).movedChead (BitVec.ofNat 32 (fieldAt x 4 4)) else d.ring n) := by
  rw [Dev.cheadMove]
  by_cases hbit : 2 ≤ fieldAt x 8 1
  · rw [if_pos ((testBit_one_iff hvalid).2 hbit), if_pos (h hbit), if_pos hbit]
    exact .setRing d n _
  · rw [if_neg (mt (testBit_one_iff hvalid).1 hbit), if_neg hbit]
    exact .refl d n

/-- A ring that is not in error enters it with its first code (R115). -/
theorem Dev.ring_ringError (code : Nat) (h : (d.ring n).state ≠ 2) :
    (d.ringError n code).ring n = { d.ring n with state := 2, error := BitVec.ofNat 8 code } := by
  rw [Dev.ringError]
  dsimp only
  rw [if_neg h, Dev.report_ring_at, Dev.ring_setRing, if_pos rfl]

theorem Dev.doorbellRow_eq {srcid : Nat} {secure : Bool} {data : Line} {mask : BitVec 64} (hlive : d.sys.phase.live = true)
    (hup : (d.host (n / 32)).up = true) (hst : d.doorbellStatus n srcid secure = 0) :
    d.doorbellRow n srcid secure data mask = d.doorbell n (doorbellData data mask) := by
  rw [Dev.doorbellRow]
  dsimp only
  rw [hlive, hup, if_neg (by decide), hst, if_neg (by decide)]

theorem Dev.statusReadRow_eq {srcid : Nat} {secure : Bool} {tag : BitVec 9} (hlive : d.sys.phase.live = true)
    (hup : (d.host (n / 32)).up = true) (hst : d.doorbellStatus n srcid secure = 0) (htag : ∀ x ∈ (d.host (n / 32)).tags, x.1 ≠ tag) :
    d.statusReadRow n srcid secure tag =
      d.updHost (n / 32) fun h => h.send (BitVec.ofNat 16 (tag.toNat * 4)) (d.ringStatus n) := by
  have hfree : ¬ ((d.host (n / 32)).tags.any fun x => x.1 == tag) = true := by
    rw [List.any_eq_true]
    rintro ⟨x, hx, heq⟩
    exact htag x hx (eq_of_beq heq)
  rw [Dev.statusReadRow]
  dsimp only
  rw [hlive, hup, if_neg (by decide), hst, if_neg (by decide), if_neg hfree, if_neg (by decide)]

end

end Sys2Proof.Machine

namespace Sys2Proof.Proofs

open Sys2Proof.Machine

/-- Settles O8: the two moves of a doorbell, one after the other, each touch their own ring alone. -/
theorem doorbells : Obligations.Doorbells := by
  unfold Obligations.Doorbells
  refine ⟨fun s n srcid secure data mask hlive hup hst hvalid hreserved => ⟨fun htail hchead => ?_, fun hone hstate hout => ?_⟩,
    fun s n srcid secure tag hlive hup hdown hst htag => ?_⟩
  · refine runs_of _ s _ (fun d => d.doorbellRow n srcid.toNat secure data mask) rfl ?_
    have hmove := Dev.tailMove_becomes htail
    have hboth := hmove.trans (Dev.cheadMove_becomes hvalid fun h => by rw [hmove.ring]; exact hchead h)
    rw [Dev.doorbellRow_eq hlive hup hst, Dev.doorbell_eq hvalid hreserved]
    refine ⟨?_, ?_, ?_, ?_, ?_, hboth.others, congrArg Dev.settle hboth.frame⟩ <;>
    · rw [Dev.ring_settle, hboth.ring, hmove.ring]
      split <;> rfl
  · refine runs_of _ s _ (fun d => d.doorbellRow n srcid.toNat secure data mask) rfl ?_
    have hzero : (fieldAt (doorbellData data mask) 8 1).testBit 0 = true := by rw [hone]; rfl
    have hbit : ¬ (fieldAt (doorbellData data mask) 8 1).testBit 1 = true := by rw [hone]; decide
    rw [Dev.doorbellRow_eq hlive hup hst, Dev.doorbell_eq hvalid hreserved, Dev.cheadMove, if_neg hbit, Dev.tailMove, if_pos hzero,
      if_neg hout, Dev.ring_settle, Dev.ring_ringError 1 hstate]
    exact ⟨rfl, rfl, rfl⟩
  · refine runs_of _ s _ (fun d => d.statusReadRow n srcid.toNat secure tag) rfl ?_
    rw [Dev.statusReadRow_eq hlive hup hst htag, Dev.host_settle, Dev.host_updHost, if_pos rfl]
    exact ⟨HostPort.beats_send _ _ _ false hdown (.inr rfl), rfl⟩

end Sys2Proof.Proofs

/-! ## Fetching packets (R97, R99, R101) -/

namespace Sys2Proof.Machine

theorem Dev.sramRead_frame (d : Dev) (store unit : Nat) : (d.sramRead store unit).rings = d.rings ∧ (d.sramRead store unit).cmds = d.cmds := by
  rw [Dev.sramRead]
  split
  · exact ⟨Dev.report_rings .., Dev.report_cmds ..⟩
  · exact ⟨rfl, rfl⟩

/-- A fetched packet with the next ticket starts as command `c` of ring `r` (R97, R101). -/
def Dev.startPacket (d : Dev) (n : Fin 1024) (r : Ring) (c : Cmd) : Dev :=
  let e := d.setRing n.val { r with head := r.head + 1, hticket := c.ticket, nacc := min (r.nacc + 1) 4096 }
  let f : Dev := { e with cmds := e.cmds ++ [c] }
  if e.startStatus c = 0 then f else f.endCmd c (e.startStatus c)

/-- The command of a packet that ring `n` has fetched at its HEAD (R97). -/
structure PacketCmd (r : Ring) (n : Fin 1024) (x : Line) (c : Cmd) : Prop where
  ring : c.ring = n
  idx : c.idx = r.head
  packet : c.packet = x
  field : c.field = r.field
  secure : c.secure = r.secure
  done : c.done = none
  begun : c.begun = false

theorem Cmd.ticket_eq {c : Cmd} {x : Line} (h : c.packet = x) : c.ticket = x.truncate 32 := by
  rw [Cmd.ticket, Cmd.pk, h, BitVec.ofNat_toNat]

theorem Dev.ringQuiet_congr {d d' : Dev} (hrings : d'.rings = d.rings) (hcmds : d'.cmds = d.cmds) (n : Nat) :
    d'.ringQuiet n = d.ringQuiet n := by
  simp only [Dev.ringQuiet, Dev.ringActive, Dev.ring, hrings, hcmds]

/-- What a fetch does with a packet that starts (R97, R99, R101). -/
theorem Dev.packetFetch_eq {d : Dev} {n : Fin 1024} {w : WordRead} (hserves : rbit (d.reg rCpStat) 31 = true)
    (hstate : (d.ring n).state = 1) (hhead : (d.ring n).head ≠ (d.ring n).tail) (hheld : d.ringHeld n = false) (hue : (d.ring n).ue = false)
    (hregion : d.regionHeld ((d.ring n).pktAddr (d.ring n).head) = false)
    (hmay : d.mayAccess (d.ring n).access ((d.ring n).pktAddr (d.ring n).head) false = true)
    (hread : (d.tsvRead ((d.ring n).mover n) (d.wordOf ((d.ring n).pktAddr (d.ring n).head))).1 = some w) (hpoison : w.poison = false)
    (hticket : (w.data.truncate 32 - (d.ring n).hticket : BitVec 32) = 1)
    (hfence : fieldAt w.data.toNat 5 1 % 2 = 1 → d.ringQuiet n = true) :
    ∃ (e : Dev) (c : Cmd), e.rings = d.rings ∧ e.cmds = d.cmds ∧ PacketCmd (d.ring n) n w.data c ∧ d.packetFetch n = e.startPacket n (d.ring n) c := by
  have htaken := WordTaken.tsvRead hread
  have hgoes : (!rbit (d.reg rCpStat) 31 || decide ((d.ring n).state ≠ 1) || (d.ring n).head == (d.ring n).tail || d.ringHeld n) = false := by
    simp [hserves, hstate, hheld, hhead]
  rw [Dev.packetFetch, if_neg (by rw [hgoes]; decide), if_neg (by rw [hue]; decide), if_neg (by rw [hregion]; decide),
    if_neg (by rw [hmay]; decide)]
  generalize d.tsvRead ((d.ring n).mover n) (d.wordOf ((d.ring n).pktAddr (d.ring n).head)) = p at hread htaken ⊢
  obtain ⟨o, e⟩ := p
  obtain rfl : o = some w := hread
  obtain ⟨hrings, hcmds⟩ := e.sramRead_frame 8 n
  have hquiet := Dev.ringQuiet_congr (hrings.trans htaken.rings) (hcmds.trans htaken.cmds) n
  have hahead : (BitVec.ofNat 32 w.data.toNat - (d.ring n).hticket).toNat = 1 := by
    rw [BitVec.ofNat_toNat, hticket]
    rfl
  have hstarts : ((fieldAt w.data.toNat 5 1).testBit 0 && !(e.sramRead 8 n).ringQuiet n) = false := by
    rw [hquiet]
    cases hbit : (fieldAt w.data.toNat 5 1).testBit 0 with
    | false => rfl
    | true => rw [hfence ((testBit_zero_iff _).1 hbit)]; rfl
  dsimp only
  rw [if_neg (by rw [hpoison]; decide), if_pos, if_neg]
  case hnc => exact fun hwaits => absurd (hstarts.symm.trans hwaits) (by decide)
  case hc => exact hahead
  refine ⟨e.sramRead 8 n, _, hrings.trans htaken.rings, hcmds.trans htaken.cmds, ?_, rfl⟩
  split <;> exact ⟨rfl, rfl, rfl, rfl, rfl, rfl, rfl⟩

/-- A command after the end of the one at a place. -/
def Cmd.endedAt (n : Nat) (i : BitVec 32) (status : Nat) (c : Cmd) : Cmd :=
  if c.ring.val == n && c.idx == i then c.ended { status := BitVec.ofNat 8 status, r0 := BitVec.ofNat 64 0, r1 := BitVec.ofNat 64 0 } else c

theorem Dev.cmds_endCmd (d : Dev) (c : Cmd) (status : Nat) :
    (d.endCmd c status).cmds = d.cmds.map fun x => x.endedAt c.ring.val c.idx status := rfl

theorem Cmd.endedAt_place (n : Nat) (i : BitVec 32) (status : Nat) (c : Cmd) :
    ((c.endedAt n i status).ring, (c.endedAt n i status).idx) = (c.ring, c.idx) := by
  obtain ⟨hring, hidx⟩ := (keepsPlace_ended { status := BitVec.ofNat 8 status, r0 := BitVec.ofNat 64 0, r1 := BitVec.ofNat 64 0 }).ite
    (fun y => y.ring.val == n && y.idx == i) c
  exact Prod.ext hring hidx

theorem Cmd.endedAt_self (c : Cmd) (status : Nat) : c.endedAt c.ring.val c.idx status =
    c.ended { status := BitVec.ofNat 8 status, r0 := BitVec.ofNat 64 0, r1 := BitVec.ofNat 64 0 } := by
  simp [Cmd.endedAt]

theorem Dev.startStatus_congr {d d' : Dev} {c c' : Cmd} (hring : c'.ring = c.ring) (hpacket : c'.packet = c.packet)
    (hadmin : (d'.ring c.ring.val).admin = (d.ring c.ring.val).admin) (hsecure : (d'.ring c.ring.val).secure = (d.ring c.ring.val).secure) :
    d'.startStatus c' = d.startStatus c := by
  obtain ⟨hopcode, hworld, hheader, hkind⟩ : c'.opcode = c.opcode ∧ c'.arg 19 1 = c.arg 19 1 ∧ c'.headerOk = c.headerOk ∧
      c'.kindOk = c.kindOk := by
    cases c
    cases c'
    cases hpacket
    exact ⟨rfl, rfl, rfl, rfl⟩
  simp only [Dev.startStatus, hopcode, hworld, hheader, hkind, hring, hadmin, hsecure]

/-- A packet that starts joins the commands, ended where its first checks fail. -/
theorem Dev.cmds_startPacket (d : Dev) {n : Fin 1024} {c : Cmd} {x : Line} (h : PacketCmd (d.ring n) n x c) :
    ∃ c', (d.startPacket n (d.ring n) c).cmds.map (fun y => (y.ring, y.idx)) = d.cmds.map (fun y => (y.ring, y.idx)) ++ [(n, (d.ring n).head)] ∧
      c' ∈ (d.startPacket n (d.ring n) c).cmds ∧ c'.ring = n ∧ c'.idx = (d.ring n).head ∧ c'.packet = x ∧ c'.field = (d.ring n).field ∧
      c'.secure = (d.ring n).secure ∧ (d.startStatus c' = 0 → c'.done = none ∧ c'.begun = false) ∧
      (d.startStatus c' ≠ 0 → ∃ e, c'.done = some e ∧ e.status = BitVec.ofNat 8 (d.startStatus c')) := by
  obtain ⟨hring, hidx, hpacket, hfield, hsecure, hdone, hbegun⟩ := h
  subst hring
  rw [Dev.startPacket]
  generalize he : d.setRing c.ring.val _ = e
  have hcmds : e.cmds = d.cmds := by rw [← he]; rfl
  have hring : e.ring c.ring = { d.ring c.ring with head := (d.ring c.ring).head + 1, hticket := c.ticket, nacc := min ((d.ring c.ring).nacc + 1) 4096 } := by
    rw [← he, Dev.ring_setRing, if_pos rfl]
  have hst : e.startStatus c = d.startStatus c := Dev.startStatus_congr rfl rfl (by rw [hring]) (by rw [hring])
  rw [hst]
  split
  · next hzero =>
    refine ⟨c, ?_, List.mem_append_right _ List.mem_cons_self, rfl, hidx, hpacket, hfield, hsecure, fun _ => ⟨hdone, hbegun⟩,
      fun hne => absurd hzero hne⟩
    rw [hcmds, List.map_append, List.map_singleton, hidx]
  · next hne =>
    generalize hstatus : d.startStatus c = st at hne
    have hended : d.startStatus (c.endedAt c.ring.val c.idx st) = st := by
      rw [c.endedAt_self]
      exact (Dev.startStatus_congr rfl rfl rfl rfl).trans hstatus
    rw [Dev.cmds_endCmd, hcmds, List.map_map]
    refine ⟨c.endedAt c.ring.val c.idx st, ?_, List.mem_map.2 ⟨c, List.mem_append_right _ List.mem_cons_self, rfl⟩, ?_⟩
    · rw [List.map_congr_left (g := fun y => (y.ring, y.idx)) fun y _ => y.endedAt_place c.ring.val c.idx st, List.map_append,
        List.map_singleton, hidx]
    · rw [hended, c.endedAt_self]
      exact ⟨rfl, hidx, hpacket, hfield, hsecure, fun h => absurd h hne, fun _ => ⟨_, rfl, rfl⟩⟩

/-- The ring of a packet that starts: HEAD and HTICKET move on. -/
theorem Dev.ring_startPacket (d : Dev) (n : Fin 1024) (r : Ring) (c : Cmd) : (d.startPacket n r c).ring n =
    { r with head := r.head + 1, hticket := c.ticket, nacc := min (r.nacc + 1) 4096 } := by
  have hring : (d.setRing n.val { r with head := r.head + 1, hticket := c.ticket, nacc := min (r.nacc + 1) 4096 }).ring n =
      { r with head := r.head + 1, hticket := c.ticket, nacc := min (r.nacc + 1) 4096 } := by rw [Dev.ring_setRing, if_pos rfl]
  rw [Dev.startPacket]
  split <;> exact hring

end Sys2Proof.Machine

namespace Sys2Proof.Proofs

open Sys2Proof.Machine

/-- Settles O9: the word read at HEAD becomes the ring's newest command. -/
theorem packetFetchStarts : Obligations.PacketFetchStarts := by
  unfold Obligations.PacketFetchStarts
  intro s n w r a hlive hserves hstate hhead hheld hue hregion hmay hread hpoison hticket hfence
  obtain ⟨e, c, hrings, hcmds, hfetched, heq⟩ :=
    Dev.packetFetch_eq hserves hstate hhead hheld hue hregion hmay hread hpoison hticket hfence
  have hring : ∀ k, e.ring k = s.dev.ring k := fun k => by rw [Dev.ring, hrings, Dev.ring]
  have hstart : ∀ c, e.startStatus c = s.dev.startStatus c := fun c =>
    Dev.startStatus_congr rfl rfl (by rw [hring]) (by rw [hring])
  refine runs_live _ s _ (fun d => d.packetFetch n) rfl hlive ?_
  rw [heq, Dev.ring_settle, Dev.ring_startPacket]
  refine ⟨rfl, Cmd.ticket_eq hfetched.packet, rfl, ?_⟩
  have hjoins := e.cmds_startPacket (hring n ▸ hfetched)
  simp only [hring, hcmds, hstart] at hjoins
  exact hjoins

end Sys2Proof.Proofs

/-! ## Words that a command reads and stores in one step (R98, R107) -/

namespace Sys2Proof.Machine

/-- Whether a word can be had, and which, does not depend on the commands. -/
theorem Dev.tsvRead_fst_updCp (d : Dev) (k : Nat) (j : BitVec 32) (f : Cmd → Cmd) (m : Mover) (n : Nat) :
    ((d.updCp k j f).tsvRead m n).1 = (d.tsvRead m n).1 := by
  rw [Dev.tsvRead, Dev.tsvRead, show (d.updCp k j f).readyAt m n = d.readyAt m n from rfl,
    show (d.updCp k j f).buffered n = d.buffered n from rfl]
  cases d.readyAt m n with
  | some e => rfl
  | none =>
    cases d.buffered n with
    | some b => rfl
    | none =>
      dsimp only
      rw [show (d.updCp k j f).wordDown n = d.wordDown n from rfl, show (d.updCp k j f).mirrored n = d.mirrored n from rfl]
      cases d.wordDown n && !d.mirrored n <;> rfl

theorem stepWhile_succ {α : Type} (f : α → α × Bool) (k : Nat) (x : α) :
    stepWhile f (k + 1) x = if (f x).2 then stepWhile f k (f x).1 else (f x).1 := by
  rw [stepWhile]
  obtain ⟨y, b⟩ := f x
  cases b <;> rfl

/-- A step that goes on, then one that ends. -/
theorem stepWhile_two {α : Type} {f : α → α × Bool} {k : Nat} (hk : 1 ≤ k) {x y z : α} (hxy : f x = (y, true)) (hyz : f y = (z, false)) :
    stepWhile f (k + 1) x = z := by
  obtain ⟨k, rfl⟩ := Nat.exists_eq_add_of_le' hk
  rw [stepWhile_succ, hxy, if_pos rfl, stepWhile_succ, hyz, if_neg Bool.false_ne_true]

theorem Dev.seen_updCp_endCmd {d : Dev} {w : Nat} (h : (d.buffered w).isSome = true) (n : Nat) (i : BitVec 32) (f : Cmd → Cmd) (c : Cmd)
    (status r0 r1 : Nat) : ((d.updCp n i f).endCmd c status r0 r1).seen w = d.seen w :=
  Dev.seen_endCmd (d := d.updCp n i f) h c status r0 r1

/-! ## COPY and FILL (R107) -/

/-- A command that has gone one word on, of which `bad` were poisoned. -/
def Cmd.wordOn (c : Cmd) (bad : Nat) : Cmd := { c with pos := c.pos + 1, count := c.count + bad }

theorem keepsPlace_wordOn (bad : Nat) : KeepsPlace fun c => c.wordOn bad := fun _ => ⟨rfl, rfl⟩

/-- The status of a COPY or FILL by the number of its poisoned words (R107). -/
def poisonStatus (count : Nat) : Nat := if count = 0 then 0 else 0xB

theorem Dev.copyWord_over {d : Dev} {n : Nat} {i : BitVec 32} {c : Cmd} (hrow : d.rowCmd n i 3 = some c) (hover : c.arg 32 8 ≤ 64 * c.pos) :
    d.copyWord n i = (d.endCmd c (poisonStatus c.count) c.count, false) := by
  rw [Dev.copyWord, hrow]
  exact if_pos hover

theorem Dev.copyWord_goes {d : Dev} {n : Nat} {i : BitVec 32} {c : Cmd} {w : WordRead} (hrow : d.rowCmd n i 3 = some c)
    (hmore : 64 * c.pos < c.arg 32 8)
    (hranges : d.rangesStatus c.access [(c.arg 16 8 + 64 * c.pos, 64, false), (c.arg 24 8 + 64 * c.pos, 64, true)] = 0)
    (hheld : d.regionHeld (c.arg 16 8 + 64 * c.pos) = false) (hwaits : d.cpWaits c.mover (c.arg 24 8 + 64 * c.pos) = false)
    (hdown : d.wordDown (d.wordOf (c.arg 24 8 + 64 * c.pos)) = false)
    (hread : (d.tsvRead c.mover (d.wordOf (c.arg 16 8 + 64 * c.pos))).1 = some w) :
    ∃ e, WordTaken d e ∧ d.copyWord n i =
      ((e.cpWord c.mover (c.arg 24 8 + 64 * c.pos) w.data w.poison).updCp n i fun x => x.wordOn w.poison.toNat, true) := by
  have htaken := WordTaken.tsvRead hread
  rw [Dev.copyWord, hrow]
  dsimp only
  rw [if_neg (by omega), if_neg (by rw [hranges]; decide), if_neg (by rw [hheld, hwaits]; decide)]
  generalize d.tsvRead c.mover (d.wordOf (c.arg 16 8 + 64 * c.pos)) = p at hread htaken ⊢
  obtain ⟨o, e⟩ := p
  obtain rfl : o = some w := hread
  refine ⟨e, htaken, ?_⟩
  dsimp only
  rw [htaken.wordOf, htaken.wordDown, hdown, Bool.or_false]
  rfl

theorem Dev.fillWord_over {d : Dev} {n : Nat} {i : BitVec 32} {c : Cmd} (hrow : d.rowCmd n i 4 = some c) (hover : c.arg 32 8 ≤ 64 * c.pos) :
    d.fillWord n i = (d.endCmd c (poisonStatus c.count) c.count, false) := by
  rw [Dev.fillWord, hrow]
  exact if_pos hover

/-- A number of 64-bit words that are all the same (R107). -/
def repeated (v m : Nat) : Nat := (List.range m).foldl (fun x k => x + v * 2 ^ (64 * k)) 0

theorem repeated_succ (v m : Nat) : repeated v (m + 1) = repeated v m + v * 2 ^ (64 * m) := by
  rw [repeated, List.range_succ, List.foldl_append]
  rfl

theorem repeated_lt {v : Nat} (hv : v < 2 ^ 64) (m : Nat) : repeated v m < 2 ^ (64 * m) := by
  induction m with
  | zero => exact Nat.one_pos
  | succ m ih =>
    have hstep : v * 2 ^ (64 * m) + 2 ^ (64 * m) ≤ 2 ^ 64 * 2 ^ (64 * m) := by
      rw [← Nat.succ_mul]
      exact Nat.mul_le_mul_right _ hv
    rw [repeated_succ, Nat.mul_succ, Nat.add_comm (64 * m), Nat.pow_add]
    omega

/-- Every one of the words is the repeated one. -/
theorem repeated_word {v : Nat} (hv : v < 2 ^ 64) {m j : Nat} (hj : j < m) : repeated v m / 2 ^ (64 * j) % 2 ^ 64 = v := by
  induction m with
  | zero => omega
  | succ m ih =>
    have hpos : 0 < 2 ^ (64 * j) := Nat.two_pow_pos _
    rw [repeated_succ]
    rcases Nat.lt_succ_iff_lt_or_eq.1 hj with hlt | rfl
    · have hsplit : v * 2 ^ (64 * m) = 2 ^ (64 * j) * (2 ^ 64 * (v * 2 ^ (64 * (m - j - 1)))) := by
        rw [show 64 * m = 64 * j + (64 + 64 * (m - j - 1)) by omega, Nat.pow_add, Nat.pow_add]
        ring
      rw [hsplit, Nat.add_mul_div_left _ _ hpos, Nat.add_mul_mod_self_left, ih hlt]
    · rw [Nat.mul_comm v, Nat.add_mul_div_left _ _ hpos, Nat.div_eq_of_lt (repeated_lt hv j), Nat.zero_add, Nat.mod_eq_of_lt hv]

/-- The word that a FILL stores (R107). -/
def Cmd.fillLine (c : Cmd) : Line := BitVec.ofNat 512 (repeated (c.arg 40 8) 8)

theorem Cmd.arg_lt (c : Cmd) (k n : Nat) : c.arg k n < 2 ^ (8 * n) := Nat.mod_lt _ (Nat.two_pow_pos _)

theorem Cmd.fillLine_word (c : Cmd) {j : Nat} (hj : j < 8) : c.fillLine.extractLsb' (64 * j) 64 = BitVec.ofNat 64 (c.arg 40 8) := by
  have hlt : repeated (c.arg 40 8) 8 < 2 ^ 512 := repeated_lt (c.arg_lt 40 8) 8
  refine BitVec.eq_of_toNat_eq ?_
  rw [BitVec.extractLsb'_toNat, Cmd.fillLine, BitVec.toNat_ofNat, Nat.mod_eq_of_lt hlt, Nat.shiftRight_eq_div_pow,
    repeated_word (c.arg_lt 40 8) hj, BitVec.toNat_ofNat, Nat.mod_eq_of_lt (c.arg_lt 40 8)]

theorem Dev.fillWord_goes {d : Dev} {n : Nat} {i : BitVec 32} {c : Cmd} (hrow : d.rowCmd n i 4 = some c) (hmore : 64 * c.pos < c.arg 32 8)
    (hranges : d.rangesStatus c.access [(c.arg 24 8 + 64 * c.pos, 64, true)] = 0)
    (hwaits : d.cpWaits c.mover (c.arg 24 8 + 64 * c.pos) = false) (hdown : d.wordDown (d.wordOf (c.arg 24 8 + 64 * c.pos)) = false) :
    d.fillWord n i = ((d.cpWord c.mover (c.arg 24 8 + 64 * c.pos) c.fillLine false).updCp n i fun x => x.wordOn 0, true) := by
  rw [Dev.fillWord, hrow]
  dsimp only
  rw [if_neg (by omega), if_neg (by rw [hranges]; decide), if_neg (by rw [hwaits]; decide), hdown]
  rfl

/-- A command of a row, with what the row needs of it (R104). -/
structure InRow (d : Dev) (n : Nat) (i : BitVec 32) (op : Nat) (c : Cmd) : Prop where
  cmd : d.cmd n i = some c
  opcode : c.opcode = op
  done : c.done = none
  timed : c.timedOut = false

theorem InRow.row {d : Dev} {n : Nat} {i : BitVec 32} {op : Nat} {c : Cmd} (h : InRow d n i op c) : d.rowCmd n i op = some c :=
  Dev.rowCmd_eq h.cmd h.opcode h.done h.timed

/-- A command that has been updated is still in its row, when the update leaves its place, its packet and its end. -/
theorem InRow.updCp {d e : Dev} {n : Nat} {i : BitVec 32} {op : Nat} {c : Cmd} {f : Cmd → Cmd} (h : InRow d n i op c)
    (hcmds : e.cmds = d.cmds) (hf : KeepsPlace f) (hopcode : (f c).opcode = c.opcode) (hdone : (f c).done = c.done)
    (htimed : (f c).timedOut = c.timedOut) : InRow (e.updCp n i f) n i op (f c) :=
  ⟨Dev.cmd_updCp (by rw [Dev.cmd, hcmds, ← h.cmd, Dev.cmd]) hf, hopcode.trans h.opcode, hdone.trans h.done, htimed.trans h.timed⟩

open Sys2Proof.Claims

theorem inRow_of_started {d : Dev} {n : Fin 1024} {i : BitVec 32} {op : Nat} {c : Cmd} (h : Started d n i op c) : InRow d n i op c := by
  obtain ⟨-, hcmd, hop, hdone, htimed⟩ := h
  exact ⟨hcmd, hop, hdone, htimed⟩

/-- The end of a COPY or FILL by the number of its poisoned words (R107). -/
theorem ended_poisonStatus {d : Dev} {n : Fin 1024} {i : BitVec 32} {c : Cmd} (hcmd : d.cmd n i = some c) (count : Nat) :
    if count = 0 then Ended (d.endCmd c (poisonStatus count) count).settle n i 0 0 0
    else Ended (d.endCmd c (poisonStatus count) count).settle n i 0xB count 0 := by
  obtain ⟨hn, hi⟩ := Dev.cmd_place hcmd
  rw [poisonStatus]
  by_cases hcount : count = 0
  · rw [if_pos hcount, if_pos hcount, hcount]
    exact ended_endCmd hcmd hn hi 0 0 0
  · rw [if_neg hcount, if_neg hcount]
    exact ended_endCmd hcmd hn hi 0xB count 0

/-- The last word has been stored, and the command ends by the number of its poisoned words (R107). -/
theorem lastWord_ends {e d : Dev} {n : Fin 1024} {i : BitVec 32} {c : Cmd} {w : Nat} {x : Line} {poison : Bool} {f : Cmd → Cmd}
    (hstored : Stored e d w x (BitVec.allOnes 64) poison) (hcmd : (d.updCp n i f).cmd n i = some c) (count : Nat) :
    let d' := ((d.updCp n i f).endCmd c (poisonStatus count) count).settle
    (d'.seen w).data = x ∧ (d'.seen w).poison = poison ∧ if count = 0 then Ended d' n i 0 0 0 else Ended d' n i 0xB count 0 := by
  intro d'
  obtain ⟨hdata, hpoison⟩ := hstored.seen_whole
  have hseen : d'.seen w = d.seen w := (Dev.seen_settle _ w).trans (Dev.seen_updCp_endCmd hstored.isSome ..)
  rw [hseen]
  exact ⟨hdata, hpoison, ended_poisonStatus hcmd count⟩

/-- The checks of a COPY that has begun are over. -/
theorem Dev.copyRow_begun {d : Dev} {n : Nat} {i : BitVec 32} {c : Cmd} (h : d.rowCmd n i 3 = some c) (hbegun : c.begun = true) (words : Nat) :
    d.copyRow n i words = stepWhile (fun d => d.copyWord n i) (words + 1) (d.updCp n i fun c => { c with begun := true }) := by
  rw [Dev.copyRow, h]
  dsimp only
  rw [if_pos hbegun, if_neg (by decide)]

theorem Dev.fillRow_begun {d : Dev} {n : Nat} {i : BitVec 32} {c : Cmd} (h : d.rowCmd n i 4 = some c) (hbegun : c.begun = true) (words : Nat) :
    d.fillRow n i words = stepWhile (fun d => d.fillWord n i) (words + 1) (d.updCp n i fun c => { c with begun := true }) := by
  rw [Dev.fillRow, h]
  dsimp only
  rw [if_pos hbegun, if_neg (by decide)]

end Sys2Proof.Machine

namespace Sys2Proof.Proofs

open Sys2Proof.Machine Sys2Proof.Claims

/-- Settles O11: one step stores the last word, the next ends the command. -/
theorem copyAndFillEnd : Obligations.CopyAndFillEnd := by
  unfold Obligations.CopyAndFillEnd
  intro s n i c words dst len hwords hbegun hlen hwaits hdown
  have hlen : c.arg 32 8 = 64 * (c.pos + 1) := hlen
  have hmore : 64 * c.pos < c.arg 32 8 := by omega
  refine ⟨fun w hstart hranges hheld hread => ?_, fun hstart hranges => ?_⟩
  · have hin := (inRow_of_started hstart).updCp (f := fun c => { c with begun := true }) rfl (fun _ => ⟨rfl, rfl⟩) rfl rfl rfl
    obtain ⟨e, htaken, hgoes⟩ := Dev.copyWord_goes hin.row hmore hranges hheld hwaits hdown ((Dev.tsvRead_fst_updCp ..).trans hread)
    have hword : e.wordOf dst = s.dev.wordOf dst := htaken.wordOf dst
    have hstored := Dev.stored_cpWord (d := e) c.mover (a := dst) w.data w.poison (by rw [hword, htaken.wordDown]; exact hdown)
    have hin' := hin.updCp (hstored.cmds.trans htaken.cmds) (keepsPlace_wordOn w.poison.toNat) rfl rfl rfl
    refine runs_live _ s _ (fun d => d.copyRow n i words) rfl hstart.1 ?_
    rw [Dev.copyRow_begun (inRow_of_started hstart).row hbegun, stepWhile_two hwords hgoes (Dev.copyWord_over hin'.row hlen.le)]
    exact lastWord_ends (hword ▸ hstored) hin'.cmd _
  · have hin := (inRow_of_started hstart).updCp (f := fun c => { c with begun := true }) rfl (fun _ => ⟨rfl, rfl⟩) rfl rfl rfl
    have hgoes := Dev.fillWord_goes hin.row hmore hranges hwaits hdown
    have hstored := Dev.stored_cpWord (d := s.dev.updCp n i fun c => { c with begun := true }) c.mover (a := dst) c.fillLine false hdown
    have hin' := hin.updCp hstored.cmds (keepsPlace_wordOn 0) rfl rfl rfl
    refine runs_live _ s _ (fun d => d.fillRow n i words) rfl hstart.1 ?_
    rw [Dev.fillRow_begun (inRow_of_started hstart).row hbegun, stepWhile_two hwords hgoes (Dev.fillWord_over hin'.row hlen.le)]
    obtain ⟨hdata, hpoison, hends⟩ := lastWord_ends hstored hin'.cmd c.count
    exact ⟨fun j hj => (congrArg (fun x : Line => x.extractLsb' (64 * j) 64) hdata).trans (c.fillLine_word hj), hpoison, hends⟩

end Sys2Proof.Proofs

/-! ## QUERY (R560) -/

namespace Sys2Proof.Machine

open Sys2Proof.Claims

/-- The words of a report go one by one to DEST. -/
def Dev.writeReport (d : Dev) (m : Mover) (dest : Nat) (ws : List Line) : Dev :=
  ws.zipIdx.foldl (fun d w => d.cpWord m (dest + 64 * w.2) w.1 false) d

theorem Traffic.writeReport (d : Dev) (m : Mover) (dest : Nat) (ws : List Line) : Traffic d (d.writeReport m dest ws) :=
  Traffic.foldl (fun d _ _ => Traffic.cpWord d m _ _ _) d

theorem Dev.writeReport_append (d : Dev) (m : Mover) (dest : Nat) (ws : List Line) (x : Line) :
    d.writeReport m dest (ws ++ [x]) = (d.writeReport m dest ws).cpWord m (dest + 64 * ws.length) x false := by
  simp [Dev.writeReport, List.zipIdx_append]

/-- The last word of a report reaches its place. -/
theorem Dev.stored_writeReport {d : Dev} (m : Mover) (dest : Nat) (ws : List Line) (x : Line)
    (hdown : d.wordDown (d.wordOf (dest + 64 * ws.length)) = false) :
    Stored (d.writeReport m dest ws) (d.writeReport m dest (ws ++ [x])) (d.wordOf (dest + 64 * ws.length)) x (BitVec.allOnes 64) false := by
  have hbefore := Traffic.writeReport d m dest ws
  have hword := hbefore.wordOf (dest + 64 * ws.length)
  rw [Dev.writeReport_append, ← hword]
  exact Dev.stored_cpWord m x false (by rw [hword, hbefore.wordDown]; exact hdown)

/-- The parameter that a QUERY of a kind takes (R560). -/
def Cmd.queryParam (c : Cmd) (kind : Nat) : Bool := if kind = 0 then decide (c.arg 18 2 < 1024) else c.arg 18 2 == 0

/-- A QUERY whose checks pass writes its report and ends (R104, R560). -/
theorem Dev.queryRow_eq {d : Dev} {n : Nat} {i : BitVec 32} {c : Cmd} {kind : Nat} {words : Cmd → List Line} {owned : Cmd → Bool}
    (hrow : d.rowCmd n i 6 = some c) (hkind : c.arg 16 1 = kind) (haddr : addrOk (c.arg 24 8) 4096 = true)
    (hparam : c.queryParam kind = true) (hranges : d.rangesStatus c.access [(c.arg 24 8, 64 * (words c).length, true)] = 0)
    (hsem : d.semOk c = true) (howned : owned c = true)
    (hroom : ∀ k, k < (words c).length → d.cpWaits c.mover (c.arg 24 8 + 64 * k) = false) :
    d.queryRow n i kind words owned = (d.writeReport c.mover (c.arg 24 8) (words c)).endCmd c 0 := by
  have hchecks := Dev.checkArgs_pass 0 (show (addrOk (c.arg 24 8) 4096 && c.queryParam kind) = true by rw [haddr, hparam]; rfl)
    hranges hsem howned
  have hgoes : ¬ ((List.range (words c).length).any fun k => d.cpWaits c.mover (c.arg 24 8 + 64 * k)) = true := by
    rw [List.any_eq_true]
    rintro ⟨k, hk, hwaits⟩
    rw [hroom k (List.mem_range.1 hk)] at hwaits
    cases hwaits
  rw [Dev.queryRow, hrow]
  dsimp only
  rw [if_neg (not_not.2 hkind)]
  exact (if_neg fun hne => hne hchecks).trans (if_neg hgoes)

/-- What a QUERY leaves, when the last word of its report is `x` (R560). -/
theorem queryRow_reports {d : Dev} {n : Fin 1024} {i : BitVec 32} {c : Cmd} {kind : Nat} {words : Cmd → List Line} {owned : Cmd → Bool}
    {ws : List Line} {x : Line} (hwords : words c = ws ++ [x]) (hstart : Started d n i 6 c) (hkind : c.arg 16 1 = kind)
    (haddr : addrOk (c.arg 24 8) 4096 = true) (hparam : c.queryParam kind = true)
    (hranges : d.rangesStatus c.access [(c.arg 24 8, 64 * (ws.length + 1), true)] = 0) (hsem : d.semOk c = true) (howned : owned c = true)
    (hroom : ∀ k, k < ws.length + 1 → d.cpWaits c.mover (c.arg 24 8 + 64 * k) = false)
    (hdown : d.wordDown (d.wordOf (c.arg 24 8 + 64 * ws.length)) = false) :
    ((d.queryRow n i kind words owned).settle.seen (d.wordOf (c.arg 24 8 + 64 * ws.length))).data = x ∧
      Ended (d.queryRow n i kind words owned).settle n i 0 0 0 := by
  have hlength : (words c).length = ws.length + 1 := by rw [hwords, List.length_append, List.length_singleton]
  have heq := Dev.queryRow_eq (words := words) (inRow_of_started hstart).row hkind haddr hparam (hlength ▸ hranges) hsem howned
    (hlength ▸ hroom)
  have hstored := Dev.stored_writeReport c.mover (c.arg 24 8) ws x hdown
  have hcmd : (d.writeReport c.mover (c.arg 24 8) (ws ++ [x])).cmd n i = some c :=
    ((Traffic.writeReport d _ _ _).cmd n i).trans (inRow_of_started hstart).cmd
  obtain ⟨hn, hi⟩ := Dev.cmd_place hcmd
  rw [heq, hwords, Dev.seen_settle, Dev.seen_endCmd hstored.isSome]
  exact ⟨hstored.seen_whole.1, ended_endCmd hcmd hn hi 0 0 0⟩

end Sys2Proof.Machine

namespace Sys2Proof.Proofs

open Sys2Proof.Machine

/-- Settles O12: each kind of QUERY by the last word of its report. -/
theorem queriesReport : Obligations.QueriesReport := by
  unfold Obligations.QueriesReport
  intro s n i c dest last ready
  refine ⟨fun ⟨hstart, haddr, hranges, hsem, hroom, hdown⟩ hkind hparam howned => ?_,
    fun ⟨hstart, haddr, hranges, hsem, hroom, hdown⟩ hkind hparam => ?_,
    fun ⟨hstart, haddr, hranges, hsem, hroom, hdown⟩ hkind hparam => ?_⟩
  · exact runs_live _ s _ (fun d => d.queryRingRow n i) rfl hstart.1
      (queryRow_reports (ws := []) rfl hstart hkind haddr (decide_eq_true hparam) hranges hsem howned hroom hdown)
  · exact runs_live _ s _ (fun d => d.queryUsageRow n i) rfl hstart.1
      (queryRow_reports (ws := []) rfl hstart hkind haddr (beq_iff_eq.2 hparam) hranges hsem rfl hroom hdown)
  · exact runs_live _ s _ (fun d => d.queryFloesRow n i) rfl hstart.1
      (queryRow_reports (ws := (List.range 63).map fun k =>
          BitVec.ofNat 512 (s.dev.queryFloe c.field (2 * k) + s.dev.queryFloe c.field (2 * k + 1) * 2 ^ 256))
        (by rw [show (64 : Nat) = 63 + 1 from rfl, List.range_succ, List.map_append]; rfl) hstart hkind haddr (beq_iff_eq.2 hparam)
        (by rwa [List.length_map, List.length_range]) hsem rfl (by rwa [List.length_map, List.length_range])
        (by rwa [List.length_map, List.length_range]))

end Sys2Proof.Proofs

/-! ## A slot after a halt and after a freeze (R262 to R265, R379) -/

namespace Sys2Proof.Machine

theorem Floe.active_iff (f : Floe) : f.active = true ↔ f.st = .running ∨ f.st = .ending ∨ f.st = .halting := by
  simp [Floe.active, or_assoc]

/-- A halt of a floe in service changes floes, registers and the log, and the floe is HALTING. -/
theorem Dev.haltFloe_halts {d : Dev} {n : Nat} (h : (d.floe n).active = true) (code : Nat) (pc : DevAddr) (slot : Nat) (disp : Bool) :
    ((d.haltFloe n code pc slot disp).floe n).st = .halting ∧ (d.haltFloe n code pc slot disp).logical = d.logical ∧
      (d.haltFloe n code pc slot disp).sems = d.sems := by
  rw [Dev.haltFloe]
  rcases (Floe.active_iff _).1 h with hst | hst | hst <;> rw [hst] <;> dsimp only
  · refine ⟨?_, Dev.report_logical .., Dev.report_sems ..⟩
    rw [Dev.report_floe_at, Dev.floe_setFloe, if_pos rfl]
    split <;> rfl
  · refine ⟨?_, Dev.report_logical .., Dev.report_sems ..⟩
    rw [Dev.report_floe_at, Dev.floe_setFloe, if_pos rfl]
    split <;> rfl
  · refine ⟨?_, rfl, rfl⟩
    rw [Dev.floe_setFloe, if_pos rfl]
    split
    · exact hst
    · rfl

theorem Dev.faultCmd_halts {d : Dev} {n : Nat} (h : (d.floe n).active = true) (e : Nat) (c : ECmd) (code : Nat) :
    ((d.faultCmd n e c code).floe n).st = .halting ∧ (d.faultCmd n e c code).logical = d.logical ∧
      (d.faultCmd n e c code).sems = d.sems := by
  rw [Dev.faultCmd]
  refine Dev.haltFloe_halts ?_ _ _ _ _
  rw [Dev.updFloe, Dev.floe_setFloe, if_pos rfl]
  exact h

/-- What a freeze leaves of a slot: its state, its cause and its time (R265, R379). -/
structure FrozenAs (d d' : Dev) (n cause : Nat) : Prop where
  st : (d'.floe n).st = .frozen
  fencing : (d'.floe n).fencing = true
  ident : (d'.floe n).ident = (d.floe n).ident
  frz : rbit (d'.reg (rFreeze n)) 31 = true
  cause : fld (d'.reg (rFreeze n)) 27 24 = cause
  time : d'.reg64 (rFreezeTime n) = d.time

/-- FLOE_FREEZE of a freeze (R379). -/
def freezeValue (cause ue : Nat) : Reg := BitVec.ofNat 32 (2 ^ 31 + (if freezeFault cause then 2 ^ 30 else 0) + cause * 2 ^ 24 + ue)

theorem freezeValue_fields {cause ue : Nat} (hcause : cause < 16) (hue : ue < 4) :
    rbit (freezeValue cause ue) 31 = true ∧ fld (freezeValue cause ue) 27 24 = cause := by
  have hvalue : (freezeValue cause ue).toNat = 2 ^ 31 + (if freezeFault cause then 2 ^ 30 else 0) + cause * 2 ^ 24 + ue := by
    rw [freezeValue, BitVec.toNat_ofNat]
    split <;> omega
  rw [fld, bits, rbit, BitVec.getLsbD, hvalue, Nat.testBit_eq_decide_div_mod_eq, Nat.shiftRight_eq_div_pow, decide_eq_true_iff]
  split <;> omega

theorem Dev.leaveLaunch_frame (d : Dev) (n : Nat) (halted : Option (BitVec 8 × BitVec 64)) (frozen : Bool) :
    ((d.leaveLaunch n halted frozen).floe n).ident = (d.floe n).ident ∧ (d.leaveLaunch n halted frozen).time = d.time := by
  rw [Dev.leaveLaunch]
  split
  · refine ⟨?_, rfl⟩
    rw [show ∀ (e : Dev) (l : List Cmd), ({ e with cmds := l } : Dev).floe n = e.floe n from fun _ _ => rfl, Dev.floe_setFloe, if_pos rfl]
  · exact ⟨rfl, rfl⟩

/-- The registers of a slot's freeze are none that a report writes. -/
theorem not_reportReg_of_freeze {n o : Nat} (ho : rFreeze n ≤ o ∧ o ≤ rFreezeTime n + 4) : o ∉ reportRegs := by
  obtain ⟨hlo, hhi⟩ := ho
  simp only [rFreeze, rFreezeTime, rFloe] at hlo hhi
  simp only [reportRegs, List.mem_cons, List.not_mem_nil, or_false, rMorSeq, rCpDevsrc, rMorFatal, rMorStat]
  omega

theorem Dev.reg64_report {d : Dev} {o : Nat} (hlow : o ∉ reportRegs) (hhigh : o + 4 ∉ reportRegs) {code sev ukind unit addr info : Nat}
    {f : Option (BitVec 4)} : (d.report code sev ukind unit addr info f).reg64 o = d.reg64 o := by
  rw [Dev.reg64, Dev.report_reg _ _ _ _ _ _ _ _ _ hlow, Dev.report_reg _ _ _ _ _ _ _ _ _ hhigh, Dev.reg64]

theorem Dev.freezeFloe_frozen {d : Dev} {n cause : Nat} {lf : BitVec 7} (hcause : cause < 16)
    (hident : (d.floe n).ident = some lf) (hst : (d.floe n).st ≠ .frozen) (hst' : (d.floe n).st ≠ .unassigned) :
    FrozenAs d (d.freezeFloe n cause) n cause := by
  obtain ⟨hleft, htime⟩ := d.leaveLaunch_frame n none true
  have hue : (if cause = 3 then sat 3 (fld (d.reg (rFreeze n)) 1 0 + 1) else fld (d.reg (rFreeze n)) 1 0) < 4 := by
    rw [sat]
    have : fld (d.reg (rFreeze n)) 1 0 < 4 := Nat.mod_lt _ (by decide)
    split <;> [split <;> omega; exact this]
  obtain ⟨hfrz, hcode⟩ := freezeValue_fields hcause hue
  have hfrzReg : rFreeze n ∉ reportRegs := not_reportReg_of_freeze (n := n) ⟨le_rfl, by simp only [rFreeze, rFreezeTime]; omega⟩
  have hlow : rFreezeTime n ∉ reportRegs := not_reportReg_of_freeze (n := n) ⟨by simp only [rFreeze, rFreezeTime]; omega, by omega⟩
  have hhigh : rFreezeTime n + 4 ∉ reportRegs := not_reportReg_of_freeze (n := n) ⟨by simp only [rFreeze, rFreezeTime]; omega, le_rfl⟩
  have hreg : ∀ (e : Dev) (v : Reg) (t : BitVec 64), ((e.setReg (rFreeze n) v).setReg64 (rFreezeTime n) t).reg (rFreeze n) = v := fun e v t => by
    rw [Dev.setReg64, Dev.reg_setReg, if_neg (by simp only [rFreeze, rFreezeTime]; omega), Dev.reg_setReg,
      if_neg (by simp only [rFreeze, rFreezeTime]; omega), Dev.reg_setReg, if_pos rfl]
  unfold Dev.freezeFloe
  dsimp only
  split
  · next h => exact absurd h hst
  · next h => exact absurd h hst'
  · next h _ _ => rw [hident] at h; cases h
  · have hfloe : ∀ (e : Dev) (g : Floe → Floe) (l : Nat) (k : Logical → Logical) (v : Reg) (t : BitVec 64),
        ((((e.updFloe n g).updLogi l k).setReg (rFreeze n) v).setReg64 (rFreezeTime n) t).floe n = g (e.floe n) := fun e g l k v t => by
      rw [Dev.setReg64, Dev.floe_setReg, Dev.floe_setReg, Dev.floe_setReg, Dev.updLogi, Dev.floe_setLogi, Dev.updFloe, Dev.floe_setFloe,
        if_pos rfl]
    refine ⟨?_, ?_, ?_, ?_, ?_, ?_⟩
    · rw [Dev.report_floe_at, hfloe]
    · rw [Dev.report_floe_at, hfloe]
    · rw [Dev.report_floe_at, hfloe]
      exact hleft
    · rw [Dev.report_reg _ _ _ _ _ _ _ _ _ hfrzReg, hreg]
      exact hfrz
    · rw [Dev.report_reg _ _ _ _ _ _ _ _ _ hfrzReg, hreg]
      exact hcode
    · rw [Dev.reg64_report hlow hhigh, Dev.reg64_setReg64, Dev.setReg_time, Dev.updLogi, Dev.setLogi_time, Dev.updFloe, Dev.setFloe_time, htime]

/-- The slot that holds a logical floe is its own or its drift group's spare (R30, R31, R269). -/
theorem Dev.slotOf_eq_some {d : Dev} {f p : Nat} (h : d.slotOf f = some p) :
    (p = f ∨ p = 128 + f / 16) ∧ (d.floe p).ident = some (BitVec.ofNat 7 f) := by
  have hmem := List.mem_of_find?_eq_some h
  have hident := List.find?_some h
  exact ⟨by simpa using hmem, by simpa using hident⟩

end Sys2Proof.Machine

/-! ## The sync slot (R299 to R301) -/

namespace Sys2Proof.Machine

open Sys2Proof.Claims

theorem Floe.engine_setEngine (f : Floe) {e : Nat} (he : e < 6) (es : List ECmd) : (f.setEngine e es).engine e = es := by
  simp [Floe.engine, Floe.setEngine, setAt, he]

/-- A sync command that has been performed (R301). -/
def ECmd.over (c : ECmd) : ECmd := { c with performed := true, waiting := none }

/-- A sync command that waits, from now on if it did not yet (R301). -/
def ECmd.held (c : ECmd) (kind t p : Nat) : ECmd := if c.waiting.isSome then c else { c with waiting := some (kind, t, p) }

/-- The current sync command, after the commands of its number have been updated. -/
theorem Dev.mem_engine_updCmd {d e : Dev} {n : Nat} {c : ECmd} (g : ECmd → ECmd) (hfloe : e.floe n = d.floe n)
    (hcur : (d.floe n).current 5 = some c) : g c ∈ ((e.updCmd n 5 c.number g).settle.floe n).engine 5 := by
  rw [Dev.floe_settle, Dev.updCmd, Dev.updFloe, Dev.floe_setFloe, if_pos rfl, hfloe, Floe.engine_setEngine _ (by decide)]
  exact List.mem_map.2 ⟨c, List.mem_of_find?_eq_some hcur, by simp⟩

variable {d : Dev} {n op : Nat} {c : ECmd}

theorem Dev.synced_updCmd {e : Dev} (hsync : Syncs d n op c) (hfloes : e.floes = d.floes) :
    Synced (e.updCmd n 5 c.number ECmd.over).settle n c := by
  obtain ⟨-, -, hcur, -⟩ := hsync
  exact ⟨_, Dev.mem_engine_updCmd ECmd.over (by rw [Dev.floe, hfloes, Dev.floe]) hcur, rfl, rfl⟩

/-- The row of a sync command performs it, makes it wait, or lets it fault, as its opcode says. -/
theorem Dev.syncRow_eq (h : Syncs d n op c) : d.syncRow n op = match d.syncExec n c with
    | .done d => d.updCmd n 5 c.number ECmd.over
    | .wait k d => if k = 8 then d else d.noteWait n 5 c.number k
    | .fault code d => d.faultCmd n 5 c code
    | .gone d => d := by
  obtain ⟨-, hactive, hcur, hop⟩ := h
  rw [Dev.syncRow, hcur]
  dsimp only
  rw [hactive, hop, if_neg (by simp)]
  rfl

theorem Dev.syncRow_done (h : Syncs d n op c) {e : Dev} (hexec : d.syncExec n c = .done e) :
    d.syncRow n op = e.updCmd n 5 c.number ECmd.over := by
  rw [Dev.syncRow_eq h, hexec]

theorem Dev.syncRow_fault (h : Syncs d n op c) {code : Nat} (hexec : d.syncExec n c = .fault code d) :
    d.syncRow n op = d.faultCmd n 5 c code := by
  rw [Dev.syncRow_eq h, hexec]

theorem Dev.syncRow_gone (h : Syncs d n op c) {e : Dev} (hexec : d.syncExec n c = .gone e) : d.syncRow n op = e := by
  rw [Dev.syncRow_eq h, hexec]

theorem Dev.syncRow_wait (h : Syncs d n op c) {k : Nat} (hk : k ≠ 8) (hexec : d.syncExec n c = .wait k d) :
    d.syncRow n op = d.updCmd n 5 c.number fun x => x.held k d.clock (d.wdog n) := by
  rw [Dev.syncRow_eq h, hexec]
  exact if_neg hk

/-- A sync command that waits is still to be performed. -/
theorem Dev.syncHeld_updCmd (h : Syncs d n op c) (k : Nat) :
    SyncHeld (d.updCmd n 5 c.number fun x => x.held k d.clock (d.wdog n)).settle n c := by
  obtain ⟨-, -, hcur, -⟩ := h
  have hmem := Dev.mem_engine_updCmd (fun x => x.held k d.clock (d.wdog n)) rfl hcur
  have hperformed : c.performed = false := by
    have := List.find?_some hcur
    simp only [Bool.and_eq_true, Bool.not_eq_true'] at this
    exact this.1.2
  refine ⟨_, hmem, ?_⟩
  by_cases hwaits : c.waiting.isSome = true
  · rw [ECmd.held, if_pos hwaits]
    exact ⟨rfl, hperformed, hwaits⟩
  · rw [ECmd.held, if_neg hwaits]
    exact ⟨rfl, hperformed, rfl⟩

/-! ### Each opcode (R300) -/

theorem Dev.syncExec_sigr (h : syncOp c.word = 1) : d.syncExec n c =
    if d.sameField (d.logicalOf n) (bits c.word.toNat 18 12) then .done (d.updLogi (bits c.word.toNat 18 12) fun l =>
      l.signal (c.word.toNat.testBit 11) (bits c.word.toNat 10 5) (bits c.word.toNat 4 2)) else .fault 5 d := by
  simp only [Dev.syncExec, h]
  cases d.sameField (d.logicalOf n) (bits c.word.toNat 18 12) <;> rfl

theorem Dev.syncExec_tlset (h : syncOp c.word = 2) : d.syncExec n c = .done (d.updLogi (d.logicalOf n) fun l =>
    l.setLimit (bits c.word.toNat 18 13) ((c.nx (bits c.word.toNat 12 10)).truncate 32)) := by
  simp only [Dev.syncExec, h]

theorem Dev.syncExec_tadd (h : syncOp c.word = 3) : d.syncExec n c = .done (d.updLogi (d.logicalOf n) fun l =>
    l.setCounter (bits c.word.toNat 18 13) (l.counter (bits c.word.toNat 18 13) + (c.nx (bits c.word.toNat 12 10)).truncate 32)) := by
  simp only [Dev.syncExec, h]

theorem Dev.semGuard_owned (h : OwnsSem d n c) (go : Dev → SyncOut) : d.semGuard n (syncSem c.word) go = go d := by
  obtain ⟨howned, hsound⟩ := h
  rw [Dev.semGuard, howned, hsound]
  rfl

theorem Dev.syncExec_semadd (h : syncOp c.word = 4) : d.syncExec n c = d.semGuard n (syncSem c.word) fun d =>
    .done (d.setSem (syncSem c.word) (d.sem (syncSem c.word) + (c.nx (bits c.word.toNat 6 4)).zeroExtend 64)) := by
  simp only [Dev.syncExec, h]

theorem Dev.syncExec_seminc (h : syncOp c.word = 5) : d.syncExec n c = d.semGuard n (syncSem c.word) fun d =>
    .done (d.setSem (syncSem c.word) (d.sem (syncSem c.word) + 1)) := by
  simp only [Dev.syncExec, h]

theorem Dev.syncExec_semset (h : syncOp c.word = 6) : d.syncExec n c = d.semGuard n (syncSem c.word) fun d =>
    .done (d.setSem (syncSem c.word) ((c.nx (bits c.word.toNat 6 4)).zeroExtend 64)) := by
  simp only [Dev.syncExec, h]

theorem Dev.syncExec_send (h : syncOp c.word = 9) : d.syncExec n c = d.syncSend n c := by
  simp only [Dev.syncExec, h]

theorem Dev.syncExec_recv (h : syncOp c.word = 0xA) : d.syncExec n c = d.syncRecv n c := by
  simp only [Dev.syncExec, h]

end Sys2Proof.Machine

/-! ### Messages (R119 to R123) -/

namespace Sys2Proof.Machine

open Sys2Proof.Claims

theorem msgBytes_fields {sender kind : Nat} (hsender : sender < 2 ^ 16) (hkind : kind < 2 ^ 8) (sepoch mseq payload : Nat) :
    fieldAt (msgBytes sender sepoch mseq kind payload).toNat 0 2 = sender ∧
      fieldAt (msgBytes sender sepoch mseq kind payload).toNat 6 1 = kind := by
  simp only [fieldAt, msgBytes, BitVec.toNat_ofNat, Nat.shiftRight_eq_div_pow]
  omega

@[simp] theorem Dev.logi_updLogi (d : Dev) (f k : Nat) (g : Logical → Logical) :
    (d.updLogi f g).logi k = if k = f then g (d.logi f) else d.logi k :=
  Dev.logi_setLogi ..

theorem Dev.slotOf_congr {d d' : Dev} (h : d'.floes = d.floes) (f : Nat) : d'.slotOf f = d.slotOf f := by
  simp only [Dev.slotOf, Dev.floe, h]

theorem Dev.frozenFloe_congr {d d' : Dev} (h : d'.floes = d.floes) (f : Nat) : d'.frozenFloe f = d.frozenFloe f := by
  rw [Dev.frozenFloe, Dev.slotOf_congr h, Dev.frozenFloe]
  simp only [Dev.floe, h]

/-- A data message goes to the end of an inbox that is not frozen (R120). -/
theorem Dev.deliverMsg_open {d : Dev} {f : Nat} (h : d.frozenFloe f = false) (m : Msg) :
    d.deliverMsg f m = d.updLogi f fun l => { l with data := l.data ++ [m] } := by
  rw [Dev.deliverMsg, h, if_neg Bool.false_ne_true]

/-- The status that a floe sender gets for a message discarded by receiver `f` (R119, R123). -/
def Dev.discardStatus (d : Dev) (f : Nat) (m : Msg) : Msg :=
  { bytes := msgBytes f (d.logi f).epoch.toNat 0 1 (fieldAt m.bytes.toNat 4 2 + f * 2 ^ 16 + fieldAt m.bytes.toNat 2 2 * 2 ^ 32), cmd := none }

theorem Dev.discardStatus_kind (d : Dev) {f : Nat} (hf : f < 2 ^ 16) (m : Msg) : (d.discardStatus f m).kind = 1 :=
  (msgBytes_fields hf (by decide) _ _ _).2

/-- Returning an allowance leaves all else of the floes, and the commands. -/
theorem Dev.returnAllowance_frame (d : Dev) (m : Msg) : (d.returnAllowance m).floes = d.floes ∧ (d.returnAllowance m).cmds = d.cmds ∧
    ∀ f, ∃ a, (d.returnAllowance m).logi f = { d.logi f with allowance := a } := by
  rw [Dev.returnAllowance]
  split
  · refine ⟨rfl, rfl, fun f => ?_⟩
    rw [Dev.logi_updLogi]
    split
    · next h => exact ⟨_, by rw [h]⟩
    · exact ⟨_, rfl⟩
  · exact ⟨rfl, rfl, fun _ => ⟨_, rfl⟩⟩

/-- A floe's message to a frozen floe is discarded: its sender gets a status, and the inbox stays (R123). -/
theorem Dev.deliverMsg_frozen {d : Dev} {f : Nat} {m : Msg} (h : d.frozenFloe f = true) (hkind : m.kind = 0) (hsender : m.sender < 128)
    (hcmd : m.cmd = none) : (d.deliverMsg f m).floes = d.floes ∧ (∀ k, ((d.deliverMsg f m).logi k).data = (d.logi k).data) ∧
      ((d.deliverMsg f m).logi m.sender).statuses = (d.logi m.sender).statuses ++ [(d.returnAllowance m).discardStatus f m] := by
  have heq : d.deliverMsg f m = (d.returnAllowance m).updLogi m.sender fun l =>
      { l with statuses := l.statuses ++ [(d.returnAllowance m).discardStatus f m] } := by
    rw [Dev.deliverMsg, if_pos h, Dev.discardMsg, if_neg (by omega), if_pos hsender, Dev.endMsg, hcmd]
    rfl
  obtain ⟨hfloes, -, hlogi⟩ := d.returnAllowance_frame m
  refine ⟨heq ▸ hfloes, fun k => ?_, ?_⟩
  · obtain ⟨a, ha⟩ := hlogi k
    rw [heq, Dev.logi_updLogi]
    split
    · next hk => rw [← hk, ha]
    · rw [ha]
  · obtain ⟨a, ha⟩ := hlogi m.sender
    rw [heq, Dev.logi_updLogi, if_pos rfl, ha]

variable {d : Dev} {n : Nat} {c : ECmd}

/-- The message that a SEND sends (R119, R300). -/
def Dev.sendMsg (d : Dev) (n : Nat) (c : ECmd) : Msg :=
  { bytes := msgBytes (d.logicalOf n) (d.logi (d.logicalOf n)).epoch.toNat (d.logi (d.logicalOf n)).sent.toNat 0
      ((List.range 4).foldr (fun k x => (c.nx (4 * bits c.word.toNat 11 11 + k)).toNat + 2 ^ 48 * x) 0), cmd := none }

theorem Dev.logicalOf_lt (d : Dev) (n : Nat) : d.logicalOf n < 128 := BitVec.isLt _

theorem Dev.sendMsg_fields (d : Dev) (n : Nat) (c : ECmd) : (d.sendMsg n c).sender = d.logicalOf n ∧ (d.sendMsg n c).kind = 0 :=
  msgBytes_fields (lt_trans (d.logicalOf_lt n) (by decide)) (by decide) _ _ _

/-- A logical floe that has sent one message more (R120). -/
def Logical.sentOne (l : Logical) : Logical := { l with sent := l.sent + 1, allowance := l.allowance + 1 }

/-- A SEND that its sender's allowance and the inbox let go (R120, R300). -/
theorem Dev.syncSend_goes (hfield : d.sameField (d.logicalOf n) (bits c.word.toNat 18 12) = true)
    (hallow : (d.logi (d.logicalOf n)).allowance < 64)
    (hroom : d.frozenFloe (bits c.word.toNat 18 12) = true ∨ (d.logi (bits c.word.toNat 18 12)).data.length < 64) :
    d.syncSend n c = .done ((d.setLogi (d.logicalOf n) (d.logi (d.logicalOf n)).sentOne).deliverMsg (bits c.word.toNat 18 12) (d.sendMsg n c)) := by
  have hgoes : (decide (64 ≤ (d.logi (d.logicalOf n)).allowance) ||
      (!d.frozenFloe (bits c.word.toNat 18 12) && decide (64 ≤ (d.logi (bits c.word.toNat 18 12)).data.length))) = false := by
    rw [decide_eq_false (by omega), Bool.false_or]
    rcases hroom with h | h
    · rw [h]; rfl
    · rw [decide_eq_false (by omega), Bool.and_false]
  rw [Dev.syncSend, if_neg (by rw [hfield]; decide), if_neg (by rw [hgoes]; decide)]
  rfl

/-- The eight counters that a RECV sets from the bytes of a message (R300). -/
def Logical.received (l : Logical) (m : Nat) (x : Msg) : Logical :=
  forNat 8 l fun l j => l.setCounter (8 * m + j) (BitVec.ofNat 32 (fieldAt x.bytes.toNat (4 * j) 4))

theorem forNat_succ {α : Type} (n : Nat) (a : α) (f : α → Nat → α) : forNat (n + 1) a f = f (forNat n a f) n := by
  rw [forNat, List.range_succ, List.foldl_append]
  rfl

theorem Logical.counter_setCounter (l : Logical) (i k : Nat) (v : BitVec 32) :
    (l.setCounter i v).counter k = if k = i then v else l.counter k :=
  tabGet_set ..

/-- Counters set one after the other hold what they were set to. -/
theorem Logical.counter_forNat (l : Logical) (b : Nat) (v : Nat → BitVec 32) {k j : Nat} (hj : j < k) :
    (forNat k l fun l j => l.setCounter (b + j) (v j)).counter (b + j) = v j := by
  induction k with
  | zero => omega
  | succ k ih =>
    rw [forNat_succ, Logical.counter_setCounter]
    by_cases h : j = k
    · rw [if_pos (by rw [h]), h]
    · rw [if_neg (by omega), ih (by omega)]

theorem Logical.counter_received (l : Logical) (m : Nat) (x : Msg) {j : Nat} (hj : j < 8) :
    (l.received m x).counter (8 * m + j) = BitVec.ofNat 32 (fieldAt x.bytes.toNat (4 * j) 4) :=
  l.counter_forNat (8 * m) _ hj

/-- Setting counters leaves the queues of an inbox. -/
theorem Logical.queues_received (l : Logical) (m : Nat) (x : Msg) :
    (l.received m x).data = l.data ∧ (l.received m x).statuses = l.statuses :=
  forNat_rec (motive := fun y : Logical => y.data = l.data ∧ y.statuses = l.statuses) ⟨rfl, rfl⟩ fun _ h _ _ => h

/-- A RECV takes a status first (R120, R300). -/
theorem Dev.syncRecv_status {x : Msg} {rest : List Msg} (h : (d.logi (d.logicalOf n)).statuses = x :: rest) :
    d.syncRecv n c = .done (d.setLogi (d.logicalOf n)
      (({ d.logi (d.logicalOf n) with statuses := rest } : Logical).received (bits c.word.toNat 18 16) x)) := by
  rw [Dev.syncRecv, h]
  rfl

theorem Dev.syncRecv_data {x : Msg} {rest : List Msg} (hnone : (d.logi (d.logicalOf n)).statuses = [])
    (h : (d.logi (d.logicalOf n)).data = x :: rest) :
    d.syncRecv n c = .done (((d.setLogi (d.logicalOf n)
      (({ d.logi (d.logicalOf n) with data := rest } : Logical).received (bits c.word.toNat 18 16) x)).endMsg x 0).returnAllowance x) := by
  rw [Dev.syncRecv]
  split
  · next heq => rw [hnone] at heq; cases heq
  · next heq => rw [h] at heq; cases heq; rfl
  · next heq => rw [h] at heq; cases heq

theorem Dev.syncRecv_empty (hnone : (d.logi (d.logicalOf n)).statuses = []) (h : (d.logi (d.logicalOf n)).data = []) :
    d.syncRecv n c = .wait 5 d := by
  rw [Dev.syncRecv, hnone, h]

theorem Dev.endMsg_frame (d : Dev) (m : Msg) (status : Nat) : (d.endMsg m status).floes = d.floes ∧ (d.endMsg m status).logical = d.logical := by
  rw [Dev.endMsg]
  cases m.cmd <;> exact ⟨rfl, rfl⟩

/-- The MSG that posted a message ends (R122). -/
theorem Dev.cmd_endMsg {d : Dev} {m : Msg} {r : Fin 1024} {i : BitVec 32} {c : Cmd} (hm : m.cmd = some (r, i)) (hcmd : d.cmd r i = some c)
    (hdone : c.done = none) (status : Nat) :
    (d.endMsg m status).cmd r i = some { c with done := some { status := BitVec.ofNat 8 status, r0 := 0, r1 := 0 } } := by
  obtain ⟨hn, hi⟩ := Dev.cmd_place hcmd
  have hring : c.ring = r := Fin.ext hn
  have hkeeps : KeepsPlace fun c => { c with done := some { status := BitVec.ofNat 8 status, r0 := 0, r1 := 0 } } := fun _ => ⟨rfl, rfl⟩
  rw [Dev.endMsg, hm, Dev.cmd_map (hkeeps.ite fun c => c.ring == r && c.idx == i && c.done.isNone) rfl, hcmd]
  simp [hring, hi, hdone]

end Sys2Proof.Machine

/-! ## What each sync command leaves (R242, R300, R340) -/

namespace Sys2Proof.Machine

open Sys2Proof.Claims

variable {d : Dev} {n op : Nat} {c : ECmd}

/-- The device after a sync command that has been performed, but for its mark. -/
theorem Dev.syncRow_performed (h : Syncs d n op c) {e : Dev} (hexec : d.syncExec n c = .done e) (hfloes : e.floes = d.floes) :
    Synced (d.syncRow n op).settle n c ∧ (d.syncRow n op).settle.cmds = e.cmds ∧ (d.syncRow n op).settle.logical = e.logical ∧
      (d.syncRow n op).settle.sems = e.sems ∧ (d.syncRow n op).settle.dram = e.dram := by
  rw [Dev.syncRow_done h hexec]
  refine ⟨Dev.synced_updCmd h hfloes, ?_, ?_, ?_, ?_⟩ <;> simp only [Dev.updCmd, Dev.updFloe, Dev.settle_cmds, Dev.settle_logical,
    Dev.settle_sems, Dev.settle_dram, Dev.setFloe_cmds, Dev.setFloe_logical, Dev.setFloe_sems, Dev.setFloe_dram]

theorem Dev.logi_congr {d d' : Dev} (h : d'.logical = d.logical) (f : Nat) : d'.logi f = d.logi f := by rw [Dev.logi, h, Dev.logi]

/-- A sync command that updates one logical floe has been performed, and nothing else of the objects has changed. -/
theorem Dev.syncRow_updLogi (h : Syncs d n op c) (f : Nat) (g : Logical → Logical) (hexec : d.syncExec n c = .done (d.updLogi f g)) :
    let d' := (d.syncRow n op).settle
    Synced d' n c ∧ d'.logi f = g (d.logi f) ∧ (∀ k, k ≠ f → d'.logi k = d.logi k) ∧ d'.sems = d.sems ∧ d'.dram = d.dram := by
  obtain ⟨hsynced, -, hlogical, hsems, hdram⟩ := Dev.syncRow_performed h hexec (Dev.setLogi_floes ..)
  refine ⟨hsynced, ?_, fun k hk => ?_, hsems.trans (Dev.setLogi_sems ..), hdram.trans (Dev.setLogi_dram ..)⟩
  · rw [Dev.logi_congr hlogical, Dev.logi_updLogi, if_pos rfl]
  · rw [Dev.logi_congr hlogical, Dev.logi_updLogi, if_neg hk]

theorem Dev.sem_setSem (d : Dev) (q k : Nat) (v : BitVec 64) : (d.setSem q v).sem k = if k = q then v else d.sem k := tabGet_set ..

/-- A sync command that updates one semaphore has been performed, and nothing else of the objects has changed. -/
theorem Dev.syncRow_setSem (h : Syncs d n op c) (q : Nat) (v : BitVec 64) (hexec : d.syncExec n c = .done (d.setSem q v)) :
    let d' := (d.syncRow n op).settle
    Synced d' n c ∧ d'.sem q = v ∧ (∀ k, k ≠ q → d'.sem k = d.sem k) ∧ d'.logical = d.logical ∧ d'.dram = d.dram := by
  obtain ⟨hsynced, -, hlogical, hsems, hdram⟩ := Dev.syncRow_performed h hexec (by rw [Dev.setSem])
  have hsem : ∀ k, (d.syncRow n op).settle.sem k = (d.setSem q v).sem k := fun k => by rw [Dev.sem, hsems, Dev.sem]
  refine ⟨hsynced, ?_, fun k hk => ?_, by rw [hlogical, Dev.setSem], by rw [hdram, Dev.setSem]⟩
  · rw [hsem, Dev.sem_setSem, if_pos rfl]
  · rw [hsem, Dev.sem_setSem, if_neg hk]

/-- A sync command that faults halts its floe and leaves the objects. -/
theorem Dev.syncRow_faults (h : Syncs d n op c) {code : Nat} (hexec : d.syncExec n c = .fault code d) :
    ((d.syncRow n op).settle.floe n).st = .halting ∧ (d.syncRow n op).settle.logical = d.logical ∧ (d.syncRow n op).settle.sems = d.sems := by
  rw [Dev.syncRow_fault h hexec]
  exact Dev.faultCmd_halts h.2.1 5 c code

/-- A semaphore operation of the slot's own field whose semaphore is poisoned freezes the floe (R368). -/
theorem Dev.syncRow_poisoned (h : Syncs d n op c) (howned : d.semOwned (d.floeField n) (syncSem c.word) = true)
    (hexec : d.syncExec n c = .gone (d.freezeFloe n 6)) : ((d.syncRow n op).settle.floe n).st = .frozen ∧
      fld ((d.syncRow n op).settle.reg (rFreeze n)) 27 24 = 6 ∧ (d.syncRow n op).settle.sems = d.sems := by
  have hactive := (Floe.active_iff _).1 h.2.1
  have hident : ∃ lf, (d.floe n).ident = some lf := by
    rw [← Option.isSome_iff_exists, Option.isSome_iff_ne_none]
    intro hnone
    simp [Dev.semOwned, Dev.floeField, hnone] at howned
  obtain ⟨lf, hlf⟩ := hident
  have hfrozen := Dev.freezeFloe_frozen (cause := 6) (by decide) hlf
    (by rcases hactive with h | h | h <;> rw [h] <;> decide) (by rcases hactive with h | h | h <;> rw [h] <;> decide)
  rw [Dev.syncRow_gone h hexec]
  exact ⟨hfrozen.st, hfrozen.cause, (FloeStops.freezeFloe d n 6).sems⟩

/-- A SEND to a floe with room posts its message (R119, R120). -/
theorem Dev.syncRow_send_posts (h : Syncs d n 9 c) {f : Nat} (hf : bits c.word.toNat 18 12 = f)
    (hfield : d.sameField (d.logicalOf n) f = true) (hallow : (d.logi (d.logicalOf n)).allowance < 64) (hopen : d.frozenFloe f = false)
    (hroom : (d.logi f).data.length < 64) :
    let d' := (d.syncRow n 9).settle
    Synced d' n c ∧ (d'.logi (d.logicalOf n)).sent = (d.logi (d.logicalOf n)).sent + 1 ∧
      (d'.logi (d.logicalOf n)).allowance = (d.logi (d.logicalOf n)).allowance + 1 ∧
      (d'.logi f).data = (d.logi f).data ++ [d.sendMsg n c] := by
  subst hf
  have hexec := (Dev.syncExec_send h.2.2.2).trans (Dev.syncSend_goes hfield hallow (.inr hroom))
  rw [Dev.deliverMsg_open ((Dev.frozenFloe_congr (Dev.setLogi_floes d ..) _).trans hopen)] at hexec
  obtain ⟨hsynced, -, hlogical, -⟩ := Dev.syncRow_performed h hexec ((Dev.setLogi_floes ..).trans (Dev.setLogi_floes ..))
  have hme : (d.setLogi (d.logicalOf n) (d.logi (d.logicalOf n)).sentOne).logi (d.logicalOf n) = (d.logi (d.logicalOf n)).sentOne := by
    rw [Dev.logi_setLogi, if_pos rfl]
  refine ⟨hsynced, ?_, ?_, ?_⟩ <;> rw [Dev.logi_congr hlogical, Dev.logi_updLogi]
  · split
    · next h => rw [← h, hme]; rfl
    · rw [hme]; rfl
  · split
    · next h => rw [← h, hme]; rfl
    · rw [hme]; rfl
  · rw [if_pos rfl, Dev.logi_setLogi]
    split
    · next h => rw [h]; rfl
    · rfl

/-- A SEND to a frozen floe comes back to its sender as a status (R123). -/
theorem Dev.syncRow_send_discards (h : Syncs d n 9 c) {f : Nat} (hf : bits c.word.toNat 18 12 = f)
    (hfield : d.sameField (d.logicalOf n) f = true) (hallow : (d.logi (d.logicalOf n)).allowance < 64) (hfrozen : d.frozenFloe f = true)
    (hother : f ≠ d.logicalOf n) :
    let d' := (d.syncRow n 9).settle
    Synced d' n c ∧ (d'.logi f).data = (d.logi f).data ∧
      ∃ m : Msg, (d'.logi (d.logicalOf n)).statuses = (d.logi (d.logicalOf n)).statuses ++ [m] ∧ m.kind = 1 := by
  have hlt : f < 2 ^ 16 := by
    rw [← hf]
    exact lt_trans (Nat.mod_lt _ (by decide)) (by decide : 2 ^ (18 + 1 - 12) < 2 ^ 16)
  subst hf
  obtain ⟨hsender, hkind⟩ := d.sendMsg_fields n c
  have hexec := (Dev.syncExec_send h.2.2.2).trans (Dev.syncSend_goes hfield hallow (.inl hfrozen))
  obtain ⟨hfloes, hdata, hstatus⟩ := Dev.deliverMsg_frozen (m := d.sendMsg n c)
    ((Dev.frozenFloe_congr (Dev.setLogi_floes d (d.logicalOf n) (d.logi (d.logicalOf n)).sentOne) _).trans hfrozen)
    hkind (hsender ▸ d.logicalOf_lt n) rfl
  obtain ⟨hsynced, -, hlogical, -⟩ := Dev.syncRow_performed h hexec hfloes
  rw [hsender, Dev.logi_setLogi, if_pos rfl] at hstatus
  refine ⟨hsynced, ?_, _, (congrArg Logical.statuses (Dev.logi_congr hlogical _)).trans hstatus, Dev.discardStatus_kind _ hlt _⟩
  rw [Dev.logi_congr hlogical, hdata, Dev.logi_setLogi, if_neg hother]

/-- A RECV of a status (R120, R300). -/
theorem Dev.syncRow_recv_status (h : Syncs d n 0xA c) {x : Msg} {rest : List Msg} (hstatus : (d.logi (d.logicalOf n)).statuses = x :: rest) :
    let d' := (d.syncRow n 0xA).settle
    (Synced d' n c ∧ ∀ j, j < 8 → (d'.logi (d.logicalOf n)).counter (8 * bits c.word.toNat 18 16 + j) =
      BitVec.ofNat 32 (fieldAt x.bytes.toNat (4 * j) 4)) ∧ (d'.logi (d.logicalOf n)).statuses = rest ∧
      (d'.logi (d.logicalOf n)).data = (d.logi (d.logicalOf n)).data := by
  obtain ⟨hsynced, -, hlogical, -⟩ := Dev.syncRow_performed h ((Dev.syncExec_recv h.2.2.2).trans (Dev.syncRecv_status hstatus)) (Dev.setLogi_floes ..)
  obtain ⟨hdata, hstatuses⟩ := ({ d.logi (d.logicalOf n) with statuses := rest } : Logical).queues_received (bits c.word.toNat 18 16) x
  have hme := (Dev.logi_congr hlogical (d.logicalOf n)).trans ((Dev.logi_setLogi ..).trans (if_pos rfl))
  intro d'
  refine ⟨⟨hsynced, fun j hj => ?_⟩, ?_, ?_⟩
  · rw [hme, Logical.counter_received _ _ _ hj]
  · rw [hme, hstatuses]
  · rw [hme, hdata]

theorem Logical.counter_allowance (l : Logical) (a k : Nat) : ({ l with allowance := a } : Logical).counter k = l.counter k := rfl

theorem Logical.data_allowance (l : Logical) (a : Nat) : ({ l with allowance := a } : Logical).data = l.data := rfl

/-- A RECV of a data message, whose MSG ends with it (R120, R122, R300). -/
theorem Dev.syncRow_recv_data (h : Syncs d n 0xA c) {x : Msg} {rest : List Msg} (hnone : (d.logi (d.logicalOf n)).statuses = [])
    (hfirst : (d.logi (d.logicalOf n)).data = x :: rest) :
    let d' := (d.syncRow n 0xA).settle
    (Synced d' n c ∧ ∀ j, j < 8 → (d'.logi (d.logicalOf n)).counter (8 * bits c.word.toNat 18 16 + j) =
      BitVec.ofNat 32 (fieldAt x.bytes.toNat (4 * j) 4)) ∧ (d'.logi (d.logicalOf n)).data = rest ∧
      ∀ r i c', x.cmd = some (r, i) → d.cmd r i = some c' → c'.done = none → Ended d' r i 0 0 0 := by
  have hexec := (Dev.syncExec_recv h.2.2.2).trans (Dev.syncRecv_data (c := c) hnone hfirst)
  generalize he : d.setLogi (d.logicalOf n) _ = e at hexec
  have hcmds : e.cmds = d.cmds := by rw [← he, Dev.setLogi_cmds]
  have hfloes : e.floes = d.floes := by rw [← he, Dev.setLogi_floes]
  have hme : e.logi (d.logicalOf n) =
      ({ d.logi (d.logicalOf n) with data := rest } : Logical).received (bits c.word.toNat 18 16) x := by rw [← he, Dev.logi_setLogi, if_pos rfl]
  obtain ⟨hfloes', hlogical'⟩ := e.endMsg_frame x 0
  obtain ⟨hfloes'', hcmds'', hallow⟩ := (e.endMsg x 0).returnAllowance_frame x
  obtain ⟨hsynced, hcmds₁, hlogical, -⟩ := Dev.syncRow_performed h hexec (hfloes''.trans (hfloes'.trans hfloes))
  obtain ⟨a, ha⟩ := hallow (d.logicalOf n)
  rw [show (e.endMsg x 0).logi (d.logicalOf n) = e.logi (d.logicalOf n) from Dev.logi_congr hlogical' _, hme] at ha
  obtain ⟨hdata, -⟩ := ({ d.logi (d.logicalOf n) with data := rest } : Logical).queues_received (bits c.word.toNat 18 16) x
  intro d'
  refine ⟨⟨hsynced, fun j hj => ?_⟩, ?_, fun r i c' hx hc' hdone => ?_⟩
  · rw [Dev.logi_congr hlogical, ha, Logical.counter_allowance, Logical.counter_received _ _ _ hj]
  · rw [Dev.logi_congr hlogical, ha, Logical.data_allowance, hdata]
  · have hend := Dev.cmd_endMsg (d := e) hx (by rw [Dev.cmd, hcmds, ← hc', Dev.cmd]) hdone 0
    rw [Dev.cmd, ← hcmds'', ← hcmds₁] at hend
    exact ⟨_, hend, rfl⟩

/-- A RECV that finds no message waits (R301). -/
theorem Dev.syncRow_recv_waits (h : Syncs d n 0xA c) (hnone : (d.logi (d.logicalOf n)).statuses = [])
    (hempty : (d.logi (d.logicalOf n)).data = []) :
    SyncHeld (d.syncRow n 0xA).settle n c ∧ (d.syncRow n 0xA).settle.logical = d.logical := by
  rw [Dev.syncRow_wait h (by decide) ((Dev.syncExec_recv h.2.2.2).trans (Dev.syncRecv_empty hnone hempty))]
  exact ⟨Dev.syncHeld_updCmd h 5, rfl⟩

end Sys2Proof.Machine

namespace Sys2Proof.Proofs

open Sys2Proof.Machine

/-- Settles O40: each sync command by what its opcode does to the objects, its mark apart. -/
theorem syncObjects : Obligations.SyncObjects := by
  unfold Obligations.SyncObjects
  intro s n c w me sem nx only semIs target
  refine ⟨fun h => ⟨fun hfield => ?_, fun hfield => ?_⟩, fun h => ?_, fun h => ?_, fun h hown => ?_, fun h hother => ?_, fun h hown => ?_,
    fun h howned hpoison => ?_, fun h hown => ?_, fun h hfield hallow => ⟨fun hopen hroom => ?_, fun hfrozen hother _ => ?_⟩,
    fun x rest h => ⟨fun hstatus => ?_, fun hnone hdata => ?_, fun hnone hempty => ?_⟩⟩
  · exact runs_live _ s _ (fun d => d.syncRow n 1) rfl h.1
      (Dev.syncRow_updLogi h _ _ ((Dev.syncExec_sigr h.2.2.2).trans (if_pos hfield)))
  · obtain ⟨hst, hlogical, -⟩ := Dev.syncRow_faults h ((Dev.syncExec_sigr h.2.2.2).trans (if_neg (by rw [hfield]; decide)))
    exact runs_live _ s _ (fun d => d.syncRow n 1) rfl h.1 ⟨hst, hlogical⟩
  · exact runs_live _ s _ (fun d => d.syncRow n 2) rfl h.1 (Dev.syncRow_updLogi h _ _ (Dev.syncExec_tlset h.2.2.2))
  · exact runs_live _ s _ (fun d => d.syncRow n 3) rfl h.1 (Dev.syncRow_updLogi h _ _ (Dev.syncExec_tadd h.2.2.2))
  · exact runs_live _ s _ (fun d => d.syncRow n 4) rfl h.1
      (Dev.syncRow_setSem h _ _ ((Dev.syncExec_semadd h.2.2.2).trans (Dev.semGuard_owned hown _)))
  · have hexec : s.dev.syncExec n c = .fault 5 s.dev := by
      rw [Dev.syncExec_semadd h.2.2.2, Dev.semGuard, hother]
      rfl
    obtain ⟨hst, -, hsems⟩ := Dev.syncRow_faults h hexec
    exact runs_live _ s _ (fun d => d.syncRow n 4) rfl h.1 ⟨hst, hsems⟩
  · exact runs_live _ s _ (fun d => d.syncRow n 5) rfl h.1
      (Dev.syncRow_setSem h _ _ ((Dev.syncExec_seminc h.2.2.2).trans (Dev.semGuard_owned hown _)))
  · have hexec : s.dev.syncExec n c = .gone (s.dev.freezeFloe n 6) := by
      rw [Dev.syncExec_seminc h.2.2.2, Dev.semGuard, howned, hpoison]
      rfl
    exact runs_live _ s _ (fun d => d.syncRow n 5) rfl h.1 (Dev.syncRow_poisoned h howned hexec)
  · exact runs_live _ s _ (fun d => d.syncRow n 6) rfl h.1
      (Dev.syncRow_setSem h _ _ ((Dev.syncExec_semset h.2.2.2).trans (Dev.semGuard_owned hown _)))
  · obtain ⟨hsynced, hsent, hgiven, hdata⟩ := Dev.syncRow_send_posts h rfl hfield hallow hopen hroom
    exact runs_live _ s _ (fun d => d.syncRow n 9) rfl h.1 ⟨hsynced, hsent, hgiven, _, hdata, rfl, rfl⟩
  · exact runs_live _ s _ (fun d => d.syncRow n 9) rfl h.1 (Dev.syncRow_send_discards h rfl hfield hallow hfrozen hother)
  · exact runs_live _ s _ (fun d => d.syncRow n 0xA) rfl h.1 (Dev.syncRow_recv_status h hstatus)
  · exact runs_live _ s _ (fun d => d.syncRow n 0xA) rfl h.1 (Dev.syncRow_recv_data h hnone hdata)
  · exact runs_live _ s _ (fun d => d.syncRow n 0xA) rfl h.1 (Dev.syncRow_recv_waits h hnone hempty)

end Sys2Proof.Proofs

/-! ## MSG, FREEZE and THAW (R108, R119, R266, R383) -/

namespace Sys2Proof.Machine

open Sys2Proof.Claims

/-- The updates of a command that only set its marks. -/
theorem keepsPlace_begun : KeepsPlace fun c => { c with begun := true } := fun _ => ⟨rfl, rfl⟩

theorem keepsPlace_posted : KeepsPlace fun c => { c with posted := true } := fun _ => ⟨rfl, rfl⟩

@[simp] theorem Dev.floe_endCmd (d : Dev) (c : Cmd) (status r0 r1 k : Nat) : (d.endCmd c status r0 r1).floe k = d.floe k := rfl

@[simp] theorem Dev.logi_endCmd (d : Dev) (c : Cmd) (status r0 r1 f : Nat) : (d.endCmd c status r0 r1).logi f = d.logi f := rfl

section

variable {d : Dev} {n : Fin 1024} {i : BitVec 32} {c : Cmd} {f : Nat}

/-- A command on a logical floe of its own field passes its checks (R104). -/
theorem Dev.floeChecks_pass (hf : f < 128) (howned : d.floeOwned c f = true) (hsem : d.semOk c = true) :
    d.checkArgs c (decide (f < 128)) [] (d.floeOwned c f) 0 = 0 :=
  Dev.checkArgs_pass 0 (decide_eq_true hf) rfl hsem howned

/-- The message that a MSG posts (R119). -/
def Dev.cmdMsg (d : Dev) (n : Fin 1024) (i : BitVec 32) (c : Cmd) : Msg :=
  { bytes := msgBytes (2 ^ 15 + n) (d.ring n).epoch.toNat c.ticket.toNat 0 (c.arg 24 24), cmd := some (c.ring, i) }

/-- A MSG marked as begun, then as posted. -/
def Dev.msgMarked (d : Dev) (n : Fin 1024) (i : BitVec 32) : Dev :=
  (d.updCp n i fun c => { c with begun := true }).updCp n i fun c => { c with posted := true }

theorem Dev.cmd_msgMarked (hcmd : d.cmd n i = some c) :
    (d.msgMarked n i).cmd n i = some { c with begun := true, posted := true } :=
  Dev.cmd_updCp (Dev.cmd_updCp hcmd keepsPlace_begun) keepsPlace_posted

/-- A MSG posts its message at the end of an inbox that has room (R119, R122). -/
theorem Dev.msgRow_posts (hrow : d.rowCmd n i 7 = some c) (hposted : c.posted = false)
    (hf : c.arg 16 2 < 128) (howned : d.floeOwned c (c.arg 16 2) = true) (hsem : d.semOk c = true)
    (hopen : d.frozenFloe (c.arg 16 2) = false) (hroom : (d.logi (c.arg 16 2)).data.length < 64) :
    d.msgRow n i = (d.msgMarked n i).updLogi (c.arg 16 2) fun l => { l with data := l.data ++ [d.cmdMsg n i c] } := by
  have hfits : ¬ (!(d.updCp n i fun c => { c with begun := true }).frozenFloe (c.arg 16 2) &&
      decide (64 ≤ ((d.updCp n i fun c => { c with begun := true }).logi (c.arg 16 2)).data.length)) = true := by
    rw [show (d.updCp n i fun c => { c with begun := true }).logi (c.arg 16 2) = d.logi (c.arg 16 2) from rfl,
      decide_eq_false (by omega), Bool.and_false]
    decide
  rw [← Dev.deliverMsg_open (d := d.msgMarked n i) (f := c.arg 16 2) ((Dev.frozenFloe_congr rfl _).trans hopen), Dev.msgRow, hrow]
  dsimp only
  rw [if_neg (by rw [hposted]; decide), Dev.floeChecks_pass hf howned hsem, if_neg (by decide), if_neg hfits]
  rfl

/-- A FREEZE that its checks pass freezes its floe with cause 1 (R108, R379). -/
theorem Dev.freezeRow_eq {p : Nat} (hrow : d.rowCmd n i 8 = some c) (hbegun : c.begun = false) (hf : c.arg 16 2 < 128)
    (howned : d.floeOwned c (c.arg 16 2) = true) (hsem : d.semOk c = true) (hslot : d.slotOf (c.arg 16 2) = some p) :
    d.freezeRow n i = (d.updCp n i fun c => { c with begun := true }).freezeFloe p 1 := by
  have hmarked : (d.updCp n i fun c => { c with begun := true }).slotOf (c.arg 16 2) = some p := (Dev.slotOf_congr rfl _).trans hslot
  rw [Dev.freezeRow, hrow]
  dsimp only
  rw [if_neg (by rw [hbegun]; decide), Dev.floeChecks_pass hf howned hsem, if_neg (by decide), Dev.freezeLogical, hmarked]

/-- A slot in service and its floe after a thaw (R266, R383). -/
def Dev.thawed (d : Dev) (f p : Nat) : Dev := (d.setFloe p ((d.floe p).thawed (BitVec.ofNat 7 f))).thawLogical f p

theorem Dev.thaw_eq {p : Nat} (hslot : d.slotOf f = some p) (hst : (d.floe p).st = .frozen) (hfenced : (d.floe p).fencing = false)
    (hservice : (d.floe p).retired = false) : d.thaw f = some (0, d.thawed f p) := by
  rw [Dev.thaw, hslot]
  dsimp only
  rw [if_neg (not_not.2 hst), if_neg (by rw [hfenced]; decide), if_pos (by rw [hservice]; rfl)]
  rfl

/-- A thaw touches one slot, one logical floe, and at most the local stores. -/
theorem Dev.thawed_floes (d : Dev) (f p : Nat) :
    (d.thawed f p).floe p = (d.floe p).thawed (BitVec.ofNat 7 f) ∧ (d.thawed f p).cmds = d.cmds := by
  have hfloe : (d.setFloe p ((d.floe p).thawed (BitVec.ofNat 7 f))).floe p = (d.floe p).thawed (BitVec.ofNat 7 f) := by
    rw [Dev.floe_setFloe, if_pos rfl]
  rw [Dev.thawed, Dev.thawLogical]
  dsimp only
  split <;> exact ⟨(Dev.floe_setLogi ..).trans hfloe, rfl⟩

theorem Dev.thawed_logi (d : Dev) (f p : Nat) : ∃ l : Logical, (d.thawed f p).logi f =
    { l.clearObjects with clearAtThaw := false, ue := false, data := [], statuses := if l.ue then [] else l.statuses } := by
  rw [Dev.thawed, Dev.thawLogical]
  exact ⟨_, (Dev.logi_setLogi ..).trans (if_pos rfl)⟩

theorem Dev.thawRow_eq {p : Nat} (hrow : d.rowCmd n i 9 = some c) (hf : c.arg 16 2 < 128)
    (howned : d.floeOwned c (c.arg 16 2) = true) (hsem : d.semOk c = true) (hslot : d.slotOf (c.arg 16 2) = some p)
    (hst : (d.floe p).st = .frozen) (hfenced : (d.floe p).fencing = false) (hservice : (d.floe p).retired = false) :
    d.thawRow n i = (d.thawed (c.arg 16 2) p).endCmd c 0 := by
  rw [Dev.thawRow, hrow]
  dsimp only
  rw [Dev.floeChecks_pass hf howned hsem, if_neg (by decide), Dev.thaw_eq hslot hst hfenced hservice]

theorem freezes {p : Nat} (hstart : Started d n i 8 c) (hbegun : c.begun = false) (hf : c.arg 16 2 < 128)
    (howned : d.floeOwned c (c.arg 16 2) = true) (hsem : d.semOk c = true) (hslot : d.slotOf (c.arg 16 2) = some p)
    (hst : (d.floe p).st ≠ .frozen) (hst' : (d.floe p).st ≠ .unassigned) :
    let d' := (d.freezeRow n i).settle
    (d'.floe p).st = .frozen ∧ (d'.floe p).fencing = true ∧ (d'.floe p).ident = (d.floe p).ident ∧
      rbit (d'.reg (rFreeze p)) 31 = true ∧ fld (d'.reg (rFreeze p)) 27 24 = 1 ∧ d'.reg64 (rFreezeTime p) = d.time ∧
      ∃ c', d'.cmd n i = some c' ∧ c'.begun = true ∧ c'.done = none := by
  have hmarked : (d.updCp n i fun c => { c with begun := true }).cmd n i = some { c with begun := true } :=
    Dev.cmd_updCp hstart.2.1 keepsPlace_begun
  obtain ⟨fs, hl, fr, hcmd⟩ := (FloeStops.freezeFloe _ p 1).cmd hmarked
  have hfrozen := Dev.freezeFloe_frozen (d := d.updCp n i fun c => { c with begun := true }) (n := p) (cause := 1) (by decide)
    (Dev.slotOf_eq_some hslot).2 hst hst'
  rw [Dev.freezeRow_eq (rowCmd_of_started hstart) hbegun hf howned hsem hslot]
  exact ⟨hfrozen.st, hfrozen.fencing, hfrozen.ident, hfrozen.frz, hfrozen.cause, hfrozen.time, _, hcmd, rfl, hstart.2.2.2.1⟩

theorem thaws {p : Nat} (hstart : Started d n i 9 c) (hf : c.arg 16 2 < 128) (howned : d.floeOwned c (c.arg 16 2) = true)
    (hsem : d.semOk c = true) (hslot : d.slotOf (c.arg 16 2) = some p) (hst : (d.floe p).st = .frozen)
    (hfenced : (d.floe p).fencing = false) (hservice : (d.floe p).retired = false) :
    let d' := (d.thawRow n i).settle
    (d'.floe p).st = .idle ∧ (d'.floe p).ident = some (BitVec.ofNat 7 (c.arg 16 2)) ∧ (d'.floe p).desc = [] ∧
      (d'.floe p).halt = none ∧ (d'.logi (c.arg 16 2)).flags = 0 ∧ (d'.logi (c.arg 16 2)).counters = [] ∧
      (d'.logi (c.arg 16 2)).limits = [] ∧ (d'.logi (c.arg 16 2)).data = [] ∧ Ended d' n i 0 0 0 := by
  obtain ⟨hfloe, hcmds⟩ := d.thawed_floes (c.arg 16 2) p
  obtain ⟨l, hlogi⟩ := d.thawed_logi (c.arg 16 2) p
  have hcmd : (d.thawed (c.arg 16 2) p).cmd n i = some c := by rw [Dev.cmd, hcmds]; exact hstart.2.1
  obtain ⟨hn, hi⟩ := Dev.cmd_place hcmd
  rw [Dev.thawRow_eq (rowCmd_of_started hstart) hf howned hsem hslot hst hfenced hservice]
  dsimp only
  rw [Dev.floe_settle, Dev.logi_settle, Dev.floe_endCmd, Dev.logi_endCmd, hfloe, hlogi]
  exact ⟨rfl, rfl, rfl, rfl, rfl, rfl, rfl, rfl, ended_endCmd hcmd hn hi 0 0 0⟩

end

end Sys2Proof.Machine

namespace Sys2Proof.Proofs

open Sys2Proof.Machine

/-- Settles O13: each row is its marks on the command and one change of a floe. -/
theorem floeCommands : Obligations.FloeCommands := by
  unfold Obligations.FloeCommands
  constructor
  · intro s n i c f hstart hposted hf howned hsem hopen hroom
    refine runs_live _ s _ (fun d => d.msgRow n i) rfl hstart.1 ?_
    rw [Dev.msgRow_posts (rowCmd_of_started hstart) hposted hf howned hsem hopen hroom]
    refine ⟨⟨s.dev.cmdMsg n i c, ?_, rfl, rfl⟩, ⟨_, Dev.cmd_msgMarked hstart.2.1, rfl, hstart.2.2.2.1⟩, rfl⟩
    rw [Dev.logi_settle, Dev.logi_updLogi, if_pos rfl]
    rfl
  · intro s n i c p f hf howned hsem hslot
    refine ⟨fun hstart hbegun hst hst' => ?_, fun hstart hst hfenced hservice => ?_⟩
    · exact runs_live _ s _ (fun d => d.freezeRow n i) rfl hstart.1 (freezes hstart hbegun hf howned hsem hslot hst hst')
    · exact runs_live _ s _ (fun d => d.thawRow n i) rfl hstart.1 (thaws hstart hf howned hsem hslot hst hfenced hservice)

end Sys2Proof.Proofs

/-! ## LAUNCH (R105, R237, R337) -/

namespace Sys2Proof.Machine

open Sys2Proof.Claims

/-- A pass over a list that sets a property at one element, and takes it back at none, leaves it. -/
theorem foldl_reaches {α β : Type} {f : α → β → α} {I P : α → Prop} {l : List β} {b : β} (hb : b ∈ l)
    (hinv : ∀ a, ∀ x ∈ l, I a → I (f a x)) (hset : ∀ a, I a → P (f a b)) (hkeep : ∀ a, ∀ x ∈ l, I a → P a → P (f a x)) {a : α}
    (ha : I a) : P (l.foldl f a) := by
  obtain ⟨xs, ys, rfl⟩ := List.append_of_mem hb
  rw [List.foldl_append, List.foldl_cons]
  have hxs : I (xs.foldl f a) :=
    List.foldlRecOn xs f ha fun a ha x hx => hinv a x (List.mem_append_left _ hx) ha
  refine (List.foldlRecOn (motive := fun a => I a ∧ P a) ys f ⟨hinv _ b hb hxs, hset _ hxs⟩ fun a ha x hx => ?_).2
  have hx' : x ∈ xs ++ b :: ys := List.mem_append_right _ (List.mem_cons_of_mem _ hx)
  exact ⟨hinv a x hx' ha.1, hkeep a x hx' ha.1 ha.2⟩

/-- The objects of a logical floe at a launch (R237, R337). -/
def Logical.atLaunch (l : Logical) : Logical := { l.clearObjects with mark := none }

/-- The objects of a logical floe are as a launch leaves them. -/
def Logical.Clear (l : Logical) : Prop := l.flags = 0 ∧ l.counters = [] ∧ l.mark = none

theorem Logical.clear_atLaunch (l : Logical) : l.atLaunch.Clear := ⟨rfl, rfl, rfl⟩

/-- The first part of a launch: the objects of its floes are cleared. -/
def Dev.clearFloes (d : Dev) (fs : List Nat) : Dev := fs.foldl (fun d f => d.updLogi f Logical.atLaunch) d

theorem Dev.clearFloes_frame (d : Dev) (fs : List Nat) : (d.clearFloes fs).floes = d.floes ∧ (d.clearFloes fs).cmds = d.cmds :=
  List.foldlRecOn (motive := fun e : Dev => e.floes = d.floes ∧ e.cmds = d.cmds) fs _ ⟨rfl, rfl⟩ fun _ h _ _ => h

theorem Dev.clear_clearFloes (d : Dev) {fs : List Nat} {f : Nat} (hf : f ∈ fs) : ((d.clearFloes fs).logi f).Clear := by
  refine foldl_reaches (I := fun _ => True) (P := fun d : Dev => (d.logi f).Clear) hf (fun _ _ _ h => h) (fun d _ => ?_)
    (fun d g _ _ h => ?_) trivial
  · rw [Dev.logi_updLogi, if_pos rfl]
    exact Logical.clear_atLaunch _
  · rw [Dev.logi_updLogi]
    split
    · exact Logical.clear_atLaunch _
    · exact h

/-- The second part: the arguments go into the local stores, and freeze registers are cleared. -/
def Dev.giveArg (d : Dev) (args : List WordRead) (f : Nat) : Dev :=
  match d.slotOf f with
  | none => d
  | some s =>
    let d : Dev := { d with ls := (args.zipIdx).foldl (fun m w => m.writeWord (lsIndex s (64 * w.2)) w.1.data w.1.marks) d.ls }
    d.setReg (rFreeze s) (BitVec.ofNat 32 (fld (d.reg (rFreeze s)) 1 0))

def Dev.giveArgs (d : Dev) (args : List WordRead) (fs : List Nat) : Dev := fs.foldl (fun d f => d.giveArg args f) d

theorem Dev.giveArg_frame (d : Dev) (args : List WordRead) (f : Nat) :
    (d.giveArg args f).floes = d.floes ∧ (d.giveArg args f).cmds = d.cmds ∧ (d.giveArg args f).logical = d.logical := by
  rw [Dev.giveArg]
  cases d.slotOf f with
  | none => exact ⟨rfl, rfl, rfl⟩
  | some s => exact ⟨Dev.setReg_floes .., Dev.setReg_cmds .., Dev.setReg_logical ..⟩

theorem Dev.giveArgs_frame (d : Dev) (args : List WordRead) (fs : List Nat) :
    (d.giveArgs args fs).floes = d.floes ∧ (d.giveArgs args fs).cmds = d.cmds ∧ (d.giveArgs args fs).logical = d.logical := by
  refine List.foldlRecOn (motive := fun e : Dev => e.floes = d.floes ∧ e.cmds = d.cmds ∧ e.logical = d.logical) fs _ ⟨rfl, rfl, rfl⟩
    fun e h f _ => ?_
  obtain ⟨hfloes, hcmds, hlogical⟩ := e.giveArg_frame args f
  exact ⟨hfloes.trans h.1, hcmds.trans h.2.1, hlogical.trans h.2.2⟩

/-- The third part: the slots that hold the floes start them, each with its number within the launch. -/
def Dev.startFloe (d : Dev) (c : Cmd) (f : Nat × Nat) : Dev :=
  match d.slotOf f.1 with
  | none => d
  | some s => d.updFloe s fun x => x.launched c f.1 f.2

def Dev.startFloes (d : Dev) (c : Cmd) (fs : List (Nat × Nat)) : Dev := fs.foldl (fun d f => d.startFloe c f) d

theorem Dev.startFloe_frame (d : Dev) (c : Cmd) (f : Nat × Nat) :
    (d.startFloe c f).cmds = d.cmds ∧ (d.startFloe c f).logical = d.logical := by
  rw [Dev.startFloe]
  split <;> exact ⟨rfl, rfl⟩

/-- A start leaves the logical floe that each slot holds. -/
theorem Dev.ident_startFloe (d : Dev) (c : Cmd) (f : Nat × Nat) (p : Nat) : ((d.startFloe c f).floe p).ident = (d.floe p).ident := by
  rw [Dev.startFloe]
  split
  · rfl
  · rw [Dev.updFloe, Dev.floe_setFloe]
    split
    · next h => rw [h]; rfl
    · rfl

theorem Dev.slotOf_of_idents {d d' : Dev} (h : ∀ p, (d'.floe p).ident = (d.floe p).ident) (f : Nat) : d'.slotOf f = d.slotOf f := by
  simp only [Dev.slotOf, h]

theorem Dev.floe_startFloe (d : Dev) (c : Cmd) (f : Nat × Nat) (p : Nat) :
    (d.startFloe c f).floe p = if d.slotOf f.1 = some p then (d.floe p).launched c f.1 f.2 else d.floe p := by
  rw [Dev.startFloe]
  cases d.slotOf f.1 with
  | none => rfl
  | some s =>
    dsimp only
    rw [Dev.updFloe, Dev.floe_setFloe]
    by_cases h : p = s
    · rw [if_pos h, if_pos (by rw [h]), h]
    · rw [if_neg h, if_neg fun heq => h (Option.some.inj heq).symm]

theorem Dev.startFloes_frame (d : Dev) (c : Cmd) (fs : List (Nat × Nat)) :
    (d.startFloes c fs).cmds = d.cmds ∧ (d.startFloes c fs).logical = d.logical :=
  List.foldlRecOn (motive := fun e : Dev => e.cmds = d.cmds ∧ e.logical = d.logical) fs _ ⟨rfl, rfl⟩ fun e h f _ =>
    ⟨(e.startFloe_frame c f).1.trans h.1, (e.startFloe_frame c f).2.trans h.2⟩

/-- A slot that holds one floe of the launch is started for it. -/
theorem Dev.floe_startFloes {d : Dev} (c : Cmd) {fs : List (Nat × Nat)} {f : Nat × Nat} {p : Nat} (hf : f ∈ fs)
    (hslot : d.slotOf f.1 = some p) (honly : ∀ x ∈ fs, d.slotOf x.1 = some p → x = f) :
    ∃ y : Floe, (d.startFloes c fs).floe p = y.launched c f.1 f.2 := by
  refine foldl_reaches (I := fun e : Dev => ∀ q, (e.floe q).ident = (d.floe q).ident)
    (P := fun e : Dev => ∃ y : Floe, e.floe p = y.launched c f.1 f.2) hf (fun e x _ he q => ?_) (fun e he => ?_)
    (fun e x hx he hP => ?_) fun _ => rfl
  · rw [e.ident_startFloe, he q]
  · rw [e.floe_startFloe, if_pos ((Dev.slotOf_of_idents he _).trans hslot)]
    exact ⟨_, rfl⟩
  · rw [e.floe_startFloe, Dev.slotOf_of_idents he]
    split
    · next h => exact ⟨_, by rw [honly x hx h]⟩
    · exact hP

theorem Dev.launchGo_eq (d : Dev) (c : Cmd) (args : List WordRead) : d.launchGo c args =
    (((d.clearFloes c.launchSet).giveArgs args c.launchSet).startFloes c c.launchSet.zipIdx).updCp c.ring.val c.idx
      fun x => { x with begun := true, floes := c.launchSet.map (BitVec.ofNat 7) } := rfl

/-- The floes of a launch with their numbers. -/
theorem Cmd.mem_launchSet_zipIdx (c : Cmd) (f k : Nat) :
    (f, k) ∈ c.launchSet.zipIdx ↔ k < c.arg 18 2 ∧ f = c.arg 16 2 + k := by
  rw [List.mk_mem_zipIdx_iff_getElem?, Cmd.launchSet, List.getElem?_map, Option.map_eq_some_iff]
  constructor
  · rintro ⟨j, hj, rfl⟩
    obtain ⟨hlt, rfl⟩ := List.getElem?_eq_some_iff.1 hj
    rw [List.getElem_range]
    exact ⟨by simpa using hlt, rfl⟩
  · rintro ⟨hlt, rfl⟩
    exact ⟨k, List.getElem?_range hlt, rfl⟩

theorem Cmd.mem_launchSet (c : Cmd) {k : Nat} (hk : k < c.arg 18 2) : c.arg 16 2 + k ∈ c.launchSet :=
  List.mem_map_of_mem (List.mem_range.2 hk)

/-- Two floes of a launch are never in one slot. -/
theorem Dev.slotOf_inj {d : Dev} {f g p : Nat} (hf : f < 128) (hg : g < 128) (h : d.slotOf f = some p) (h' : d.slotOf g = some p) :
    f = g := by
  have hident := (Dev.slotOf_eq_some h).2.symm.trans (Dev.slotOf_eq_some h').2
  have heq := congrArg BitVec.toNat (Option.some.inj hident)
  rwa [BitVec.toNat_ofNat, BitVec.toNat_ofNat, Nat.mod_eq_of_lt hf, Nat.mod_eq_of_lt hg] at heq

variable {d : Dev} {n : Fin 1024} {i : BitVec 32} {c : Cmd}

/-- What a launch leaves of each of its floes, and of the command (R105, R237). -/
theorem Dev.launchGo_starts (hcmd : d.cmd n i = some c) (hrange : c.arg 16 2 + c.arg 18 2 ≤ 128) (args : List WordRead) :
    (∀ k p, k < c.arg 18 2 → d.slotOf (c.arg 16 2 + k) = some p →
      (∃ y : Floe, (d.launchGo c args).floe p = y.launched c (c.arg 16 2 + k) k) ∧ ((d.launchGo c args).logi (c.arg 16 2 + k)).Clear) ∧
    (d.launchGo c args).cmd n i = some { c with begun := true, floes := c.launchSet.map (BitVec.ofNat 7) } := by
  obtain ⟨hclearFloes, hclearCmds⟩ := d.clearFloes_frame c.launchSet
  obtain ⟨hargFloes, hargCmds, hargLogical⟩ := (d.clearFloes c.launchSet).giveArgs_frame args c.launchSet
  obtain ⟨hstartCmds, hstartLogical⟩ := ((d.clearFloes c.launchSet).giveArgs args c.launchSet).startFloes_frame c c.launchSet.zipIdx
  rw [Dev.launchGo_eq]
  generalize hready : (d.clearFloes c.launchSet).giveArgs args c.launchSet = e at hargFloes hargCmds hargLogical hstartCmds hstartLogical ⊢
  have hslots := Dev.slotOf_congr (hargFloes.trans hclearFloes)
  refine ⟨fun k p hk hslot => ⟨?_, ?_⟩, ?_⟩
  · refine Dev.floe_startFloes c (f := (c.arg 16 2 + k, k)) ((c.mem_launchSet_zipIdx _ _).2 ⟨hk, rfl⟩) ((hslots _).trans hslot) ?_
    rintro ⟨g, j⟩ hx hg
    obtain ⟨hj, rfl⟩ := (c.mem_launchSet_zipIdx _ _).1 hx
    have hsame := Dev.slotOf_inj (by omega) (by omega) ((hslots _).symm.trans hg) hslot
    obtain rfl : j = k := by omega
    rfl
  · have hclear := d.clear_clearFloes (c.mem_launchSet hk)
    rw [Dev.logi, ← hargLogical, ← hstartLogical] at hclear
    exact hclear
  · obtain ⟨hn, hi⟩ := Dev.cmd_place hcmd
    rw [hn]
    subst hi
    refine Dev.cmd_updCp (f := fun x => { x with begun := true, floes := c.launchSet.map (BitVec.ofNat 7) }) ?_ fun _ => ⟨rfl, rfl⟩
    rw [Dev.cmd, hstartCmds, hargCmds, hclearCmds]
    exact hcmd

/-- A LAUNCH whose checks pass and whose arguments have been read starts (R104, R105). -/
theorem Dev.launchRow_eq {ws : List WordRead} (hrow : d.rowCmd n i 1 = some c) (hbegun : c.begun = false) (hcnt : 1 ≤ c.arg 18 2)
    (hrange : c.arg 16 2 + c.arg 18 2 ≤ 128) (hlen : c.arg 20 4 ≤ 4096) (hwhole : c.arg 20 4 % 64 = 0)
    (hentry : addrOk (c.arg 24 8) 32 = true) (hargs : addrOk (c.arg 32 8) 64 = true)
    (hranges : d.rangesStatus c.access [(c.arg 32 8, c.arg 20 4, false)] = 0) (hsem : d.semOk c = true)
    (hfloes : ∀ f ∈ c.launchSet, d.floeOwned c f = true ∧
      ∃ p, d.slotOf f = some p ∧ ((d.floe p).st = .idle ∨ (d.floe p).st = .halted))
    (hheld : ∀ a ∈ (List.range (c.arg 20 4 / 64)).map fun k => c.arg 32 8 + 64 * k, d.regionHeld a = false)
    (hread : (d.tsvReads c.mover ((List.range (c.arg 20 4 / 64)).map fun k => c.arg 32 8 + 64 * k)).1 = some ws) :
    ∃ e, WordTaken d e ∧ d.launchRow n i = e.launchGo c ws := by
  have hok : (decide (c.arg 16 2 < 128) && decide (1 ≤ c.arg 18 2) && decide (c.arg 16 2 + c.arg 18 2 ≤ 128) && decide (c.arg 20 4 ≤ 4096)
      && c.arg 20 4 % 64 == 0 && addrOk (c.arg 24 8) 32 && addrOk (c.arg 32 8) 64) = true := by
    rw [decide_eq_true (show c.arg 16 2 < 128 by omega), decide_eq_true hcnt, decide_eq_true hrange, decide_eq_true hlen, hwhole,
      hentry, hargs]
    rfl
  have howned : (c.launchSet.all fun f => d.floeOwned c f) = true := List.all_eq_true.2 fun f hf => (hfloes f hf).1
  have hfree : ¬ (((List.range (c.arg 20 4 / 64)).map fun k => c.arg 32 8 + 64 * k).any d.regionHeld) = true := by
    rw [List.any_eq_true]
    rintro ⟨a, ha, hwaits⟩
    rw [hheld a ha] at hwaits
    cases hwaits
  have htaken := WordTaken.tsvReads hread
  rw [Dev.launchRow, hrow]
  dsimp only
  rw [if_neg (by rw [hbegun]; decide), Dev.checkArgs_pass _ hok hranges hsem howned, if_pos (α := Nat) (t := 0) (e := 10) ?idle,
    if_neg (by decide), if_neg hfree]
  case idle =>
    refine List.all_eq_true.2 fun f hf => ?_
    obtain ⟨p, hslot, hst⟩ := (hfloes f hf).2
    rw [hslot]
    rcases hst with h | h <;> · dsimp only; rw [h]; rfl
  generalize d.tsvReads c.mover ((List.range (c.arg 20 4 / 64)).map fun k => c.arg 32 8 + 64 * k) = p at hread htaken ⊢
  obtain ⟨o, e⟩ := p
  obtain rfl : o = some ws := hread
  exact ⟨e, htaken, rfl⟩

end Sys2Proof.Machine

/-! ## NBO_POST (R98, R106) -/

namespace Sys2Proof.Machine

open Sys2Proof.Claims

theorem Dev.wordOf_updCp (d : Dev) (n : Nat) (i : BitVec 32) (f : Cmd → Cmd) (a : Nat) : (d.updCp n i f).wordOf a = d.wordOf a := rfl

/-- What posting an NBO adds to the device (R186, R204). -/
structure NboPosted (d d' : Dev) (desc : Line) (p : Poster) (x : Access) : Prop where
  nbos : ∃ y : Nbo, d'.nbos = d.nbos ++ [y] ∧ y.id = d.nextNbo ∧ y.desc = desc ∧ y.poster = p ∧ y.field = x.field ∧
    y.secure = x.secure ∧ y.accepted = false
  waits : (d'.chan (nboDesc desc).ch).nearWait = (d.chan (nboDesc desc).ch).nearWait ++ [d.nextNbo]
  next : d'.nextNbo = d.nextNbo + 1
  cmds : d'.cmds = d.cmds

theorem Dev.postNbo_posted (d : Dev) (desc : Line) (w0Poison descPoison : Bool) (p : Poster) (x : Access) (cls : BitVec 2) :
    NboPosted d (d.postNbo desc w0Poison descPoison p x cls).2 desc p x := by
  refine ⟨⟨_, rfl, rfl, rfl, rfl, rfl, rfl, rfl⟩, ?_, rfl, rfl⟩
  have hnext (e : Dev) (ns : List Nbo) (k c : Nat) : ({ e with nextNbo := k, nbos := ns } : Dev).chan c = e.chan c := rfl
  rw [Dev.postNbo, Dev.freshId]
  dsimp only
  rw [Dev.updChan, Dev.chan_setChan, if_pos rfl, hnext, Dev.chan_setChan, if_pos rfl]

variable {d : Dev} {n : Fin 1024} {i : BitVec 32} {c : Cmd} {w : WordRead}

/-- An NBO_POST whose list is read at its place posts the descriptor there, and goes on to the next (R106). -/
theorem Dev.nboPostRow_posts (hrow : d.rowCmd n i 2 = some c)
    (hchecks : c.begun = false → 1 ≤ c.arg 16 4 ∧ c.arg 16 4 ≤ 4096 ∧ addrOk (c.arg 24 8) 64 = true ∧
      d.rangesStatus c.access [(c.arg 24 8, 64 * c.arg 16 4, false)] = 0 ∧ d.semOk c = true)
    (hmore : c.pos < c.arg 16 4) (hfirst : ∀ x ∈ d.nbos, ∀ m j p, x.poster = .ring m j p → m = n → x.accepted = true)
    (hheld : d.regionHeld (c.arg 24 8 + 64 * c.pos) = false)
    (hread : (d.tsvRead c.mover (d.wordOf (c.arg 24 8 + 64 * c.pos))).1 = some w) :
    ∃ e f, WordTaken (d.updCp n i fun c => { c with begun := true }) e ∧ NboPosted e f w.data (.ring c.ring i c.pos) c.access ∧
      d.nboPostRow n i = f.updCp n i fun c => { c with pos := c.pos + 1 } := by
  have hbehind : (d.nbos.any fun x => !x.accepted && (match x.poster with
      | .ring m _ _ => m.val == n
      | _ => false)) = false := by
    rw [List.any_eq_false]
    rintro x hx hwaits
    rw [Bool.and_eq_true, Bool.not_eq_true'] at hwaits
    obtain ⟨hopen, hposter⟩ := hwaits
    cases hp : x.poster with
    | ring m j p =>
      rw [hp] at hposter
      rw [hfirst x hx m j p hp (Fin.ext (eq_of_beq hposter))] at hopen
      cases hopen
    | _ => rw [hp] at hposter; cases hposter
  have hstatus : (if c.begun = true then 0 else d.checkArgs c (decide (1 ≤ c.arg 16 4) && decide (c.arg 16 4 ≤ 4096) && addrOk (c.arg 24 8) 64)
      [(c.arg 24 8, 64 * c.arg 16 4, false)] true 0) = 0 := by
    split
    · rfl
    · next hfresh =>
      obtain ⟨hlow, hhigh, haddr, hranges, hsem⟩ := hchecks (Bool.not_eq_true _ ▸ hfresh)
      exact Dev.checkArgs_pass 0 (by rw [decide_eq_true hlow, decide_eq_true hhigh, haddr]; rfl) hranges hsem rfl
  rw [← Dev.tsvRead_fst_updCp d n i fun c => { c with begun := true }] at hread
  have htaken := WordTaken.tsvRead hread
  rw [Dev.nboPostRow, hrow]
  dsimp only
  rw [hstatus, if_neg (by decide), if_neg]
  case hnc =>
    rintro (hover | hwaits | hlost)
    · omega
    · exact absurd (hbehind.symm.trans hwaits) (by decide)
    · exact absurd (hheld.symm.trans hlost) (by decide)
  rw [Dev.wordOf_updCp]
  generalize (d.updCp n i fun c => { c with begun := true }).tsvRead c.mover (d.wordOf (c.arg 24 8 + 64 * c.pos)) = p at hread htaken ⊢
  obtain ⟨o, e⟩ := p
  obtain rfl : o = some w := hread
  exact ⟨e, _, htaken, e.postNbo_posted .., rfl⟩

end Sys2Proof.Machine

namespace Sys2Proof.Proofs

open Sys2Proof.Machine

/-- Settles O10: a LAUNCH by the slots that hold its floes, each of which holds one of them; an NBO_POST by its next descriptor. -/
theorem launchAndNboPost : Obligations.LaunchAndNboPost := by
  unfold Obligations.LaunchAndNboPost
  constructor
  · intro s n i c base cnt len as hstart hbegun hcnt hrange hlen hwhole hentry hargs hranges hsem hfloes hheld hread
    obtain ⟨ws, hread⟩ := hread
    obtain ⟨e, htaken, heq⟩ := Dev.launchRow_eq (rowCmd_of_started hstart) hbegun hcnt hrange hlen hwhole hentry hargs hranges hsem
      hfloes hheld hread
    have hcmd : e.cmd n i = some c := (htaken.cmd n i).trans hstart.2.1
    obtain ⟨hn, hi⟩ := Dev.cmd_place hcmd
    obtain ⟨hstarts, hmarked⟩ := Dev.launchGo_starts hcmd hrange ws
    refine runs_live _ s _ (fun d => d.launchRow n i) rfl hstart.1 ?_
    rw [heq]
    refine ⟨fun k p hk hslot => ?_, _, hmarked, rfl, hstart.2.2.2.1, rfl⟩
    obtain ⟨⟨y, hfloe⟩, hflags, hcounters, hmark⟩ := hstarts k p hk ((Dev.slotOf_congr htaken.floes _).trans hslot)
    rw [Dev.floe_settle, Dev.logi_settle, hfloe]
    exact ⟨rfl, rfl, congrArg some (Prod.ext (Fin.ext hn) hi), rfl, hflags, hcounters, hmark⟩
  · intro s n i c w a k hstart hchecks hmore hfirst hheld hread
    obtain ⟨e, f, htaken, ⟨⟨y, hnbos, hid, hdesc, hposter, hfield, hsecure, haccepted⟩, hwaits, hnext, hcmds⟩, heq⟩ :=
      Dev.nboPostRow_posts (rowCmd_of_started hstart) hchecks hmore hfirst hheld hread
    have hcmd : f.cmd n i = some { c with begun := true } := by
      rw [Dev.cmd, hcmds]
      exact (htaken.cmd n i).trans (Dev.cmd_updCp hstart.2.1 keepsPlace_begun)
    refine runs_live _ s _ (fun d => d.nboPostRow n i) rfl hstart.1 ?_
    rw [heq]
    refine ⟨⟨y, hnbos.trans (by rw [htaken.nbos]; rfl), hid.trans htaken.nextNbo, hdesc, hposter, hfield, hsecure, haccepted⟩, ?_,
      hnext.trans (by rw [htaken.nextNbo]; rfl), _, Dev.cmd_updCp hcmd fun _ => ⟨rfl, rfl⟩, rfl, rfl⟩
    rw [htaken.nearWait, htaken.nextNbo] at hwaits
    exact hwaits

end Sys2Proof.Proofs

/-! ## Stores of the command processor, and the log (R98, R111) -/

namespace Sys2Proof.Machine

open Sys2Proof.Claims

theorem bits_lt (x hi lo : Nat) : bits x hi lo < 2 ^ (hi + 1 - lo) := Nat.mod_lt _ (Nat.two_pow_pos _)

theorem hashBank_lt (b row : Nat) : hashBank b row < 64 := by
  have hxor : ((bits b 5 3) ^^^ (bits row 2 0)) ^^^ (bits row 5 3) < 2 ^ 3 :=
    Nat.xor_lt_two_pow (Nat.xor_lt_two_pow (bits_lt b 5 3) (bits_lt row 2 0)) (bits_lt row 5 3)
  have hlow : bits b 2 0 < 2 ^ 3 := bits_lt b 2 0
  rw [hashBank]
  omega

/-- Every address is decoded into one of the 2^30 words (R126, R135). -/
theorem decodeAddr_word_lt (ord : Option Nat) (g a : Nat) : (decodeAddr ord g a).word < 2 ^ 30 := by
  have hbounds : (decodeAddr ord g a).ch < 32 ∧ (decodeAddr ord g a).bank < 64 ∧ (decodeAddr ord g a).row < 32768 ∧
      (decodeAddr ord g a).w < 16 := by
    have hsmall := bits_lt a
    rw [decodeAddr.eq_def]
    split
    · have hch := hsmall (g + 4) g
      rw [show g + 4 + 1 - g = 5 by omega] at hch
      exact ⟨hch, bits_lt _ 15 10, bits_lt _ 30 16, bits_lt _ 9 6⟩
    · exact ⟨hsmall 12 8, hashBank_lt _ _, hsmall 35 21, by have := hsmall 14 13; have := hsmall 7 6; dsimp only; omega⟩
    · exact ⟨hsmall 35 31, hashBank_lt _ _, hsmall 30 16, hsmall 9 6⟩
    · exact ⟨by have := hsmall 35 33; have := hsmall 9 8; dsimp only; omega, hashBank_lt _ _, hsmall 32 18,
        by have := hsmall 11 10; have := hsmall 7 6; dsimp only; omega⟩
    · exact ⟨hsmall 35 31, hsmall 30 25, hsmall 24 10, hsmall 9 6⟩
  obtain ⟨hch, hbank, hrow, hw⟩ := hbounds
  rw [Place.word]
  omega

/-- The address of a word lies below 2^41, whatever the granule (R132 to R134). -/
theorem encodeAddr_lt (ord : Option Nat) {g n : Nat} (hg : g < 32) (hn : n < 2 ^ 30) : encodeAddr ord g (wordPlace n) < 2 ^ 41 := by
  have hhash := hashBank_lt (n / 16 / 32768 % 64) (n / 16 % 32768)
  rw [encodeAddr.eq_def]
  split <;> simp only [wordPlace]
  · have hpow : 2 ^ g ≤ 2 ^ 31 := Nat.pow_le_pow_right (by decide) (by omega)
    generalize hl : n / 16 % 32768 * 2 ^ 16 + n / 16 / 32768 % 64 * 2 ^ 10 + n % 16 * 2 ^ 6 + 0 = l
    have hdiv : l / 2 ^ g * 2 ^ g ≤ l := Nat.div_mul_le_self ..
    have hmod : l % 2 ^ g ≤ l := Nat.mod_le ..
    have hch : n / 16 / 32768 / 64 * 2 ^ g ≤ 31 * 2 ^ 31 := Nat.mul_le_mul (by omega) hpow
    rw [Nat.pow_add, ← Nat.mul_assoc]
    omega
  all_goals omega

theorem Dev.wordOf_lt (d : Dev) (a : Nat) : d.wordOf a < 2 ^ 30 := decodeAddr_word_lt ..

theorem Dev.addrOf_lt (d : Dev) {n : Nat} (hn : n < 2 ^ 30) : d.addrOf n < 2 ^ 41 :=
  encodeAddr_lt _ (bits_lt _ 20 16) hn

/-- Entries of the log do not change whether a store must wait. -/
theorem Dev.cpWaits_of_log {d d' : Dev} (h : SameButLog d d') (m : Mover) (a : Nat) (mask : BitVec 64) :
    d'.cpWaits m a mask = d.cpWaits m a mask := by
  have hside := SideTraffic.of_log h
  have hword := hside.wordOf a
  have hmirrored : d'.mirrored (d.wordOf a) = d.mirrored (d.wordOf a) := by
    have hcfg := hside.reg (rChCfg 0) ⟨by decide, by decide⟩
    have haddr : d'.addrOf (d.wordOf a) = d.addrOf (d.wordOf a) := by
      simp only [Dev.addrOf, Dev.order, Dev.intlvG, hcfg]
    rw [Dev.mirrored, haddr, hside.region (d.addrOf_lt (d.wordOf_lt a)), Dev.mirrored]
  rw [Dev.cpWaits, Dev.cpWaits, hword]
  generalize d.wordOf a = n at hmirrored
  obtain ⟨⟨_, _, _, _, rfl⟩, -⟩ := h
  simp only [Dev.storeWaits, Dev.storeWaitsAt, Dev.mergeRecovers, Dev.holders, hmirrored]
  rfl

/-! ## The 32 bytes of a record (R111) -/

theorem bytesMask_thirtyTwo {a k : Nat} (ha : a % 32 = 0) (hk : k < 32) : (bytesMask a 32).getLsbD (a % 64 + k) = true := by
  have hall : ∀ k < 32, (BitVec.ofNat 64 ((2 ^ 32 - 1) * 2 ^ 0)).getLsbD (0 + k) = true ∧
      (BitVec.ofNat 64 ((2 ^ 32 - 1) * 2 ^ 32)).getLsbD (32 + k) = true := by decide
  rw [bytesMask]
  rcases (by omega : a % 64 = 0 ∨ a % 64 = 32) with h | h <;> rw [h]
  · exact (hall k hk).1
  · exact (hall k hk).2

theorem bytesMask_ne_zero {a : Nat} (ha : a % 32 = 0) : bytesMask a 32 ≠ 0 := fun h => by
  have hbit := bytesMask_thirtyTwo (k := 0) ha (by decide)
  rw [h] at hbit
  exact absurd (BitVec.getLsbD_zero.symm.trans hbit) (by decide)

/-- The line in which 32 bytes stand at an address. -/
def recordLine (a y : Nat) : Line := BitVec.ofNat 512 (leNat (toLe 32 y) * 2 ^ (8 * (a % 64)))

theorem testBit_toLe {n y j : Nat} (hj : j < 8 * n) : (leNat (toLe n y)).testBit j = y.testBit j := by
  rw [toLe_eq_map, leNat_map_digits, show 256 ^ n = 2 ^ (8 * n) by rw [Nat.pow_mul], Nat.testBit_mod_two_pow, decide_eq_true hj,
    Bool.true_and]

theorem getLsbD_recordLine {a y j : Nat} (ha : a % 32 = 0) (hj : j < 256) :
    (recordLine a y).getLsbD (8 * (a % 64) + j) = y.testBit j := by
  rw [recordLine, BitVec.getLsbD_ofNat, decide_eq_true (by omega), Bool.true_and, Nat.testBit_mul_two_pow, decide_eq_true (by omega),
    Bool.true_and, Nat.add_sub_cancel_left, testBit_toLe hj]

/-- A record's bytes have reached their word. -/
theorem Dev.stored_cpBytes {d : Dev} (m : Mover) {a : Nat} (y : Nat) (ha : a % 32 = 0) (hdown : d.wordDown (d.wordOf a) = false) :
    Stored d (d.cpBytes m a (toLe 32 y)) (d.wordOf a) (recordLine a y) (bytesMask a 32) false := by
  have hlength : (toLe 32 y).length = 32 := by rw [toLe_eq_map, List.length_map, List.length_range]
  rw [Dev.cpBytes, hdown, hlength]
  exact d.stored_storeMasked m _ _ (bytesMask_ne_zero ha) false

theorem reads32_of_stored {d d' : Dev} {a : Nat} {x : BitVec 256} (ha : a % 32 = 0)
    (h : Stored d d' (d.wordOf a) (recordLine a x.toNat) (bytesMask a 32) false) : Reads32 d' a x := by
  intro k hk
  rw [h.wordOf]
  refine Nat.eq_of_testBit_eq fun i => ?_
  rw [testBit_fieldAt, testBit_fieldAt]
  by_cases hi : i < 8
  · have hplace : 8 * (a % 64 + k) + i = 8 * (a % 64) + (8 * k + i) := by omega
    have hbit := h.seen_bit (j := 8 * (a % 64 + k) + i) (by omega)
      (by rw [show (8 * (a % 64 + k) + i) / 8 = a % 64 + k by omega]; exact bytesMask_thirtyTwo ha hk)
    rw [BitVec.testBit_toNat, hbit, hplace, getLsbD_recordLine ha (by omega)]
  · simp [hi]

end Sys2Proof.Machine

/-! ## Writing a record (R111, R113, R114) -/

namespace Sys2Proof.Machine

open Sys2Proof.Claims

/-- A ring after the record of `h` has been written. -/
def Ring.recorded (r : Ring) (h : HeldRec) : Ring :=
  { r with ctail := r.ctail + 1, attnRecs := if h.noattn then r.attnRecs else r.attnRecs ++ [h.idx] }

/-- The bytes of a record, with its PHASE and TIME (R111). -/
def Dev.recordData (d : Dev) (n : Nat) (h : HeldRec) : BitVec 256 :=
  h.bytes ||| BitVec.ofNat 256 ((d.ring n).phase h.idx * 2 ^ 49 + d.time.toNat * 2 ^ 64)

/-- The record goes to its slot, and CTAIL moves on. -/
def Dev.recordIn (d : Dev) (n : Nat) (h : HeldRec) : Dev :=
  (d.cpBytes ((d.ring n).mover n) ((d.ring n).cplAddr h.idx) (toLe 32 (d.recordData n h).toNat)).updRing n fun r => r.recorded h

theorem Ring.cplAddr_lt (r : Ring) (i : BitVec 32) : r.cplAddr i < 2 ^ 41 := by
  have hmod : i.toNat % 2 ^ r.log2 ≤ i.toNat := Nat.mod_le ..
  have := r.cpl.isLt
  have := i.isLt
  rw [Ring.cplAddr]
  omega

theorem Ring.histAddr_lt (r : Ring) (t : Nat) : r.histAddr t < 2 ^ 41 := by
  have := r.hist.isLt
  rw [Ring.histAddr]
  omega

theorem Traffic.mayWrite {d d' : Dev} (k : Traffic d d') {r : Ring} {a : Nat} (ha : a < 2 ^ 41) (h : MayWrite d r a) : MayWrite d' r a := by
  obtain ⟨halign, hmay, hdown⟩ := h
  exact ⟨halign, (k.mayAccess r.access ha true).trans hmay, by rw [k.wordOf, k.wordDown]; exact hdown⟩

/-- The increment of a semaphore that its ring's field owns and that is sound; else nothing (R114). -/
theorem Dev.semIncrement_eq (d : Dev) (field : BitVec 4) (sem : Option Nat) : ∃ ss, d.semIncrement field sem = { d with sems := ss } ∧
    ∀ q, sem = some q → q < 4096 → d.semOwned (some field) q = true → d.semPoisoned q = false →
      (d.semIncrement field sem).sem q = d.sem q + 1 := by
  cases sem with
  | none => exact ⟨_, rfl, fun q hq => by cases hq⟩
  | some p =>
    rw [Dev.semIncrement]
    split
    · refine ⟨_, rfl, fun q hq _ _ _ => ?_⟩
      obtain rfl : p = q := Option.some.inj hq
      rw [Dev.sem_setSem, if_pos rfl]
    · next hno =>
      refine ⟨_, rfl, fun q hq hlt hown hsound => ?_⟩
      obtain rfl : p = q := Option.some.inj hq
      simp [hlt, hown, hsound] at hno

variable {d : Dev} {n : Nat} {h : HeldRec}

/-- What has been written when a record has gone to its slot. -/
theorem Dev.recordIn_spec (hmay : MayWrite d (d.ring n) ((d.ring n).cplAddr h.idx)) :
    ∃ e, Stored d e (d.wordOf ((d.ring n).cplAddr h.idx)) (recordLine ((d.ring n).cplAddr h.idx) (d.recordData n h).toNat)
        (bytesMask ((d.ring n).cplAddr h.idx) 32) false ∧
      d.recordIn n h = e.updRing n fun r => r.recorded h :=
  ⟨_, Dev.stored_cpBytes _ _ hmay.1 hmay.2.2, rfl⟩

/-- The history entry of a record, if it has one (R114). -/
def Dev.historyIn (d : Dev) (m : Mover) (r : Ring) (h : HeldRec) (y : BitVec 256) : Dev :=
  match h.hist with
  | none => d
  | some t => d.cpBytes m (r.histAddr t) (toLe 32 y.toNat)

/-- A record that may be written is written, then its history, then its SEM increment is made (R114). -/
theorem Dev.recordWrite_eq (hopen : RecordOpen d n h) : d.recordWrite n h h.bytes =
    ((d.recordIn n h).historyIn ((d.ring n).mover n) (d.ring n) h (d.recordData n h)).semIncrement (d.ring n).field h.sem := by
  obtain ⟨-, -, hslot, hhist⟩ := hopen
  rw [Dev.recordWrite]
  dsimp only
  rw [if_neg (by rw [hslot.2.1]; decide), Dev.historyIn]
  cases ht : h.hist with
  | none => rfl
  | some t =>
    obtain ⟨e, hstored, heq⟩ := Dev.recordIn_spec hslot
    have hmay : (d.recordIn n h).mayAccess (d.ring n).access ((d.ring n).histAddr t) true = true := by
      rw [heq]
      exact (hstored.mayWrite (Ring.histAddr_lt _ t) (hhist t ht).1).2.1
    exact if_neg (fun hno => by
      have hno' : (!(d.recordIn n h).mayAccess (d.ring n).access ((d.ring n).histAddr t) true) = true := hno
      rw [hmay] at hno'
      cases hno')

/-- What the history entry leaves: its own word holds the record, every other word reads as before. -/
theorem Dev.historyIn_spec (m : Mover) (r : Ring) (y : BitVec 256) (hmay : ∀ t, h.hist = some t → MayWrite d r (r.histAddr t)) :
    Traffic d (d.historyIn m r h y) ∧ (∀ t, h.hist = some t → Reads32 (d.historyIn m r h y) (r.histAddr t) y) ∧
      ∀ k, (∀ t, h.hist = some t → d.wordOf (r.histAddr t) ≠ k) → (d.historyIn m r h y).seen k = d.seen k := by
  rw [Dev.historyIn]
  cases ht : h.hist with
  | none => exact ⟨.refl d, fun t hno => by (cases hno), fun _ _ => rfl⟩
  | some t =>
    obtain ⟨halign, -, hdown⟩ := hmay t ht
    have hstored := Dev.stored_cpBytes m y.toNat halign hdown
    refine ⟨hstored.toTraffic, ?_, fun k hk => hstored.seen_ne (hk t rfl).symm⟩
    rintro _ ⟨⟩
    exact reads32_of_stored halign hstored

/-- A record that may be written is in, and nothing of what is held or active has changed (R111, R114). -/
theorem Dev.recordWrite_in (hopen : RecordOpen d n h) : RecordIn d (d.recordWrite n h h.bytes) n h ∧
    ((d.recordWrite n h h.bytes).ring n).heldRecs = (d.ring n).heldRecs ∧ (d.recordWrite n h h.bytes).cmds = d.cmds := by
  rw [Dev.recordWrite_eq hopen]
  obtain ⟨-, -, hslot, hhist⟩ := hopen
  obtain ⟨e, hstored, hin⟩ := Dev.recordIn_spec hslot
  have hring : (d.recordIn n h).ring n = (d.ring n).recorded h := by rw [hin, Dev.updRing, Dev.ring_setRing, if_pos rfl, hstored.ring]
  have hmay : ∀ t, h.hist = some t → MayWrite (d.recordIn n h) (d.ring n) ((d.ring n).histAddr t) := fun t ht => by
    rw [hin]
    exact hstored.mayWrite (Ring.histAddr_lt _ t) (hhist t ht).1
  have hreads : Reads32 (d.recordIn n h) ((d.ring n).cplAddr h.idx) (d.recordData n h) := by
    rw [hin]
    have hread : Reads32 e ((d.ring n).cplAddr h.idx) (d.recordData n h) := reads32_of_stored hslot.1 hstored
    exact hread
  have hword : ∀ a, (d.recordIn n h).wordOf a = d.wordOf a := fun a => by
    rw [hin]
    exact hstored.wordOf a
  have hsem : ∀ q, (d.recordIn n h).sem q = d.sem q ∧ (d.recordIn n h).semPoisoned q = d.semPoisoned q := fun q => by
    rw [hin]
    exact ⟨hstored.sem q, hstored.semPoisoned q⟩
  have hown : ∀ fld q, q < 4096 → (d.recordIn n h).semOwned fld q = d.semOwned fld q := fun fld q hq => by
    rw [hin]
    exact hstored.semOwned fld hq
  have hcmds : (d.recordIn n h).cmds = d.cmds := by
    rw [hin]
    exact hstored.cmds
  generalize d.recordIn n h = f at hring hmay hreads hword hsem hown hcmds
  obtain ⟨htraffic, hhistory, hseen⟩ := f.historyIn_spec ((d.ring n).mover n) (d.ring n) (d.recordData n h) hmay
  generalize f.historyIn ((d.ring n).mover n) (d.ring n) h (d.recordData n h) = g at htraffic hhistory hseen
  obtain ⟨ss, hincr, hsems⟩ := g.semIncrement_eq (d.ring n).field h.sem
  have hslotReads : Reads32 g ((d.ring n).cplAddr h.idx) (d.recordData n h) := fun j hj => by
    rw [htraffic.wordOf, hseen _ fun t ht => by rw [hword, hword]; exact (hhist t ht).2]
    exact hreads j hj
  refine ⟨⟨?_, ?_, fun t ht => ?_, ?_, fun q hq hlt howned hsound => ?_⟩, ?_, ?_⟩
  · rw [hincr]
    exact hslotReads
  · rw [hincr]
    exact (congrArg Ring.ctail (htraffic.ring n)).trans (congrArg Ring.ctail hring)
  · rw [hincr]
    exact hhistory t ht
  · rw [hincr]
    exact (congrArg Ring.attnRecs (htraffic.ring n)).trans (congrArg Ring.attnRecs hring)
  · rw [hsems q hq hlt ((htraffic.semOwned _ hlt).trans ((hown _ q hlt).trans howned))
      ((htraffic.semPoisoned q).trans ((hsem q).2.trans hsound)), htraffic.sem, (hsem q).1]
  · rw [hincr]
    exact (congrArg Ring.heldRecs (htraffic.ring n)).trans (by rw [hring, Ring.recorded])
  · rw [hincr]
    exact htraffic.cmds.trans hcmds

/-- The next record of a ring that may be written is written (R113). -/
theorem Dev.finishRecord_written (hopen : RecordOpen d n h) (hnext : h.idx = (d.ring n).ctail) (hown : h.dupOf = none) :
    d.finishRecord n h = d.recordWrite n h h.bytes := by
  obtain ⟨hlive, hgoes, -, -⟩ := hopen
  have hwrites : d.writeRecord n h = (true, d.recordWrite n h h.bytes) := by
    rw [Dev.writeRecord, hgoes, hown]
    rfl
  rw [Dev.finishRecord]
  dsimp only
  rw [if_neg (by rw [hlive]; decide), if_pos hnext, hwrites]
  rfl

/-- Another record is held (R113). -/
theorem Dev.finishRecord_held (hlive : (d.ring n).cplDead = false) (hlater : h.idx ≠ (d.ring n).ctail) :
    d.finishRecord n h = d.holdRecord n h := by
  rw [Dev.finishRecord]
  dsimp only
  rw [if_neg (by rw [hlive]; decide), if_neg hlater]

/-- Two devices that differ, besides the log, in their rings and commands only, and in ring `n` by the records held. -/
structure RecordAlike (d d' : Dev) (n : Nat) : Prop where
  log : ∃ rs cs, SameButLog { d with rings := rs, cmds := cs } d'
  ring : ∃ hs, d'.ring n = { d.ring n with heldRecs := hs }

namespace RecordAlike

variable {d' : Dev}

theorem traffic (k : RecordAlike d d' n) : ∃ rs cs, Traffic { d with rings := rs, cmds := cs } d' := by
  obtain ⟨⟨rs, cs, hlog⟩, -⟩ := k
  exact ⟨rs, cs, (SideTraffic.of_log hlog).toTraffic⟩

theorem mayWrite (k : RecordAlike d d' n) {r : Ring} {a : Nat} (ha : a < 2 ^ 41) (h : MayWrite d r a) : MayWrite d' r a := by
  obtain ⟨rs, cs, htraffic⟩ := k.traffic
  exact htraffic.mayWrite ha h

theorem wordOf (k : RecordAlike d d' n) (a : Nat) : d'.wordOf a = d.wordOf a := by
  obtain ⟨rs, cs, htraffic⟩ := k.traffic
  exact htraffic.wordOf a

/-- Whether a record must wait is the same. -/
theorem recordWaits (k : RecordAlike d d' n) (h : HeldRec) : d'.recordWaits n h = d.recordWaits n h := by
  obtain ⟨rs, cs, htraffic⟩ := k.traffic
  obtain ⟨⟨_, _, hlog⟩, ⟨hs, hring⟩⟩ := k
  have hbusy : ∀ (r : Ring) a, a < 2 ^ 41 → (d'.mayAccess r.access a true && d'.cpWaits (r.mover n) a (bytesMask a 32)) =
      (d.mayAccess r.access a true && d.cpWaits (r.mover n) a (bytesMask a 32)) := fun r a ha => by
    rw [htraffic.mayAccess _ ha, Dev.cpWaits_of_log hlog]
    rfl
  rw [Dev.recordWaits, Dev.recordWaits, hring]
  dsimp only
  cases h.hist with
  | none => exact congrArg (· || false) (hbusy (d.ring n) _ (Ring.cplAddr_lt _ _))
  | some t => exact congrArg₂ (· || ·) (hbusy (d.ring n) _ (Ring.cplAddr_lt _ _)) (hbusy (d.ring n) _ (Ring.histAddr_lt _ t))

theorem recordOpen (k : RecordAlike d d' n) (hopen : RecordOpen d n h) : RecordOpen d' n h := by
  obtain ⟨hlive, hgoes, hslot, hhist⟩ := hopen
  obtain ⟨hs, hring⟩ := k.ring
  refine ⟨by rw [hring]; exact hlive, (k.recordWaits h).trans hgoes, ?_, fun t ht => ?_⟩
  · rw [hring]
    exact k.mayWrite (Ring.cplAddr_lt _ _) hslot
  · rw [hring, k.wordOf, k.wordOf]
    exact ⟨k.mayWrite (Ring.histAddr_lt _ t) (hhist t ht).1, (hhist t ht).2⟩

theorem recordIn {e : Dev} (k : RecordAlike d d' n) (h' : RecordIn d' e n h) : RecordIn d e n h := by
  obtain ⟨rs, cs, htraffic⟩ := k.traffic
  obtain ⟨hs, hring⟩ := k.ring
  obtain ⟨hslot, hctail, hhistory, hattn, hsem⟩ := h'
  have htime : d'.time = d.time := htraffic.time
  rw [hring] at hslot hctail hhistory hattn hsem
  rw [htime] at hslot hhistory
  refine ⟨hslot, hctail, hhistory, hattn, fun q hq hlt hown hsound => ?_⟩
  exact (hsem q hq hlt ((htraffic.semOwned _ hlt).trans hown) ((htraffic.semPoisoned q).trans hsound)).trans
    (congrArg (· + 1) (htraffic.sem q))

end RecordAlike

theorem Dev.recordReport_log (d : Dev) (n status ticket : Nat) : SameButLog d (d.recordReport n status ticket) := by
  rw [Dev.recordReport]
  split
  · exact .refl d
  · exact d.report_frame ..

/-- The device when the record of an ended command is due: the command is gone, and its status is in the log (R112, R113). -/
def Dev.recordDue (d : Dev) (n : Nat) (i : BitVec 32) (c : Cmd) (e : CmdEnd) : Dev :=
  ({ d with cmds := d.cmds.filter fun x => !(x.ring.val == n && x.idx == i) } : Dev).recordReport n e.status.toNat c.ticket.toNat

theorem Dev.recordDue_log (d : Dev) (n : Nat) (i : BitVec 32) (c : Cmd) (e : CmdEnd) :
    SameButLog { d with cmds := d.cmds.filter fun x => !(x.ring.val == n && x.idx == i) } (d.recordDue n i c e) :=
  Dev.recordReport_log ..

theorem Dev.ring_recordDue (d : Dev) (n : Nat) (i : BitVec 32) (c : Cmd) (e : CmdEnd) (k : Nat) :
    (d.recordDue n i c e).ring k = d.ring k :=
  (SideTraffic.of_log (d.recordDue_log n i c e)).ring k

theorem Dev.recordDue_alike (d : Dev) (n : Nat) (i : BitVec 32) (c : Cmd) (e : CmdEnd) : RecordAlike d (d.recordDue n i c e) n :=
  ⟨⟨_, _, d.recordDue_log n i c e⟩, _, d.ring_recordDue n i c e n⟩

/-- The command has left. -/
theorem Dev.cmd_recordDue (d : Dev) (n : Nat) (i : BitVec 32) (c : Cmd) (e : CmdEnd) : (d.recordDue n i c e).cmd n i = none := by
  refine ((SideTraffic.of_log (d.recordDue_log n i c e)).cmd n i).trans (List.find?_eq_none.2 fun x hx => ?_)
  have hother := (List.mem_filter.1 hx).2
  rw [Bool.not_eq_true'] at hother
  rw [hother]
  decide

theorem Dev.commandEnd_eq {i : BitVec 32} {c : Cmd} {e : CmdEnd} (hcmd : d.cmd n i = some c) (hend : d.outcome c = some e) :
    d.commandEnd n i = (d.recordDue n i c e).finishRecord n (recordFor c i e) := by
  rw [Dev.commandEnd, hcmd]
  dsimp only
  rw [hend]
  rfl

theorem Dev.heldRecord_eq {k : Nat} (hfind : findPos (fun h : HeldRec => h.idx == (d.ring n).ctail) (d.ring n).heldRecs 0 = some (k, h)) :
    d.heldRecord n = (d.setRing n { d.ring n with heldRecs := dropAt (d.ring n).heldRecs k }).finishRecord n h := by
  rw [Dev.heldRecord]
  dsimp only
  rw [hfind]

end Sys2Proof.Machine

namespace Sys2Proof.Proofs

open Sys2Proof.Machine

/-- Settles O16: a record's write leaves what decides another, so the state at hand decides each. -/
theorem recordsAreWritten : Obligations.RecordsAreWritten := by
  unfold Obligations.RecordsAreWritten
  intro s n i hlive r
  refine ⟨fun c e hcmd hend hnext hopen => ?_, fun c e hcmd hend hring hlater => ?_, fun k h hfind hown hopen => ?_⟩
  · have hopen' := (s.dev.recordDue_alike n i c e).recordOpen hopen
    have hnext' : i = ((s.dev.recordDue n i c e).ring n).ctail := by rw [Dev.ring_recordDue]; exact hnext
    obtain ⟨hin, hheld, hcmds⟩ := Dev.recordWrite_in hopen'
    refine runs_live _ s _ (fun d => d.commandEnd n i) rfl hlive ?_
    rw [Dev.commandEnd_eq hcmd hend, Dev.finishRecord_written hopen' hnext' rfl]
    refine ⟨?_, ?_, (s.dev.recordDue_alike n i c e).recordIn hin⟩
    · rw [Dev.cmd, Dev.settle_cmds, hcmds]
      exact s.dev.cmd_recordDue n i c e
    · rw [Dev.ring_settle, hheld, Dev.ring_recordDue]
  · have hring' := s.dev.ring_recordDue n i c e n
    refine runs_live _ s _ (fun d => d.commandEnd n i) rfl hlive ?_
    rw [Dev.commandEnd_eq hcmd hend, Dev.finishRecord_held (by rw [hring']; exact hring) (by rw [hring']; exact hlater), Dev.ring_settle,
      Dev.holdRecord, Dev.updRing, Dev.ring_setRing, if_pos rfl, hring']
    exact ⟨s.dev.cmd_recordDue n i c e, rfl, rfl⟩
  · have halike : RecordAlike s.dev (s.dev.setRing n { r with heldRecs := dropAt r.heldRecs k }) n :=
      ⟨⟨_, s.dev.cmds, .refl _⟩, _, by rw [Dev.ring_setRing, if_pos rfl]⟩
    have hopen' := halike.recordOpen hopen
    obtain ⟨pre, post, -, -, -, hidx⟩ := findPos_eq_some hfind
    have hnext : h.idx = ((s.dev.setRing n { r with heldRecs := dropAt r.heldRecs k }).ring n).ctail := by
      rw [Dev.ring_setRing, if_pos rfl]
      exact eq_of_beq hidx
    obtain ⟨hin, hheld, -⟩ := Dev.recordWrite_in hopen'
    refine runs_live _ s _ (fun d => d.heldRecord n) rfl hlive ?_
    rw [Dev.heldRecord_eq hfind, Dev.finishRecord_written hopen' hnext hown]
    refine ⟨?_, halike.recordIn hin⟩
    rw [Dev.ring_settle, hheld, Dev.ring_setRing, if_pos rfl]

end Sys2Proof.Proofs

/-! ## RING_CREATE and RING_DESTROY (R109) -/

namespace Sys2Proof.Machine

open Sys2Proof.Claims

/-- What every step keeps, their repetition keeps. -/
theorem stepWhile_rec {α : Type} {I : α → Prop} {f : α → α × Bool} (h : ∀ x, I x → I (f x).1) (k : Nat) {x : α} (hx : I x) :
    I (stepWhile f k x) := by
  induction k generalizing x with
  | zero => exact hx
  | succ k ih =>
    rw [stepWhile_succ]
    split
    · exact ih (h x hx)
    · exact h x hx

/-- The command of a row is the one at its place. -/
theorem Dev.cmd_of_rowCmd {d : Dev} {n : Nat} {i : BitVec 32} {op : Nat} {c : Cmd} (h : d.rowCmd n i op = some c) : d.cmd n i = some c := by
  rw [Dev.rowCmd] at h
  split at h
  · cases h
  · next x hx =>
    split at h
    · rw [hx, h]
    · cases h

/-- The word that a RING_CREATE has to fill next, and where it stands (R109). -/
def Cmd.fill (c : Cmd) : Nat × Line := fillAt (c.arg 18 1) (c.arg 24 8) (c.arg 32 8) (BitVec.ofNat 32 (c.arg 20 4)) c.pos

/-- The ring that a RING_CREATE makes of another (R109). -/
def Cmd.newRing (c : Cmd) (t : Ring) : Ring :=
  t.created c.field ((c.arg 19 1).testBit 1) false ((c.arg 19 1).testBit 0) (c.arg 18 1) (c.arg 24 8) (c.arg 32 8) (c.arg 40 8)
    (BitVec.ofNat 16 (c.arg 48 2)) (BitVec.ofNat 32 (c.arg 20 4))

theorem Dev.cmd_ringBegin (d : Dev) (k : Nat) (r : Ring) (n : Nat) (i : BitVec 32) : (d.ringBegin k r).cmd n i = d.cmd n i := rfl

theorem Dev.ring_ringBegin (d : Dev) (k : Nat) (r : Ring) (m : Nat) : (d.ringBegin k r).ring m = if m = k then r else d.ring m :=
  Dev.ring_setRing ..

theorem Dev.ring_endCmd (d : Dev) (c : Cmd) (status r0 r1 m : Nat) : (d.endCmd c status r0 r1).ring m = d.ring m := rfl

/-- May a RING_CREATE of a field make this ring run? -/
def Ring.free (t : Ring) (field : BitVec 4) : Prop := t.state = 0 ∨ (t.field = field ∧ t.state ≠ 1)

section

variable {d : Dev} {n : Nat} {i : BitVec 32} {c : Cmd}

/-- The device once the next word of a RING_CREATE has been filled. -/
def Dev.filled (d : Dev) (n : Nat) (i : BitVec 32) (c : Cmd) : Dev :=
  (d.cpWord (fillMover c.mover.origin c.field) c.fill.1 c.fill.2 false).updCp n i fun c => { c with pos := c.pos + 1 }

theorem Dev.createWord_fills (hrow : d.rowCmd n i 0x10 = some c) (hheld : (d.ring (c.arg 16 2)).heldRecs = [])
    (hmore : c.pos < fillWords (c.arg 18 1)) (hroom : d.cpWaits (fillMover c.mover.origin c.field) c.fill.1 = false) :
    d.createWord n i = (d.filled n i c, true) := by
  rw [Dev.createWord, hrow]
  dsimp only
  rw [if_neg (by rw [hheld]; decide), if_pos hmore, if_neg]
  case hnc => exact fun hwaits => absurd (hroom.symm.trans hwaits) (by decide)
  rfl

theorem Dev.createWord_begins (hrow : d.rowCmd n i 0x10 = some c) (hheld : (d.ring (c.arg 16 2)).heldRecs = [])
    (hover : fillWords (c.arg 18 1) ≤ c.pos) (hfree : (d.ring (c.arg 16 2)).free c.field) :
    d.createWord n i = ((d.ringBegin (c.arg 16 2) (c.newRing (d.ring (c.arg 16 2)))).endCmd c 0, false) := by
  have htaken : ¬ ((d.ring (c.arg 16 2)).state ≠ 0 ∧ ((d.ring (c.arg 16 2)).field ≠ c.field ∨ (d.ring (c.arg 16 2)).state = 1)) := by
    rintro ⟨hstate, hother | hruns⟩ <;> rcases hfree with h | ⟨hfield, hstopped⟩
    · exact hstate h
    · exact hother hfield
    · exact hstate h
    · exact hstopped hruns
  rw [Dev.createWord, hrow]
  dsimp only
  rw [if_neg (by rw [hheld]; decide), if_neg (by omega), if_neg htaken]
  rfl

/-- Once its words are written, a RING_CREATE ends, and the buffered words are read as before. -/
theorem Dev.createWord_ends (hrow : d.rowCmd n i 0x10 = some c) (hheld : (d.ring (c.arg 16 2)).heldRecs = [])
    (hover : fillWords (c.arg 18 1) ≤ c.pos) : ∃ e, d.createWord n i = (e, false) ∧
      ∀ w, (d.buffered w).isSome = true → e.seen w = d.seen w := by
  by_cases hfree : (d.ring (c.arg 16 2)).free c.field
  · refine ⟨_, Dev.createWord_begins hrow hheld hover hfree, fun w hw => ?_⟩
    obtain ⟨hseen, hbuf⟩ := Dev.seen_withdraw hw fun o => o == .fetch (Fin.ofNat 1024 (c.arg 16 2))
    exact (Dev.seen_endCmd (d := d.ringBegin _ _) hbuf c 0 0 0).trans hseen
  · have htaken : (d.ring (c.arg 16 2)).state ≠ 0 ∧ ((d.ring (c.arg 16 2)).field ≠ c.field ∨ (d.ring (c.arg 16 2)).state = 1) := by
      rw [Ring.free, not_or, not_and_or, not_not] at hfree
      exact hfree
    refine ⟨d.endCmd c 5, ?_, fun w hw => Dev.seen_endCmd hw c 5 0 0⟩
    rw [Dev.createWord, hrow]
    dsimp only
    rw [if_neg (by rw [hheld]; decide), if_neg (by omega), if_pos htaken]

/-- A RING_CREATE that has begun and has filled so many words. -/
def Dev.CreateAt (d : Dev) (n : Nat) (i : BitVec 32) (p : Nat) : Prop := ∃ c, d.cmd n i = some c ∧ c.begun = true ∧ p < c.pos

/-- A step of a RING_CREATE never goes back. -/
theorem Dev.createAt_createWord {p : Nat} (h : d.CreateAt n i p) : (d.createWord n i).1.CreateAt n i p := by
  rw [Dev.createWord]
  cases hrow : d.rowCmd n i 0x10 with
  | none => exact h
  | some c =>
    obtain ⟨x, hx, hbegun, hpos⟩ := h
    have hcmd := Dev.cmd_of_rowCmd hrow
    obtain rfl : x = c := Option.some.inj (hx.symm.trans hcmd)
    obtain ⟨hn, hi⟩ := Dev.cmd_place hcmd
    dsimp only
    split
    · exact ⟨x, hcmd, hbegun, hpos⟩
    · split
      · split
        · exact ⟨x, hcmd, hbegun, hpos⟩
        · exact ⟨_, Dev.cmd_updCp (((Traffic.cpWord ..).cmd n i).trans hcmd) fun _ => ⟨rfl, rfl⟩, hbegun, Nat.lt_succ_of_lt hpos⟩
      · split
        · exact ⟨_, Dev.cmd_endCmd hcmd hn hi 5 0 0, rfl, hpos⟩
        · exact ⟨_, Dev.cmd_endCmd ((Dev.cmd_ringBegin ..).trans hcmd) hn hi 0 0 0, rfl, hpos⟩

/-- The checks of a RING_CREATE (R88, R104, R109): those of its start, or none once it has begun. -/
def CreatePasses (d : Dev) (c : Cmd) : Prop :=
  c.begun = true ∨ c.arg 19 1 < 4 ∧ ringParamsOk (c.arg 18 1) (c.arg 24 8) (c.arg 32 8) (c.arg 40 8) = true ∧
    d.rangesStatus { field := some c.field, secure := (c.arg 19 1).testBit 1, host := false }
      (ringRanges (c.arg 18 1) (c.arg 24 8) (c.arg 32 8) (c.arg 40 8)) = 0 ∧
    ((d.ring (c.arg 16 2)).state = 0 ∨
      ((d.ring (c.arg 16 2)).field = c.field ∧ (d.ring (c.arg 16 2)).state ≠ 1 ∧ d.ringActive (c.arg 16 2) = []))

theorem Dev.ringCreateRow_eq (hrow : d.rowCmd n i 0x10 = some c) (hk : c.arg 16 2 < 1024) (hsem : d.semOk c = true)
    (hpass : CreatePasses d c) : d.ringCreateRow n i =
      stepWhile (fun d => d.createWord n i) (fillWords (c.arg 18 1) + 1) (d.updCp n i fun c => { c with begun := true }) := by
  obtain hbegun | ⟨hflags, hparams, hranges, hring⟩ := hpass
  · rw [Dev.ringCreateRow, hrow]
    dsimp only
    rw [if_pos hbegun, if_neg (by decide)]
  · have howned : (!d.semOk c || ((d.ring (c.arg 16 2)).state != 0 &&
        ((d.ring (c.arg 16 2)).field != c.field || (d.ring (c.arg 16 2)).state == 1))) = false := by
      rcases hring with h | ⟨hfield, hstopped, -⟩
      · simp [hsem, h]
      · simp [hsem, hfield, hstopped]
    have hidle : ¬ ((d.ring (c.arg 16 2)).state ≠ 0 ∧ (!(d.ringActive (c.arg 16 2)).isEmpty) = true) := by
      rintro ⟨hstate, hactive⟩
      rcases hring with h | ⟨-, -, hnone⟩
      · exact hstate h
      · rw [hnone] at hactive
        cases hactive
    rw [Dev.ringCreateRow, hrow]
    dsimp only
    rw [decide_eq_true hk, decide_eq_true hflags, hparams, hranges, howned, if_neg hidle]
    refine if_neg fun hne => hne ?_
    split <;> rfl

end

/-- The first word of a RING_CREATE is stored and its command goes on (R109). -/
theorem createStarts {d : Dev} {n : Fin 1024} {i : BitVec 32} {c : Cmd} (hstart : Started d n i 0x10 c) (hk : c.arg 16 2 < 1024)
    (hsem : d.semOk c = true) (hheld : (d.ring (c.arg 16 2)).heldRecs = []) (hmore : c.pos < fillWords (c.arg 18 1))
    (hpass : CreatePasses d c) (hroom : d.cpWaits (fillMover c.mover.origin c.field) c.fill.1 = false) :
    let d' := (d.ringCreateRow n i).settle
    d'.CreateAt n i c.pos ∧ (c.pos + 1 = fillWords (c.arg 18 1) → d.wordDown (d.wordOf c.fill.1) = false →
      (d'.seen (d.wordOf c.fill.1)).data = c.fill.2) := by
  have hin : InRow (d.updCp n i fun c => { c with begun := true }) n i 0x10 { c with begun := true } :=
    (inRow_of_started hstart).updCp rfl keepsPlace_begun rfl rfl rfl
  have hgoes : (d.updCp n i fun c => { c with begun := true }).createWord n i =
      ((d.updCp n i fun c => { c with begun := true }).filled n i c, true) :=
    Dev.createWord_fills (c := { c with begun := true }) hin.row hheld hmore hroom
  have hring : (d.updCp n i fun c => { c with begun := true }).ring (c.arg 16 2) = d.ring (c.arg 16 2) := rfl
  have hstored (hdown : d.wordDown (d.wordOf c.fill.1) = false) :
      Stored (d.updCp n i fun c => { c with begun := true }) _ (d.wordOf c.fill.1) c.fill.2 (BitVec.allOnes 64) false :=
    Dev.stored_cpWord (d := d.updCp n i fun c => { c with begun := true }) (fillMover c.mover.origin c.field) c.fill.2 false hdown
  dsimp only
  rw [Dev.ringCreateRow_eq (rowCmd_of_started hstart) hk hsem hpass]
  generalize (d.updCp n i fun c => { c with begun := true }) = e at hin hgoes hring hstored
  have hfilled := Traffic.cpWord e (fillMover c.mover.origin c.field) c.fill.1 c.fill.2 false
  have hnext : InRow (e.filled n i c) n i 0x10 { c with begun := true, pos := c.pos + 1 } :=
    hin.updCp hfilled.cmds (fun _ => ⟨rfl, rfl⟩) rfl rfl rfl
  have hnone : ((e.filled n i c).ring (c.arg 16 2)).heldRecs = [] := by
    rw [show (e.filled n i c).ring (c.arg 16 2) = _ from hfilled.ring _, hring, hheld]
  refine ⟨?_, fun hlast hdown => ?_⟩
  · rw [stepWhile_succ, hgoes, if_pos rfl]
    exact stepWhile_rec (I := fun d : Dev => d.CreateAt n i c.pos) (fun _ h => Dev.createAt_createWord h) _
      ⟨_, hnext.cmd, rfl, Nat.lt_succ_self _⟩
  · obtain ⟨z, hz, hseen⟩ := Dev.createWord_ends hnext.row hnone hlast.ge
    rw [stepWhile_two (by omega) hgoes hz, Dev.seen_settle, hseen _ (hstored hdown).isSome]
    exact (hstored hdown).seen_whole.1

/-- A RING_CREATE whose words are written sets its ring running (R109). -/
theorem createEnds {d : Dev} {n : Fin 1024} {i : BitVec 32} {c : Cmd} (hstart : Started d n i 0x10 c) (hk : c.arg 16 2 < 1024)
    (hsem : d.semOk c = true) (hbegun : c.begun = true) (hover : fillWords (c.arg 18 1) ≤ c.pos)
    (hheld : (d.ring (c.arg 16 2)).heldRecs = []) (hfree : (d.ring (c.arg 16 2)).free c.field) :
    let d' := (d.ringCreateRow n i).settle
    d'.ring (c.arg 16 2) = c.newRing (d.ring (c.arg 16 2)) ∧ Ended d' n i 0 0 0 := by
  have hin : InRow (d.updCp n i fun c => { c with begun := true }) n i 0x10 { c with begun := true } :=
    (inRow_of_started hstart).updCp rfl keepsPlace_begun rfl rfl rfl
  obtain ⟨hn, hi⟩ := Dev.cmd_place hin.cmd
  dsimp only
  rw [Dev.ringCreateRow_eq (rowCmd_of_started hstart) hk hsem (.inl hbegun), stepWhile_succ,
    Dev.createWord_begins hin.row hheld hover hfree, if_neg Bool.false_ne_true]
  refine ⟨?_, ended_endCmd ((Dev.cmd_ringBegin ..).trans hin.cmd) hn hi 0 0 0⟩
  rw [Dev.ring_settle, Dev.ring_endCmd]
  exact (Dev.ring_ringBegin ..).trans (if_pos rfl)

/-- A RING_DESTROY whose checks pass takes its ring out of service, when no record waits (R109). -/
theorem Dev.ringDestroyRow_eq {d : Dev} {n : Nat} {i : BitVec 32} {c : Cmd} (hrow : d.rowCmd n i 0x11 = some c) (hk : c.arg 16 2 < 1024)
    (hsem : d.semOk c = true) (hown : (d.ring (c.arg 16 2)).ownedBy c.field = true) (hadmin : (d.ring (c.arg 16 2)).admin = false)
    (hidle : d.ringActive (c.arg 16 2) = []) (hheld : (d.ring (c.arg 16 2)).heldRecs = []) :
    d.ringDestroyRow n i = (d.ringBegin (c.arg 16 2) { d.ring (c.arg 16 2) with state := 0 }).endCmd c 0 := by
  have hchecks : d.checkArgs c (decide (c.arg 16 2 < 1024)) [] ((d.ring (c.arg 16 2)).ownedBy c.field && !(d.ring (c.arg 16 2)).admin)
      (if (d.ringActive (c.arg 16 2)).isEmpty = true then 0 else 0xD) = 0 := by
    rw [Dev.checkArgs_pass _ (decide_eq_true hk) rfl hsem (by rw [hown, hadmin]; rfl), hidle]
    rfl
  rw [Dev.ringDestroyRow, hrow]
  dsimp only
  rw [hchecks, ite_self, if_neg (by decide), if_neg (by rw [hheld]; decide)]

theorem destroyEnds {d : Dev} {n : Fin 1024} {i : BitVec 32} {c : Cmd} (hstart : Started d n i 0x11 c) (hk : c.arg 16 2 < 1024)
    (hsem : d.semOk c = true) (hown : (d.ring (c.arg 16 2)).ownedBy c.field = true) (hadmin : (d.ring (c.arg 16 2)).admin = false)
    (hidle : d.ringActive (c.arg 16 2) = []) (hheld : (d.ring (c.arg 16 2)).heldRecs = []) :
    let d' := (d.ringDestroyRow n i).settle
    (d'.ring (c.arg 16 2)).state = 0 ∧ Ended d' n i 0 0 0 := by
  obtain ⟨hn, hi⟩ := Dev.cmd_place hstart.2.1
  dsimp only
  rw [Dev.ringDestroyRow_eq (rowCmd_of_started hstart) hk hsem hown hadmin hidle hheld]
  refine ⟨?_, ended_endCmd ((Dev.cmd_ringBegin ..).trans hstart.2.1) hn hi 0 0 0⟩
  rw [Dev.ring_settle, Dev.ring_endCmd, Dev.ring_ringBegin, if_pos rfl]

end Sys2Proof.Machine

/-! ## Administrative rings (R90, R109) -/

namespace Sys2Proof.Machine

open Sys2Proof.Claims

/-- Setting the array is traffic. -/
theorem Traffic.setDram (d : Dev) (m : EccMem) : Traffic d { d with dram := m } :=
  ⟨⟨_, _, _, _, _, _, _, _, _, _, rfl⟩, fun _ _ => rfl, fun _ => rfl⟩

theorem Traffic.placeWord (d : Dev) (m : Mover) (a : Nat) (x : Line) : Traffic d (d.placeWord m a x) := by
  rw [Dev.placeWord]
  refine .ite (.refl d) (.ite (d.stored_storeMasked m _ x (by decide) false).toTraffic ?_)
  exact ((SideTraffic.mirrorWrite d _ x _ false).toTraffic.trans (.dropRepair _ _)).trans (.setDram _ _)

/-- The registers of CP_ADM stay while a ring's words are written. -/
theorem lowReg_adm {o : Nat} (h : o < 0x10000) (hsrc : o ≠ rCpDevsrc) : lowReg o := ⟨by omega, hsrc⟩

/-- What ADM_CFG takes of a value that sets EN (R90). -/
def admValue (cfg : Reg) : Reg := (cfg ||| 0x80000000) &&& 0xE01F03FF

theorem admValue_fields (cfg : Reg) : rbit (admValue cfg) 31 = true ∧ rbit (admValue cfg) 30 = rbit cfg 30 ∧
    fld (admValue cfg) 20 16 = fld cfg 20 16 := by
  refine ⟨?_, ?_, Nat.eq_of_testBit_eq fun i => ?_⟩
  · simp [admValue, rbit]
  · simp [admValue, rbit]
  · simp only [fld, bits, Nat.testBit_mod_two_pow, Nat.testBit_shiftRight, BitVec.testBit_toNat]
    by_cases hi : i < 5
    · interval_cases i <;> simp [admValue]
    · rw [decide_eq_false hi, Bool.false_and, Bool.false_and]

/-- The ring that a field's administrative registers describe, made of another (R90). -/
def Dev.admRingOf (d : Dev) (f : Nat) (t : Ring) : Ring :=
  t.created (BitVec.ofNat 4 f) (rbit (d.reg (rAdmCfg f)) 30) true (rbit (d.reg (rAdmCfg f)) 29) (fld (d.reg (rAdmCfg f)) 20 16)
    (d.reg64 (rAdm f)).toNat (d.reg64 (rAdm f + 8)).toNat (d.reg64 (rAdm f + 16)).toNat 0 (d.reg (rAdmTicket f))

/-- A field's administrative ring begins once its words are written; the low registers stay (R90, R109). -/
theorem Dev.admCreate_eq (d : Dev) (f : Nat) : ∃ e, Traffic d e ∧ d.admCreate f = e.ringBegin (d.admRing f) (d.admRingOf f (d.ring (d.admRing f))) := by
  have htraffic : Traffic d (forNat (fillWords (fld (d.reg (rAdmCfg f)) 20 16)) d fun e j =>
      e.placeWord (fillMover (.fetch (Fin.ofNat 1024 (d.admRing f))) (BitVec.ofNat 4 f))
        (fillAt (fld (d.reg (rAdmCfg f)) 20 16) (d.reg64 (rAdm f)).toNat (d.reg64 (rAdm f + 8)).toNat (d.reg (rAdmTicket f)) j).1
        (fillAt (fld (d.reg (rAdmCfg f)) 20 16) (d.reg64 (rAdm f)).toNat (d.reg64 (rAdm f + 8)).toNat (d.reg (rAdmTicket f)) j).2) :=
    forNat_rec (.refl d) fun _ h _ _ => h.trans (.placeWord ..)
  refine ⟨_, htraffic, ?_⟩
  rw [← htraffic.ring]
  rfl

/-- ADM_CFG of every field is in the register map (R36). -/
theorem regRow_rAdmCfg : ∀ f : Fin 16, (regRow (rAdmCfg f)).isSome = true := by decide

theorem Dev.writeAction_admCfg (d : Dev) {r : Rights} (hsecure : r.secure = true) (f : Fin 16) (v : Reg)
    (hoff : rbit (d.reg (rAdmCfg f)) 31 = false) : d.writeAction r (rAdmCfg f) v = some (d.admWrite f v) := by
  have hf := f.isLt
  have ho : rAdmCfg f = 0xC18 + 0x40 * f := by simp only [rAdmCfg, rAdm]; omega
  have hfield : (rAdmCfg f - rAdm 0) / 0x40 = f := by simp only [rAdm] at ho ⊢; omega
  unfold Dev.writeAction
  rw [if_neg (by simp only [rRstCtrl]; omega), if_neg (by simp only [rFlCtrl]; omega), if_neg (by simp only [rMonProcCtrl]; omega),
    if_neg (by simp only [rDbgCtrl]; omega), if_pos (by simp only [rAdm] at ho ⊢; omega)]
  dsimp only
  rw [hfield, hsecure, if_neg (by decide), if_neg (by rw [hoff]; decide), if_pos rfl]

/-- A secure write of ADM_CFG is the write of the administrative registers' enable (R90). -/
theorem Dev.agentWrite_admCfg {d : Dev} {ag : Agent} (hreach : d.reaches ag = true) (hkind : ag.kind ≠ 1)
    (hsecure : (d.rights ag).secure = true) (f : Fin 16) (v : Reg) (hoff : rbit (d.reg (rAdmCfg f)) 31 = false) :
    d.agentWrite ag (rAdmCfg f) v = d.admWrite f v := by
  have hf := f.isLt
  have ho : rAdmCfg f = 0xC18 + 0x40 * f := by simp only [rAdmCfg, rAdm]; omega
  have hadmit : ∀ o, d.letIn (d.rights ag) o = .ok := fun o => by rw [Dev.letIn, hsecure, Bool.true_or, if_pos rfl]
  have hopen : d.wordClosed (d.rights ag) (rAdmCfg f - rAdmCfg f % 64) true = false := by
    rw [Dev.wordClosed, if_neg (by simp only [rDbgStat]; omega), hadmit]
    rfl
  obtain ⟨row, hrow⟩ := Option.isSome_iff_exists.1 (regRow_rAdmCfg f)
  rw [d.agentWrite_of_admitted ag _ v hreach hkind (by omega) (hadmit _) hopen, Dev.writeReg, hrow]
  dsimp only
  rw [RegRow.hasRws_and_not_secure fun _ => hsecure, if_neg Bool.false_ne_true, d.writeAction_admCfg hsecure f v hoff]

/-- EN sets where the ring can be created, and creates it (R90). -/
theorem Dev.admWrite_creates {d : Dev} {f : Nat} {cfg : Reg} (hoff : rbit (d.reg (rAdmCfg f)) 31 = false)
    (hserves : rbit (d.reg rCpStat) 31 = true) (hok : d.admOk f (admValue cfg) = true) :
    d.admWrite f (cfg ||| 0x80000000) = (d.setReg (rAdmCfg f) (admValue cfg)).admCreate f := by
  obtain ⟨hen, -, -⟩ := admValue_fields cfg
  rw [Dev.admWrite]
  dsimp only
  rw [if_neg (by rw [hoff]; decide)]
  refine if_pos ?_
  rw [show (cfg ||| 0x80000000) &&& 0xE01F03FF = admValue cfg from rfl, hen, hserves, hok]
  rfl

end Sys2Proof.Machine

namespace Sys2Proof.Proofs

open Sys2Proof.Machine

/-- Settles O14: the rows by the words they store and the life they begin; ADM_CFG by the write of its enable. -/
theorem ringsAreCreated : Obligations.RingsAreCreated := by
  unfold Obligations.RingsAreCreated
  constructor
  · intro s n i c k t log2 hk hsem
    refine ⟨?_, fun hstart hbegun hover hheld hfree => ?_, fun hstart hown hadmin hidle hheld => ?_⟩
    · intro hstart hheld hmore hpass x hroom
      obtain ⟨⟨c', hcmd, hbegun, hpos⟩, hlast⟩ := createStarts hstart hk hsem hheld hmore hpass hroom
      exact runs_live _ s _ (fun d => d.ringCreateRow n i) rfl hstart.1 ⟨⟨c', hcmd, hbegun, hpos⟩, hlast⟩
    · obtain ⟨hring, hended⟩ := createEnds hstart hk hsem hbegun hover hheld hfree
      refine runs_live _ s _ (fun d => d.ringCreateRow n i) rfl hstart.1 ?_
      rw [hring]
      exact ⟨rfl, rfl, rfl, rfl, rfl, rfl, rfl, rfl, rfl, rfl, rfl, rfl, rfl, rfl, rfl, hended⟩
    · exact runs_live _ s _ (fun d => d.ringDestroyRow n i) rfl hstart.1 (destroyEnds hstart hk hsem hown hadmin hidle hheld)
  · intro s ag f cfg v k hreach hkind hsecure hoff hserves hok
    obtain ⟨-, hworld, hlog2⟩ := admValue_fields cfg
    have hf := f.isLt
    have hcfg : (s.dev.setReg (rAdmCfg f) v).reg (rAdmCfg f) = v := by rw [Dev.reg_setReg, if_pos rfl]
    have hticket : (s.dev.setReg (rAdmCfg f) v).reg (rAdmTicket f) = s.dev.reg (rAdmTicket f) := by
      rw [Dev.reg_setReg, if_neg (by simp only [rAdmTicket, rAdmCfg]; omega)]
    obtain ⟨e, htraffic, heq⟩ := (s.dev.setReg (rAdmCfg f) v).admCreate_eq f
    have hring : (s.dev.setReg (rAdmCfg f) v).admRing f = k := by rw [Dev.admRing, hcfg]
    have hstays : e.reg (rAdmCfg f) = v :=
      (htraffic.reg _ (lowReg_adm (by simp only [rAdmCfg, rAdm]; omega) (by simp only [rAdmCfg, rAdm, rCpDevsrc]; omega))).trans hcfg
    refine runs_of _ s _ (fun d => d.agentWrite ag (rAdmCfg f) (cfg ||| 0x80000000)) rfl ?_
    rw [Dev.agentWrite_admCfg hreach hkind hsecure f _ hoff, Dev.admWrite_creates hoff hserves hok,
      show admValue cfg = v from rfl, heq, hring, Dev.ring_settle, Dev.ring_ringBegin, if_pos rfl, Dev.admRingOf, hcfg, hticket]
    refine ⟨hstays, rfl, rfl, rfl, hworld, hlog2, rfl, rfl, rfl, rfl, rfl, rfl, fun m hm => ?_⟩
    rw [Dev.ring_settle, Dev.ring_ringBegin, if_neg hm]
    exact htraffic.ring m

end Sys2Proof.Proofs

/-! ## WARM_RESET (R110, R464, R465) -/

namespace Sys2Proof.Machine

open Sys2Proof.Claims

theorem Dev.afterReset_not_live (d : Dev) : d.afterReset.live = false := by
  rw [Dev.afterReset]
  split
  · rfl
  · split
    · rfl
    · split <;> rfl

/-- After a retaining reset every channel's die-slices are in self-refresh (R465). -/
theorem Dev.selfRef_reset (d : Dev) (cause : Nat) {k : Nat} (hk : k < 32) : ((d.reset cause true).chan k).selfRef = true := by
  have hall : ∀ k < 32, (tabGet (fun _ => Chan.init) ((List.range 32).map fun c => (c, { Chan.init with selfRef := true })) k).selfRef = true := by
    decide
  exact hall k hk

/-- What a warm reset leaves of any device (R464, R465). -/
theorem Dev.warm_resets (q : Dev) : let d := (q.reset cWarm true).settle
    rbit (d.reg rRstCause) 2 = true ∧ rbit (d.reg rRstStat) 29 = true ∧ d.sys.phase.live = false ∧ d.timeRun = false ∧ d.time = 0 ∧
      d.cmds = [] ∧ d.rings = [] ∧ d.hosts = [] ∧ d.links = [] ∧ d.logical = [] ∧ d.sems = [] ∧ d.nbos = [] ∧ d.remotes = [] ∧
      (∀ o, o ≠ rRstCause → o ≠ rRstStat → ((regRow o).map (·.sticky)).getD 0 = 0 → d.reg o = regReset o) ∧
      d.sys.retaining = true ∧ ∀ k, k < 32 → (d.chan k).selfRef = true := by
  obtain ⟨hcause, hstat, hphase, htimeRun, htime, hcmds, hrings, hhosts, hlinks, hlogical, hsems, hnbos, hremotes, hregs, -⟩ :=
    q.reset_hasReset cWarm true (by decide)
  have hlive : (q.reset cWarm true).settle.sys.phase.live = false := by rw [Dev.settle_phase, hphase, Dev.afterReset_not_live]
  exact ⟨hcause, hstat, hlive, htimeRun, htime, hcmds, hrings, hhosts, hlinks, hlogical, hsems, hnbos, hremotes, hregs, rfl,
    fun k hk => Dev.selfRef_reset q cWarm hk⟩

/-- A channel with nothing to be written to the array (R465). -/
def Dev.Still (d : Dev) (c : Nat) : Prop :=
  (d.chan c).wbuf = [] ∧ ∀ r, r ∈ (d.chan c).hostIn ∨ r ∈ (d.chan c).driftIn ∨ r ∈ (d.chan c).peerIn → r.write = false

theorem filter_write_nil {rs : List PortReq} (h : ∀ r ∈ rs, r.write = false) : rs.filter (·.write) = [] :=
  List.filter_eq_nil_iff.2 fun r hr => by rw [h r hr]; decide

/-- Flushing a still channel changes that channel only. -/
theorem Dev.flushChannel_still {d : Dev} {c : Nat} (h : d.Still c) :
    d.flushChannel c = d.updChan c fun ch => { ch with wbuf := [], hostIn := [], driftIn := [], peerIn := [] } := by
  obtain ⟨hbuf, hreqs⟩ := h
  rw [Dev.flushChannel, filter_write_nil fun r hr => hreqs r (.inl hr), filter_write_nil fun r hr => hreqs r (.inr (.inl hr)),
    filter_write_nil fun r hr => hreqs r (.inr (.inr hr))]
  simp only [List.foldl_nil, hbuf, ite_self]

/-- The step of a quiescing channel: its buffer is flushed and it enters self-refresh. -/
def Dev.rest (d : Dev) (c : Nat) : Dev :=
  (d.flushChannel c).updChan c fun ch => { ch with banks := [], selfRef := true, powerDown := false }

theorem Dev.rest_still {d : Dev} (c : Nat) (h : d.Still c) : ∃ cs, d.rest c = { d with chans := cs } ∧ ∀ k, d.Still k → (d.rest c).Still k := by
  refine ⟨_, by rw [Dev.rest, Dev.flushChannel_still h]; rfl, fun k hk => ?_⟩
  rw [Dev.rest, Dev.flushChannel_still h, Dev.Still]
  simp only [Dev.updChan, Dev.chan_setChan, if_true]
  split
  · simp
  · exact hk

/-- A quiet device only rests its channels (R465). -/
theorem Dev.quiesce_quiet {d : Dev} (h : Quiet d) :
    ∃ cs, d.quiesce = { d with chans := cs, sys := { d.sys with saved := some d.order } } := by
  have hatoms : (forNat 32 d fun d c => forNat 64 d fun d b => d.atomDone c b) = d :=
    forNat_rec (motive := fun e : Dev => e = d) rfl fun e he c hc =>
      forNat_rec (motive := fun e : Dev => e = d) he fun e he b hb => by
        rw [he, Dev.atomDone, (h c hc).2.1 b hb]
  have hrest : ∃ cs, (forNat 32 d fun d c => d.rest c) = { d with chans := cs } := by
    refine (forNat_rec (motive := fun e : Dev => (∃ cs, e = { d with chans := cs }) ∧ ∀ c < 32, e.Still c)
      ⟨⟨_, rfl⟩, fun c hc => ⟨(h c hc).1, (h c hc).2.2⟩⟩ fun e he c hc => ?_).1
    obtain ⟨⟨cs, heq⟩, hstill⟩ := he
    obtain ⟨cs', hrest, hkeeps⟩ := Dev.rest_still c (hstill c hc)
    exact ⟨⟨cs', by rw [hrest, heq]⟩, fun k hk => hkeeps k (hstill k hk)⟩
  obtain ⟨cs, hcs⟩ := hrest
  rw [Dev.quiesce, hatoms]
  refine ⟨cs, ?_⟩
  rw [show (forNat 32 d fun d c => (d.flushChannel c).updChan c fun ch => { ch with banks := [], selfRef := true, powerDown := false }) =
    { d with chans := cs } from hcs]
  rfl

variable {d : Dev} {n : Nat} {i : BitVec 32} {c : Cmd}

theorem Dev.warmReset_resets (hrow : d.rowCmd n i 0x13 = some c) (hsem : d.semOk c = true) (hkey : c.arg 16 4 = 0x6440A5A5) :
    d.warmReset n i = d.quiesce.reset cWarm true := by
  rw [Dev.warmReset, hrow]
  dsimp only
  rw [Dev.checkArgs_pass 0 (beq_iff_eq.2 hkey) rfl hsem rfl, if_neg (by decide)]

theorem Dev.warmReset_refused (hrow : d.rowCmd n i 0x13 = some c) (hkey : c.arg 16 4 ≠ 0x6440A5A5) :
    d.warmReset n i = d.endCmd c 2 := by
  rw [Dev.warmReset, hrow]
  dsimp only
  rw [Dev.checkArgs_of_badArgs d c [] true 0 (beq_eq_false_iff_ne.2 hkey), if_pos (by decide)]

/-- A reset of a device whose channels and retained order alone have changed since. -/
theorem Dev.hasReset_of_rested {cs : Tab Chan} {o : Option (Option Nat)} (cause : Nat) (retain : Bool) (hcause : cause < 9) :
    HasReset d (({ d with chans := cs, sys := { d.sys with saved := o } } : Dev).reset cause retain) cause d.afterReset :=
  Dev.reset_hasReset { d with chans := cs, sys := { d.sys with saved := o } } cause retain hcause

end Sys2Proof.Machine

/-! ## Reset requests of a peer (R464, R466) -/

namespace Sys2Proof.Machine

open Sys2Proof.Claims

/-- The arrival of a packet changes, before the packet acts, links, their registers, and whom the group has heard. -/
structure Arrived (d d' : Dev) : Prop where
  frame : ∃ cs links heard, d' = { d with cs := cs, links := links, group := { d.group with heard := heard } }
  reg : ∀ o, o < 0x400000 ∨ 0x400800 ≤ o → d'.reg o = d.reg o

namespace Arrived

variable {d d' : Dev}

theorem refl (d : Dev) : Arrived d d := ⟨⟨_, _, _, rfl⟩, fun _ _ => rfl⟩

theorem trans {a b c : Dev} (h : Arrived a b) (k : Arrived b c) : Arrived a c := by
  obtain ⟨⟨_, _, _, rfl⟩, hreg⟩ := h
  obtain ⟨⟨_, _, _, rfl⟩, kreg⟩ := k
  exact ⟨⟨_, _, _, rfl⟩, fun o ho => (kreg o ho).trans (hreg o ho)⟩

theorem sys (h : Arrived d d') : d'.sys = d.sys := by obtain ⟨⟨_, _, _, rfl⟩, -⟩ := h; rfl
theorem rings (h : Arrived d d') : d'.rings = d.rings := by obtain ⟨⟨_, _, _, rfl⟩, -⟩ := h; rfl
theorem dram (h : Arrived d d') : d'.dram = d.dram := by obtain ⟨⟨_, _, _, rfl⟩, -⟩ := h; rfl
theorem chans (h : Arrived d d') : d'.chans = d.chans := by obtain ⟨⟨_, _, _, rfl⟩, -⟩ := h; rfl
theorem mor (h : Arrived d d') : d'.mor = d.mor := by obtain ⟨⟨_, _, _, rfl⟩, -⟩ := h; rfl

theorem ite {p : Prop} {_ : Decidable p} {x y : Dev} (h : Arrived d x) (k : Arrived d y) : Arrived d (if p then x else y) := by
  split <;> assumption

theorem setLink (d : Dev) (l : Nat) (x : Link) : Arrived d (d.setLink l x) := ⟨⟨_, _, _, rfl⟩, fun _ _ => rfl⟩

theorem setReg (d : Dev) {o : Nat} (v : Reg) (hlow : 0x400000 ≤ o) (hhigh : o < 0x400800) : Arrived d (d.setReg o v) :=
  ⟨⟨_, _, _, rfl⟩, fun k hk => by rw [Dev.reg_setReg, if_neg (by omega)]⟩

theorem count (d : Dev) {o : Nat} (n : Nat) (hlow : 0x400000 ≤ o) (hhigh : o + 4 < 0x400800) : Arrived d (d.count o n) :=
  (setReg d _ hlow (by omega)).trans (setReg _ _ (by omega) hhigh)

theorem hear (d : Dev) (dev : Nat) : Arrived d (d.hear dev) := ⟨⟨_, _, _, rfl⟩, fun _ _ => rfl⟩

end Arrived

/-- What of a link the arrival of a code word leaves: the packet expected, the credits, and the service. -/
def Link.SameFlow (a b : Link) : Prop := b.up = a.up ∧ b.expSeq = a.expSeq ∧ b.granted = a.granted ∧ b.consumed = a.consumed

theorem Link.sameFlow_clocked (k : Link) (now : Nat) : k.SameFlow (k.clocked now) := by
  rw [Link.clocked]
  split
  · exact ⟨rfl, rfl, rfl, rfl⟩
  · split <;> exact ⟨rfl, rfl, rfl, rfl⟩

/-- A code word whose flits are read leaves what decides the packet in it. -/
theorem Dev.codeWord_read {d : Dev} {l : Nat} {cw : CodeWord} (hl : l < 5) (h : (d.link l).discard = false ∨ cw.start = true) :
    ∃ e, d.codeWord l cw = (e, true) ∧ Arrived d e ∧ (d.link l).SameFlow (e.link l) := by
  have hcount : Arrived d (if cw.fixed = 0 then d else d.count (rLnkFecCorr l) cw.fixed.toNat) :=
    .ite (.refl d) (.count d _ (by simp only [rLnkFecCorr, rLnk]; omega) (by simp only [rLnkFecCorr, rLnk]; omega))
  have hlink : (if cw.fixed = 0 then d else d.count (rLnkFecCorr l) cw.fixed.toNat).link l = d.link l := by split <;> rfl
  rw [Dev.codeWord]
  generalize (if cw.fixed = 0 then d else d.count (rLnkFecCorr l) cw.fixed.toNat) = e at hcount hlink
  rw [hlink]
  cases hdiscard : (d.link l).discard with
  | false => exact ⟨e, rfl, hcount, by rw [hlink]; exact ⟨rfl, rfl, rfl, rfl⟩⟩
  | true =>
    have hstart : cw.start = true := h.resolve_left (by rw [hdiscard]; decide)
    refine ⟨e.updLink l fun k => { k with discard := false }, by rw [hstart]; rfl, hcount.trans (.setLink e l _), ?_⟩
    rw [Dev.updLink, Dev.link_setLink, if_pos rfl, hlink]
    exact Link.sameFlow_clocked { d.link l with discard := false } e.clock

/-- The end of a packet's arrival: its credit returns, unless it is held, and an acknowledgement may go out (R404, R405). -/
def Dev.arrivalEnds (x : Dev × Bool) (l v : Nat) : Dev := (if x.2 then x.1 else x.1.giveCredit l v).ackDue l

/-- A management packet that arrives in its row acts on the device as it arrived. -/
theorem Dev.packetRow_mgmt {d : Dev} {l : Fin 5} {cw : CodeWord} {hdr : BitVec 256} {data : Line} {p : Packet} {sub : Nat}
    (h : NextMgmt d l cw hdr data p sub) : ∃ e v, Arrived d e ∧
      d.packetRow l cw hdr data (isMgmt sub) = Dev.arrivalEnds (e.onMgmt l p) l v := by
  obtain ⟨⟨hlive, hup, hread, hparse, hcredit⟩, hpeer, htype, hsub, hdst⟩ := h
  obtain ⟨e, hword, harrived, hsame⟩ := Dev.codeWord_read l.isLt hread
  obtain ⟨-, hseq, hgranted, hconsumed⟩ := hsame
  have hrow : isMgmt sub p = true := by simp [isMgmt, htype, hsub]
  have haccepted : Arrived d (e.setLink l ((e.link l).accept (packetVc p.typ) e.clock)) := harrived.trans (.setLink ..)
  rw [Dev.packetRow, hparse]
  dsimp only
  rw [hlive, hup, hrow, if_neg (by decide), hword]
  dsimp only
  rw [Dev.rxPacket]
  dsimp only
  rw [if_neg (by decide), if_neg (not_not.2 hseq.symm), if_neg (by rw [hgranted, hconsumed]; exact hcredit)]
  generalize e.setLink l ((e.link l).accept (packetVc p.typ) e.clock) = f at haccepted
  have hpeer' : (l : Nat) ≠ 4 := fun h => hpeer (Fin.ext h)
  have hhere : p.dst.toNat = f.gdev := by rw [Dev.gdev, haccepted.reg rGrpStat (.inr (by decide)), hdst, Dev.gdev]
  have hheard : Arrived f (if f.group.member && p.dev == f.group.founder && !f.isFounder then f.hear p.dev.toNat else f) :=
    .ite (.hear f _) (.refl f)
  refine ⟨_, packetVc p.typ, haccepted.trans hheard, ?_⟩
  rw [Dev.deliverPacket, if_neg hpeer', if_neg (not_not.2 hhere)]
  dsimp only
  rw [htype]
  rfl

/-- A reset of the device as a packet has arrived is a reset of the device (R464). -/
theorem Arrived.hasReset {d e : Dev} (h : Arrived d e) {cause : Nat} (retain : Bool) (hcause : cause < 9) :
    HasReset d (e.reset cause retain) cause d.afterReset := by
  have hcauses : e.reg rRstCause = d.reg rRstCause := h.reg _ (.inl (by decide))
  have hstat : e.reg rRstStat = d.reg rRstStat := h.reg _ (.inl (by decide))
  have hreset := Dev.reset_hasReset e cause retain hcause
  obtain ⟨⟨_, _, _, rfl⟩, -⟩ := h
  rw [Dev.afterReset, Dev.pinLow, hstat] at hreset
  rw [HasReset, hcauses] at hreset
  exact hreset

/-- A reset leaves no links, and an acknowledgement adds none. -/
theorem Dev.ackDue_reset (d : Dev) (cause : Nat) (retain : Bool) (l : Nat) : (d.reset cause retain).ackDue l = d.reset cause retain := rfl

/-- What a founder's reset request has to name to be obeyed (R466). -/
def Dev.Obeys (d : Dev) (p : Packet) : Prop :=
  d.sys.peerReset = true ∧ d.group.member = true ∧ d.group.founder = p.dev ∧ fieldAt p.data.toNat 0 8 = d.fuses.uid.toNat ∧
    fieldAt p.data.toNat 8 4 = 0x6440A5A5

theorem Arrived.obeys {d e : Dev} (h : Arrived d e) (p : Packet) : e.Obeys p ↔ d.Obeys p := by
  obtain ⟨⟨_, _, _, rfl⟩, -⟩ := h
  exact Iff.rfl

/-- A reset request on a peer link resets, or is reported (R466). -/
theorem Dev.onMgmt_resetReq {d : Dev} {l : Nat} {p : Packet} (hsub : p.arg.toNat % 256 = 0x0F) (hpeer : l ≠ 4) :
    (d.Obeys p → d.onMgmt l p = (d.reset cPeer false, true)) ∧
      (¬ d.Obeys p → d.onMgmt l p = (d.report 0x0A09 2 7 l 0 0, false)) := by
  have hcond : (d.sys.peerReset && ((l == 4 && d.twin.paired) || (d.group.member && d.group.founder.toNat == p.dev.toNat)) &&
      fieldAt p.data.toNat 0 8 == d.fuses.uid.toNat && fieldAt p.data.toNat 8 4 == 0x6440A5A5) = true ↔ d.Obeys p := by
    rw [beq_eq_false_iff_ne.2 hpeer]
    simp only [Bool.false_and, Bool.false_or, Bool.and_eq_true, beq_iff_eq, BitVec.toNat_inj, Dev.Obeys, and_assoc]
  rw [Dev.onMgmt, if_pos hsub, Dev.peerReset]
  exact ⟨fun h => if_pos (hcond.2 h), fun h => if_neg fun hyes => h (hcond.1 hyes)⟩

end Sys2Proof.Machine

namespace Sys2Proof.Proofs

open Sys2Proof.Machine Sys2Proof.Claims

/-- Settles O24: a WARM_RESET rests the channels before it resets; a request resets the device as its packet arrived. -/
theorem commandedResets : Obligations.CommandedResets := by
  unfold Obligations.CommandedResets
  refine fun s => ⟨fun n i c hstart hsem => ⟨fun hkey => ⟨?_, fun hquiet => ?_⟩, fun hkey => ?_⟩, fun l cw hdr data p h => ?_⟩
  · refine runs_live _ s _ (fun d => d.warmReset n i) rfl hstart.1 ?_
    rw [Dev.warmReset_resets (rowCmd_of_started hstart) hsem hkey]
    exact Dev.warm_resets s.dev.quiesce
  · obtain ⟨cs, hrested⟩ := Dev.quiesce_quiet hquiet
    refine runs_live _ s _ (fun d => d.warmReset n i) rfl hstart.1 ?_
    rw [Dev.warmReset_resets (rowCmd_of_started hstart) hsem hkey, hrested]
    exact ⟨Dev.hasReset_of_rested cWarm true (by decide), rfl, rfl, rfl⟩
  · obtain ⟨hn, hi⟩ := Dev.cmd_place hstart.2.1
    refine runs_live _ s _ (fun d => d.warmReset n i) rfl hstart.1 ?_
    rw [Dev.warmReset_refused (rowCmd_of_started hstart) hkey]
    exact ⟨ended_endCmd hstart.2.1 hn hi 2 0 0, rfl⟩
  · obtain ⟨e, v, harrived, heq⟩ := Dev.packetRow_mgmt h
    obtain ⟨-, hpeer, -, hsub, -⟩ := h
    obtain ⟨hyes, hno⟩ := Dev.onMgmt_resetReq (d := e) (l := l) hsub fun h => hpeer (Fin.ext h)
    refine ⟨fun hobeyed => ?_, fun hrefused => ?_⟩
    · refine runs_of _ s _ (fun d => d.packetRow l cw hdr data (isMgmt 0x0F)) rfl ?_
      rw [heq, hyes ((harrived.obeys p).2 hobeyed), Dev.arrivalEnds, if_pos rfl, Dev.ackDue_reset]
      exact ⟨harrived.hasReset false (by decide), rfl, harrived.mor⟩
    · refine runs_of _ s _ (fun d => d.packetRow l cw hdr data (isMgmt 0x0F)) rfl ?_
      rw [heq, hno fun hobeys => hrefused ((harrived.obeys p).1 hobeys), Dev.arrivalEnds, if_neg Bool.false_ne_true]
      have hends : Arrived (e.report 0x0A09 2 7 l 0 0) (((e.report 0x0A09 2 7 l 0 0).giveCredit l v).ackDue l) :=
        (Arrived.setLink _ l _).trans (.setLink _ l _)
      exact ⟨(Dev.settle_phase _).trans (congrArg Sys.phase (hends.sys.trans ((Dev.report_sys ..).trans harrived.sys))),
        hends.rings.trans ((Dev.report_rings ..).trans harrived.rings), hends.dram.trans ((Dev.report_dram ..).trans harrived.dram),
        hends.chans.trans ((Dev.report_chans ..).trans harrived.chans)⟩

end Sys2Proof.Proofs

/-! Proof of the statement about the address orders (R131 to R135). -/

namespace Sys2Proof.Machine

/-! ## Fields of numbers and the bank hash (R5, R133) -/

theorem bits_eq_div_mod (x hi lo : Nat) : bits x hi lo = x / 2 ^ lo % 2 ^ (hi + 1 - lo) := by
  rw [bits, Nat.shiftRight_eq_div_pow]

theorem bits_joined_high {x y : Nat} (hx : x < 8) (hy : y < 8) : bits (x * 8 + y) 5 3 = x := by
  rw [bits_eq_div_mod]
  omega

theorem bits_joined_low {x y : Nat} (hy : y < 8) : bits (x * 8 + y) 2 0 = y := by
  rw [bits_eq_div_mod]
  omega

/-- The bank hash of a row undoes itself (R133). -/
theorem hashBank_hashBank {b : Nat} (row : Nat) (hb : b < 64) : hashBank (hashBank b row) row = b := by
  have hlow : bits b 2 0 < 8 := bits_lt b 2 0
  have hhigh : bits b 5 3 ^^^ bits row 2 0 ^^^ bits row 5 3 < 2 ^ 3 :=
    Nat.xor_lt_two_pow (Nat.xor_lt_two_pow (bits_lt b 5 3) (bits_lt row 2 0)) (bits_lt row 5 3)
  have hcancel : bits b 5 3 ^^^ bits row 2 0 ^^^ bits row 5 3 ^^^ bits row 2 0 ^^^ bits row 5 3 = bits b 5 3 := by
    rw [Nat.xor_right_comm _ (bits row 5 3) (bits row 2 0), Nat.xor_xor_cancel_right, Nat.xor_xor_cancel_right]
  calc hashBank (hashBank b row) row
      = bits b 5 3 * 8 + bits b 2 0 := by
        rw [hashBank, hashBank, bits_joined_high hhigh hlow, bits_joined_low hlow, hcancel]
    _ = b := by
        rw [bits_eq_div_mod, bits_eq_div_mod]
        omega

/-! ## The four orders (R132, R133) -/

/-- A place that the DRAM has (R126). -/
def Place.valid (p : Place) : Prop := p.ch < 32 ∧ p.bank < 64 ∧ p.row < 32768 ∧ p.w < 16 ∧ p.byte < 64

section Orders

variable (g a : Nat)

theorem decodeAddr_order_valid {k : Nat} (hk : k < 4) : (decodeAddr (some k) g a).valid := by
  have hsmall := bits_lt a
  have hjoin (m : Nat) {x y : Nat} (hx : x < m) (hy : y < 4) : x * 4 + y < m * 4 := by omega
  interval_cases k
  · exact ⟨hsmall 12 8, hashBank_lt _ _, hsmall 35 21, hjoin 4 (hsmall 14 13) (hsmall 7 6), hsmall 5 0⟩
  · exact ⟨hsmall 35 31, hashBank_lt _ _, hsmall 30 16, hsmall 9 6, hsmall 5 0⟩
  · exact ⟨hjoin 8 (hsmall 35 33) (hsmall 9 8), hashBank_lt _ _, hsmall 32 18, hjoin 4 (hsmall 11 10) (hsmall 7 6), hsmall 5 0⟩
  · exact ⟨hsmall 35 31, hsmall 30 25, hsmall 24 10, hsmall 9 6, hsmall 5 0⟩

theorem encodeAddr_decodeAddr_order {k : Nat} (hk : k < 4) (ha : a < 2 ^ 36) :
    encodeAddr (some k) g (decodeAddr (some k) g a) = a := by
  interval_cases k
  · simp only [encodeAddr, decodeAddr, hashBank_hashBank (bits a 35 21) (bits_lt a 20 15)]
    simp only [bits_eq_div_mod]
    omega
  · simp only [encodeAddr, decodeAddr, hashBank_hashBank (bits a 30 16) (bits_lt a 15 10)]
    simp only [bits_eq_div_mod]
    omega
  · simp only [encodeAddr, decodeAddr, hashBank_hashBank (bits a 32 18) (bits_lt a 17 12)]
    simp only [bits_eq_div_mod]
    omega
  · simp only [encodeAddr, decodeAddr, bits_eq_div_mod]
    omega

variable {p : Place}

theorem encodeAddr_order_lt {k : Nat} (hk : k < 4) (hp : p.valid) : encodeAddr (some k) g p < 2 ^ 36 := by
  obtain ⟨hch, hbank, hrow, hw, hbyte⟩ := hp
  have hhash := hashBank_lt p.bank p.row
  interval_cases k <;> (simp only [encodeAddr]; omega)

theorem decodeAddr_encodeAddr_order {k : Nat} (hk : k < 4) (hp : p.valid) : decodeAddr (some k) g (encodeAddr (some k) g p) = p := by
  obtain ⟨ch, bank, row, w, byte⟩ := p
  obtain ⟨hch, hbank, hrow, hw, hbyte⟩ := hp
  dsimp only at hch hbank hrow hw hbyte
  obtain ⟨chHigh, chLow, hchLow, rfl⟩ : ∃ i j, j < 4 ∧ ch = 4 * i + j := ⟨ch / 4, ch % 4, by omega, by omega⟩
  obtain ⟨wHigh, wLow, hwLow, rfl⟩ : ∃ i j, j < 4 ∧ w = 4 * i + j := ⟨w / 4, w % 4, by omega, by omega⟩
  have hhash := hashBank_lt bank row
  have hback {b r : Nat} (hb : b = hashBank bank row) (hr : r = row) : hashBank b r = bank := by
    rw [hb, hr, hashBank_hashBank row hbank]
  have hhigh (i : Nat) {j : Nat} (hj : j < 4) : (4 * i + j) / 4 = i ∧ (4 * i + j) % 4 = j := by omega
  interval_cases k <;> simp only [decodeAddr, encodeAddr, bits_eq_div_mod, Place.mk.injEq, hhigh chHigh hchLow, hhigh wHigh hwLow]
  · exact ⟨by omega, hback (by omega) (by omega), by omega, by omega, by omega⟩
  · exact ⟨by omega, hback (by omega) (by omega), by omega, by omega, by omega⟩
  · exact ⟨by omega, hback (by omega) (by omega), by omega, by omega, by omega⟩
  · omega

end Orders

/-! ## Interleave mode (R134) -/

/-- The place of a byte address within a channel. -/
def placeAt (ch l : Nat) : Place :=
  { ch := ch, bank := l / 2 ^ 10 % 64, row := l / 2 ^ 16 % 32768, w := l / 2 ^ 6 % 16, byte := l % 64 }

/-- The byte address of a place within its channel. -/
def Place.offset (p : Place) : Nat := p.row * 2 ^ 16 + p.bank * 2 ^ 10 + p.w * 2 ^ 6 + p.byte

theorem offset_placeAt (ch : Nat) {l : Nat} (hl : l < 2 ^ 31) : (placeAt ch l).offset = l := by
  simp only [Place.offset, placeAt]
  omega

theorem placeAt_valid {ch : Nat} (hch : ch < 32) (l : Nat) : (placeAt ch l).valid :=
  ⟨hch, Nat.mod_lt _ (by decide), Nat.mod_lt _ (by decide), Nat.mod_lt _ (by decide), Nat.mod_lt _ (by decide)⟩

theorem placeAt_offset {p : Place} (hp : p.valid) : placeAt p.ch p.offset = p := by
  obtain ⟨ch, bank, row, w, byte⟩ := p
  obtain ⟨hch, hbank, hrow, hw, hbyte⟩ := hp
  dsimp only at hch hbank hrow hw hbyte
  simp only [placeAt, Place.offset, Place.mk.injEq, true_and]
  omega

theorem Place.offset_lt {p : Place} (hp : p.valid) : p.offset < 2 ^ 31 := by
  obtain ⟨hch, hbank, hrow, hw, hbyte⟩ := hp
  rw [Place.offset]
  omega

/-- Where a device address lies within its channel: a channel's granules of 2^g bytes stand 32 granules apart in the device. -/
def granuleOffset (g a : Nat) : Nat := a / 2 ^ g / 32 * 2 ^ g + a % 2 ^ g

/-- The device address of a byte address within a channel. -/
def granuleAddr (g ch l : Nat) : Nat := (l / 2 ^ g * 32 + ch) * 2 ^ g + l % 2 ^ g

section Granules

variable {g : Nat}

theorem granule_parts (q : Nat) {r : Nat} (hr : r < 2 ^ g) : (q * 2 ^ g + r) / 2 ^ g = q ∧ (q * 2 ^ g + r) % 2 ^ g = r := by
  rw [Nat.mul_comm, Nat.mul_add_div (Nat.two_pow_pos g), Nat.div_eq_of_lt hr, Nat.mul_add_mod, Nat.mod_eq_of_lt hr]
  exact ⟨rfl, rfl⟩

/-- A number below 2^n has n - g bits above its low g. -/
theorem div_two_pow_lt_iff {x n : Nat} (hg : g ≤ n) : x / 2 ^ g < 2 ^ (n - g) ↔ x < 2 ^ n := by
  rw [Nat.div_lt_iff_lt_mul (Nat.two_pow_pos g), ← Nat.pow_add, Nat.sub_add_cancel hg]

theorem granuleAddr_granuleOffset (a : Nat) : granuleAddr g (a / 2 ^ g % 32) (granuleOffset g a) = a := by
  obtain ⟨hdiv, hmod⟩ := granule_parts (g := g) (a / 2 ^ g / 32) (Nat.mod_lt a (Nat.two_pow_pos g))
  rw [granuleAddr, granuleOffset, hdiv, hmod, Nat.div_add_mod', Nat.div_add_mod']

theorem granuleAddr_parts {ch : Nat} (hch : ch < 32) (l : Nat) :
    granuleAddr g ch l / 2 ^ g % 32 = ch ∧ granuleOffset g (granuleAddr g ch l) = l := by
  obtain ⟨hdiv, hmod⟩ := granule_parts (g := g) (l / 2 ^ g * 32 + ch) (Nat.mod_lt l (Nat.two_pow_pos g))
  rw [granuleOffset, granuleAddr, hdiv, hmod, show (l / 2 ^ g * 32 + ch) / 32 = l / 2 ^ g by omega, Nat.div_add_mod']
  omega

theorem granuleOffset_lt {a : Nat} (hg : g ≤ 31) (ha : a < 2 ^ 36) : granuleOffset g a < 2 ^ 31 := by
  have hall := (div_two_pow_lt_iff (show g ≤ 36 by omega)).2 ha
  rw [← div_two_pow_lt_iff hg, granuleOffset, (granule_parts _ (Nat.mod_lt a (Nat.two_pow_pos g))).1]
  rw [show 36 - g = 31 - g + 5 by omega, Nat.pow_add] at hall
  omega

theorem granuleAddr_lt {ch l : Nat} (hg : g ≤ 31) (hch : ch < 32) (hl : l < 2 ^ 31) : granuleAddr g ch l < 2 ^ 36 := by
  have hall := (div_two_pow_lt_iff hg).2 hl
  rw [← div_two_pow_lt_iff (show g ≤ 36 by omega), granuleAddr, (granule_parts _ (Nat.mod_lt l (Nat.two_pow_pos g))).1]
  rw [show 36 - g = 31 - g + 5 by omega, Nat.pow_add]
  omega

end Granules

theorem decodeAddr_interleaved {g a : Nat} (hlow : 8 ≤ g) (hhigh : g ≤ 21) (ha : a < 2 ^ 36) :
    decodeAddr none g a = placeAt (a / 2 ^ g % 32) (granuleOffset g a) := by
  have hall := (div_two_pow_lt_iff (show g ≤ 36 by omega)).2 ha
  have hhighBits : bits a 35 (g + 5) = a / 2 ^ g / 32 := by
    rw [bits_eq_div_mod, Nat.pow_add, ← Nat.div_div_eq_div_mul]
    rw [show 36 - g = 31 - g + 5 by omega, Nat.pow_add] at hall
    rw [show 35 + 1 - (g + 5) = 31 - g by omega, Nat.mod_eq_of_lt (by omega)]
  have hlowBits : bits a (g - 1) 0 = a % 2 ^ g := by
    rw [bits_eq_div_mod, show g - 1 + 1 - 0 = g by omega, Nat.pow_zero, Nat.div_one]
  have hbyte : bits a 5 0 = granuleOffset g a % 64 := by
    have hdvd : 64 ∣ 2 ^ g := Nat.pow_dvd_pow 2 (show 6 ≤ g by omega)
    rw [granuleOffset, Nat.add_mod, Nat.mod_eq_zero_of_dvd (hdvd.mul_left _), Nat.mod_mod_of_dvd a hdvd, bits_eq_div_mod]
    omega
  have hch : bits a (g + 4) g = a / 2 ^ g % 32 := by rw [bits_eq_div_mod, show g + 4 + 1 - g = 5 by omega]; rfl
  simp only [decodeAddr, hhighBits, hlowBits, hbyte, hch, if_neg (show g ≠ 0 by omega)]
  rw [← granuleOffset]
  simp only [bits_eq_div_mod]
  rfl

theorem encodeAddr_interleaved (g : Nat) (p : Place) : encodeAddr none g p = granuleAddr g p.ch p.offset := by
  simp only [encodeAddr, granuleAddr, Place.offset, Nat.pow_add]
  ring

end Sys2Proof.Machine

namespace Sys2Proof.Proofs

open Sys2Proof.Machine Sys2Proof.Claims

/-- Settles O56: the four orders by their fields, whose bank hash undoes itself; interleave mode by granules. -/
theorem addressOrdersAreBijections : Obligations.AddressOrdersAreBijections := by
  unfold Obligations.AddressOrdersAreBijections
  intro ord g hord hlow hhigh
  cases ord with
  | none =>
    refine ⟨fun a ha => ?_, fun p hch hbank hrow hw hbyte => ?_⟩
    · have hl := granuleOffset_lt (show g ≤ 31 by omega) ha
      obtain ⟨hch, hbank, hrow, hw, hbyte⟩ := placeAt_valid (Nat.mod_lt (a / 2 ^ g) (show 0 < 32 by decide)) (granuleOffset g a)
      rw [decodeAddr_interleaved hlow hhigh ha]
      refine ⟨hch, hbank, hrow, hw, hbyte, ?_⟩
      rw [encodeAddr_interleaved, offset_placeAt _ hl]
      exact granuleAddr_granuleOffset a
    · have hp : p.valid := ⟨hch, hbank, hrow, hw, hbyte⟩
      have ha := granuleAddr_lt (show g ≤ 31 by omega) hch (Place.offset_lt hp)
      obtain ⟨hback, hoff⟩ := granuleAddr_parts hch p.offset
      rw [encodeAddr_interleaved, decodeAddr_interleaved hlow hhigh ha, hback, hoff]
      exact ⟨ha, placeAt_offset hp⟩
  | some k =>
    have hk : k < 4 := hord k rfl
    refine ⟨fun a ha => ?_, fun p hch hbank hrow hw hbyte => ?_⟩
    · obtain ⟨hch, hbank, hrow, hw, hbyte⟩ := decodeAddr_order_valid g a hk
      exact ⟨hch, hbank, hrow, hw, hbyte, encodeAddr_decodeAddr_order g a hk ha⟩
    · have hp : p.valid := ⟨hch, hbank, hrow, hw, hbyte⟩
      exact ⟨encodeAddr_order_lt g hk hp, decodeAddr_encodeAddr_order g hk hp⟩

end Sys2Proof.Proofs

/-! Proofs of the statements about channels (R126 to R167). -/

/-! ## Channels, banks and registers under the named updates -/

namespace Sys2Proof.Machine

@[simp] theorem Dev.chan_updChan (d : Dev) (c k : Nat) (f : Chan → Chan) :
    (d.updChan c f).chan k = if k = c then f (d.chan c) else d.chan k :=
  Dev.chan_setChan ..

/-- What an update of a channel leaves of it, it leaves of every channel. -/
theorem Dev.chan_updChan_of {α : Type} (g : Chan → α) (d : Dev) (c k : Nat) {f : Chan → Chan} (hf : ∀ x, g (f x) = g x) :
    g ((d.updChan c f).chan k) = g (d.chan k) := by
  rw [Dev.chan_updChan]
  split
  · next h => rw [hf, h]
  · rfl

@[simp] theorem Dev.chan_freshId (d : Dev) (c k : Nat) :
    (d.freshId c).2.chan k = if k = c then { d.chan c with nextId := (d.chan c).nextId + 1 } else d.chan k :=
  Dev.chan_setChan ..

end Sys2Proof.Machine

/-! ## Reads that a port takes (R137, R142) -/

namespace Sys2Proof.Machine

open Sys2Proof.Claims

/-- The scheduler's entry for the one word that a read names. -/
def PortReq.entry (r : PortReq) (port : Fin 5) (n id : Nat) : SchedReq :=
  { id := id, origin := r.origin, port := port, cls := r.cls, promoted := r.promoted, word := n, index := 0, field := r.field
    since := r.since, arr := r.arr }

section

variable {d : Dev} {c n : Nat} {r : PortReq} (port : Fin 5) (hwords : r.words = [n]) (hrec : ∀ v ∈ (d.chan c).recovery, v.word ≠ n)
  (hbuf : d.buffered n = none)

include hwords hrec hbuf

theorem Dev.enqueueReads_one : d.enqueueReads c r port =
    (d.freshId c).2.updChan c fun ch => { ch with reqs := ch.reqs ++ [r.entry port n (d.chan c).nextId] } := by
  have hnone : ((d.freshId c).2.chan c).recovery.any (fun v => v.word == n) = false := by
    simpa using hrec
  have hbuf' : ((d.freshId c).2.buffered n).isSome = false := by rw [Dev.buffered_freshId, hbuf]; rfl
  simp only [Dev.enqueueReads, hwords, List.zipIdx_cons, List.zipIdx_nil, List.foldl_cons, List.foldl_nil, hnone, hbuf',
    Bool.false_eq_true, if_false]
  rfl

/-- A read of one word that is neither buffered nor in recovery becomes an entry of its channel's scheduler, and changes nothing else. -/
theorem Dev.enqueueReads_spec : let d' := d.enqueueReads c r port
    d'.chan c = { d.chan c with nextId := (d.chan c).nextId + 1, reqs := (d.chan c).reqs ++ [r.entry port n (d.chan c).nextId] } ∧
      (∀ k, k ≠ c → d'.chan k = d.chan k) ∧ ∃ chans, d' = { d with chans := chans } := by
  rw [Dev.enqueueReads_one port hwords hrec hbuf]
  exact ⟨by simp, fun k hk => by simp [hk], _, rfl⟩

end

/-- The buffer of a channel decides what of its words is buffered. -/
theorem Dev.buffered_of_wbuf {d e : Dev} {n : Nat} (h : (e.chan (wordPlace n).ch).wbuf = (d.chan (wordPlace n).ch).wbuf) :
    e.buffered n = d.buffered n := by
  rw [Dev.buffered, h, Dev.buffered]

end Sys2Proof.Machine

/-! ## The drift port (R26, R137, R148, R149) -/

namespace Sys2Proof.Machine

/-- The device once the drift port has taken the first request of its fabric. -/
def Dev.driftTaken (d : Dev) (c : Nat) (rest : List PortReq) : Dev :=
  d.updChan c fun ch => { ch with driftIn := rest, idleFrom := none }

section Drift

variable {d : Dev} {c : Nat} {r : PortReq} {rest : List PortReq} (hqueue : (d.chan c).driftIn = r :: rest)
  (hfirst : ∀ x ∈ rest, x.origin.same r.origin = true → r.arr ≤ x.arr) (hfrost : d.permafrost = false)
  (hheld : d.regionHeld r.addr.toNat = false) (hdown : (d.chan c).down = false)

include hqueue hfirst hfrost hheld hdown

theorem Dev.takeDrift_eq (htakes : (if r.write then !d.writeWaits r else decide (d.portLoad c 1 < 256)) = true) :
    d.takeDrift c = if r.write then (d.driftTaken c rest).driftWrite c { r with since := d.clock }
      else (d.driftTaken c rest).enqueueReads c { r with since := d.clock } 1 := by
  have hall : ((d.chan c).driftIn.any fun x => x.origin.same r.origin && decide (x.arr < r.arr)) = false := by
    simpa [hqueue] using hfirst
  have hpos (p : PortReq → Bool) (hp : p r = true) : findPos p (d.chan c).driftIn 0 = some (0, r) := by
    rw [hqueue, findPos, if_pos hp]
  have htaken : (d.updChan c fun ch => { ch with driftIn := dropAt ch.driftIn 0, idleFrom := none }) = d.driftTaken c rest := by
    rw [Dev.driftTaken, Dev.updChan, Dev.updChan, hqueue, dropAt]
  have htakes' : d.driftTakes c r = true := by
    rw [Dev.driftTakes, hheld, hdown]
    simpa using htakes
  have hdown' : ((d.driftTaken c rest).chan c).down = false := by simpa [Dev.driftTaken] using hdown
  rw [Dev.takeDrift, hfrost, if_neg Bool.false_ne_true]
  dsimp only
  rw [hpos _ (by simp only [hall, htakes', Bool.not_false, Bool.and_self])]
  dsimp only
  rw [htaken, hdown', if_neg (c := false = true) Bool.false_ne_true]
  rfl

end Drift

/-- A write of one whole word, of good data, that keeps no bits. -/
structure WordWrite.Whole (w : WordWrite) (n : Nat) (x : Line) : Prop where
  word : w.word = n
  data : w.data = x
  mask : w.mask = BitVec.allOnes 64
  keep : w.keep = 0
  poison : w.poison = false

theorem PortReq.writes_whole {r : PortReq} {n : Nat} {x : Line} (port : Fin 5) (hwords : r.words = [n]) (hdata : r.data = [x])
    (hmasked : r.masked = false) (hkeep : r.keep = 0) (hpoison : r.poison = false) : ∃ w, r.writes port = [w] ∧ w.Whole n x := by
  rw [PortReq.writes, hwords, hdata, hmasked]
  exact ⟨_, rfl, rfl, rfl, rfl, hkeep, hpoison⟩

theorem Dev.writeWord_whole_snd (d : Dev) {w : WordWrite} {n : Nat} {x : Line} (h : w.Whole n x) : (d.writeWord w).2 = false := by
  have hmask : w.mask ≠ 0 := by rw [h.mask]; decide
  rw [Dev.writeWord, if_neg hmask]
  dsimp only
  rw [h.mask, h.keep, mergeWord_whole]

theorem Dev.stored_whole (d : Dev) {w : WordWrite} {n : Nat} {x : Line} (h : w.Whole n x) :
    Stored d (d.writeWord w).1 n x (BitVec.allOnes 64) false := by
  have hstored := d.stored_writeWord w (by rw [h.mask]; decide) h.keep
  rwa [h.word, h.data, h.mask, h.poison] at hstored

theorem Dev.driftIn_bufferWord (d : Dev) (b : BufWord) (c : Nat) : ((d.bufferWord b).chan c).driftIn = (d.chan c).driftIn := by
  rw [Dev.bufferWord, Dev.chan_updChan_of Chan.driftIn, Dev.dropRepair, Dev.chan_updChan_of Chan.driftIn]
  · intro x
    rfl
  · intro x
    split <;> rfl

theorem Dev.driftIn_writeWord (d : Dev) (w : WordWrite) (hmask : w.mask ≠ 0) (c : Nat) :
    ((d.writeWord w).1.chan c).driftIn = (d.chan c).driftIn := by
  obtain ⟨e, hside, heq⟩ := d.writeWord_eq w hmask
  rw [heq, Dev.driftIn_bufferWord, Dev.freshId, ← hside.chan c]
  exact Dev.chan_updChan_of (f := fun x => { x with nextId := x.nextId + 1 }) Chan.driftIn e _ c fun _ => rfl

/-- A whole word that a floe stores is written and acknowledged, and leaves no mark. -/
theorem Dev.driftWrite_whole {d : Dev} {c n : Nat} {r : PortReq} {f : BitVec 7} {e cmd : Nat} {x : Line}
    (horigin : r.origin = .floe f e cmd)
    (hdown : (d.chan c).down = false) (hwords : r.words = [n]) (hdata : r.data = [x]) (hmasked : r.masked = false) (hkeep : r.keep = 0)
    (hpoison : r.poison = false) :
    ∃ w, w.Whole n x ∧ d.driftWrite c r = (d.writeWord w).1.engineAnswer f e cmd r.addr.toNat none := by
  obtain ⟨w, hw, hwhole⟩ := r.writes_whole 1 hwords hdata hmasked hkeep hpoison
  have hwrite : d.performWrite r 1 = ((d.writeWord w).1, false) := by
    have hbad := d.writeWord_whole_snd hwhole
    simp only [Dev.performWrite, hw, List.foldl_cons, List.foldl_nil, hbad, Bool.or_self]
  refine ⟨w, hwhole, ?_⟩
  simp only [Dev.driftWrite, horigin, hdown, hwrite, hpoison, Bool.or_self, Bool.false_eq_true, if_false]

/-- The engine's entry is free once its write has been acknowledged. -/
theorem Dev.engineAnswer_spec {d : Dev} (f : BitVec 7) (e cmd addr : Nat) : let d' := d.engineAnswer f e cmd addr none
    d'.dram = d.dram ∧ d'.chans = d.chans ∧ ∀ p, d.slotOf f.toNat = some p → e < 6 → (d.floe p).engines.length = 6 →
      (d'.floe p).engines[e]? = ((d.floe p).engines[e]?).map (·.map fun y =>
        if y.number = cmd then { y with words := y.words.erase addr } else y) := by
  rw [Dev.engineAnswer]
  cases hslot : d.slotOf f.toNat with
  | none => exact ⟨rfl, rfl, fun p hp => by cases hp⟩
  | some q =>
    refine ⟨rfl, rfl, fun p hp he hlen => ?_⟩
    cases hp
    have hsome : (d.floe q).engines[e]? = some (d.floe q).engines[e] := List.getElem?_eq_getElem (by omega)
    simp [Dev.updFloe, setAt, he, hsome]

section Drift

variable {d : Dev} {c n : Nat} {r : PortReq} {rest : List PortReq} {f : BitVec 7} {e cmd : Nat} (hqueue : (d.chan c).driftIn = r :: rest)
  (horigin : r.origin = .floe f e cmd) (hwords : r.words = [n]) (hch : (wordPlace n).ch = c)
  (hfirst : ∀ x ∈ rest, x.origin.same r.origin = true → r.arr ≤ x.arr) (hfrost : d.permafrost = false)
  (hheld : d.regionHeld r.addr.toNat = false) (hdown : (d.chan c).down = false)

include hqueue hwords hch hfirst hfrost hheld hdown

theorem Dev.takeDrift_read (hread : r.write = false) (hbuf : d.buffered n = none) (hrec : ∀ v ∈ (d.chan c).recovery, v.word ≠ n)
    (hroom : d.portLoad c 1 < 256) : let d' := d.takeDrift c
    (d'.chan c).driftIn = rest ∧
      (d'.chan c).reqs = (d.chan c).reqs ++ [({ r with since := d.clock } : PortReq).entry 1 n (d.chan c).nextId] ∧
      (d'.chan c).wbuf = (d.chan c).wbuf ∧ (∀ k, k ≠ c → d'.chan k = d.chan k) ∧ ∃ chans, d' = { d with chans := chans } := by
  have htaken : (d.driftTaken c rest).chan c = { d.chan c with driftIn := rest, idleFrom := none } := by simp [Dev.driftTaken]
  have hbuf' : (d.driftTaken c rest).buffered n = none := by
    rw [← hbuf]
    exact Dev.buffered_of_wbuf (by rw [hch, htaken])
  obtain ⟨hchan, hothers, chans, hdev⟩ := Dev.enqueueReads_spec (d := d.driftTaken c rest) (c := c) (r := { r with since := d.clock }) 1
    hwords (by rwa [htaken]) hbuf'
  rw [Dev.takeDrift_eq hqueue hfirst hfrost hheld hdown (by simpa [hread] using hroom), if_neg (by simp [hread])]
  dsimp only
  rw [htaken] at hchan
  rw [hchan]
  refine ⟨rfl, rfl, rfl, fun k hk => (hothers k hk).trans ?_, chans, hdev⟩
  simp [Dev.driftTaken, hk]

include horigin

omit hch in
theorem Dev.takeDrift_write {x : Line} (hwrite : r.write = true) (hmasked : r.masked = false) (hkeep : r.keep = 0)
    (hpoison : r.poison = false) (hdata : r.data = [x]) (hroom : d.writeWaits r = false) : let d' := d.takeDrift c
    (d'.chan c).driftIn = rest ∧ (d'.seen n).data = x ∧ (d'.seen n).poison = false ∧ d'.dram = d.dram ∧
      ∀ p, d.slotOf f.toNat = some p → e < 6 → (d.floe p).engines.length = 6 →
        (d'.floe p).engines[e]? = ((d.floe p).engines[e]?).map (·.map fun y =>
          if y.number = cmd then { y with words := y.words.erase r.addr.toNat } else y) := by
  have hdown' : ((d.driftTaken c rest).chan c).down = false := by simpa [Dev.driftTaken] using hdown
  obtain ⟨w, hwhole, heq⟩ := Dev.driftWrite_whole (d := d.driftTaken c rest) (r := { r with since := d.clock }) horigin hdown' hwords
    hdata hmasked hkeep hpoison
  have hstored := (d.driftTaken c rest).stored_whole hwhole
  have hfloe := hstored.floe
  have hslot := Dev.slotOf_congr hstored.floes f.toNat
  obtain ⟨hdata', hpoison'⟩ := hstored.seen_whole
  rw [Dev.takeDrift_eq hqueue hfirst hfrost hheld hdown (by simpa [hwrite] using hroom), if_pos hwrite, heq]
  dsimp only
  obtain ⟨hdram, hchans, hengine⟩ := Dev.engineAnswer_spec (d := ((d.driftTaken c rest).writeWord w).1) f e cmd r.addr.toNat
  have hseen := Dev.seen_congr (n := n) (by rw [Dev.buffered, Dev.chan, hchans]; rfl) hdram
  rw [hseen, hdram, Dev.chan, hchans]
  refine ⟨?_, hdata', hpoison', hstored.dram, fun p hp he hlen => ?_⟩
  · have hkept := (d.driftTaken c rest).driftIn_writeWord w (by rw [hwhole.mask]; decide) c
    exact hkept.trans (by simp [Dev.driftTaken])
  · have hres := hengine p (hslot.trans hp) he (by rw [hfloe]; exact hlen)
    rwa [hfloe] at hres

end Drift

end Sys2Proof.Machine

/-! ## The host port and the peer port (R73, R137, R138) -/

namespace Sys2Proof.Machine

/-- The device once the peer port has taken its next request, whose link has its credit back. -/
def Dev.peerTaken (d : Dev) (c : Nat) (rest : List PortReq) (link : Option Nat) : Dev :=
  let e := d.setChan c { d.chan c with peerIn := rest, idleFrom := none }
  link.elim e fun l => e.giveCredit l 0

theorem Dev.peerTaken_spec (d : Dev) (c : Nat) (rest : List PortReq) (link : Option Nat) : let e := d.peerTaken c rest link
    e.chan c = { d.chan c with peerIn := rest, idleFrom := none } ∧ e.dram = d.dram ∧ e.clock = d.clock := by
  have htaken := (d.chan_setChan c c { d.chan c with peerIn := rest, idleFrom := none }).trans (if_pos rfl)
  cases link <;> exact ⟨htaken, rfl, rfl⟩

section Reads

variable {d : Dev} {c n : Nat} {r : PortReq} {rest : List PortReq} (hread : r.write = false) (hwords : r.words = [n])
  (hch : (wordPlace n).ch = c) (hheld : d.regionHeld r.addr.toNat = false) (hdown : (d.chan c).down = false)
  (hrec : ∀ v ∈ (d.chan c).recovery, v.word ≠ n) (hbuf : d.buffered n = none)

include hread hwords hch hheld hdown hrec hbuf

theorem Dev.takeHost_read (hqueue : (d.chan c).hostIn = r :: rest) : let d' := d.takeHost c
    (d'.chan c).hostIn = rest ∧ (d'.chan c).reqs = (d.chan c).reqs ++ [r.entry 0 n (d.chan c).nextId] ∧ d'.dram = d.dram := by
  let e := (d.setChan c { d.chan c with hostIn := rest }).freeCredits (d.creditPort c) 1 0
  have heq : d.takeHost c = e.enqueueReads c r 0 := by
    simp only [Dev.takeHost, hqueue, hheld, hread, hdown, Bool.false_and, Bool.false_eq_true, if_false, e]
  have htaken : e.chan c = { d.chan c with hostIn := rest } := (d.chan_setChan c c _).trans (if_pos rfl)
  have hbuf' : e.buffered n = none := by
    rw [← hbuf]
    exact Dev.buffered_of_wbuf (by rw [hch, htaken])
  obtain ⟨hchan, -, chans, hdev⟩ := Dev.enqueueReads_spec (d := e) 0 hwords (by rwa [htaken]) hbuf'
  rw [htaken] at hchan
  rw [heq]
  dsimp only
  rw [hchan]
  exact ⟨rfl, rfl, by rw [hdev]; rfl⟩

theorem Dev.takePeer_read (hqueue : (d.chan c).peerIn = r :: rest) (hnone : d.twinHeld = []) (hroom : d.portLoad c 3 < 64) :
    let d' := d.takePeer c
    (d'.chan c).peerIn = rest ∧
      (d'.chan c).reqs = (d.chan c).reqs ++ [({ r with since := d.clock } : PortReq).entry 3 n (d.chan c).nextId] ∧ d'.dram = d.dram := by
  obtain ⟨htaken, hdram, hclock⟩ := d.peerTaken_spec c rest r.origin.link
  generalize he : d.peerTaken c rest r.origin.link = e at htaken hdram hclock
  have heq : d.takePeer c = e.enqueueReads c { r with since := d.clock } 3 := by
    have htwin : d.twinNext c = d := by rw [Dev.twinNext, hnone, findPos]
    have hfull : decide (64 ≤ d.portLoad c 3) = false := decide_eq_false (by omega)
    simp only [Dev.takePeer, htwin, hqueue, hheld, hread, hdown, hfull, Bool.false_and, Bool.and_false, Bool.false_eq_true, if_false]
    rw [← hclock, ← he]
    simp only [Dev.peerTaken, hdown]
    cases r.origin.link <;> rfl
  have hbuf' : e.buffered n = none := by
    rw [← hbuf]
    exact Dev.buffered_of_wbuf (by rw [hch, htaken])
  obtain ⟨hchan, -, chans, hdev⟩ := Dev.enqueueReads_spec (d := e) (r := { r with since := d.clock }) 3 hwords (by rwa [htaken]) hbuf'
  rw [htaken] at hchan
  rw [heq]
  dsimp only
  rw [hchan]
  exact ⟨rfl, rfl, by rw [hdev]; exact hdram⟩

end Reads

end Sys2Proof.Machine

namespace Sys2Proof.Proofs

open Sys2Proof.Machine Sys2Proof.Claims

/-- Settles O26: each port takes the request at its front, and a read of one word becomes one entry. -/
theorem channelRequests : Obligations.ChannelRequests := by
  unfold Obligations.ChannelRequests
  intro s c hlive
  refine ⟨fun r rest f e cmd w hqueue horigin hwords hch _ hfirst hheld hfrost hdown =>
    ⟨fun hread hbuf hrec hroom => ?_, fun x hwrite hmasked hkeep hpoison hdata hroom => ?_⟩, rfl,
    fun r rest n => ?_⟩
  · obtain ⟨hdrift, hreqs, hwbuf, hothers, chans, hdev⟩ :=
      Dev.takeDrift_read hqueue hwords hch hfirst hfrost hheld hdown hread hbuf hrec hroom
    refine runs_live _ s _ (fun d => d.portAccept c 1) rfl hlive ⟨hdrift, hreqs, hwbuf, hothers, ?_⟩
    change (s.dev.takeDrift c).settle = ({ s.dev with chans := (s.dev.takeDrift c).chans } : Dev).settle
    rw [hdev]
  · exact runs_live _ s _ (fun d => d.portAccept c 1) rfl hlive
      (Dev.takeDrift_write hqueue horigin hwords hfirst hfrost hheld hdown hwrite hmasked hkeep hpoison hdata hroom)
  · intro entry hread hwords hch hheld hdown hrec hbuf
    exact ⟨fun hqueue => runs_live _ s _ (fun d => d.portAccept c 0) rfl hlive
        (Dev.takeHost_read hread hwords hch hheld hdown hrec hbuf hqueue),
      fun hqueue hnone hroom => runs_live _ s _ (fun d => d.portAccept c 3) rfl hlive
        (Dev.takePeer_read hread hwords hch hheld hdown hrec hbuf hqueue hnone hroom)⟩

end Sys2Proof.Proofs

/-! Proof of the statement about the scheduler (R129, R142, R146). -/

/-! ## A slot with one class-0 request (R142, R146) -/

namespace Sys2Proof.Machine

open Sys2Proof.Claims

/-- No bank of the channel executes an NBO. -/
def Dev.NoExec (d : Dev) (c : Nat) : Prop := ∀ b, b < 64 → (d.bankNear c b).exec = none

theorem Dev.filter_exec {d : Dev} {c : Nat} (h : d.NoExec c) :
    ((List.range 64).filter fun b => (d.bankNear c b).exec.isSome) = [] := by
  rw [List.filter_eq_nil_iff]
  intro b hb
  rw [h b (List.mem_range.1 hb)]
  exact Bool.false_ne_true

/-- The scheduler's view of a read or a buffered word: one entry, of its class, bank and row. -/
structure Ent.Shows (x : Ent) (kind : EntKind) (cls : BitVec 2) (word : Nat) : Prop where
  kind : x.kind = kind
  cls : x.cls = cls
  bank : x.bank = (wordPlace word).bank
  row : x.row = (wordPlace word).row

theorem Dev.entries_read {d : Dev} {c : Nat} {r : SchedReq} (hreqs : (d.chan c).reqs = [r]) (hwbuf : (d.chan c).wbuf = [])
    (hexec : d.NoExec c) (horigin : r.origin ≠ .repair) : ∃ x, d.entries c = [x] ∧ x.Shows (.rd r.id) r.cls r.word := by
  rw [Dev.entries, hreqs, hwbuf]
  dsimp only
  rw [Dev.filter_exec hexec]
  simp only [List.filter_cons, List.any_cons, List.any_nil, lt_irrefl, decide_false, Bool.and_false, Bool.false_and, Bool.or_self,
    Bool.not_false, if_true, List.filter_nil, List.map_cons, List.map_nil, List.filterMap_nil, List.append_nil]
  exact ⟨_, rfl, by rw [if_neg (by simpa using horigin)], rfl, rfl, rfl⟩

theorem Dev.entries_write {d : Dev} {c : Nat} {b : BufWord} (hreqs : (d.chan c).reqs = []) (hwbuf : (d.chan c).wbuf = [b])
    (hexec : d.NoExec c) (hheld : b.held = []) (hrec : ∀ v ∈ (d.chan c).recovery, v.word ≠ b.word) :
    ∃ x, d.entries c = [x] ∧ x.Shows (.wr b.id) b.cls b.word := by
  have hnone : (d.chan c).recovery.any (fun v => v.word == b.word) = false := by simpa using hrec
  rw [Dev.entries, hreqs, hwbuf]
  dsimp only
  rw [Dev.filter_exec hexec]
  simp only [List.filter_cons, hnone, hheld, List.isEmpty_nil, Bool.not_false, Bool.and_self, if_true, List.filter_nil, List.map_cons,
    List.map_nil, List.filterMap_nil, List.append_nil, List.nil_append]
  exact ⟨_, rfl, rfl, rfl, rfl, rfl⟩

section Lone

variable {d : Dev} {c t : Nat} {x : Ent} (hcls : x.cls = 0) (hkind : x.kind ≠ .atom)

include hcls hkind

theorem Dev.canIssue_class0 {cmd : ChCmd} (h : d.timingOk c t cmd = true) : d.canIssue c t x cmd = true := by
  have hzero : x.class0 = true := by simp [Ent.class0, hcls]
  unfold Dev.canIssue
  rw [h]
  cases cmd with
  | activate b r => simp [hkind, hzero]
  | precharge b => rfl
  | column b w => rfl

/-- In a slot in which one class-0 request waits that is no atom, its next command issues when the timing allows. -/
theorem Dev.slotDecision_lone (hentries : d.entries c = [x]) (hfrost : d.permafrost = false)
    (htiming : d.timingOk c t (d.nextCmd c x) = true) : d.slotDecision c t = d.issueCmd c t x (d.nextCmd c x) := by
  have hzero : x.class0 = true := by simp [Ent.class0, hcls]
  have hcan := Dev.canIssue_class0 hcls hkind htiming
  have htokens : d.testTokens c t [x] = (d, [x]) := by
    rw [Dev.testTokens, if_pos (.inr (by simp [hkind]))]
  have hgo : d.class0Go c t [x] [] false = some (d.issueCmd c t x (d.nextCmd c x)) := by
    rw [Dev.class0Go]
    cases hcmd : d.nextCmd c x with
    | activate b r => simp [hcmd ▸ hcan, hkind]
    | precharge b => simp [hcmd ▸ hcan, hkind]
    | column b w => simp [hcmd ▸ hcan]
  have hsort : sortBy Ent.rankBefore ([x].filter Ent.class0) = [x] := by rw [List.filter_cons, if_pos hzero]; rfl
  rw [Dev.slotDecision, hentries, htokens]
  dsimp only
  rw [hsort, hfrost, if_neg Bool.false_ne_true, hgo]

end Lone

/-! ## A free slot (R146) -/

/-- The device once a slot has come in which its channel may issue. -/
def Dev.slotOpened (d : Dev) (c : Nat) : Dev :=
  let idle := d.channelIdle c
  d.updChan c fun ch => { ch with lastSlot := some d.clock, idleFrom := if idle then some (ch.idleFrom.getD d.clock) else none }

theorem Dev.slot_free {d : Dev} {c : Nat} (h : SlotFree d c)
    (hbuf : ∀ r ∈ (d.chan c).reqs, (d.buffered r.word).isSome = false) : d.slot c = (d.slotOpened c).slotDecision c d.clock := by
  obtain ⟨-, hready, hdown, hself, hpower, href, hpause, hretrain, hwake, hlast, -, -⟩ := h
  have hserve : (d.slotOpened c).serveBuffered c = d.slotOpened c := by
    have hsame (n : Nat) : (d.slotOpened c).buffered n = d.buffered n :=
      Dev.buffered_of_wbuf (Dev.chan_updChan_of Chan.wbuf d c _ fun _ => rfl)
    have hreqs : ((d.slotOpened c).chan c).reqs = (d.chan c).reqs := Dev.chan_updChan_of Chan.reqs d c c fun _ => rfl
    rw [Dev.serveBuffered, hreqs, List.filter_eq_nil_iff.2]
    · rfl
    · intro r hr
      simp [hsame, hbuf r hr]
  have hnow : d.advanceTo d.clock = d := if_pos le_rfl
  rw [← hserve]
  cases hl : (d.chan c).lastSlot with
  | none => simp [Dev.slot, Dev.slotOpened, hl, hnow, hready, hdown, hself, hpower, href, hpause, hretrain, hwake]
  | some l =>
    have hmax : max d.clock (l + 1) = d.clock := max_eq_left (Nat.succ_le_of_lt (hlast l hl))
    simp [Dev.slot, Dev.slotOpened, hl, hmax, hnow, hready, hdown, hself, hpower, href, hpause, hretrain, hwake]

/-- Opening a slot changes no bank and no time of a command. -/
theorem Dev.timingOk_slotOpened (d : Dev) (c t : Nat) (cmd : ChCmd) : (d.slotOpened c).timingOk c t cmd = d.timingOk c t cmd := by
  have hchan : (d.slotOpened c).chan c = { d.chan c with
      lastSlot := some d.clock, idleFrom := if d.channelIdle c then some ((d.chan c).idleFrom.getD d.clock) else none } :=
    (d.chan_updChan c c _).trans (if_pos rfl)
  unfold Dev.timingOk Dev.actOk Dev.bankFree
  rw [hchan]
  rfl

end Sys2Proof.Machine

/-! ## What each command does (R129, R146, R151, R159) -/

namespace Sys2Proof.Machine

@[simp] theorem Dev.chan_count (d : Dev) (o n k : Nat) : (d.count o n).chan k = d.chan k := rfl

@[simp] theorem Chan.bank_updBank (c : Chan) (b k : Nat) (f : Bank → Bank) :
    (c.updBank b f).bank k = if k = b then f (c.bank b) else c.bank k :=
  Chan.bank_setBank ..

theorem Chan.bank_congr {c c' : Chan} (h : c'.banks = c.banks) (b : Nat) : c'.bank b = c.bank b := by
  rw [Chan.bank, h, Chan.bank]

/-- Counting an activate changes the tables of its bank, and may force a refresh. -/
theorem Dev.onActivate_spec (d : Dev) (c b row : Nat) : let d' := d.onActivate c b row
    (∃ chans, d' = { d with chans := chans }) ∧ (d'.chan c).reqs = (d.chan c).reqs ∧
      ∃ acts events, (d'.chan c).bank b = { (d.chan c).bank b with acts := acts, events := events } := by
  obtain ⟨acts, events, forced, heq⟩ : ∃ acts events forced, d.onActivate c b row = d.setChan c
      { ((d.chan c).setBank b { (d.chan c).bank b with acts := acts, events := events }) with forced := forced } := ⟨_, _, _, rfl⟩
  rw [heq]
  dsimp only
  rw [Dev.chan_setChan, if_pos rfl]
  refine ⟨⟨_, rfl⟩, rfl, acts, events, ?_⟩
  exact (Chan.bank_congr (c := (d.chan c).setBank b { (d.chan c).bank b with acts := acts, events := events }) rfl b).trans
    ((Chan.bank_setBank ..).trans (if_pos rfl))

/-- A channel whose bank has been activated. -/
def Chan.activated (ch : Chan) (b row t : Nat) : Chan :=
  { (ch.updBank b fun k => { k with row := some row, lastAct := some t, idleFrom := some t, idleDue := false }) with
    lastActs := ((t, b) :: ch.lastActs).take 4 }

theorem Chan.bank_activated (ch : Chan) (b row t : Nat) : (ch.activated b row t).bank b =
    { ch.bank b with row := some row, lastAct := some t, idleFrom := some t, idleDue := false } := by
  exact (Chan.bank_congr (c := ch.updBank b fun k => { k with row := some row, lastAct := some t, idleFrom := some t, idleDue := false })
    rfl b).trans ((Chan.bank_updBank ..).trans (if_pos rfl))

/-- The device whose channel has activated a row, before the activate is counted in the bank's tables. -/
def Dev.activated (d : Dev) (c b row t : Nat) : Dev := (d.updChan c fun ch => ch.activated b row t).count (rChAct c) 1

theorem Dev.chan_activated (d : Dev) (c b row t : Nat) : (d.activated c b row t).chan c = (d.chan c).activated b row t :=
  (d.chan_updChan c c fun ch => ch.activated b row t).trans (if_pos rfl)

theorem Dev.issueAct_spec (d : Dev) (c b row t : Nat) : let d' := d.issueAct c b row t
    ((d'.chan c).bank b).row = some row ∧ ((d'.chan c).bank b).lastAct = some t ∧ (d'.chan c).reqs = (d.chan c).reqs ∧
      d'.reg64 (rChAct c) = d.reg64 (rChAct c) + 1 ∧ d'.dram = d.dram := by
  have hcount : (d.activated c b row t).reg64 (rChAct c) = d.reg64 (rChAct c) + 1 := Dev.reg64_count ..
  have heq : d.issueAct c b row t = (d.activated c b row t).onActivate c b row := rfl
  obtain ⟨⟨chans, hdev⟩, hreqs, acts, events, hbank⟩ := (d.activated c b row t).onActivate_spec c b row
  rw [Dev.chan_activated] at hreqs
  rw [Dev.chan_activated, Chan.bank_activated] at hbank
  dsimp only
  rw [heq, hbank, hreqs]
  exact ⟨rfl, rfl, rfl, by rw [hdev]; exact hcount, by rw [hdev]; rfl⟩

theorem Dev.issuePre_spec (d : Dev) (c b t : Nat) : let d' := d.issuePre c b t
    ((d'.chan c).bank b).row = none ∧ ((d'.chan c).bank b).lastPre = some t ∧ (d'.chan c).reqs = (d.chan c).reqs ∧
      d'.dram = d.dram := by
  have hchan : (d.issuePre c b t).chan c = (d.chan c).updBank b fun k =>
      { k with row := none, lastPre := some t, idleFrom := none, idleDue := false } := (d.chan_updChan c c _).trans (if_pos rfl)
  dsimp only
  rw [hchan, Chan.bank_updBank, if_pos rfl]
  exact ⟨rfl, rfl, rfl, rfl⟩

/-- A bank after a column command at `t`, which closes its row when the idle time is zero. -/
def Bank.columned (k : Bank) (zero : Bool) (t : Nat) (w : Bool) : Bank :=
  let k := { k with
    lastRd := if w then k.lastRd else some t, lastWr := if w then some t else k.lastWr, idleFrom := some t, idleDue := false }
  if zero then { k with row := none, lastPre := some k.preTime, idleFrom := none } else k

theorem Bank.row_columned (k : Bank) (zero : Bool) (t : Nat) (w : Bool) : (k.columned zero t w).row = if zero then none else k.row := by
  unfold Bank.columned
  cases zero <;> rfl

/-- What a column command leaves of its channel, and the row that its bank then holds. -/
theorem Dev.afterColumn_spec (d : Dev) (c b t : Nat) (w : Bool) : let d' := d.afterColumn c b t w
    (∃ chans, d' = { d with chans := chans }) ∧
      (∃ banks rds wrs, d'.chan c = { d.chan c with banks := banks, lastRds := rds, lastWrs := wrs }) ∧
      ((d'.chan c).bank b).row = if fld (d.reg (rChPage c)) 10 0 = 0 then none else ((d.chan c).bank b).row := by
  have hbank : (((d.chan c).updBank b fun k => k.columned (fld (d.reg (rChPage c)) 10 0 == 0) t w).bank b).row =
      if fld (d.reg (rChPage c)) 10 0 = 0 then none else ((d.chan c).bank b).row := by
    rw [Chan.bank_updBank, if_pos rfl, Bank.row_columned]
    exact ite_congr (by simp) (fun _ => rfl) fun _ => rfl
  have hchan : (d.afterColumn c b t w).chan c = _ := (d.chan_updChan c c _).trans (if_pos rfl)
  refine ⟨⟨_, rfl⟩, ?_, ?_⟩
  · rw [hchan]
    cases w <;> exact ⟨_, _, _, rfl⟩
  · rw [hchan, ← hbank]
    cases w <;> rfl

theorem Dev.share_spec (d : Dev) (c t : Nat) (f : Option (BitVec 4)) (n : Nat) : let d' := d.share c t f n
    (∃ chans, d' = { d with chans := chans }) ∧
      ∃ shares window, d'.chan c = { d.chan c with shares := shares, window := window } := by
  intro d'
  have hchan : d'.chan c = _ := (d.chan_updChan c c _).trans (if_pos rfl)
  refine ⟨⟨_, rfl⟩, ?_⟩
  rw [hchan]
  dsimp only
  split <;> split <;> exact ⟨_, _, rfl⟩

end Sys2Proof.Machine

/-! ## A read hands its word over (R129, R142, R149) -/

namespace Sys2Proof.Machine

/-- The notes of a read reach the log, the counters and the twin, and may queue a repair; the array, the banks and the words that
wait for the ports stay. -/
structure ReadNoted (d d' : Dev) : Prop extends Traffic d d' where
  dram : d'.dram = d.dram
  readyQ : ∀ c, (d'.chan c).readyQ = (d.chan c).readyQ
  banks : ∀ c, (d'.chan c).banks = (d.chan c).banks
  reqs : ∀ c, ∀ r ∈ (d'.chan c).reqs, r ∈ (d.chan c).reqs ∨ r.origin = .repair

namespace ReadNoted

theorem of_side {d d' : Dev} (h : SideTraffic d d') : ReadNoted d d' where
  toTraffic := h.toTraffic
  dram := h.dram
  readyQ c := by rw [h.chan]
  banks c := by rw [h.chan]
  reqs c r hr := .inl (h.chan c ▸ hr)

theorem refl (d : Dev) : ReadNoted d d := of_side (.refl d)

theorem trans {a b c : Dev} (h : ReadNoted a b) (k : ReadNoted b c) : ReadNoted a c where
  toTraffic := h.toTraffic.trans k.toTraffic
  dram := k.dram.trans h.dram
  readyQ n := (k.readyQ n).trans (h.readyQ n)
  banks n := (k.banks n).trans (h.banks n)
  reqs n r hr := (k.reqs n r hr).elim (h.reqs n r) .inr

theorem ite {p : Prop} {_ : Decidable p} {d x y : Dev} (h : ReadNoted d x) (k : ReadNoted d y) : ReadNoted d (if p then x else y) := by
  split <;> assumption

/-- A change of one channel's queue of requests that adds repairs only. -/
theorem updChan (d : Dev) (c : Nat) (f : Chan → Chan) (hdown : ∀ x, (f x).down = x.down) (hready : ∀ x, (f x).readyQ = x.readyQ)
    (hbanks : ∀ x, (f x).banks = x.banks) (hreqs : ∀ x, ∀ r ∈ (f x).reqs, r ∈ x.reqs ∨ r.origin = .repair) :
    ReadNoted d (d.updChan c f) where
  toTraffic := Traffic.updChan d c f hdown
  dram := rfl
  readyQ k := Dev.chan_updChan_of Chan.readyQ d c k hready
  banks k := Dev.chan_updChan_of Chan.banks d c k hbanks
  reqs k r hr := by
    rw [Dev.chan_updChan] at hr
    split at hr
    · next hk => exact hk ▸ hreqs _ r hr
    · exact .inl hr

theorem repairLater (d : Dev) (n : Nat) : ReadNoted d (d.repairLater n) := by
  have hid : ReadNoted d (d.freshId (wordPlace n).ch).2 :=
    updChan d _ (fun x => { x with nextId := x.nextId + 1 }) (fun _ => rfl) (fun _ => rfl) (fun _ => rfl) fun _ _ => .inl
  refine ite (refl d) (hid.trans (updChan _ _ _ (fun _ => rfl) (fun _ => rfl) (fun _ => rfl) fun x r hr => ?_))
  exact (List.mem_append.1 hr).imp id fun h => by rw [List.mem_singleton.1 h]

theorem noteRead (d : Dev) (n : Nat) (w : WordRead) (scrub : Bool) : ReadNoted d (d.noteRead n w scrub) := by
  have hce : 0x580000 ≤ rErrCe (wordPlace n).ch := by simp only [rErrCe]; omega
  have hue : 0x580000 ≤ rErrUe (wordPlace n).ch := by simp only [rErrUe, rErrCe]; omega
  have hcorrected : ReadNoted d (if w.corrected = 0 then d
      else ((d.count (rErrCe (wordPlace n).ch) w.corrected).report 0x0001 1 2 (n / 16 / 32768) (d.addrOf n) 0).repairLater n) :=
    ite (refl d) ((of_side ((SideTraffic.count d _ _ hce).trans (.report ..))).trans (repairLater ..))
  have huncorr (e : Dev) : ReadNoted e ((e.count (rErrUe (wordPlace n).ch) w.uncorr).report (if scrub then 0x0004 else 0x0002) 2 2
      (n / 16 / 32768) (d.addrOf n) 0) := of_side ((SideTraffic.count e _ _ hue).trans (.report ..))
  unfold Dev.noteRead
  exact ite hcorrected (hcorrected.trans (ite (huncorr _) ((huncorr _).trans ((of_side (.copyBroken ..)).trans (repairLater ..)))))

end ReadNoted

theorem Traffic.mirrored {d d' : Dev} (h : Traffic d d') {n : Nat} (hn : n < 2 ^ 30) : d'.mirrored n = d.mirrored n := by
  have hcfg := h.reg (rChCfg 0) ⟨by decide, by decide⟩
  have haddr : d'.addrOf n = d.addrOf n := by simp only [Dev.addrOf, Dev.order, Dev.intlvG, hcfg]
  rw [Dev.mirrored, haddr, h.region (d.addrOf_lt hn), Dev.mirrored]

/-- The word of a read as it waits for its port. -/
def SchedReq.ready (r : SchedReq) (data : Line) (poison : Bool) : ReadyWord :=
  { origin := r.origin, word := r.word, cls := r.cls, index := r.index, data := data, poison := poison, since := r.since }

theorem Dev.deliver_ready {r : SchedReq} (horigin : (∃ h, r.origin = .host h) ∨ ∃ n, r.origin = .fetch n) (d : Dev) (c : Nat)
    (data : Line) (poison : Bool) : d.deliver c r data poison = d.updChan c fun ch => { ch with readyQ := ch.readyQ ++ [r.ready data poison] } := by
  rw [Dev.deliver]
  obtain ⟨h, ho⟩ | ⟨n, ho⟩ := horigin <;> rw [ho, SchedReq.ready, ho]

theorem wordPlace_word_lt {n : Nat} (h : (wordPlace n).ch < 32) : n < 2 ^ 30 := by
  simp only [wordPlace] at h
  omega

/-- The device without a request that its channel has answered. -/
def Dev.withoutReq (d : Dev) (c id : Nat) : Dev := d.updChan c fun ch => { ch with reqs := ch.reqs.filter fun x => x.id != id }

theorem Dev.updChan_withoutReq (d : Dev) (c id : Nat) :
    (d.updChan c fun ch => { ch with reqs := ch.reqs.filter fun x => x.id != id }) = d.withoutReq c id := rfl

theorem Dev.chan_withoutReq_of {α : Type} (g : Chan → α) (d : Dev) (c id k : Nat) (hg : ∀ x q, g { x with reqs := q } = g x) :
    g ((d.withoutReq c id).chan k) = g (d.chan k) :=
  Dev.chan_updChan_of g d c k fun _ => hg ..

/-- A read of the host or of a fetch that meets a word it need not recover: the word waits for its port, the request is gone. -/
theorem Dev.readDone_spec {d : Dev} {c : Nat} {r : SchedReq} (horigin : (∃ h, r.origin = .host h) ∨ ∃ n, r.origin = .fetch n)
    (hch : (wordPlace r.word).ch < 32) (hbuf : d.buffered r.word = none) (hrec : ∀ v ∈ (d.chan c).recovery, v.word ≠ r.word)
    (hword : (d.dram.readWord r.word).uncorr = 0 ∨ d.mirrored r.word = false) : let d' := d.readDone c r
    (d'.chan c).readyQ = (d.chan c).readyQ ++ [r.ready (d.dram.readWord r.word).data (d.dram.readWord r.word).poison] ∧
      r ∉ (d'.chan c).reqs ∧ d'.dram = d.dram ∧ (d'.chan c).banks = (d.chan c).banks := by
  let w := d.dram.readWord r.word
  have hseen : (d.withoutReq c r.id).seen r.word = w := by
    have hnone : (d.withoutReq c r.id).buffered r.word = none :=
      (Dev.buffered_of_wbuf (Dev.chan_withoutReq_of Chan.wbuf d c r.id _ fun _ _ => rfl)).trans hbuf
    rw [Dev.seen, hnone]
    rfl
  have hquiet : (((d.withoutReq c r.id).chan c).recovery.any fun v => v.word == r.word) = false := by
    rw [Dev.chan_withoutReq_of Chan.recovery d c r.id c fun _ _ => rfl]
    simpa using hrec
  have hnoted : ReadNoted (d.withoutReq c r.id) ((d.withoutReq c r.id).noteRead r.word w false) := .noteRead ..
  have hkeep : ¬ (w.uncorr ≠ 0 ∧ ((d.withoutReq c r.id).noteRead r.word w false).mirrored r.word = true) := by
    rw [hnoted.mirrored (wordPlace_word_lt hch)]
    rintro ⟨hbad, hm⟩
    exact hword.elim hbad fun hno => Bool.false_ne_true (hno.symm.trans hm)
  have heq : d.readDone c r = ((d.withoutReq c r.id).noteRead r.word w false).updChan c
      fun ch => { ch with readyQ := ch.readyQ ++ [r.ready w.data w.poison] } := by
    have hscrub : (r.origin == .scrub) = false := by obtain ⟨h, ho⟩ | ⟨n, ho⟩ := horigin <;> rw [ho] <;> rfl
    rw [← Dev.deliver_ready horigin, Dev.readDone, Dev.updChan_withoutReq]
    dsimp only
    rw [hquiet, hseen, hscrub, if_neg Bool.false_ne_true]
    obtain ⟨h, ho⟩ | ⟨n, ho⟩ := horigin <;> rw [ho] <;> exact (if_neg Origin.noConfusion).trans (if_neg hkeep)
  dsimp only
  rw [heq, Dev.chan_updChan, if_pos rfl]
  refine ⟨?_, fun hmem => ?_, hnoted.dram, ?_⟩
  · exact congrArg (· ++ _) ((hnoted.readyQ c).trans (Dev.chan_withoutReq_of Chan.readyQ d c r.id c fun _ _ => rfl))
  · have hgone : ((d.withoutReq c r.id).chan c).reqs = (d.chan c).reqs.filter fun x => x.id != r.id := by
      rw [Dev.withoutReq, Dev.chan_updChan, if_pos rfl]
    obtain hold | hrepair := hnoted.reqs c r hmem
    · simp [hgone] at hold
    · obtain ⟨h, ho⟩ | ⟨n, ho⟩ := horigin <;> simp [ho] at hrepair
  · exact (hnoted.banks c).trans (Dev.chan_withoutReq_of Chan.banks d c r.id c fun _ _ => rfl)

end Sys2Proof.Machine

/-! ## Column commands of a lone request (R129, R146, R149) -/

namespace Sys2Proof.Machine

/-- What the column command leaves before its word moves: the channel's bank, its times and its shares have changed. -/
theorem Dev.columned_spec (d : Dev) (c b t : Nat) (w : Bool) (f : Option (BitVec 4)) : let d' := (d.afterColumn c b t w).share c t f 1
    (∃ chans, d' = { d with chans := chans }) ∧
      (∃ banks rds wrs shares window, d'.chan c =
        { d.chan c with banks := banks, lastRds := rds, lastWrs := wrs, shares := shares, window := window }) ∧
      ((d'.chan c).bank b).row = if fld (d.reg (rChPage c)) 10 0 = 0 then none else ((d.chan c).bank b).row := by
  obtain ⟨⟨chans, hdev⟩, ⟨banks, rds, wrs, hchan⟩, hrow⟩ := d.afterColumn_spec c b t w
  obtain ⟨⟨chans', hdev'⟩, shares, window, hchan'⟩ := (d.afterColumn c b t w).share_spec c t f 1
  refine ⟨⟨chans', by rw [hdev', hdev]⟩, ⟨banks, rds, wrs, shares, window, by rw [hchan', hchan]⟩, ?_⟩
  rw [← hrow, hchan']
  rfl

theorem Dev.issueColumn_read {d : Dev} {c t : Nat} {x : Ent} {r : SchedReq} (hkind : x.kind = .rd r.id) (hreqs : (d.chan c).reqs = [r])
    (hwbuf : (d.chan c).wbuf = []) (horigin : (∃ h, r.origin = .host h) ∨ ∃ n, r.origin = .fetch n) (hc : c < 32)
    (hch : (wordPlace r.word).ch = c) (hrec : ∀ v ∈ (d.chan c).recovery, v.word ≠ r.word)
    (hword : (d.dram.readWord r.word).uncorr = 0 ∨ d.mirrored r.word = false) : let d' := d.issueColumn c t x
    (d'.chan c).readyQ = (d.chan c).readyQ ++ [r.ready (d.dram.readWord r.word).data (d.dram.readWord r.word).poison] ∧
      r ∉ (d'.chan c).reqs ∧ d'.dram = d.dram ∧
      ((d'.chan c).bank x.bank).row = if fld (d.reg (rChPage c)) 10 0 = 0 then none else ((d.chan c).bank x.bank).row := by
  have hfind : (d.chan c).reqs.find? (fun q => q.id == r.id) = some r := by simp [hreqs]
  have heq : d.issueColumn c t x = ((d.afterColumn c x.bank t false).share c t x.field 1).readDone c r := by
    rw [Dev.issueColumn, hkind]
    dsimp only
    rw [hfind]
  obtain ⟨⟨chans, hdev⟩, ⟨banks, rds, wrs, shares, window, hchan⟩, hrow⟩ := d.columned_spec c x.bank t false x.field
  rw [heq]
  generalize (d.afterColumn c x.bank t false).share c t x.field 1 = e at hdev hchan hrow ⊢
  have hdram : e.dram = d.dram := by rw [hdev]
  have hbuf : e.buffered r.word = none := by rw [Dev.buffered, hch, hchan]; simp [hwbuf]
  have hmirror : e.mirrored r.word = d.mirrored r.word := by rw [hdev]; rfl
  obtain ⟨hready, hgone, hram, hbanks⟩ := Dev.readDone_spec horigin (hch ▸ hc) hbuf (c := c) (by rw [hchan]; exact hrec)
    (by rw [hdram, hmirror]; exact hword)
  rw [hdram] at hready hram
  rw [hchan] at hready
  exact ⟨hready, hgone, hram, (congrArg Bank.row (Chan.bank_congr hbanks x.bank)).trans hrow⟩

theorem Dev.sramRead_spec (d : Dev) (store unit : Nat) :
    (d.sramRead store unit).chans = d.chans ∧ (d.sramRead store unit).dram = d.dram := by
  unfold Dev.sramRead
  dsimp only
  split
  · exact ⟨Dev.report_chans .., Dev.report_dram ..⟩
  · exact ⟨rfl, rfl⟩

theorem Dev.issueColumn_write {d : Dev} {c t : Nat} {x : Ent} {b : BufWord} (hkind : x.kind = .wr b.id) (hwbuf : (d.chan c).wbuf = [b])
    (hmerge : b.whole = true ∨ d.mirrored b.word = false ∨ (d.dram.readWord b.word).uncorr = 0) : let d' := d.issueColumn c t x
    (d'.chan c).wbuf = [] ∧ d'.dram = d.dram.writeWord b.word (b.onto d.dram).1 (b.onto d.dram).2 := by
  have hfind : (d.chan c).wbuf.find? (fun q => q.id == b.id) = some b := by simp [hwbuf]
  have hgo : ¬ (b.whole = false ∧ d.mirrored b.word = true ∧ (d.dram.readWord b.word).uncorr ≠ 0) := by
    rintro ⟨hpart, hm, hbad⟩
    obtain h | h | h := hmerge
    · exact Bool.false_ne_true (hpart.symm.trans h)
    · exact Bool.false_ne_true (h.symm.trans hm)
    · exact hbad h
  have hnoted : SideTraffic d (if b.whole then d else d.noteMerge b.word (d.dram.readWord b.word)) := .ite (.refl d) (.noteMerge ..)
  dsimp only
  rw [Dev.issueColumn, hkind]
  dsimp only
  rw [hfind]
  dsimp only
  rw [if_neg hgo]
  generalize (if b.whole = true then d else d.noteMerge b.word (d.dram.readWord b.word)) = e at hnoted ⊢
  have hread := e.sramRead_spec 2 c
  generalize e.sramRead 2 c = e2 at hread ⊢
  have hreported : SideTraffic e2 (if b.ue then e2.report 0x000A 2 8 0 0 2 else e2) := .ite (.report ..) (.refl e2)
  generalize (if b.ue = true then e2.report 0x000A 2 8 0 0 2 else e2) = e3 at hreported ⊢
  have hchans : e3.chans = d.chans := hreported.chans.trans (hread.1.trans hnoted.chans)
  have hdram : e3.dram = d.dram := hreported.dram.trans (hread.2.trans hnoted.dram)
  let e4 : Dev := ({ e3 with dram := e3.dram.writeWord b.word (b.onto e3.dram).1 (b.onto e3.dram).2 } : Dev).updChan c
    fun ch => { ch with wbuf := ch.wbuf.filter fun x => x.id != b.id }
  have hempty : (e4.chan c).wbuf = [] := by
    have hchan : (e4.chan c).wbuf = (e3.chan c).wbuf.filter fun x => x.id != b.id :=
      congrArg Chan.wbuf ((Dev.chan_updChan ..).trans (if_pos rfl))
    have hsame : e3.chan c = d.chan c := by rw [Dev.chan, hchans, Dev.chan]
    simp [hchan, hsame, hwbuf]
  obtain ⟨⟨chans, hdev⟩, ⟨banks, rds, wrs, shares, window, hchan⟩, -⟩ :=
    (e4.updHost (e4.creditPort c) fun h => { h with wdFreed := h.wdFreed + b.hostWords }).columned_spec c x.bank t true x.field
  constructor
  · exact (congrArg Chan.wbuf hchan).trans hempty
  · rw [← hdram]
    exact congrArg Dev.dram hdev

end Sys2Proof.Machine

/-! ## The scheduler's slot (R129, R142, R146) -/

namespace Sys2Proof.Machine

open Sys2Proof.Claims

theorem Dev.chan_slotOpened_of {α : Type} (g : Chan → α) (d : Dev) (c : Nat)
    (hg : ∀ x l f, g { x with lastSlot := l, idleFrom := f } = g x) : g ((d.slotOpened c).chan c) = g (d.chan c) :=
  Dev.chan_updChan_of g d c c fun _ => hg ..

theorem Dev.bank_slotOpened (d : Dev) (c b : Nat) : ((d.slotOpened c).chan c).bank b = (d.chan c).bank b :=
  Dev.chan_slotOpened_of (fun ch => ch.bank b) d c fun _ _ _ => rfl

section NextCmd

variable {d : Dev} {c : Nat} {x : Ent}

theorem Dev.nextCmd_closed (h : ((d.chan c).bank x.bank).row = none) : d.nextCmd c x = .activate x.bank x.row := by
  rw [Dev.nextCmd, h]

theorem Dev.nextCmd_other {row : Nat} (h : ((d.chan c).bank x.bank).row = some row) (hrow : row ≠ x.row) :
    d.nextCmd c x = .precharge x.bank := by
  rw [Dev.nextCmd, h]
  exact if_neg fun hopen => hrow hopen.1

theorem Dev.nextCmd_open (h : ((d.chan c).bank x.bank).row = some x.row) (hatom : x.kind ≠ .atom) :
    ∃ w, d.nextCmd c x = .column x.bank w ∧ (w = false ↔ ∃ id, x.kind = .rd id) := by
  rw [Dev.nextCmd, h]
  refine ⟨_, if_pos ⟨rfl, hatom⟩, ?_⟩
  cases x.kind <;> simp

end NextCmd

section Slot

variable {d : Dev} {c : Nat} {x : Ent} {kind : EntKind} {word : Nat} (hfree : SlotFree d c)
  (hbuf : ∀ r ∈ (d.chan c).reqs, (d.buffered r.word).isSome = false) (hentries : (d.slotOpened c).entries c = [x])
  (hshows : x.Shows kind 0 word) (hatom : kind ≠ .atom)

include hfree hbuf hentries hshows hatom

/-- In a free slot the lone request's next command issues, once the timing allows it. -/
theorem Dev.slot_lone {cmd : ChCmd} (hnext : (d.slotOpened c).nextCmd c x = cmd) (htiming : d.timingOk c d.clock cmd = true) :
    d.slot c = (d.slotOpened c).issueCmd c d.clock x cmd := by
  obtain ⟨hkind, hcls, -, -⟩ := hshows
  obtain ⟨-, -, -, -, -, -, -, -, -, -, -, hfrost⟩ := id hfree
  rw [Dev.slot_free hfree hbuf, ← hnext]
  refine Dev.slotDecision_lone hcls (hkind ▸ hatom) hentries hfrost ?_
  rw [hnext, Dev.timingOk_slotOpened, htiming]

/-- The row of a closed bank is activated. -/
theorem Dev.slot_activate (hrow : ((d.chan c).bank (wordPlace word).bank).row = none)
    (htiming : d.timingOk c d.clock (.activate (wordPlace word).bank (wordPlace word).row) = true) : let d' := d.slot c
    ((d'.chan c).bank (wordPlace word).bank).row = some (wordPlace word).row ∧
      ((d'.chan c).bank (wordPlace word).bank).lastAct = some d.clock ∧ (d'.chan c).reqs = (d.chan c).reqs ∧
      d'.reg64 (rChAct c) = d.reg64 (rChAct c) + 1 ∧ d'.dram = d.dram := by
  obtain ⟨hkind, hcls, hbank, hxrow⟩ := id hshows
  have hnext : (d.slotOpened c).nextCmd c x = .activate (wordPlace word).bank (wordPlace word).row := by
    rw [← hbank, ← hxrow]
    exact Dev.nextCmd_closed (by rw [Dev.bank_slotOpened, hbank, hrow])
  have heq : d.slot c = (d.slotOpened c).issueAct c (wordPlace word).bank (wordPlace word).row d.clock := by
    have hzero : x.class0 = true := by simp [Ent.class0, hcls]
    rw [Dev.slot_lone hfree hbuf hentries hshows hatom hnext htiming]
    exact (if_pos hzero).trans (if_neg (hkind ▸ hatom))
  obtain ⟨hopen, hact, hreqs, hcount, hdram⟩ := (d.slotOpened c).issueAct_spec c (wordPlace word).bank (wordPlace word).row d.clock
  rw [heq]
  exact ⟨hopen, hact, hreqs.trans (Dev.chan_slotOpened_of Chan.reqs d c fun _ _ _ => rfl), hcount, hdram⟩

/-- The row that stands open in place of the request's is precharged. -/
theorem Dev.slot_precharge {row : Nat} (hrow : ((d.chan c).bank (wordPlace word).bank).row = some row)
    (hother : row ≠ (wordPlace word).row) (htiming : d.timingOk c d.clock (.precharge (wordPlace word).bank) = true) : let d' := d.slot c
    ((d'.chan c).bank (wordPlace word).bank).row = none ∧ ((d'.chan c).bank (wordPlace word).bank).lastPre = some d.clock ∧
      (d'.chan c).reqs = (d.chan c).reqs ∧ d'.dram = d.dram := by
  obtain ⟨-, -, hbank, hxrow⟩ := id hshows
  have hnext : (d.slotOpened c).nextCmd c x = .precharge (wordPlace word).bank := by
    rw [← hbank]
    exact Dev.nextCmd_other (by rw [Dev.bank_slotOpened, hbank, hrow]) (by rw [hxrow]; exact hother)
  obtain ⟨hclosed, hpre, hreqs, hdram⟩ := (d.slotOpened c).issuePre_spec c (wordPlace word).bank d.clock
  rw [Dev.slot_lone hfree hbuf hentries hshows hatom hnext htiming]
  exact ⟨hclosed, hpre, hreqs.trans (Dev.chan_slotOpened_of Chan.reqs d c fun _ _ _ => rfl), hdram⟩

/-- The request's own row stands open: its column command issues. -/
theorem Dev.slot_column {w : Bool} (hrow : ((d.chan c).bank (wordPlace word).bank).row = some (wordPlace word).row)
    (hw : w = false ↔ ∃ id, kind = .rd id) (htiming : d.timingOk c d.clock (.column (wordPlace word).bank w) = true) :
    d.slot c = (d.slotOpened c).issueColumn c d.clock x := by
  obtain ⟨hkind, -, hbank, hxrow⟩ := id hshows
  obtain ⟨w', hnext, hw'⟩ := Dev.nextCmd_open (d := d.slotOpened c) (c := c) (x := x)
    (by rw [Dev.bank_slotOpened, hbank, hxrow, hrow]) (hkind ▸ hatom)
  have hsame : w' = w := by
    have hiff : w' = false ↔ w = false := by rw [hw', hw, hkind]
    cases w <;> simpa using hiff
  rw [hsame, hbank] at hnext
  rw [Dev.slot_lone hfree hbuf hentries hshows hatom hnext htiming]
  rfl

end Slot

end Sys2Proof.Machine

namespace Sys2Proof.Proofs

open Sys2Proof.Machine Sys2Proof.Claims

/-- Settles O27: the lone entry's next command follows from the row that stands open in its bank. -/
theorem schedulerIssues : Obligations.SchedulerIssues := by
  unfold Obligations.SchedulerIssues
  intro s c hfree k t
  obtain ⟨hlive, -, -, -, -, -, -, -, -, -, hexec, -⟩ := id hfree
  have hreqsOf : ((s.dev.slotOpened c).chan c).reqs = k.reqs := Dev.chan_slotOpened_of Chan.reqs s.dev c fun _ _ _ => rfl
  have hwbufOf : ((s.dev.slotOpened c).chan c).wbuf = k.wbuf := Dev.chan_slotOpened_of Chan.wbuf s.dev c fun _ _ _ => rfl
  have hrecOf : ((s.dev.slotOpened c).chan c).recovery = k.recovery := Dev.chan_slotOpened_of Chan.recovery s.dev c fun _ _ _ => rfl
  refine ⟨fun r hreqs hwbuf hcls hch horigin hrec => ?_, fun b hreqs hwbuf hcls hheld hrec _ hmerge => ?_⟩
  · have hbuf : ∀ q ∈ k.reqs, (s.dev.buffered q.word).isSome = false := by
      intro q hq
      obtain rfl : q = r := by simpa [hreqs] using hq
      rw [Dev.buffered, hch, hwbuf]
      rfl
    have hrepair : r.origin ≠ .repair := by
      obtain ⟨h, ho⟩ | ⟨n, ho⟩ := horigin <;> rw [ho] <;> exact Origin.noConfusion
    obtain ⟨x, hentries, hshows⟩ := Dev.entries_read (d := s.dev.slotOpened c) (hreqsOf.trans hreqs) (hwbufOf.trans hwbuf) hexec hrepair
    rw [hcls] at hshows
    refine ⟨fun hrow htiming => ?_, fun y hrow hother htiming => ?_, fun hrow htiming hword => ?_⟩
    · rw [← hreqs]
      exact runs_live _ s _ (fun d => d.slot c) rfl hlive
        (Dev.slot_activate hfree hbuf hentries hshows EntKind.noConfusion hrow htiming)
    · rw [← hreqs]
      exact runs_live _ s _ (fun d => d.slot c) rfl hlive
        (Dev.slot_precharge hfree hbuf hentries hshows EntKind.noConfusion hrow hother htiming)
    · refine runs_live _ s _ (fun d => d.slot c) rfl hlive ?_
      have hslot := Dev.slot_column hfree hbuf hentries hshows EntKind.noConfusion hrow (w := false) (by simp) htiming
      obtain ⟨hready, hgone, hdram, hopen⟩ := Dev.issueColumn_read (t := s.dev.clock) hshows.kind (hreqsOf.trans hreqs)
        (hwbufOf.trans hwbuf) horigin c.isLt hch (by rw [hrecOf]; exact hrec) hword
      rw [← hslot] at hready hgone hdram hopen
      rw [hshows.bank, Dev.bank_slotOpened, hrow] at hopen
      have hreadyOf : ((s.dev.slotOpened c).chan c).readyQ = k.readyQ := Dev.chan_slotOpened_of Chan.readyQ s.dev c fun _ _ _ => rfl
      rw [hreadyOf, SchedReq.ready, hcls] at hready
      exact ⟨hready, hgone, hdram, hopen⟩
  · intro p hrow htiming
    have hbuf : ∀ q ∈ k.reqs, (s.dev.buffered q.word).isSome = false := by simp [hreqs]
    obtain ⟨x, hentries, hshows⟩ := Dev.entries_write (d := s.dev.slotOpened c) (hreqsOf.trans hreqs) (hwbufOf.trans hwbuf) hexec hheld
      (by rw [hrecOf]; exact hrec)
    rw [hcls] at hshows
    refine runs_live _ s _ (fun d => d.slot c) rfl hlive ?_
    have hspec := Dev.issueColumn_write (t := s.dev.clock) hshows.kind (hwbufOf.trans hwbuf) hmerge
    rw [← Dev.slot_column hfree hbuf hentries hshows EntKind.noConfusion hrow (w := true) (by simp) htiming] at hspec
    exact hspec

end Sys2Proof.Proofs

/-! Proof of the statement about the maintenance of a channel (R141, R151 to R160). -/

/-! ## The clock and the counters of a channel -/

namespace Sys2Proof.Machine

/-- Bringing the clock forward changes the time, and nothing else. -/
theorem Dev.advanceTo_frame (d : Dev) (t : Nat) : ∃ half acc time, d.advanceTo t =
    { d with clock := max d.clock t, halfRate := half, trimAcc := acc, time := time } := by
  unfold Dev.advanceTo
  split
  · next h => exact ⟨_, _, _, by rw [max_eq_left h]⟩
  · next h =>
    have hmax : max d.clock t = t := max_eq_right (Nat.le_of_not_le h)
    split
    · exact ⟨_, _, _, by rw [hmax]⟩
    · exact ⟨_, _, _, by rw [hmax]⟩

theorem Dev.clock_advanceTo (d : Dev) (t : Nat) : (d.advanceTo t).clock = max d.clock t := by
  obtain ⟨_, _, _, h⟩ := d.advanceTo_frame t
  rw [h]

@[simp] theorem Dev.chan_advanceTo (d : Dev) (t c : Nat) : (d.advanceTo t).chan c = d.chan c := by
  obtain ⟨_, _, _, h⟩ := d.advanceTo_frame t
  rw [h]
  rfl

@[simp] theorem Dev.reg_advanceTo (d : Dev) (t o : Nat) : (d.advanceTo t).reg o = d.reg o := by
  obtain ⟨_, _, _, h⟩ := d.advanceTo_frame t
  rw [h]
  rfl

@[simp] theorem Dev.nbos_advanceTo (d : Dev) (t : Nat) : (d.advanceTo t).nbos = d.nbos := by
  obtain ⟨_, _, _, h⟩ := d.advanceTo_frame t
  rw [h]

@[simp] theorem Dev.reg64_advanceTo (d : Dev) (t o : Nat) : (d.advanceTo t).reg64 o = d.reg64 o :=
  Dev.reg64_congr (d.reg_advanceTo t o) (d.reg_advanceTo t (o + 4))

/-- Two counters of one channel lie 8 bytes or more apart, so that counting one leaves the other. -/
theorem Dev.reg64_count_apart (d : Dev) {o p : Nat} (n : Nat) (h : o + 8 ≤ p ∨ p + 8 ≤ o) : (d.count o n).reg64 p = d.reg64 p :=
  Dev.reg64_congr (d.reg_count_ne n (by omega) (by omega)) (d.reg_count_ne n (by omega) (by omega))

end Sys2Proof.Machine

/-! ## Promotion (R141, R189) -/

namespace Sys2Proof.Machine

theorem findPos_eq_none {α : Type} {p : α → Bool} {l : List α} {n : Nat} (h : ∀ x ∈ l, p x = false) : findPos p l n = none := by
  rw [← Option.map_eq_none_iff, findPos_map_snd, List.find?_eq_none]
  intro x hx
  simp [h x hx]

/-- The device once a request of the channel has reached its age, has been changed by `f` with the slot, and counted. -/
def Dev.promoted (d : Dev) (c since : Nat) (f : Nat → Chan → Chan) : Dev :=
  let d := d.advanceTo (since + 4000)
  (d.updChan c (f d.clock)).count (rChPromote c) 1

theorem Dev.promoted_spec {α : Type} (g : Chan → α) (d : Dev) (c since : Nat) (f : Nat → Chan → Chan) :
    let d' := d.promoted c since f
    g (d'.chan c) = g (f d'.clock (d.chan c)) ∧ d'.reg64 (rChPromote c) = d.reg64 (rChPromote c) + 1 ∧ since + 4000 ≤ d'.clock := by
  refine ⟨congrArg g ?_, (Dev.reg64_count ..).trans (congrArg (· + 1) (Dev.reg64_advanceTo ..)), Dev.le_clock_advanceTo ..⟩
  rw [Dev.promoted, Dev.chan_count, Dev.chan_updChan, if_pos rfl, Dev.chan_advanceTo]
  rfl

section Promote

variable {d : Dev} {c id i : Nat}

theorem Dev.promote_read {r : SchedReq}
    (hfind : findPos (fun r : SchedReq => r.id == id && r.cls != 0 && r.port != 4) (d.chan c).reqs 0 = some (i, r)) :
    let d' := d.promote c none id
    (d'.chan c).reqs = putAt (d.chan c).reqs i { r with cls := 0, promoted := some d'.clock } ∧
      d'.reg64 (rChPromote c) = d.reg64 (rChPromote c) + 1 ∧ r.since + 4000 ≤ d'.clock := by
  have heq : d.promote c none id = d.promoted c r.since fun t ch =>
      { ch with reqs := putAt ch.reqs i { r with cls := 0, promoted := some t } } := by
    rw [Dev.promote]
    dsimp only
    rw [hfind]
    rfl
  rw [heq]
  exact Dev.promoted_spec Chan.reqs ..

theorem Dev.promote_write {w : BufWord} (hreqs : ∀ r ∈ (d.chan c).reqs, r.id ≠ id)
    (hfind : findPos (fun w : BufWord => w.id == id && w.cls != 0) (d.chan c).wbuf 0 = some (i, w)) : let d' := d.promote c none id
    (d'.chan c).wbuf = putAt (d.chan c).wbuf i { w with cls := 0, promoted := some d'.clock } ∧
      d'.reg64 (rChPromote c) = d.reg64 (rChPromote c) + 1 ∧ w.since + 4000 ≤ d'.clock := by
  have heq : d.promote c none id = d.promoted c w.since fun t ch =>
      { ch with wbuf := putAt ch.wbuf i { w with cls := 0, promoted := some t } } := by
    rw [Dev.promote]
    dsimp only
    rw [findPos_eq_none fun r hr => by simp [hreqs r hr]]
    dsimp only
    rw [hfind]
    rfl
  rw [heq]
  exact Dev.promoted_spec Chan.wbuf ..

theorem Dev.promote_host {r : PortReq} (hreqs : ∀ r ∈ (d.chan c).reqs, r.id ≠ id) (hwbuf : ∀ w ∈ (d.chan c).wbuf, w.id ≠ id)
    (hfind : findPos (fun r : PortReq => r.arr == id && r.cls != 0) (d.chan c).hostIn 0 = some (i, r)) : let d' := d.promote c none id
    (d'.chan c).hostIn = putAt (d.chan c).hostIn i (r.promote d'.clock) ∧
      d'.reg64 (rChPromote c) = d.reg64 (rChPromote c) + 1 ∧ r.since + 4000 ≤ d'.clock := by
  have heq : d.promote c none id = d.promoted c r.since fun t ch => { ch with hostIn := putAt ch.hostIn i (r.promote t) } := by
    rw [Dev.promote]
    dsimp only
    rw [findPos_eq_none fun r hr => by simp [hreqs r hr]]
    dsimp only
    rw [findPos_eq_none fun w hw => by simp [hwbuf w hw]]
    dsimp only
    rw [hfind]
    rfl
  rw [heq]
  exact Dev.promoted_spec Chan.hostIn ..

end Promote

/-- The NBO of a bank's next atom is one of the device's. -/
theorem Dev.nextAtom_mem {d : Dev} {c b row : Nat} {x : Nbo} {kind : AtomKind} (h : d.nextAtom c b = some (x, kind, row)) :
    x ∈ d.nbos := by
  unfold Dev.nextAtom at h
  dsimp only at h
  cases hx : (d.bankNear c b).exec.bind d.nbo with
  | none => simp [hx] at h
  | some y =>
    have hmem : y ∈ d.nbos := by
      obtain ⟨id, -, hid⟩ := Option.bind_eq_some_iff.1 hx
      exact List.mem_of_find?_eq_some hid
    have hsame : y = x := by
      rw [hx] at h
      dsimp only at h
      cases hu : y.unit b with
      | none => simp [hu] at h
      | some u =>
        rw [hu] at h
        dsimp only at h
        split_ifs at h <;> exact congrArg Prod.fst (Option.some.inj h)
    exact hsame ▸ hmem

/-- The unit of an NBO's bank is changed in the device's NBO. -/
theorem Dev.updUnit_mem {d : Dev} {x : Nbo} {b : Nat} {u : BankUnit} {f : BankUnit → BankUnit} (hmem : x ∈ d.nbos)
    (hunit : x.unit b = some u) (hbank : (f u).bank = u.bank) : ∃ y ∈ (d.updUnit x.id b f).nbos, y.id = x.id ∧ ∃ v ∈ y.units, v.bank = b ∧ v = f u := by
  have hu : u.bank = b := by simpa using List.find?_some hunit
  refine ⟨{ x with units := x.units.map fun u => if u.bank == b then f u else u },
    List.mem_map.2 ⟨x, hmem, if_pos (by simp)⟩, rfl, f u, ?_, hbank.trans hu, rfl⟩
  exact List.mem_map.2 ⟨u, List.mem_of_find?_eq_some hunit, if_pos (by simp [hu])⟩

theorem Dev.promote_atom {d : Dev} {c b id row : Nat} {x : Nbo} {kind : AtomKind} {u : BankUnit}
    (hnext : d.nextAtom c b = some (x, kind, row)) (hunit : x.unit b = some u) (hpromo : u.promo = none) : let d' := d.promote c (some b) id
    (∃ y ∈ d'.nbos, y.id = x.id ∧ ∃ v ∈ y.units, v.bank = b ∧ v.promo = some (u.since x.d kind, d'.clock)) ∧
      d'.reg64 (rChPromote c) = d.reg64 (rChPromote c) + 1 ∧ u.since x.d kind + 4000 ≤ d'.clock := by
  let e := d.advanceTo (u.since x.d kind + 4000)
  have heq : d.promote c (some b) id =
      (e.updUnit x.id b fun u' => { u' with promo := some (u.since x.d kind, e.clock) }).count (rChPromote c) 1 := by
    rw [Dev.promote]
    dsimp only
    rw [hnext]
    dsimp only
    rw [hunit]
    dsimp only
    rw [hpromo]
    exact if_neg Bool.false_ne_true
  have hmem : x ∈ e.nbos := by rw [Dev.nbos_advanceTo]; exact Dev.nextAtom_mem hnext
  obtain ⟨y, hy, hyid, v, hv, hvb, rfl⟩ :=
    Dev.updUnit_mem (f := fun u' => { u' with promo := some (u.since x.d kind, e.clock) }) hmem hunit rfl
  dsimp only
  rw [heq, Dev.reg64_count]
  exact ⟨⟨y, hy, hyid, _, hv, hvb, rfl⟩, congrArg (· + 1) (Dev.reg64_advanceTo ..), Dev.le_clock_advanceTo ..⟩

end Sys2Proof.Machine

/-! ## Pages and power (R151, R153) -/

namespace Sys2Proof.Machine

theorem Dev.pageIdle_spec {d : Dev} {c b row f : Nat} (hrow : ((d.chan c).bank b).row = some row)
    (hidle : ((d.chan c).bank b).idleFrom = some f) : let d' := d.pageIdle c b
    ((d'.chan c).bank b).idleDue = true ∧ ((d'.chan c).bank b).row = some row ∧ f + 2 * fld (d.reg (rChPage c)) 10 0 ≤ d'.clock := by
  have heq : d.pageIdle c b = (d.advanceTo (f + 2 * fld (d.reg (rChPage c)) 10 0)).updChan c
      fun ch => ch.updBank b fun k => { k with idleDue := true } := by
    rw [Dev.pageIdle, hrow, hidle]
  dsimp only
  rw [heq, Dev.chan_updChan, if_pos rfl, Dev.chan_advanceTo, Chan.bank_updBank, if_pos rfl]
  exact ⟨rfl, hrow, Dev.le_clock_advanceTo ..⟩

section Power

variable {d : Dev} {c : Nat}

theorem Dev.powerDownIn_spec (hready : (d.chan c).ready = true) (hdown : (d.chan c).down = false) (hself : (d.chan c).selfRef = false)
    (hawake : (d.chan c).powerDown = false) (hctrl : rbit (d.reg (rChCtrl c)) 0 = true) (hidle : d.channelIdle c = true) :
    let d' := d.powerDownIn c
    (d'.chan c).powerDown = true ∧ ∀ t, (d.chan c).idleFrom = some t → t + 400 ≤ d'.clock := by
  have heq : d.powerDownIn c = (d.advanceTo ((d.chan c).idleFrom.getD d.clock + 400)).updChan c
      fun ch => { ch with powerDown := true } := by
    rw [Dev.powerDownIn]
    exact if_neg (by simp [hready, hdown, hself, hawake, hctrl, hidle])
  dsimp only
  rw [heq, Dev.chan_updChan, if_pos rfl]
  refine ⟨rfl, fun t ht => ?_⟩
  rw [ht]
  exact Dev.le_clock_advanceTo ..

theorem Dev.powerDownOut_spec (hasleep : (d.chan c).powerDown = true)
    (hwakes : d.channelIdle c = false ∨ 1 ≤ (d.chan c).owed ∨ (d.chan c).visitDue = true) : let d' := d.powerDownOut c
    (d'.chan c).powerDown = false ∧ (d'.chan c).wakeAt = d.clock + 24 := by
  have heq : d.powerDownOut c = d.setChan c { d.chan c with powerDown := false, wakeAt := d.clock + 24, idleFrom := none } := by
    rw [Dev.powerDownOut]
    refine (if_neg (by simp [hasleep])).trans (if_neg ?_)
    obtain h | h | h := hwakes <;> simp [h]
  dsimp only
  rw [heq, Dev.chan_setChan, if_pos rfl]
  exact ⟨rfl, rfl⟩

end Power

end Sys2Proof.Machine

/-! ## Refresh (R155 to R157, R160) -/

namespace Sys2Proof.Machine

section Refresh

variable {d : Dev} {c : Nat}

theorem Dev.refiEnd_spec (hready : (d.chan c).ready = true) (hdown : (d.chan c).down = false) (hself : (d.chan c).selfRef = false) :
    let d' := d.refiEnd c
    (d'.chan c).owed = (d.chan c).owed + 1 ∧ (d'.chan c).forced = ((d.chan c).forced || decide (5 ≤ (d.chan c).owed + 1)) ∧
      (d.chan c).nextRefi ≤ d'.clock ∧ (d'.chan c).nextRefi = d'.clock + refiSlots (d.band (c / 2)) := by
  have heq : d.refiEnd c = (d.advanceTo (d.chan c).nextRefi).updChan c fun ch =>
      { ch with owed := ch.owed + 1, forced := ch.forced || decide (5 ≤ ch.owed + 1)
                nextRefi := (d.advanceTo (d.chan c).nextRefi).clock + refiSlots ((d.advanceTo (d.chan c).nextRefi).band (c / 2)) } := by
    rw [Dev.refiEnd]
    exact if_neg (by simp [hready, hdown, hself])
  dsimp only
  rw [heq, Dev.chan_updChan, if_pos rfl, Dev.chan_advanceTo, Dev.band, Dev.reg_advanceTo]
  exact ⟨rfl, rfl, Dev.le_clock_advanceTo .., rfl⟩

/-- A fold of maxima is at least where it starts. -/
theorem le_foldl_max {α : Type} (f : α → Nat) (l : List α) (t : Nat) : t ≤ l.foldl (fun t x => max t (f x)) t :=
  List.foldlRecOn l _ (motive := fun m => t ≤ m) le_rfl fun _ hm _ _ => hm.trans (le_max_left ..)

theorem Dev.clock_le_refreshSlot (d : Dev) (c : Nat) : d.clock ≤ d.refreshSlot c :=
  (le_max_left ..).trans (le_foldl_max ..)

/-- What holds of the default and of every entry holds of whatever a table gives. -/
theorem tabGet_rec {α : Type} {dflt : Nat → α} {t : Tab α} {P : α → Prop} (k : Nat) (hdflt : P (dflt k)) (h : ∀ e ∈ t, P e.2) :
    P (tabGet dflt t k) := by
  induction t with
  | nil => exact hdflt
  | cons e t ih =>
    rw [tabGet]
    split
    · exact h e List.mem_cons_self
    · exact ih fun x hx => h x (List.mem_cons_of_mem _ hx)

theorem Chan.bank_rec {ch : Chan} {P : Bank → Prop} (b : Nat) (hinit : P Bank.init) (h : ∀ e ∈ ch.banks, P e.2) : P (ch.bank b) :=
  tabGet_rec b hinit h

/-- A channel whose refresh starts at `t`: every bank is closed. -/
def Chan.refreshed (ch : Chan) (t : Nat) : Chan :=
  let visit := ch.visitDue || ch.pauseUntil.isSome || (decide (ch.nextVisit ≤ t) && !ch.retrain)
  { ch.stall t with
    owed := max (-4) (ch.owed - 1), lastRef := some t, refUntil := some (t + 760), refForced := ch.forced
    forced := false, refAsked := none, powerDown := false, wakeAt := if ch.powerDown then t else ch.wakeAt
    pauseUntil := if visit then some (t + 800) else none, visitDue := false
    nextVisit := if ch.nextVisit ≤ t then ch.nextVisit + 100000000 else ch.nextVisit
    banks := ch.banks.map fun e => (e.1, { e.2 with
      row := none, lastPre := if e.2.row.isSome then some t else e.2.lastPre, idleFrom := none, idleDue := false }) }

theorem Chan.row_refreshed (ch : Chan) (t b : Nat) : ((ch.refreshed t).bank b).row = none := by
  refine Chan.bank_rec (P := fun k => k.row = none) b rfl fun e he => ?_
  obtain ⟨e, -, rfl⟩ := List.mem_map.1 he
  rfl

/-- The device whose channel has started a refresh at the present slot, before the refresh is counted. -/
def Dev.refreshed (d : Dev) (c : Nat) : Dev := (d.advanceTo (d.refreshSlot c)).setChan c ((d.chan c).refreshed (d.refreshSlot c))

section Start

variable (hready : (d.chan c).ready = true) (hdown : (d.chan c).down = false) (hself : (d.chan c).selfRef = false)
  (href : (d.chan c).refUntil = none)
  (hwanted : (d.chan c).forced = true ∨ (1 ≤ (d.chan c).owed ∧ ∀ e ∈ d.entries c, e.cls ≠ 0))
  (hatoms : d.atomRuns c = false) (hspace : ∀ t, (d.chan c).lastRef = some t → t + 1600 ≤ d.clock) (hslot : d.staggerFree c = true)

include hready hdown hself href hwanted hatoms hspace hslot

theorem Dev.refreshStart_eq : d.refreshStart c =
    if (d.chan c).forced then ((d.refreshed c).count (rChRef c) 1).count (rChRefForced c) 1 else (d.refreshed c).count (rChRef c) 1 := by
  have hclass : (d.chan c).forced = true ∨ (1 ≤ (d.chan c).owed ∧ (d.entries c).any Ent.class0 = false) :=
    hwanted.imp id fun h => ⟨h.1, by simpa [Ent.class0] using h.2⟩
  have hgo : ((d.chan c).forced || (decide (1 ≤ (d.chan c).owed) && !(d.entries c).any Ent.class0)) = true := by
    obtain h | ⟨h, h'⟩ := hclass
    · simp [h]
    · simp [h, h']
  have hgap : since? d.clock (d.chan c).lastRef 1600 = true := by
    cases hlast : (d.chan c).lastRef with
    | none => rfl
    | some t => exact decide_eq_true (hspace t hlast)
  have hdue : d.refreshDue c = true := by
    rw [Dev.refreshDue, hready, hdown, hself, href, hgap, hgo]
    rfl
  have hclock : (d.advanceTo (d.refreshSlot c)).clock = d.refreshSlot c :=
    (Dev.clock_advanceTo ..).trans (max_eq_right (d.clock_le_refreshSlot c))
  rw [Dev.refreshStart]
  dsimp only
  rw [if_neg (by simp [hready, hdown, hself, href]), hgo, if_neg (by simp), if_neg (by simp [hatoms, hdue, hslot]), hclock]
  rfl

theorem Dev.refreshStart_spec : let d' := d.refreshStart c
    d'.clock = d.refreshSlot c ∧ d'.chan c = (d.chan c).refreshed d'.clock ∧ d'.reg64 (rChRef c) = d.reg64 (rChRef c) + 1 ∧
      d'.reg64 (rChRefForced c) = d.reg64 (rChRefForced c) + (if (d.chan c).forced then 1 else 0) := by
  have hclock : (d.refreshed c).clock = d.refreshSlot c :=
    (Dev.clock_advanceTo ..).trans (max_eq_right (d.clock_le_refreshSlot c))
  have hchan : (d.refreshed c).chan c = (d.chan c).refreshed (d.refreshSlot c) := (Dev.chan_setChan ..).trans (if_pos rfl)
  have hreg (o : Nat) : (d.refreshed c).reg64 o = d.reg64 o := Dev.reg64_advanceTo ..
  have hapart : rChRef c + 8 ≤ rChRefForced c := by simp only [rChRef, rChRefForced]; omega
  have hcount : ((d.refreshed c).count (rChRef c) 1).reg64 (rChRef c) = d.reg64 (rChRef c) + 1 := by
    rw [Dev.reg64_count, hreg]
    rfl
  have hother : ((d.refreshed c).count (rChRef c) 1).reg64 (rChRefForced c) = d.reg64 (rChRefForced c) := by
    rw [Dev.reg64_count_apart _ _ (.inl hapart), hreg]
  dsimp only
  rw [Dev.refreshStart_eq hready hdown hself href hwanted hatoms hspace hslot]
  split
  · rw [Dev.clock_count, Dev.clock_count, Dev.chan_count, Dev.chan_count, Dev.reg64_count,
      Dev.reg64_count_apart _ _ (.inr hapart), hclock, hchan, hcount, hother]
    exact ⟨rfl, rfl, rfl, rfl⟩
  · rw [Dev.clock_count, Dev.chan_count, hclock, hchan, hcount, hother]
    exact ⟨rfl, rfl, rfl, (BitVec.add_zero _).symm⟩

end Start

/-- When chain transfers go on, the channel's banks and its refreshes stay as they are. -/
theorem Dev.chainResume_spec (d : Dev) (c : Nat) : (∃ nbos chans, d.chainResume c = { d with nbos := nbos, chans := chans }) ∧
    ∃ from' ends, (d.chainResume c).chan c = { d.chan c with stallFrom := from', stallEnd := ends } := by
  unfold Dev.chainResume
  dsimp only
  split
  · exact ⟨⟨_, _, rfl⟩, _, _, rfl⟩
  · split
    · exact ⟨⟨_, _, rfl⟩, _, _, rfl⟩
    · rw [Dev.chan_setChan, if_pos rfl]
      exact ⟨⟨_, _, rfl⟩, _, _, rfl⟩

/-- The banks of a channel whose refresh has ended: a forced one has served every pending event. -/
def Chan.served (ch : Chan) : Tab Bank :=
  let banks := if ch.refForced then ch.banks.map fun e =>
      (e.1, { e.2 with events := [], acts := e.2.acts.map fun a => if a.flag then { a with count := 0, flag := false } else a })
    else ch.banks
  banks.filter fun e => e.2 != Bank.init

theorem Chan.events_served {ch : Chan} (hforced : ch.refForced = true) (e : Nat × Bank) (he : e ∈ ch.served) : e.2.events = [] := by
  rw [Chan.served, hforced, if_pos rfl] at he
  obtain ⟨e, -, rfl⟩ := List.mem_map.1 (List.mem_of_mem_filter he)
  rfl

theorem Dev.refreshEnd_spec {t : Nat} (href : (d.chan c).refUntil = some t) : let d' := d.refreshEnd c
    (d'.chan c).refUntil = none ∧ (d'.chan c).refCount = (d.chan c).refCount + 1 ∧ t ≤ d'.clock ∧
      ((d.chan c).refForced = true → ∀ b, ((d'.chan c).bank b).events = []) := by
  let e := (d.advanceTo t).setChan c
    { d.chan c with refUntil := none, refForced := false, banks := (d.chan c).served, refCount := (d.chan c).refCount + 1 }
  obtain ⟨n, heq⟩ : ∃ n, d.refreshEnd c = if (d.chan c).refForced then (e.chainResume c).count (rChTrr c) n else e.chainResume c := by
    rw [Dev.refreshEnd, href]
    dsimp only
    rw [Dev.chan_advanceTo]
    exact ⟨_, rfl⟩
  have hchan : e.chan c = _ := (Dev.chan_setChan ..).trans (if_pos rfl)
  obtain ⟨⟨nbos, chans, hdev⟩, from', ends, hresumed⟩ := e.chainResume_spec c
  have hclock : (e.chainResume c).clock = e.clock := by rw [hdev]
  have hend : (d.refreshEnd c).clock = e.clock ∧ (d.refreshEnd c).chan c = { e.chan c with stallFrom := from', stallEnd := ends } := by
    rw [heq]
    split <;> exact ⟨hclock, hresumed⟩
  dsimp only
  rw [hend.1, hend.2, hchan]
  exact ⟨rfl, rfl, d.le_clock_advanceTo t, fun hforced b =>
    Chan.bank_rec (P := fun k => k.events = []) b rfl (Chan.events_served hforced)⟩

theorem Dev.trrReset_spec (hcount : 8192 ≤ (d.chan c).refCount) : let d' := d.trrReset c
    (d'.chan c).refCount = 0 ∧ ∀ b, ((d'.chan c).bank b).acts = [] := by
  let banks := ((d.chan c).banks.map fun e => (e.1, { e.2 with acts := [] })).filter fun e => e.2 != Bank.init
  have heq : d.trrReset c = d.setChan c { d.chan c with refCount := 0, banks := banks } := if_pos hcount
  dsimp only
  rw [heq, Dev.chan_setChan, if_pos rfl]
  refine ⟨rfl, fun b => Chan.bank_rec (P := fun k => k.acts = []) b rfl fun e he => ?_⟩
  obtain ⟨e, -, rfl⟩ := List.mem_map.1 (List.mem_of_mem_filter he)
  rfl

end Refresh

end Sys2Proof.Machine

namespace Sys2Proof.Proofs

open Sys2Proof.Machine Sys2Proof.Claims

/-- Settles O28: each row of a channel's upkeep brings the clock to its slot and changes the channel's record there. -/
theorem channelMaintenance : Obligations.ChannelMaintenance := by
  unfold Obligations.ChannelMaintenance
  constructor
  · intro s c hlive k counted
    refine ⟨fun id i r hfind => ?_, fun id i w hreqs hfind => ?_, fun id i r hreqs hwbuf hfind => ?_,
      fun b id x kind row u hnext hunit hpromo => ?_, fun b r f hrow hidle => ?_⟩
    · exact runs_live _ s _ (fun d => d.promote c none id) rfl hlive (Dev.promote_read hfind)
    · exact runs_live _ s _ (fun d => d.promote c none id) rfl hlive (Dev.promote_write hreqs hfind)
    · exact runs_live _ s _ (fun d => d.promote c none id) rfl hlive (Dev.promote_host hreqs hwbuf hfind)
    · exact runs_live _ s _ (fun d => d.promote c (some b) id) rfl hlive (Dev.promote_atom hnext hunit hpromo)
    · exact runs_live _ s _ (fun d => d.pageIdle c b) rfl hlive (Dev.pageIdle_spec hrow hidle)
  · intro s c hup k
    obtain ⟨hlive, hready, hdown, hself⟩ := hup
    refine ⟨fun hawake hctrl hidle => ?_, fun hasleep hwakes => ?_, ?_, fun href hwanted hatoms hspace hslot => ?_,
      fun t href => ?_, fun hcount => ?_⟩
    · exact runs_live _ s _ (fun d => d.powerDownIn c) rfl hlive (Dev.powerDownIn_spec hready hdown hself hawake hctrl hidle)
    · exact runs_live _ s _ (fun d => d.powerDownOut c) rfl hlive (Dev.powerDownOut_spec hasleep hwakes)
    · exact runs_live _ s _ (fun d => d.refiEnd c) rfl hlive (Dev.refiEnd_spec hready hdown hself)
    · refine runs_live _ s _ (fun d => d.refreshStart c) rfl hlive ?_
      obtain ⟨hclock, hchan, hcount, hforced⟩ := Dev.refreshStart_spec hready hdown hself href hwanted hatoms hspace hslot
      have hvisit (t : Nat) (h : k.visitDue = true) : (k.refreshed t).pauseUntil = some (t + 800) := if_pos (by simp [h])
      change (s.dev.refreshStart c).clock = _ ∧ ((s.dev.refreshStart c).chan c).refUntil = _ ∧ _
      exact ⟨hclock, congrArg Chan.refUntil hchan, congrArg Chan.owed hchan, congrArg Chan.forced hchan, congrArg Chan.powerDown hchan,
        fun b => (congrArg (fun ch => (ch.bank b).row) hchan).trans (Chan.row_refreshed ..),
        fun h => (congrArg Chan.pauseUntil hchan).trans (hvisit _ h), hcount, hforced⟩
    · exact runs_live _ s _ (fun d => d.refreshEnd c) rfl hlive (Dev.refreshEnd_spec href)
    · exact runs_live _ s _ (fun d => d.trrReset c) rfl hlive (Dev.trrReset_spec hcount)

end Sys2Proof.Proofs

/-! Proof of the statement about the training of a channel (R163, R166, R167, R371). -/

/-! ## A channel that is down stays down (R371) -/

namespace Sys2Proof.Machine

/-- A channel that is down, with nothing left in its write buffer. -/
structure Chan.Lost (ch : Chan) : Prop where
  down : ch.down = true
  ready : ch.ready = false
  wbuf : ch.wbuf = []

/-- The array stays as it is, and a channel that is down stays so. -/
structure StaysDown (d d' : Dev) : Prop where
  dram : d'.dram = d.dram
  lost : ∀ c, (d.chan c).Lost → (d'.chan c).Lost

namespace StaysDown

variable {d d' : Dev}

theorem of_chans (hdram : d'.dram = d.dram) (hchans : d'.chans = d.chans) : StaysDown d d' where
  dram := hdram
  lost c h := by rwa [Dev.chan, hchans]

theorem refl (d : Dev) : StaysDown d d := of_chans rfl rfl

theorem trans {a b c : Dev} (h : StaysDown a b) (k : StaysDown b c) : StaysDown a c :=
  ⟨k.dram.trans h.dram, fun n hn => k.lost n (h.lost n hn)⟩

theorem ite {p : Prop} {_ : Decidable p} {x y : Dev} (h : StaysDown d x) (k : StaysDown d y) : StaysDown d (if p then x else y) := by
  split <;> assumption

theorem foldl {β : Type} {f : Dev → β → Dev} {l : List β} (h : ∀ d, ∀ x ∈ l, StaysDown d (f d x)) (d : Dev) :
    StaysDown d (l.foldl f d) :=
  List.foldlRecOn l f (refl d) fun b hb x hx => hb.trans (h b x hx)

theorem of_side (h : SideTraffic d d') : StaysDown d d' := of_chans h.dram h.chans

theorem of_floes (h : FloeStops d d') : StaysDown d d' := by
  obtain ⟨⟨_, _, _, _, _, _, _, rfl⟩, -⟩ := h
  exact of_chans rfl rfl

theorem of_stores (h : d'.stores = d.stores) : StaysDown d d' := by
  simp only [Dev.stores, Prod.mk.injEq] at h
  obtain ⟨hdram, -, -, -, hchans, -⟩ := h
  exact of_chans hdram hchans

theorem updChan (d : Dev) (c : Nat) (f : Chan → Chan) (hf : ∀ x : Chan, x.Lost → (f x).Lost) : StaysDown d (d.updChan c f) where
  dram := rfl
  lost k h := by
    rw [Dev.chan_updChan]
    split
    · next hk => exact hf _ (hk ▸ h)
    · exact h

theorem freeUses (d : Dev) (k : Nat) : StaysDown d { d with freeUses := k } := of_chans rfl rfl

theorem near (d : Dev) (t : Tab BankNear) : StaysDown d { d with near := t } := of_chans rfl rfl

theorem report (d : Dev) (code sev ukind unit addr info : Nat) (f : Option (BitVec 4)) :
    StaysDown d (d.report code sev ukind unit addr info f) := of_stores (Dev.stores_report ..)

theorem count (d : Dev) (o n : Nat) : StaysDown d (d.count o n) := of_stores (Dev.stores_count ..)

theorem setFloe (d : Dev) (n : Nat) (x : Floe) : StaysDown d (d.setFloe n x) := of_stores (Dev.stores_setFloe ..)

theorem dropNbo (d : Dev) (id : Nat) : StaysDown d (d.dropNbo id) := of_chans rfl rfl

theorem updUnit (d : Dev) (id b : Nat) (f : BankUnit → BankUnit) : StaysDown d (d.updUnit id b f) := of_chans rfl rfl

theorem updBankNear (d : Dev) (c b : Nat) (f : BankNear → BankNear) : StaysDown d (d.updBankNear c b f) := of_chans rfl rfl

theorem faultCmd (d : Dev) (n e : Nat) (c : ECmd) (code : Nat) : StaysDown d (d.faultCmd n e c code) :=
  (setFloe d n _).trans (of_stores (Dev.stores_haltFloe ..))

theorem lsBytes (d : Dev) (n off : Nat) (bs : List (BitVec 8)) : StaysDown d (d.lsBytes n off bs) := by
  unfold Dev.lsBytes Dev.lsWrite Dev.lsMerge
  dsimp only
  split
  · exact refl d
  · split
    · exact of_chans rfl rfl
    · exact (of_stores (Dev.stores_lsRead ..)).trans (of_chans rfl rfl)

/-- What a poster hears of its NBO changes commands, floes and local store. -/
theorem nboReport (d : Dev) (p : Poster) (id status : Nat) : StaysDown d (d.nboReport p id status) := by
  unfold Dev.nboReport
  cases p with
  | ring n idx pos => exact of_chans rfl rfl
  | mirror tag => exact refl d
  | floe f cmd =>
    dsimp only
    split
    · exact refl d
    · split
      · exact refl d
      · split
        · exact refl d
        · exact ite (ite ((setFloe ..).trans (lsBytes ..)) (ite ((setFloe ..).trans (count ..)) (setFloe ..)))
            ((setFloe ..).trans (faultCmd ..))

theorem nboFinish (d : Dev) (x : Nbo) : StaysDown d (d.nboFinish x) := by
  have hreleased (e : Dev) : StaysDown e (e.releaseHeld x.d.ch x.id) :=
    updChan e _ _ fun ch h => ⟨h.down, h.ready, by rw [h.wbuf]; rfl⟩
  have hreports (e : Dev) (tag : Nat) (p : Poster) (id st : Nat) :
      StaysDown e ((if st = 0 then e else e.report (0x400 + st) 2 1 x.d.ch 0 tag x.field).nboReport p id st) :=
    (ite (refl e) (report ..)).trans (nboReport ..)
  unfold Dev.nboFinish
  refine (dropNbo ..).trans ((foldl (fun _ _ _ => updBankNear ..) _).trans ((foldl (fun e b _ => ?ages) _).trans ((hreleased _).trans
    ((count ..).trans ((hreports _ _ _ _ _).trans (foldl (fun e f _ => hreports e _ _ _ _) _))))))
  case ages =>
    cases (e.bankNear x.d.ch b).exec with
    | none => exact refl e
    | some id => exact updUnit ..

theorem answerData (d : Dev) (link : Nat) (dev : BitVec 6) (tag : BitVec 12) (data : Line) (poison : Bool) :
    StaysDown d (d.answerData link dev tag data poison) := by
  refine ite (of_side (.linkSend ..)) ?_
  unfold Dev.sendTo
  split
  · exact of_side (.linkSend ..)
  · exact refl d

theorem remoteRequest {l : Nat} {p : Packet} {who : RemoteWho} {t : BitVec 12} (h : d.remoteRequest l p who = some (t, d')) :
    StaysDown d d' := by
  unfold Dev.remoteRequest at h
  split at h
  · exact nomatch h
  · obtain ⟨-, rfl⟩ := Prod.mk.inj (Option.some.inj h)
    exact of_side ((SideTraffic.remotes d _).trans (.linkSend ..))

theorem recover (d : Dev) (n : Nat) (r : Option SchedReq) : StaysDown d (d.recover n r) := by
  unfold Dev.recover
  dsimp only
  split
  · exact updChan d _ _ fun _ h => ⟨h.down, h.ready, h.wbuf⟩
  · split
    · next hsent =>
      obtain ⟨-, hsent⟩ := Option.ite_none_right_eq_some.1 hsent
      exact (remoteRequest hsent).trans (updChan _ _ _ fun _ h => ⟨h.down, h.ready, h.wbuf⟩)
    · exact updChan d _ _ fun _ h => ⟨h.down, h.ready, h.wbuf⟩

theorem engineAnswer (d : Dev) (f : BitVec 7) (e cmd addr : Nat) (word : Option (Line × Bool)) :
    StaysDown d (d.engineAnswer f e cmd addr word) := by
  unfold Dev.engineAnswer
  split
  · exact refl d
  · exact setFloe ..

theorem deliver (d : Dev) (c : Nat) (r : SchedReq) (data : Line) (poison : Bool) : StaysDown d (d.deliver c r data poison) := by
  have hwait : StaysDown d (d.updChan c fun ch => { ch with readyQ := ch.readyQ ++ [r.ready data poison] }) :=
    updChan d _ _ fun _ h => ⟨h.down, h.ready, h.wbuf⟩
  unfold Dev.deliver
  dsimp only
  split
  · exact answerData ..
  · exact answerData ..
  · exact ite hwait (engineAnswer ..)
  · exact ite hwait (refl d)
  · exact hwait

theorem morOrder (d : Dev) (seq : Reg) : StaysDown d (d.morOrder seq) := by
  unfold Dev.morOrder
  dsimp only
  refine ite (refl d) (ite ?_ (of_chans rfl rfl))
  split <;> exact of_chans rfl rfl

end StaysDown

/-- What the loss of a channel does after it has discarded its queues leaves it down, and the array as it is. -/
theorem Dev.channelDown_spec (d : Dev) (c : Nat) : ((d.channelDown c).chan c).Lost ∧ (d.channelDown c).dram = d.dram := by
  have hstep {a b : Dev} (k : StaysDown a b) (h : (a.chan c).Lost ∧ a.dram = d.dram) : (b.chan c).Lost ∧ b.dram = d.dram :=
    ⟨k.lost c h.1, k.dram.trans h.2⟩
  unfold Dev.channelDown Dev.inCodeOrder
  dsimp only
  refine hstep (.morOrder ..) (hstep (.report ..) (hstep (.foldl (fun a r _ => ?read) _) (hstep (.foldl (fun a o _ => ?source) _)
    (hstep (.foldl (fun a x _ => .nboFinish ..) _) (hstep (.near ..) ?discarded)))))
  case read => exact .ite (.recover ..) ((StaysDown.freeUses a (a.freeUses + 1)).trans (.deliver ..))
  case source =>
    cases o with
    | floe f e cmd => exact .of_floes (.freezeLogical ..)
    | ring n i => exact .of_chans rfl rfl
    | _ => exact .refl a
  case discarded =>
    rw [Dev.chan_setChan, if_pos rfl]
    refine ⟨⟨rfl, rfl, rfl⟩, ?_⟩
    change (if _ then d else d.report ..).dram = d.dram
    split
    · rfl
    · exact Dev.report_dram ..

end Sys2Proof.Machine

/-! ## The registers of the lanes (R163, R166) -/

namespace Sys2Proof.Machine

/-- Registers at distinct offsets, each changed by its own element of a list: each changes once. -/
theorem Dev.reg_foldl_zipIdx {α : Type} {g : Dev → α × Nat → Dev} {off : Nat → Nat} {u : α → Reg → Reg}
    (hoff : Function.Injective off) (hg : ∀ d p o, (g d p).reg o = if o = off p.2 then u p.1 (d.reg o) else d.reg o) (l : List α) (n i : Nat) (d : Dev) :
    ((l.zipIdx n).foldl g d).reg (off i) =
      if n ≤ i then (l[i - n]?).elim (d.reg (off i)) fun x => u x (d.reg (off i)) else d.reg (off i) := by
  induction l generalizing n d with
  | nil => simp
  | cons x l ih =>
    rw [List.zipIdx_cons, List.foldl_cons, ih]
    simp only [hg, hoff.eq_iff]
    obtain h | rfl | h := lt_trichotomy i n
    · rw [if_neg (by omega : ¬n + 1 ≤ i), if_neg (by omega), if_neg (by omega)]
    · rw [if_neg (by omega : ¬i + 1 ≤ i), if_pos rfl, if_pos le_rfl, Nat.sub_self]
      rfl
    · rw [if_pos (by omega : n + 1 ≤ i), if_neg (by omega : i ≠ n), if_pos (by omega), show i - n = (i - (n + 1)) + 1 by omega,
        List.getElem?_cons_succ]

theorem rChTsvLane_injective (c : Nat) : Function.Injective (rChTsvLane c) := by
  intro i j h
  simp only [rChTsvLane] at h
  omega

theorem moveTo_lt {cur centre : Nat} (hcur : cur < 64) (hcentre : centre < 64) : moveTo cur centre < 64 := by
  unfold moveTo
  split <;> omega

theorem moveTo_of_le {cur centre : Nat} (h : cur ≤ centre) : moveTo cur centre = min centre (cur + 2) := by
  unfold moveTo
  split <;> omega

theorem moveTo_of_ge {cur centre : Nat} (h : centre ≤ cur) : moveTo cur centre = max centre (cur - 2) := by
  unfold moveTo
  split <;> omega

/-- A lane's register after a measurement: its setting has moved, and its eye is the one measured. -/
def movedLane (m : LaneMeas) (r : Reg) : Reg := setFld (setFld r 21 16 (moveTo (fld r 21 16) m.centre.toNat)) 13 8 m.eye.toNat

theorem setting_movedLane (m : LaneMeas) (r : Reg) : fld (movedLane m r) 21 16 = moveTo (fld r 21 16) m.centre.toNat := by
  rw [movedLane, fld_setFld_apart _ _ _ _ _ _ (by omega) (by omega),
    fld_setFld_same _ _ _ _ (by omega) (moveTo_lt (bits_lt _ 21 16) m.centre.isLt)]

theorem eye_movedLane (m : LaneMeas) (r : Reg) : fld (movedLane m r) 13 8 = m.eye.toNat := by
  rw [movedLane, fld_setFld_same _ _ _ _ (by omega) m.eye.isLt]

/-- Each lane's setting moves toward its measured centre. -/
def Dev.moveLanes (d : Dev) (c : Nat) (ls : List LaneMeas) : Dev :=
  ls.zipIdx.foldl (fun d p =>
    let o := rChTsvLane c p.2
    (d.setRegFld o 21 16 (moveTo (fld (d.reg o) 21 16) p.1.centre.toNat)).setRegFld o 13 8 p.1.eye.toNat) d

theorem Dev.reg_moveLanes (d : Dev) (c : Nat) {ls : List LaneMeas} {i : Nat} {m : LaneMeas} (h : ls[i]? = some m) :
    (d.moveLanes c ls).reg (rChTsvLane c i) = movedLane m (d.reg (rChTsvLane c i)) := by
  have hlane := Dev.reg_foldl_zipIdx (u := movedLane) (rChTsvLane_injective c)
    (g := fun d p => (d.setRegFld (rChTsvLane c p.2) 21 16 (moveTo (fld (d.reg (rChTsvLane c p.2)) 21 16) p.1.centre.toNat)).setRegFld
      (rChTsvLane c p.2) 13 8 p.1.eye.toNat) (fun d p o => ?_) ls 0 i d
  · rw [if_pos (Nat.zero_le i), Nat.sub_zero, h] at hlane
    exact hlane
  · rw [Dev.reg_setRegFld]
    split
    · next ho =>
      subst ho
      rw [Dev.reg_setRegFld, if_pos rfl]
      rfl
    · next ho => rw [Dev.reg_setRegFld_ne _ _ _ _ ho]

theorem Dev.moveLanes_frame (d : Dev) (c : Nat) (ls : List LaneMeas) :
    (d.moveLanes c ls).chans = d.chans ∧ (d.moveLanes c ls).clock = d.clock :=
  List.foldlRecOn ls.zipIdx _ (motive := fun e : Dev => e.chans = d.chans ∧ e.clock = d.clock) ⟨rfl, rfl⟩ fun _ h _ _ => h

/-- The value that a full retrain stores for a lane. -/
def trainedLane (m : LaneMeas) : Reg :=
  BitVec.ofNat 32 (m.centre.toNat * 2 ^ 24 + m.centre.toNat * 2 ^ 16 + m.eye.toNat * 2 ^ 8)

theorem setting_trainedLane (m : LaneMeas) : fld (trainedLane m) 21 16 = m.centre.toNat := by
  have hcentre := m.centre.isLt
  have heye := m.eye.isLt
  rw [fld, bits_eq_div_mod, trainedLane, BitVec.toNat_ofNat]
  omega

/-- Each lane's setting and centre are the ones measured. -/
def Dev.trainLanes (d : Dev) (c : Nat) (ls : List LaneMeas) : Dev :=
  ls.zipIdx.foldl (fun d p => d.setReg (rChTsvLane c p.2) (trainedLane p.1)) d

theorem Dev.reg_trainLanes (d : Dev) (c : Nat) {ls : List LaneMeas} {i : Nat} {m : LaneMeas} (h : ls[i]? = some m) :
    (d.trainLanes c ls).reg (rChTsvLane c i) = trainedLane m := by
  have hlane := Dev.reg_foldl_zipIdx (u := fun m _ => trainedLane m) (rChTsvLane_injective c)
    (fun d (p : LaneMeas × Nat) o => d.reg_setReg (rChTsvLane c p.2) o (trainedLane p.1)) ls 0 i d
  rw [if_pos (Nat.zero_le i), Nat.sub_zero, h] at hlane
  exact hlane

end Sys2Proof.Machine

/-! ## A full retrain is called for (R167) -/

namespace Sys2Proof.Machine

section CallRetrain

variable {d : Dev} {c : Nat}

/-- A channel whose full retrain has been called for. -/
def Chan.retraining (ch : Chan) (t : Nat) : Chan := { ch.stall t with retrain := true, training := true, retrainFails := 0 }

/-- A channel's own registers are none of those that a report writes. -/
theorem rCh_not_report {c k : Nat} (hc : c < 32) (hk : k < 0x4000) : rCh c + k ∉ reportRegs := by
  simp only [reportRegs, List.mem_cons, List.not_mem_nil, or_false, rCh, rMorSeq, rCpDevsrc, rMorFatal, rMorStat]
  omega

theorem Dev.callRetrain_reg {o : Nat} (hreport : o ∉ reportRegs) (hlow : o ≠ rChRetrain c) (hhigh : o ≠ rChRetrain c + 4) :
    (d.callRetrain c).reg o = d.reg o := by
  unfold Dev.callRetrain
  dsimp only
  split
  · rfl
  · rw [Dev.report_reg _ _ _ _ _ _ _ _ _ hreport, Dev.reg_count_ne _ _ hlow hhigh]
    rfl

variable (hready : (d.chan c).ready = true) (hdown : (d.chan c).down = false) (hself : (d.chan c).selfRef = false)

include hready hdown hself

theorem Dev.callRetrain_spec (hidle : (d.chan c).retrain = false) : let d' := d.callRetrain c
    d'.chan c = (d.chan c).retraining d.clock ∧ d'.clock = d.clock ∧
      (c < 32 → d'.reg64 (rChRetrain c) = d.reg64 (rChRetrain c) + 1) := by
  have heq : d.callRetrain c = ((d.setChan c ((d.chan c).retraining d.clock)).count (rChRetrain c) 1).report 0x0600 1 1 c 0 0 := by
    rw [Dev.callRetrain]
    exact if_neg (by simp [hready, hdown, hself, hidle])
  dsimp only
  rw [heq]
  refine ⟨?_, Dev.report_clock .., fun hc => ?_⟩
  · rw [Dev.chan, Dev.report_chans, ← Dev.chan, Dev.chan_count, Dev.chan_setChan, if_pos rfl]
  · have hlow : rChRetrain c ∉ reportRegs := rCh_not_report hc (by omega)
    have hhigh : rChRetrain c + 4 ∉ reportRegs := rCh_not_report (k := 0x12C) hc (by omega)
    rw [Dev.reg64_congr (Dev.report_reg _ _ _ _ _ _ _ _ _ hlow) (Dev.report_reg _ _ _ _ _ _ _ _ _ hhigh), Dev.reg64_count]
    rfl

/-- A channel in service whose full retrain is called for is in one from then on, and its pauses stay as they are. -/
theorem Dev.callRetrain_retrains : let d' := d.callRetrain c
    (d'.chan c).retrain = true ∧ (d'.chan c).pauseUntil = (d.chan c).pauseUntil ∧ d'.clock = d.clock := by
  dsimp only
  cases hidle : (d.chan c).retrain with
  | true =>
    have heq : d.callRetrain c = d := if_pos (by simp [hidle])
    rw [heq]
    exact ⟨hidle, rfl, rfl⟩
  | false =>
    obtain ⟨hchan, hclock, -⟩ := Dev.callRetrain_spec hready hdown hself hidle
    rw [hchan]
    exact ⟨rfl, rfl, hclock⟩

end CallRetrain

end Sys2Proof.Machine

/-! ## The visits of a periodic retrain (R166, R167) -/

namespace Sys2Proof.Machine

/-- Is a lane's measured centre more than 8 steps from its setting, or its window too narrow? -/
def farLane (m : LaneMeas) (cur : Nat) : Bool :=
  decide (cur + 8 < m.centre.toNat) || decide (m.centre.toNat + 8 < cur) || !lanePasses m

/-- The device once a channel's pause has ended and has moved the settings. -/
def Dev.measured (d : Dev) (c t : Nat) (ls : List LaneMeas) : Dev :=
  ((d.advanceTo t).setChan c { d.chan c with pauseUntil := none }).moveLanes c ls

section Visit

variable {d : Dev} {c : Nat} {ls : List LaneMeas} (hready : (d.chan c).ready = true) (hdown : (d.chan c).down = false)
  (hself : (d.chan c).selfRef = false) (hlanes : ls.length = 39)

include hready hdown hself hlanes

theorem Dev.retrainVisit_due (hpause : (d.chan c).pauseUntil = none) : let d' := d.retrainVisit c ls
    (d'.chan c).visitDue = true ∧ (d'.chan c).retrain = (d.chan c).retrain ∧ (d.chan c).nextVisit ≤ d'.clock ∧
      (d'.chan c).nextVisit = (d.chan c).nextVisit + 100000000 := by
  have heq : d.retrainVisit c ls = (d.advanceTo (d.chan c).nextVisit).setChan c
      { d.chan c with visitDue := true, nextVisit := (d.chan c).nextVisit + 100000000 } := by
    rw [Dev.retrainVisit]
    dsimp only
    rw [if_neg (by simp [hready, hdown, hself, hlanes]), hpause]
  dsimp only
  rw [heq, Dev.chan_setChan, if_pos rfl]
  exact ⟨rfl, rfl, d.le_clock_advanceTo _, rfl⟩

theorem Dev.retrainVisit_measures {t : Nat} (hpause : (d.chan c).pauseUntil = some t) : d.retrainVisit c ls =
    if ls.zipIdx.any fun p => farLane p.1 (fld (d.reg (rChTsvLane c p.2)) 21 16) then (d.measured c t ls).callRetrain c
    else d.measured c t ls := by
  rw [Dev.retrainVisit]
  dsimp only
  rw [if_neg (by simp [hready, hdown, hself, hlanes]), hpause]
  dsimp only
  have hreg (o : Nat) : ((d.advanceTo t).setChan c { d.chan c with pauseUntil := none }).reg o = d.reg o := d.reg_advanceTo t o
  simp only [hreg]
  rfl

omit hready hdown hself hlanes

theorem Dev.measured_spec (d : Dev) (c t : Nat) (ls : List LaneMeas) :
    (d.measured c t ls).chan c = { d.chan c with pauseUntil := none } ∧ t ≤ (d.measured c t ls).clock ∧
      ∀ i m, ls[i]? = some m → (d.measured c t ls).reg (rChTsvLane c i) = movedLane m (d.reg (rChTsvLane c i)) := by
  obtain ⟨hchans, hclock⟩ := ((d.advanceTo t).setChan c { d.chan c with pauseUntil := none }).moveLanes_frame c ls
  refine ⟨?_, ?_, fun i m h => ?_⟩
  · rw [Dev.measured, Dev.chan, hchans, ← Dev.chan, Dev.chan_setChan, if_pos rfl]
  · rw [Dev.measured, hclock]
    exact d.le_clock_advanceTo t
  · rw [Dev.measured, Dev.reg_moveLanes _ _ h]
    exact congrArg _ (d.reg_advanceTo t _)

/-- A measurement far off in some lane, of those at the places of the list. -/
theorem any_farLane_iff (cur : Nat → Nat) : (ls.zipIdx.any fun p => farLane p.1 (cur p.2)) = true ↔
    ∃ i m, ls[i]? = some m ∧ (cur i + 8 < m.centre.toNat ∨ m.centre.toNat + 8 < cur i ∨ m.eye.toNat < 16) := by
  rw [List.any_eq_true]
  constructor
  · rintro ⟨⟨m, i⟩, hmem, hfar⟩
    exact ⟨i, m, List.mk_mem_zipIdx_iff_getElem?.1 hmem, by simpa [farLane, lanePasses, or_assoc] using hfar⟩
  · rintro ⟨i, m, hget, hfar⟩
    exact ⟨(m, i), List.mk_mem_zipIdx_iff_getElem?.2 hget, by simpa [farLane, lanePasses, or_assoc] using hfar⟩

include hready hdown hself hlanes

/-- A pause moves each setting by at most 2 steps, and calls for a full retrain where one lies far off. -/
theorem Dev.retrainVisit_spec {t : Nat} (hc : c < 32) (hpause : (d.chan c).pauseUntil = some t) : let d' := d.retrainVisit c ls
    (d'.chan c).pauseUntil = none ∧ t ≤ d'.clock ∧
      (∀ i m, i < 39 → ls[i]? = some m → d'.reg (rChTsvLane c i) = movedLane m (d.reg (rChTsvLane c i))) ∧
      (d'.chan c).retrain = ((d.chan c).retrain || ls.zipIdx.any fun p => farLane p.1 (fld (d.reg (rChTsvLane c p.2)) 21 16)) := by
  obtain ⟨hchan, hclock, hreg⟩ := d.measured_spec c t ls
  dsimp only
  rw [Dev.retrainVisit_measures hready hdown hself hlanes hpause]
  split
  · next hfar =>
    obtain ⟨hretrain, hpauses, hsame⟩ := Dev.callRetrain_retrains (d := d.measured c t ls) (c := c) (by rw [hchan]; exact hready)
      (by rw [hchan]; exact hdown) (by rw [hchan]; exact hself)
    refine ⟨by rw [hpauses, hchan], by rw [hsame]; exact hclock, fun i m hi h => ?_, by rw [hretrain, hfar, Bool.or_true]⟩
    have hreport : rChTsvLane c i ∉ reportRegs := by
      rw [rChTsvLane, Nat.add_assoc]
      exact rCh_not_report hc (by omega)
    rw [Dev.callRetrain_reg hreport (by simp only [rChTsvLane, rChRetrain]; omega) (by simp only [rChTsvLane, rChRetrain]; omega),
      hreg i m h]
  · next hnear =>
    rw [Bool.not_eq_true] at hnear
    exact ⟨by rw [hchan], hclock, fun i m _ => hreg i m, by rw [hchan, hnear, Bool.or_false]⟩

end Visit

end Sys2Proof.Machine

/-! ## The attempts of a full retrain (R163, R167, R371) -/

namespace Sys2Proof.Machine

section Attempt

variable {d : Dev} {c : Nat} {ls : List LaneMeas} (hlanes : ls.length = 39) (hretrain : (d.chan c).retrain = true)
  (href : (d.chan c).refUntil = none) (hatoms : d.atomRuns c = false)

include hlanes hretrain href hatoms

theorem Dev.retrainAttempt_eq (ok : Bool) : d.retrainAttempt c ok ls =
    if ok && ls.all lanePasses then
      ((d.trainLanes c ls).setChan c { d.chan c with retrain := false, training := false, retrainFails := 0 }).chainResume c
    else if 2 ≤ (d.chan c).retrainFails then d.channelDown c
    else d.setChan c { d.chan c with retrainFails := (d.chan c).retrainFails + 1 } := by
  rw [Dev.retrainAttempt]
  exact if_neg (by simp [hretrain, hlanes, href, hatoms])

theorem Dev.retrainAttempt_trains (hpass : ∀ m ∈ ls, 16 ≤ m.eye.toNat) : let d' := d.retrainAttempt c true ls
    (d'.chan c).retrain = false ∧ (d'.chan c).training = false ∧ (d'.chan c).down = (d.chan c).down ∧
      ∀ i m, ls[i]? = some m → fld (d'.reg (rChTsvLane c i)) 21 16 = m.centre.toNat := by
  have hall : (true && ls.all lanePasses) = true := by simpa [lanePasses] using hpass
  dsimp only
  rw [Dev.retrainAttempt_eq hlanes hretrain href hatoms, if_pos hall]
  obtain ⟨⟨nbos, chans, hdev⟩, from', ends, hchan⟩ :=
    ((d.trainLanes c ls).setChan c { d.chan c with retrain := false, training := false, retrainFails := 0 }).chainResume_spec c
  rw [hchan, Dev.chan_setChan, if_pos rfl, hdev]
  refine ⟨rfl, rfl, rfl, fun i m h => ?_⟩
  rw [← setting_trainedLane m, ← Dev.reg_trainLanes d c h]
  rfl

variable {ok : Bool} (hfails : ok = false ∨ ∃ m ∈ ls, m.eye.toNat < 16)

include hfails

theorem Dev.retrainAttempt_fails : d.retrainAttempt c ok ls = if 2 ≤ (d.chan c).retrainFails then d.channelDown c
    else d.setChan c { d.chan c with retrainFails := (d.chan c).retrainFails + 1 } := by
  rw [Dev.retrainAttempt_eq hlanes hretrain href hatoms]
  refine if_neg ?_
  obtain rfl | ⟨m, hmem, hnarrow⟩ := hfails
  · simp
  · simpa [lanePasses] using fun _ => ⟨m, hmem, hnarrow⟩

theorem Dev.retrainAttempt_again (hfew : (d.chan c).retrainFails < 2) : let d' := d.retrainAttempt c ok ls
    (d'.chan c).retrain = true ∧ (d'.chan c).retrainFails = (d.chan c).retrainFails + 1 ∧ (d'.chan c).down = (d.chan c).down := by
  dsimp only
  rw [Dev.retrainAttempt_fails hlanes hretrain href hatoms hfails, if_neg (by omega), Dev.chan_setChan, if_pos rfl]
  exact ⟨hretrain, rfl, rfl⟩

theorem Dev.retrainAttempt_last (hmany : 2 ≤ (d.chan c).retrainFails) : let d' := d.retrainAttempt c ok ls
    (d'.chan c).Lost ∧ d'.dram = d.dram := by
  dsimp only
  rw [Dev.retrainAttempt_fails hlanes hretrain href hatoms hfails, if_pos hmany]
  exact d.channelDown_spec c

end Attempt

end Sys2Proof.Machine

/-! ## Writes of CH_CTRL and of INTLV_LOG2 (R134, R167, R451) -/

namespace Sys2Proof.Machine

open Sys2Proof.Claims

theorem rChCtrl_eq (c : Nat) : rChCtrl c = 0x100008 + c * 0x4000 := by
  rw [rChCtrl, rCh]
  omega

theorem regRow_rChCtrl : ∀ c : Fin 32, (regRow (rChCtrl c)).isSome = true := by decide

/-- Of CH_CTRL the sideband writes RETRAIN, and not in reset (R501). -/
theorem sideWrites_rChCtrl : ∀ c : Fin 32, sideWrites (rChCtrl c) = 0x80000000 ∧ sideAlways (rChCtrl c) = false := by decide

/-- A device that differs in CH_CTRL and in the log at most. -/
structure CtrlWritten (c : Nat) (d d' : Dev) : Prop where
  chans : d'.chans = d.chans
  reg : ∀ o, o ≠ rChCtrl c → o ∉ reportRegs → d'.reg o = d.reg o

theorem CtrlWritten.csReport (d : Dev) (c : Nat) (r : Rights) (code o : Nat) : CtrlWritten c d (d.csReport r code o) := by
  unfold Dev.csReport
  split <;> exact ⟨Dev.report_chans .., fun o _ ho => Dev.report_reg _ _ _ _ _ _ _ _ o ho⟩

theorem Dev.writeAction_chCtrl (d : Dev) (r : Rights) (c : Fin 32) {v : Reg} (hv : rbit v 31 = true) :
    ∃ e, CtrlWritten c d e ∧ d.writeAction r (rChCtrl c) v = some (e.callRetrain c) := by
  have hc := c.isLt
  have hdiv : (rChCtrl c - 0x100000) / 0x4000 = c := by rw [rChCtrl_eq]; omega
  have hmod : rChCtrl c % 0x4000 = 0x8 := by rw [rChCtrl_eq]; omega
  have hlow : 0x100000 ≤ rChCtrl c := by rw [rChCtrl_eq]; omega
  have hhigh : rChCtrl c < 0x180000 := by rw [rChCtrl_eq]; omega
  refine ⟨if r.secure && !r.side then d.setRegBit (rChCtrl c) 0 (rbit v 0) else d, ?_, ?_⟩
  · split
    · exact ⟨rfl, fun o ho _ => Dev.reg_setRegBit_ne _ _ _ ho⟩
    · exact ⟨rfl, fun _ _ _ => rfl⟩
  · generalize rChCtrl c = o at *
    unfold Dev.writeAction
    rw [if_neg (by simp only [rRstCtrl]; omega), if_neg (by simp only [rFlCtrl]; omega), if_neg (by simp only [rMonProcCtrl]; omega),
      if_neg (by simp only [rDbgCtrl]; omega), if_neg (by simp only [rAdm]; omega), if_pos ⟨hlow, hhigh⟩]
    dsimp only
    rw [hdiv, hmod, hv]
    rfl

theorem Dev.writeReg_chCtrl (d : Dev) (r : Rights) (c : Fin 32) {v : Reg} (hv : rbit v 31 = true) :
    ∃ e, CtrlWritten c d e ∧ d.writeReg r (rChCtrl c) v = e.callRetrain c := by
  obtain ⟨row, hrow⟩ := Option.isSome_iff_exists.1 (regRow_rChCtrl c)
  have hreported : CtrlWritten c d (if row.hasRws && !r.secure then d.csReport r 0x0B01 (rChCtrl c) else d) := by
    split
    · exact .csReport ..
    · exact ⟨rfl, fun _ _ _ => rfl⟩
  obtain ⟨e, hwritten, haction⟩ :=
    Dev.writeAction_chCtrl (if row.hasRws && !r.secure then d.csReport r 0x0B01 (rChCtrl c) else d) r c hv
  refine ⟨e, ⟨hwritten.chans.trans hreported.chans, fun o ho hr => (hwritten.reg o ho hr).trans (hreported.reg o ho hr)⟩, ?_⟩
  unfold Dev.writeReg
  rw [hrow]
  dsimp only
  rw [haction]

/-- A register of the channels' blocks that the sideband may write, out of reset, is open to every source that its path lets through:
the sideband writes the bits of its subset (R451, R501). -/
theorem Dev.agentWrite_channelBlock {d : Dev} {ag : Agent} {o : Nat} (h : Writes d ag o) (hlow : 0x100000 ≤ o) (hhigh : o < 0x200000)
    (halign : o % 4 = 0) (hnever : sideAlways o = false) (hsubset : sideWrites o ≠ 0) (v : Reg) :
    ∃ r w, d.agentWrite ag o v = d.writeReg r o w ∧ (w = v ∨ w = v &&& sideWrites o) := by
  obtain ⟨hreach, hreset⟩ := h
  by_cases hside : ag.kind = 1
  · refine ⟨sideRights, v &&& sideWrites o, ?_, .inr rfl⟩
    have hserves : d.sideInReset = false := Bool.eq_false_iff.2 fun hin =>
      Bool.false_ne_true (hnever.symm.trans (hreset hside hin))
    have hstore : d.sideStore o v = (true, d.writeReg sideRights o (v &&& sideWrites o)) := if_neg hsubset
    rw [Dev.agentWrite, if_neg (by simp [hreach, halign]), if_pos hside, if_neg (by simp [hserves]), hstore]
  · exact ⟨_, v, d.agentWrite_of_admitted ag o v hreach hside halign (d.letIn_channelBlock _ hlow hhigh)
      (d.wordClosed_channelBlock _ true (by omega) (by omega)), .inl rfl⟩

/-- A write of CH_CTRL with RETRAIN set calls for a full retrain, from every source that its path lets through. -/
theorem Dev.agentWrite_chCtrl {d : Dev} {ag : Agent} {c : Fin 32} (h : Writes d ag (rChCtrl c)) {v : Reg} (hv : rbit v 31 = true) :
    ∃ e, CtrlWritten c d e ∧ d.agentWrite ag (rChCtrl c) v = e.callRetrain c := by
  have hc := c.isLt
  have ho := rChCtrl_eq c
  obtain ⟨hbits, hnever⟩ := sideWrites_rChCtrl c
  obtain ⟨r, w, hwrite, hvalue⟩ := Dev.agentWrite_channelBlock h (by omega) (by omega) (by omega) hnever (by rw [hbits]; decide) v
  have hw : rbit w 31 = true := by
    obtain rfl | rfl := hvalue
    · exact hv
    · rw [hbits, rbit, BitVec.getLsbD_and, ← rbit, hv]
      rfl
  rw [hwrite]
  exact d.writeReg_chCtrl r c hw

/-- CH_CTRL.RETRAIN calls for a full retrain of a channel in service. -/
theorem Dev.chCtrl_retrains {d : Dev} {ag : Agent} {c : Fin 32} (h : Writes d ag (rChCtrl c)) (hready : (d.chan c).ready = true)
    (hdown : (d.chan c).down = false) (hself : (d.chan c).selfRef = false) (hidle : (d.chan c).retrain = false) :
    let d' := d.agentWrite ag (rChCtrl c) (d.reg (rChCtrl c) ||| 0x80000000)
    (d'.chan c).retrain = true ∧ (d'.chan c).training = true ∧ (d'.chan c).retrainFails = 0 ∧
      d'.reg64 (rChRetrain c) = d.reg64 (rChRetrain c) + 1 := by
  have hbit : rbit (d.reg (rChCtrl c) ||| 0x80000000) 31 = true := by
    rw [rbit, BitVec.getLsbD_or]
    exact Bool.or_true _
  obtain ⟨e, ⟨hchans, hreg⟩, heq⟩ := Dev.agentWrite_chCtrl h hbit
  have hchan : e.chan c = d.chan c := by rw [Dev.chan, hchans, Dev.chan]
  have hcount : e.reg64 (rChRetrain c) = d.reg64 (rChRetrain c) :=
    Dev.reg64_congr (hreg _ (by simp only [rChRetrain, rChCtrl]; omega) (rCh_not_report c.isLt (by omega)))
      (hreg _ (by simp only [rChRetrain, rChCtrl]; omega) (rCh_not_report (k := 0x12C) c.isLt (by omega)))
  rw [← hchan] at hready hdown hself hidle
  obtain ⟨hretraining, -, hcounted⟩ := Dev.callRetrain_spec hready hdown hself hidle
  dsimp only
  rw [heq, hretraining, hcounted c.isLt, hcount]
  exact ⟨rfl, rfl, rfl, rfl⟩

/-- At VENDOR level the test access port sets the granularity, of which the register holds 5 bits. -/
theorem Dev.tapWrite_chCfg {d : Dev} (hlive : d.sys.phase.live = true) (hlevel : d.tapLevel = 2) (v : Reg) :
    d.agentWrite tapAgent (rChCfg 0) v = d.setIntlv (fld v 20 16) := by
  have hreach : d.reaches tapAgent = true := by
    change (d.sys.phase.live && d.tapLevel != 0) = true
    rw [hlive, hlevel]
    rfl
  have hrights : d.rights tapAgent = { path := 33, field := none, secure := true, side := false, vendor := true, host := none } := by
    change d.tapRights = _
    rw [Dev.tapRights, hlevel]
    rfl
  rw [d.agentWrite_of_admitted tapAgent _ v hreach (by decide) (by decide) (d.letIn_channelBlock _ (by decide) (by decide))
    (d.wordClosed_channelBlock _ true (by decide) (by decide)), hrights]
  rfl

/-- In interleave mode every channel takes the granularity, held between its limits (R134). -/
theorem Dev.setIntlv_spec {d : Dev} (hmode : rbit (d.reg (rChCfg 0)) 31 = true) (g : Nat) {j : Nat} (hj : j < 32) :
    fld ((d.setIntlv g).reg (rChCfg j)) 20 16 = max 8 (min 21 g) := by
  have hclamp : clampNat 8 21 g = max 8 (min 21 g) := by
    unfold clampNat
    split
    · omega
    · split <;> omega
  have hall (n : Nat) : ∀ k, k < n → fld ((forNat n d fun d c => d.setRegFld (rChCfg c) 20 16 (clampNat 8 21 g)).reg (rChCfg k)) 20 16 =
      clampNat 8 21 g := by
    induction n with
    | zero => exact fun k hk => absurd hk (Nat.not_lt_zero k)
    | succ n ih =>
      intro k hk
      rw [forNat_succ]
      by_cases hlast : k = n
      · rw [hlast, Dev.fld_setRegFld_same _ _ _ _ _ (by omega) (by omega)]
      · rw [Dev.reg_setRegFld_ne _ _ _ _ (by simp only [rChCfg, rCh]; omega), ih k (by omega)]
  rw [Dev.setIntlv, if_pos hmode, hall 32 j hj, hclamp]

end Sys2Proof.Machine

namespace Sys2Proof.Proofs

open Sys2Proof.Machine Sys2Proof.Claims

/-- Settles O29: each step of the training changes the channel's record and its lanes' registers, or takes the channel down. -/
theorem channelTraining : Obligations.ChannelTraining := by
  unfold Obligations.ChannelTraining
  intro s c hup k
  obtain ⟨hlive, hready, hdown, hself⟩ := id hup
  refine ⟨fun ls hlanes => ?_, fun ag hwrites hidle => ?_, fun g hlevel hmode => ?_⟩
  · intro cur
    refine ⟨fun hpause => ?_, fun t hpause => ?_, fun hretrain href hatoms hpass => ?_, fun ok hfails hretrain href hatoms =>
      ⟨fun hfew => ?_, fun hmany => ?_⟩⟩
    · exact runs_live _ s _ (fun d => d.retrainVisit c ls) rfl hlive (Dev.retrainVisit_due hready hdown hself hlanes hpause)
    · refine runs_live _ s _ (fun d => d.retrainVisit c ls) rfl hlive ?_
      obtain ⟨hended, hclock, hreg, hcalls⟩ := Dev.retrainVisit_spec hready hdown hself hlanes c.isLt hpause
      refine ⟨hended, hclock, fun i m hi h => ?_, fun ⟨i, m, _, h, hfar⟩ => ?_, fun hnear => ?_⟩
      · have hmoved : fld ((s.dev.retrainVisit c ls).reg (rChTsvLane c i)) 21 16 = moveTo (cur i) m.centre.toNat := by
          rw [hreg i m hi h]
          exact setting_movedLane m _
        have heye : fld ((s.dev.retrainVisit c ls).reg (rChTsvLane c i)) 13 8 = m.eye.toNat := by
          rw [hreg i m hi h]
          exact eye_movedLane m _
        exact ⟨fun hbelow => hmoved.trans (moveTo_of_le hbelow), fun habove => hmoved.trans (moveTo_of_ge habove), heye⟩
      · refine hcalls.trans ?_
        rw [(any_farLane_iff cur).2 ⟨i, m, h, hfar⟩, Bool.or_true]
      · refine hcalls.trans ?_
        have hnone : (ls.zipIdx.any fun p => farLane p.1 (cur p.2)) = false := by
          refine Bool.eq_false_iff.2 fun hany => ?_
          obtain ⟨i, m, h, hfar⟩ := (any_farLane_iff cur).1 hany
          obtain ⟨hi, -⟩ := List.getElem?_eq_some_iff.1 h
          obtain ⟨hlow, hhigh, hwide⟩ := hnear i m (hlanes ▸ hi) h
          omega
        rw [hnone, Bool.or_false]
    · refine runs_live _ s _ (fun d => d.retrainAttempt c true ls) rfl hlive ?_
      obtain ⟨hended, htrained, hstays, hreg⟩ := Dev.retrainAttempt_trains hlanes hretrain href hatoms hpass
      exact ⟨hended, htrained, hstays.trans hdown, fun i m _ => hreg i m⟩
    · refine runs_live _ s _ (fun d => d.retrainAttempt c ok ls) rfl hlive ?_
      obtain ⟨hagain, hfailed, hstays⟩ := Dev.retrainAttempt_again hlanes hretrain href hatoms hfails hfew
      exact ⟨hagain, hfailed, hstays.trans hdown⟩
    · refine runs_live _ s _ (fun d => d.retrainAttempt c ok ls) rfl hlive ?_
      obtain ⟨⟨hlost, hnever, hempty⟩, hdram⟩ := Dev.retrainAttempt_last hlanes hretrain href hatoms hfails hmany
      exact ⟨hlost, hnever, hempty, hdram⟩
  · exact runs_of _ s _ (fun d => d.agentWrite ag (rChCtrl c) (d.reg (rChCtrl c) ||| 0x80000000)) rfl
      (Dev.chCtrl_retrains hwrites hready hdown hself hidle)
  · refine runs_of _ s _ (fun d => d.agentWrite tapAgent (rChCfg 0) (BitVec.ofNat 32 (g.toNat * 2 ^ 16))) rfl fun j hj => ?_
    have hvalue : fld (BitVec.ofNat 32 (g.toNat * 2 ^ 16)) 20 16 = g.toNat := by
      have hg := g.isLt
      rw [fld, bits_eq_div_mod, BitVec.toNat_ofNat]
      omega
    have hset := Dev.setIntlv_spec hmode g.toNat hj
    rw [← hvalue, ← Dev.tapWrite_chCfg hlive hlevel, hvalue] at hset
    exact hset

end Sys2Proof.Proofs

/-! Proofs of the statements about near-bank operations (R173 to R203). -/

/-! ## Numbers made of fields of one width (R173, R174) -/

namespace Sys2Proof.Machine

/-- A field of a number that has been made of fields of its width. -/
theorem field_foldr (w : Nat) (xs : List Nat) (i : Nat) :
    xs.foldr (fun x y => x % 2 ^ w + 2 ^ w * y) 0 >>> (w * i) % 2 ^ w = (xs[i]?).getD 0 % 2 ^ w := by
  induction xs generalizing i with
  | nil => simp
  | cons x xs ih =>
    cases i with
    | zero => simp
    | succ i =>
      rw [List.foldr_cons, Nat.mul_succ, Nat.add_comm (w * i), Nat.shiftRight_add, Nat.shiftRight_eq_div_pow _ w,
        Nat.add_mul_div_left _ _ (Nat.two_pow_pos w), Nat.div_eq_of_lt (Nat.mod_lt _ (Nat.two_pow_pos w)), Nat.zero_add, ih,
        List.getElem?_cons_succ]

/-- A word keeps the fields that lie within it. -/
theorem field_ofNat {n w i : Nat} (x : Nat) (h : w * i + w ≤ n) :
    (BitVec.ofNat n x).toNat >>> (w * i) % 2 ^ w = x >>> (w * i) % 2 ^ w := by
  refine Nat.eq_of_testBit_eq fun j => ?_
  simp only [BitVec.toNat_ofNat, Nat.testBit_mod_two_pow, Nat.testBit_shiftRight]
  by_cases hj : j < w
  · simp [hj, show w * i + j < n by omega]
  · simp [hj]

theorem lane_vecOfLanes (xs : List Nat) {l : Nat} (hl : l < 16) : lane (vecOfLanes xs) l = (xs[l]?).getD 0 % 2 ^ 32 := by
  rw [lane, vecOfLanes, field_ofNat _ (by omega), field_foldr]

/-- A vector that is made lane by lane. -/
theorem lane_vecOfLanes_map (f : Nat → Nat) {l : Nat} (hl : l < 16) : lane (vecOfLanes ((List.range 16).map f)) l = f l % 2 ^ 32 := by
  rw [lane_vecOfLanes _ hl, List.getElem?_map, List.getElem?_range hl]
  rfl

theorem lane_mod (v : BitVec 512) (l : Nat) : lane v l % 2 ^ 32 = lane v l := Nat.mod_mod ..

theorem lane_combVec (n : NboDesc) (x y : BitVec 512) {l : Nat} (hl : l < 16) :
    lane (combVec n x y) l = comb n (lane x l) (lane y l) % 2 ^ 32 := lane_vecOfLanes_map _ hl

/-- With LANEMASK full, every element is enabled (R182, R184). -/
theorem enabled_of_fullMask {n : NboDesc} (hfull : n.fullMask = true) {e : Nat} (he : e < 256 / bankBits n.fmt) :
    enabled n e = true := by
  have hlow : ∀ k, k < 16 → (0xFFFF : Nat).testBit k = true := by decide
  have hbyte : ∀ k, k < 8 → (0x00FF : Nat).testBit k = true := by decide
  have hmask : n.laneMask = if 5 ≤ n.fmt then 0x00FF else 0xFFFF := eq_of_beq hfull
  unfold enabled
  rw [hmask]
  match hfmt : n.fmt with
  | 0 | 1 | 2 | 3 | 4 => rw [hfmt] at he; exact hlow _ (by simp only [bankBits] at he; omega)
  | k + 5 => rw [hfmt] at he; simpa using hbyte e (by simp only [bankBits] at he; omega)

/-- Under a full mask SETW stores its own element everywhere (R182). -/
theorem colElem_updateCol_setw {n : NboDesc} (hop : n.op = 5) (hfull : n.fullMask = true) (old w : BitVec 256)
    (contrib : Option (BitVec 512)) {e : Nat} (he : e < 256 / bankBits n.fmt) :
    colElem n.fmt (updateCol n old w contrib) e = colElem n.fmt w e := by
  have hfits : bankBits n.fmt * e + bankBits n.fmt ≤ 256 := by
    have := Nat.mul_le_mul_left (bankBits n.fmt) (Nat.succ_le_of_lt he)
    have := Nat.mul_div_le 256 (bankBits n.fmt)
    rw [Nat.mul_succ] at *
    omega
  rw [colElem, updateCol, field_ofNat _ hfits, field_foldr, List.getElem?_map, List.getElem?_range he]
  simp only [Option.map_some, Option.getD_some, enabled_of_fullMask hfull he, hop]
  exact Nat.mod_mod ..

end Sys2Proof.Machine

/-! ## NBOs, their units and the slots of the banks under the named updates -/

namespace Sys2Proof.Machine

theorem Dev.bankNear_updBankNear (d : Dev) (c b k : Nat) (f : BankNear → BankNear) :
    (d.updBankNear c b f).bankNear c k = if k = b then f (d.bankNear c b) else d.bankNear c k := by
  refine (tabGet_set ..).trans (if_congr ⟨fun h => ?_, fun h => ?_⟩ rfl rfl) <;> omega

theorem Dev.bankNear_updBankNear_same (d : Dev) (c b : Nat) (f : BankNear → BankNear) :
    (d.updBankNear c b f).bankNear c b = f (d.bankNear c b) :=
  (d.bankNear_updBankNear c b b f).trans (if_pos rfl)

theorem Dev.bankNear_congr {d d' : Dev} (h : d'.near = d.near) (c b : Nat) : d'.bankNear c b = d.bankNear c b := by
  rw [Dev.bankNear, h, Dev.bankNear]

theorem Dev.bankNear_count (d : Dev) (o n c b : Nat) : (d.count o n).bankNear c b = d.bankNear c b := rfl

theorem Dev.mem_of_nbo {d : Dev} {id : Nat} {x : Nbo} (h : d.nbo id = some x) : x ∈ d.nbos := List.mem_of_find?_eq_some h

theorem Dev.id_of_nbo {d : Dev} {id : Nat} {x : Nbo} (h : d.nbo id = some x) : x.id = id := by simpa using List.find?_some h

theorem Nbo.mem_of_unit {x : Nbo} {b : Nat} {u : BankUnit} (h : x.unit b = some u) : u ∈ x.units := List.mem_of_find?_eq_some h

theorem Nbo.bank_of_unit {x : Nbo} {b : Nat} {u : BankUnit} (h : x.unit b = some u) : u.bank = b := by simpa using List.find?_some h

theorem Dev.mem_updNbo {d : Dev} {x : Nbo} (hmem : x ∈ d.nbos) (f : Nbo → Nbo) : f x ∈ (d.updNbo x.id f).nbos :=
  List.mem_map.2 ⟨x, hmem, if_pos (beq_self_eq_true _)⟩

/-- A unit of an NBO that is changed stands in the device's NBO as it is after the change. -/
theorem Dev.exists_updUnit {d : Dev} {x : Nbo} {b : Nat} {u : BankUnit} {f : BankUnit → BankUnit} {P : BankUnit → Prop}
    (hmem : x ∈ d.nbos) (hunit : x.unit b = some u) (hbank : (f u).bank = u.bank) (hP : P (f u)) :
    ∃ y ∈ (d.updUnit x.id b f).nbos, y.id = x.id ∧ ∃ v ∈ y.units, v.bank = b ∧ P v := by
  obtain ⟨y, hy, hid, v, hv, hvb, rfl⟩ := Dev.updUnit_mem (f := f) hmem hunit hbank
  exact ⟨y, hy, hid, _, hv, hvb, hP⟩

end Sys2Proof.Machine

/-! ## The work of an atom (R182, R193, R198) -/

namespace Sys2Proof.Machine

open Sys2Proof.Claims

theorem Traffic.near {d d' : Dev} (h : Traffic d d') : d'.near = d.near := by
  obtain ⟨⟨_, _, _, _, _, _, _, _, _, _, rfl⟩, -, -⟩ := h
  rfl

theorem SideTraffic.foldl {β : Type} {f : Dev → β → Dev} (h : ∀ d x, SideTraffic d (f d x)) (l : List β) (d : Dev) :
    SideTraffic d (l.foldl f d) :=
  List.foldlRecOn l f (refl d) fun b hb x _ => hb.trans (h b x)

/-- What the reports of an atom's reads leave: the array, the NBOs and the banks. -/
structure ReadsNoted (d d' : Dev) : Prop where
  dram : d'.dram = d.dram
  nbos : d'.nbos = d.nbos
  near : d'.near = d.near

theorem ReadsNoted.of_side {d d' : Dev} (h : SideTraffic d d') : ReadsNoted d d' := ⟨h.dram, h.nbos, h.near⟩

theorem ReadsNoted.trans {a b c : Dev} (h : ReadsNoted a b) (k : ReadsNoted b c) : ReadsNoted a c :=
  ⟨k.dram.trans h.dram, k.nbos.trans h.nbos, k.near.trans h.near⟩

theorem readsNoted_reports (d : Dev) (unit o corr : Nat) (fixed bad : List Nat) :
    ReadsNoted d (bad.foldl (fun d w => (d.report 0x0002 2 2 unit (d.addrOf w) 0).copyBroken (d.addrOf w))
      (fixed.foldl (fun d w => d.report 0x0001 1 2 unit (d.addrOf w) 0) (d.count o corr))) :=
  ReadsNoted.trans (b := d.count o corr) ⟨rfl, rfl, rfl⟩
    (.of_side ((SideTraffic.foldl (fun _ _ => .report ..) fixed _).trans
      (SideTraffic.foldl (fun _ _ => (SideTraffic.report ..).trans (.copyBroken ..)) bad _)))

/-- The column words and their data that an atom has ready to write. -/
def outData (d : Dev) (c b : Nat) : List (Nat × BitVec 256) := (atomOut d c b).map fun o => (o.1, o.2.1)

/-- The words of an atom's window, made of the words read. -/
def windowOf (first : Nat) (reads : List (BitVec 256 × BitVec 4 × Nat × Nat)) (word : Nat → BitVec 256 → BitVec 256) :
    List (Nat × BitVec 256) := reads.zipIdx.map fun p => (first + p.2, word p.2 p.1.1)

/-- The accumulators after the column words of a row (R182). -/
def foldedRow (n : NboDesc) (u : BankUnit) (reads : List (BitVec 256 × BitVec 4 × Nat × Nat)) : BitVec 512 × BitVec 512 :=
  reads.zipIdx.foldl (fun acc p => reduceCol n acc.1 acc.2 p.1.1 (u.wOf n p.2).1) (u.ac0, u.ac1)

/-- The contribution of the NBOs folded into an ACCW, if there are any (R225, R226). -/
def Nbo.contrib (x : Nbo) : Option (BitVec 512) :=
  if x.d.op = 4 && x.d.firnSrc = 1 && !x.d.ordered && !x.d.sat && !x.folds.isEmpty then some x.vec else none

/-- The outcome of an atom's work, by its kind: accumulators, words to write, or words in the next bank's unit. -/
def AtomWorked (d d' : Dev) (c b : Nat) (a : Atom) (x : Nbo) (u : BankUnit) : Prop :=
  let reads := colReads d c b a x.d
  d'.dram = d.dram ∧ match a.kind with
    | .compute i =>
      if x.d.reduces then
        ∃ y ∈ d'.nbos, y.id = x.id ∧ ∃ v ∈ y.units, v.bank = b ∧ v.atoms = u.atoms ∧
          let r := foldedRow x.d u reads
          (v.ac0, v.ac1) = if x.d.perRow then
              (identityVec x.d, vecOfLanes ((List.range 16).map fun l => if l = i then hred x.d r.1 r.2 else lane u.ac1 l))
            else r
      else outData d' c b = windowOf x.d.colFirst reads fun k old => updateCol x.d old (u.wOf x.d k).1 x.contrib
    | .result => outData d' c b = windowOf x.d.dcol reads fun k old => resultCol x.d u k old
    | .shiftSend => ∀ v, x.unit (x.d.nextBank b) = some v → ∃ y ∈ d'.nbos, y.id = x.id ∧ ∃ v' ∈ y.units,
        v'.bank = x.d.nextBank b ∧ v'.w = (List.range 16).map fun k => ((reads[k]?).map (·.1)).getD ((v.w[k]?).getD 0)
    | .shiftRecv => outData d' c b = windowOf x.d.colFirst reads fun k _ => (u.w[k]?).getD 0

theorem outData_updBankNear (d : Dev) (c b : Nat) {f : BankNear → BankNear} {a : Atom} (h : (f (d.bankNear c b)).atom = some a) :
    outData (d.updBankNear c b f) c b = a.out.map fun o => (o.1, o.2.1) := by
  rw [outData, atomOut, d.bankNear_updBankNear_same, h]
  rfl

/-- The reads of an atom, each with its number in the window and its column word. -/
theorem reads_eq_zipIdx (d : Dev) (c b : Nat) (a : Atom) (n : NboDesc) :
    (if atomForm n a.kind = 2 then
        ((List.range (atomCols n a.kind)).map fun k => (k, atomFirst n a.kind + k)).map fun p =>
          (p.1, p.2, (0 : BitVec 256), (0 : BitVec 4), 0, 0)
      else ((List.range (atomCols n a.kind)).map fun k => (k, atomFirst n a.kind + k)).map fun p =>
          (p.1, p.2, d.nearRead c b a.row p.2)) =
      (colReads d c b a n).zipIdx.map fun p => (p.2, atomFirst n a.kind + p.2, p.1) := by
  rw [colReads]
  refine List.ext_getElem? fun k => ?_
  by_cases hk : k < atomCols n a.kind
  · split <;> simp [hk]
  · split <;> simp [hk]

theorem foldl_add_eq_zero {xs : List Nat} (h : ∀ x ∈ xs, x = 0) : xs.foldl (· + ·) 0 = 0 :=
  List.foldlRecOn (motive := fun s => s = 0) xs _ rfl fun s hs x hx => by rw [hs, h x hx]

/-- The unit that an atom's work has changed, in the device's NBO. -/
theorem Dev.exists_unit_worked {d : Dev} {x : Nbo} {c b k : Nat} {u : BankUnit} {f : BankUnit → BankUnit} {g : Nbo → Nbo}
    {h : BankNear → BankNear} {P : BankUnit → Prop} (hmem : x ∈ d.nbos) (hunit : x.unit k = some u) (hbank : (f u).bank = u.bank)
    (hg : ∀ y, (g y).id = y.id ∧ (g y).units = y.units) (hP : P (f u)) :
    ∃ y ∈ (((d.updUnit x.id k f).updNbo x.id g).updBankNear c b h).nbos, y.id = x.id ∧ ∃ v ∈ y.units, v.bank = k ∧ P v := by
  obtain ⟨y, hy, hid, v, hv, hvk⟩ := Dev.exists_updUnit hmem hunit hbank hP
  exact ⟨g y, hid ▸ Dev.mem_updNbo hy g, (hg y).1.trans hid, v, (hg y).2 ▸ hv, hvk⟩

/-- An atom works on column words that hold no uncorrectable code word. -/
theorem Dev.atomWork_worked {d : Dev} {c b : Nat} {a : Atom} {x : Nbo} {u : BankUnit} (hatom : (d.bankNear c b).atom = some a)
    (hnbo : d.nbo a.nbo = some x) (hunit : x.unit b = some u) (hfresh : a.worked = false)
    (hclean : ∀ r ∈ colReads d c b a x.d, r.2.2.2 = 0) : AtomWorked d (d.atomWork c b) c b a x u := by
  have hunc : ((((colReads d c b a x.d).zipIdx.map fun p => (p.2, atomFirst x.d a.kind + p.2, p.1)).map
      fun r => r.2.2.2.2.2).foldl (· + ·) 0) = 0 := by
    refine foldl_add_eq_zero fun k hk => ?_
    rw [List.map_map] at hk
    obtain ⟨p, hp, rfl⟩ := List.mem_map.1 hk
    exact hclean _ (List.fst_mem_of_mem_zipIdx hp)
  unfold Dev.atomWork
  rw [hatom]
  dsimp only
  rw [hnbo]
  dsimp only
  rw [hunit]
  dsimp only
  rw [hfresh, if_neg Bool.false_ne_true, reads_eq_zipIdx, hunc, if_neg (by simp)]
  generalize he : List.foldl (fun (d : Dev) w => (d.report 0x0002 2 2 (64 * c + b) (d.addrOf w) 0).copyBroken (d.addrOf w)) _ _ = e
  have hnoted : ReadsNoted d e := he ▸ readsNoted_reports ..
  have hmem : x ∈ e.nbos := hnoted.nbos ▸ Dev.mem_of_nbo hnbo
  unfold AtomWorked
  cases hkind : a.kind with
  | compute i =>
    dsimp only
    split
    · refine ⟨hnoted.dram, Dev.exists_unit_worked hmem hunit ?_ (fun _ => ⟨rfl, rfl⟩) ⟨?_, ?_⟩⟩
      · split <;> rfl
      · split <;> rfl
      · rw [List.foldl_map, foldedRow]
        split <;> rfl
    · refine ⟨hnoted.dram, (outData_updBankNear _ _ _ rfl).trans ?_⟩
      rw [List.map_map, windowOf, List.map_map]
      rfl
  | result =>
    refine ⟨hnoted.dram, (outData_updBankNear _ _ _ rfl).trans ?_⟩
    rw [List.map_map, windowOf, List.map_map]
    rfl
  | shiftSend =>
    refine ⟨hnoted.dram, fun v hv => Dev.exists_unit_worked hmem hv rfl (fun _ => ⟨rfl, rfl⟩) (List.map_congr_left fun k _ => ?_)⟩
    rw [List.getElem?_map, List.getElem?_zipIdx]
    cases (colReads d c b a x.d)[k]? <;> rfl
  | shiftRecv =>
    refine ⟨hnoted.dram, (outData_updBankNear _ _ _ rfl).trans ?_⟩
    refine List.ext_getElem? fun k => ?_
    by_cases hk : k < x.d.colCount <;> simp [windowOf, colReads, hkind, atomCols, atomFirst, hk]

/-- A word that a Write atom does not read counts as clean. -/
theorem colReads_clean_of_write {d : Dev} {c b : Nat} {a : Atom} {n : NboDesc} (hform : atomForm n a.kind = 2) :
    ∀ r ∈ colReads d c b a n, r.2.2.2 = 0 := by
  intro r hr
  obtain ⟨k, -, rfl⟩ := List.mem_map.1 hr
  rw [if_pos hform]

section

variable {d : Dev} {c b op : Nat} {a : Atom} {x : Nbo} {u : BankUnit} (h : AtomOf d c b op a x u)

include h

theorem op_of_atomOf : x.d.op = op := by
  obtain ⟨-, -, -, -, -, hop, -⟩ := h
  exact hop

/-- The row of an atom's operation does its work. -/
theorem Dev.atomOpRow_worked (hclean : ∀ r ∈ colReads d c b a x.d, r.2.2.2 = 0) :
    AtomWorked d (d.atomOpRow c b op) c b a x u := by
  obtain ⟨-, hatom, hfresh, hnbo, hunit, hop, -⟩ := h
  have hrow : d.atomOpRow c b op = d.atomWork c b := by
    rw [Dev.atomOpRow, hatom, Option.bind_some, hnbo]
    exact if_pos hop
  exact hrow ▸ Dev.atomWork_worked hatom hnbo hunit hfresh hclean

/-- RSUM, RMAX and DOTW fold a row into the accumulators; with PERROW into one lane of the second (R182, R183). -/
theorem Dev.atomOpRow_folds {i : Nat} (hkind : a.kind = .compute i) (hclean : ∀ r ∈ colReads d c b a x.d, r.2.2.2 = 0)
    (hop : op = 1 ∨ op = 2 ∨ op = 3) : let d' := d.atomOpRow c b op
    let r := foldedRow x.d u (colReads d c b a x.d)
    d'.dram = d.dram ∧ ∃ y ∈ d'.nbos, y.id = x.id ∧ ∃ v ∈ y.units, v.bank = b ∧ v.atoms = u.atoms ∧
      (x.d.perRow = false → v.ac0 = r.1 ∧ v.ac1 = r.2) ∧
      (x.d.perRow = true → v.ac0 = identityVec x.d ∧
        ∀ l, l < 16 → lane v.ac1 l = if l = i then hred x.d r.1 r.2 % 2 ^ 32 else lane u.ac1 l) := by
  have hreduces : x.d.reduces = true := by
    have hd := op_of_atomOf h
    rcases hop with rfl | rfl | rfl <;> simp [NboDesc.reduces, hd]
  have hworked := d.atomOpRow_worked h hclean
  simp only [AtomWorked, hkind, hreduces, if_true] at hworked
  obtain ⟨hdram, y, hy, hid, v, hv, hbank, hatoms, hacc⟩ := hworked
  refine ⟨hdram, y, hy, hid, v, hv, hbank, hatoms, fun hrow => ?_, fun hrow => ?_⟩
  · rw [hrow] at hacc
    exact Prod.mk.inj hacc
  · rw [hrow] at hacc
    obtain ⟨hzero, hone⟩ := Prod.mk.inj hacc
    refine ⟨hzero, fun l hl => ?_⟩
    rw [hone, lane_vecOfLanes_map _ hl]
    split
    · rfl
    · exact lane_mod ..

/-- The result atom of a reduction has the words of DEST to write (R183). -/
theorem Dev.atomOpRow_result (hkind : a.kind = .result) (hclean : ∀ r ∈ colReads d c b a x.d, r.2.2.2 = 0) :
    let d' := d.atomOpRow c b op
    d'.dram = d.dram ∧ outData d' c b = windowOf x.d.dcol (colReads d c b a x.d) fun k old => resultCol x.d u k old := by
  have hworked := d.atomOpRow_worked h hclean
  simp only [AtomWorked, hkind] at hworked
  exact hworked

/-- ACCW and SETW have the new words of their window to write (R178, R182). -/
theorem Dev.atomOpRow_updates {i : Nat} (hkind : a.kind = .compute i) (hclean : ∀ r ∈ colReads d c b a x.d, r.2.2.2 = 0)
    (hop : op = 4 ∨ op = 5) : let d' := d.atomOpRow c b op
    d'.dram = d.dram ∧ outData d' c b = windowOf x.d.colFirst (colReads d c b a x.d) fun k old =>
      updateCol x.d old (u.wOf x.d k).1 x.contrib := by
  have hreduces : x.d.reduces = false := by
    have hd := op_of_atomOf h
    rcases hop with rfl | rfl <;> simp [NboDesc.reduces, hd]
  have hworked := d.atomOpRow_worked h hclean
  simp only [AtomWorked, hkind, hreduces] at hworked
  exact hworked

end

/-- A word that is ready to be written is one of the window's. -/
theorem word_of_outData {d : Dev} {c b first k : Nat} {reads : List (BitVec 256 × BitVec 4 × Nat × Nat)}
    {word : Nat → BitVec 256 → BitVec 256} (hout : outData d c b = windowOf first reads word) {o : Nat × BitVec 256 × BitVec 4}
    (ho : (atomOut d c b)[k]? = some o) : ∃ old, o.2.1 = word k old := by
  have hword := congrArg (fun l => l[k]?) hout
  simp only [outData, windowOf, List.getElem?_map, List.getElem?_zipIdx, ho, Option.map_map, Option.map_some] at hword
  obtain ⟨r, -, hr⟩ := Option.map_eq_some_iff.1 hword.symm
  simp only [Function.comp_apply, Prod.mk.injEq, Nat.zero_add] at hr
  exact ⟨r.1, hr.2.symm⟩

end Sys2Proof.Machine

namespace Sys2Proof.Proofs

open Sys2Proof.Machine Sys2Proof.Claims

/-- Settles O30: each row does the work of its bank's atom, whose outcome is the one of the atom's kind and the NBO's operation. -/
theorem nearBankOperations : Obligations.NearBankOperations := by
  unfold Obligations.NearBankOperations
  intro s c b a x u n reads clean out folded stored
  have hfolds (op i : Nat) (hkind : a.kind = .compute i) (hclean : clean) (hop : op = 1 ∨ op = 2 ∨ op = 3)
      (h : AtomOf s.dev c b op a x u) : folded i (s.dev.atomOpRow c b op).settle := Dev.atomOpRow_folds h hkind hclean hop
  refine ⟨fun i hkind hclean => ⟨fun h => ?_, fun h => ?_, fun h => ?_, fun h => ?_, fun h => ?_⟩,
    fun hkind hclean => ⟨fun h => ?_, fun h => ?_, fun h => ?_⟩, fun v h hclean hkind hunit _ => ?_, fun h hkind => ?_⟩
  · exact runs_live _ s _ (fun d => d.atomOpRow c b 1) rfl h.1 (hfolds 1 i hkind hclean (.inl rfl) h)
  · exact runs_live _ s _ (fun d => d.atomOpRow c b 2) rfl h.1 (hfolds 2 i hkind hclean (.inr (.inl rfl)) h)
  · exact runs_live _ s _ (fun d => d.atomOpRow c b 3) rfl h.1 (hfolds 3 i hkind hclean (.inr (.inr rfl)) h)
  · refine runs_live _ s _ (fun d => d.atomOpRow c b 4) rfl h.1 ?_
    have hcontrib : x.contrib = if n.firnSrc = 1 ∧ n.ordered = false ∧ n.sat = false ∧ x.folds ≠ [] then some x.vec else none :=
      if_congr (by simp [op_of_atomOf h, and_assoc, n]) rfl rfl
    exact hcontrib ▸ Dev.atomOpRow_updates h hkind hclean (.inl rfl)
  · refine runs_live _ s _ (fun d => d.atomOpRow c b 5) rfl h.1 ?_
    obtain ⟨hdram, hout⟩ := Dev.atomOpRow_updates h hkind hclean (.inr rfl)
    rw [show x.contrib = none from if_neg (by simp [op_of_atomOf h])] at hout
    refine ⟨⟨hdram, hout⟩, fun hfull k o ho e he => ?_⟩
    obtain ⟨old, hword⟩ := word_of_outData hout ho
    rw [hword]
    exact colElem_updateCol_setw (op_of_atomOf h) hfull _ _ _ he
  · exact runs_live _ s _ (fun d => d.atomOpRow c b 1) rfl h.1 (Dev.atomOpRow_result h hkind hclean)
  · exact runs_live _ s _ (fun d => d.atomOpRow c b 2) rfl h.1 (Dev.atomOpRow_result h hkind hclean)
  · exact runs_live _ s _ (fun d => d.atomOpRow c b 3) rfl h.1 (Dev.atomOpRow_result h hkind hclean)
  · refine runs_live _ s _ (fun d => d.atomOpRow c b 6) rfl h.1 ?_
    have hworked := Dev.atomOpRow_worked h hclean
    simp only [AtomWorked, hkind] at hworked
    obtain ⟨hdram, hsent⟩ := hworked
    obtain ⟨y, hy, hid, v', hv, hbank, hw⟩ := hsent v hunit
    refine ⟨hdram, y, hy, hid, v', hv, hbank, fun k hk => ?_⟩
    rw [hw, List.getElem?_map, List.getElem?_range hk]
    rfl
  · refine runs_live _ s _ (fun d => d.atomOpRow c b 6) rfl h.1 ?_
    have hworked := Dev.atomOpRow_worked h (colReads_clean_of_write (by rw [hkind]; rfl))
    simp only [AtomWorked, hkind] at hworked
    exact hworked

end Sys2Proof.Proofs

/-! ## What a poster hears, and the mirror of an NBO (R106, R190, R298, R327, R430) -/

namespace Sys2Proof.Machine

/-- Reports to posters, acknowledgements and mirror items leave the NBOs, the banks, the channels with their registers, the array and
the clock. -/
structure NearQuiet (d d' : Dev) : Prop extends KeepsChRegs d d' where
  nbos : d'.nbos = d.nbos
  near : d'.near = d.near
  chans : d'.chans = d.chans
  dram : d'.dram = d.dram
  clock : d'.clock = d.clock

namespace NearQuiet

variable {d d' : Dev}

theorem refl (d : Dev) : NearQuiet d d := ⟨.refl d, rfl, rfl, rfl, rfl, rfl⟩

theorem trans {a b c : Dev} (h : NearQuiet a b) (k : NearQuiet b c) : NearQuiet a c :=
  ⟨h.toKeepsChRegs.trans k.toKeepsChRegs, k.nbos.trans h.nbos, k.near.trans h.near, k.chans.trans h.chans, k.dram.trans h.dram,
    k.clock.trans h.clock⟩

theorem ite {p : Prop} {_ : Decidable p} {x y : Dev} (h : NearQuiet d x) (k : NearQuiet d y) : NearQuiet d (if p then x else y) := by
  split <;> assumption

theorem foldl {β : Type} {f : Dev → β → Dev} (h : ∀ d x, NearQuiet d (f d x)) (l : List β) (d : Dev) : NearQuiet d (l.foldl f d) :=
  List.foldlRecOn l f (refl d) fun b hb x _ => hb.trans (h b x)

theorem of_side (h : SideTraffic d d') : NearQuiet d d' :=
  ⟨⟨fun o hlow hhigh => h.reg o ⟨by omega, by simp only [rCpDevsrc]; omega⟩⟩, h.nbos, h.near, h.chans, h.dram, h.clock⟩

theorem reg64 (h : NearQuiet d d') {o : Nat} (hlow : 0x100000 ≤ o) (hhigh : o + 4 < 0x180000) : d'.reg64 o = d.reg64 o :=
  Dev.reg64_congr (h.reg o hlow (by omega)) (h.reg (o + 4) (by omega) hhigh)

theorem chan (h : NearQuiet d d') (c : Nat) : d'.chan c = d.chan c := by rw [Dev.chan, h.chans, Dev.chan]

theorem bankNear (h : NearQuiet d d') (c b : Nat) : d'.bankNear c b = d.bankNear c b := Dev.bankNear_congr h.near c b

theorem nbo (h : NearQuiet d d') (id : Nat) : d'.nbo id = d.nbo id := by rw [Dev.nbo, h.nbos, Dev.nbo]

/-! ### Named updates -/

theorem report (d : Dev) (code sev ukind unit addr info : Nat) (f : Option (BitVec 4)) :
    NearQuiet d (d.report code sev ukind unit addr info f) := of_side (.report ..)

theorem count (d : Dev) (o n : Nat) (ho : 0x180000 ≤ o) : NearQuiet d (d.count o n) := ⟨.count d o n ho, rfl, rfl, rfl, rfl, rfl⟩

theorem setFloe (d : Dev) (n : Nat) (x : Floe) : NearQuiet d (d.setFloe n x) := ⟨.of_cs rfl, rfl, rfl, rfl, rfl, rfl⟩

theorem ls (d : Dev) (m : EccMem) : NearQuiet d { d with ls := m } := ⟨.of_cs rfl, rfl, rfl, rfl, rfl, rfl⟩

theorem sram (d : Dev) (t : Tab Nat) : NearQuiet d { d with sram := t } := ⟨.of_cs rfl, rfl, rfl, rfl, rfl, rfl⟩

theorem haltFloe (d : Dev) (n code : Nat) (pc : DevAddr) (slot : Nat) (disp : Bool) : NearQuiet d (d.haltFloe n code pc slot disp) := by
  unfold Dev.haltFloe
  dsimp only
  split
  · exact setFloe ..
  · exact (setFloe ..).trans (report ..)
  · exact (setFloe ..).trans (report ..)
  · exact refl d

theorem faultCmd (d : Dev) (n e : Nat) (c : ECmd) (code : Nat) : NearQuiet d (d.faultCmd n e c code) :=
  (setFloe d n _).trans (haltFloe ..)

theorem lsRead (d : Dev) (n off : Nat) : NearQuiet d (d.lsRead n off).2 := by
  have hcorrected (k : Nat) : NearQuiet d (if k = 0 then d else (d.count (rLsCe n) k).report 0x0007 1 4 n (off / 64 * 64) 0) :=
    ite (refl d) ((count d _ _ (by simp only [rLsCe, rFloe]; omega)).trans (report ..))
  exact ite (hcorrected _) ((hcorrected _).trans ((count _ _ _ (by simp only [rLsUe, rFloe]; omega)).trans (report ..)))

theorem lsBytes (d : Dev) (n off : Nat) (bs : List (BitVec 8)) : NearQuiet d (d.lsBytes n off bs) := by
  unfold Dev.lsBytes Dev.lsWrite Dev.lsMerge
  dsimp only
  split
  · exact refl d
  · split
    · exact ls ..
    · exact (lsRead ..).trans (ls ..)

theorem nboReport (d : Dev) (p : Poster) (id status : Nat) : NearQuiet d (d.nboReport p id status) := by
  unfold Dev.nboReport
  cases p with
  | ring n idx pos => exact ⟨.of_cs rfl, rfl, rfl, rfl, rfl, rfl⟩
  | mirror tag => exact refl d
  | floe f cmd =>
    dsimp only
    split
    · exact refl d
    · split
      · exact refl d
      · split
        · exact refl d
        · have hcounted (n : Nat) (e : Dev) : NearQuiet e (e.count (rScatPoison n) 1) :=
            count e _ _ (by simp only [rScatPoison, rFloe]; omega)
          exact ite (ite ((setFloe ..).trans (lsBytes ..)) (ite ((setFloe ..).trans (hcounted ..)) (setFloe ..)))
            ((setFloe ..).trans (faultCmd ..))

theorem answerStatus (d : Dev) (link : Nat) (dev : BitVec 6) (tag : BitVec 12) (status : Nat) :
    NearQuiet d (d.answerStatus link dev tag status) := by
  refine ite (of_side (.linkSend ..)) ?_
  unfold Dev.sendTo
  split
  · exact of_side (.linkSend ..)
  · exact refl d

theorem nboAck (d : Dev) (p : Poster) (status : Nat) : NearQuiet d (d.nboAck p status) := by
  cases p with
  | mirror tag => exact (of_side (.setLink ..)).trans (answerStatus ..)
  | _ => exact refl d

theorem nboMirror (d : Dev) (x : Nbo) : NearQuiet d (d.nboMirror x) := ite (of_side (.mirrorSend ..)) (refl d)

theorem regionLost (d : Dev) (a : Nat) : NearQuiet d (d.regionLost a) :=
  ite ((sram d _).trans (report ..)) (refl d)

end NearQuiet

end Sys2Proof.Machine

/-! ## Acceptance and rejection (R186, R192, R203) -/

namespace Sys2Proof.Machine

/-- The first bank of a valid descriptor's range lies in it (R184). -/
theorem NboDesc.bank_mem_banks {n : NboDesc} (hvalid : n.valid = true) : n.bank ∈ n.banks := by
  have hchain : (if n.chain then (n.reduces || n.op == 6) && decide (n.bank < n.bankEnd)
      else n.op != 6 && n.bankEnd == n.bank && !n.dir) = true := by
    by_contra hbad
    rw [Bool.not_eq_true] at hbad
    simp only [NboDesc.valid, hbad, Bool.and_false, Bool.false_and, Bool.false_eq_true] at hvalid
  have hrange : n.bank ≤ n.bankEnd := by
    split at hchain
    · simp only [Bool.and_eq_true, decide_eq_true_eq] at hchain
      exact hchain.2.le
    · simp only [Bool.and_eq_true, beq_iff_eq] at hchain
      exact hchain.1.2.ge
  have hmem : n.bank ∈ (List.range (n.bankEnd + 1 - n.bank)).map fun i => n.bank + i :=
    List.mem_map.2 ⟨0, List.mem_range.2 (by omega), rfl⟩
  unfold NboDesc.banks
  dsimp only
  split
  · exact List.mem_reverse.2 hmem
  · exact hmem

theorem Dev.valid_of_nboStatus {d : Dev} {x : Nbo} (h : d.nboStatus x = 0) : x.d.valid = true := by
  unfold Dev.nboStatus at h
  dsimp only at h
  split at h
  · cases h
  · split at h
    · cases h
    · next hok =>
      simp only [Bool.or_eq_true, not_or, Bool.not_eq_true', Bool.not_eq_false] at hok
      exact hok.1.1

/-- What taking a slot makes of a bank's slots (R192, R203). -/
def BankNear.take (s : BankNear) (id : Nat) : BankNear :=
  let s := { s with reserved := s.reserved.filter (· != id) }
  if s.exec.isNone then { s with exec := some id } else { s with staged := some id }

theorem BankNear.exec_take_of_free {s : BankNear} (id : Nat) (h : s.exec = none) : (s.take id).exec = some id := by
  simp [BankNear.take, h]

theorem BankNear.exec_take_of_taken {s : BankNear} (id : Nat) {k : Nat} (h : s.exec = some k) : (s.take id).exec = some k := by
  simp [BankNear.take, h]

theorem BankNear.free_of_unused {s : BankNear} (h : s.used = 0) : s.exec = none ∧ s.staged = none := by
  simp only [BankNear.used, Nat.add_eq_zero_iff, List.length_eq_zero_iff, Option.toList_eq_nil_iff] at h
  exact h.1

/-- The device once an NBO has taken a slot in each of these banks. -/
def Dev.takeSlots (d : Dev) (c id : Nat) (bs : List Nat) : Dev := bs.foldl (fun d b => d.updBankNear c b fun s => s.take id) d

theorem foldl_updBankNear_frame (c : Nat) (f : BankNear → BankNear) (bs : List Nat) (d : Dev) :
    ∃ t, bs.foldl (fun d b => d.updBankNear c b f) d = { d with near := t } :=
  List.foldlRecOn (motive := fun e : Dev => ∃ t, e = { d with near := t }) bs _ ⟨d.near, rfl⟩ fun e he b _ => by
    obtain ⟨t, rfl⟩ := he
    exact ⟨_, rfl⟩

theorem Dev.takeSlots_frame (d : Dev) (c id : Nat) (bs : List Nat) : ∃ t, d.takeSlots c id bs = { d with near := t } :=
  foldl_updBankNear_frame c (fun s => s.take id) bs d

/-- Free banks execute the NBO that has taken their slots. -/
theorem Dev.exec_takeSlots (c id : Nat) {d : Dev} {bs : List Nat} {b : Nat} (hb : b ∈ bs)
    (hfree : ∀ k ∈ bs, (d.bankNear c k).exec = none) : ((d.takeSlots c id bs).bankNear c b).exec = some id := by
  have htaken (e : Dev) (k j : Nat) (h : (e.bankNear c k).exec = some id) :
      ((e.updBankNear c j fun s => s.take id).bankNear c k).exec = some id := by
    rw [Dev.bankNear_updBankNear]
    split
    · next hk => exact BankNear.exec_take_of_taken id (hk ▸ h)
    · exact h
  refine foldl_reaches (I := fun e : Dev => ∀ k ∈ bs, (e.bankNear c k).exec = none ∨ (e.bankNear c k).exec = some id)
    (P := fun e : Dev => (e.bankNear c b).exec = some id) hb (fun e j _ hI k hk => ?_) (fun e hI => ?_)
    (fun e j _ _ hP => htaken e b j hP) fun k hk => .inl (hfree k hk)
  · rcases hI k hk with hnone | hsome
    · rw [Dev.bankNear_updBankNear]
      split
      · next hkj => exact .inr (BankNear.exec_take_of_free id (hkj ▸ hnone))
      · exact .inl hnone
    · exact .inr (htaken e k j hsome)
  · rcases hI b hb with hnone | hsome
    · rw [Dev.bankNear_updBankNear_same]
      exact BankNear.exec_take_of_free id hnone
    · exact htaken e b b hsome

/-- An NBO as it is placed: accepted, with a unit for each of its banks (R175, R192, R226). -/
def Nbo.placed (x : Nbo) (clock : Nat) (y : Nbo) : Nbo :=
  { y with accepted := true, vec := stageVec x.d, units := x.d.banks.map fun b => BankUnit.start x b clock }

theorem Dev.nboPlace_eq (d : Dev) (x : Nbo) : let e := d.takeSlots x.d.ch x.id x.d.banks
    d.nboPlace x = (e.updNbo x.id (x.placed e.clock)).updChan x.d.ch fun ch =>
      { ch with nearWait := ch.nearWait.filter (· != x.id) } := rfl

/-- An NBO that is taken from its channel's near-bank port waits there no more. -/
theorem Dev.not_mem_nearWait (d : Dev) (c id : Nat) :
    id ∉ ((d.updChan c fun ch => { ch with nearWait := ch.nearWait.filter (· != id) }).chan c).nearWait := by
  rw [Dev.chan_updChan, if_pos rfl]
  simp

/-- Free banks execute an NBO that is placed, its units begin, and it waits no more (R175, R192, R203). -/
theorem Dev.nboPlace_spec {d : Dev} {x : Nbo} (hmem : x ∈ d.nbos) (hfree : ∀ b ∈ x.d.banks, (d.bankNear x.d.ch b).exec = none) :
    let d' := d.nboPlace x
    (∀ b ∈ x.d.banks, (d'.bankNear x.d.ch b).exec = some x.id) ∧ x.id ∉ (d'.chan x.d.ch).nearWait ∧ d'.dram = d.dram ∧
      ∃ y ∈ d'.nbos, y.id = x.id ∧ y.accepted = true ∧ y.desc = x.desc ∧
        y.units = x.d.banks.map fun b => BankUnit.start x b d.clock := by
  have hexec (b : Nat) (hb : b ∈ x.d.banks) := Dev.exec_takeSlots x.d.ch x.id hb hfree
  obtain ⟨t, hframe⟩ := d.takeSlots_frame x.d.ch x.id x.d.banks
  dsimp only
  rw [Dev.nboPlace_eq, hframe]
  rw [hframe] at hexec
  exact ⟨hexec, Dev.not_mem_nearWait _ _ _, rfl, _, Dev.mem_updNbo hmem _, rfl, rfl, rfl, rfl⟩

/-- An NBO that is rejected is dropped and counted, waits no more and writes nothing (R186, R222). -/
theorem Dev.nboReject_spec {d : Dev} {x : Nbo} (hch : x.d.ch < 32) (status : Nat) : let d' := d.nboReject x status
    d'.nbo x.id = none ∧ x.id ∉ (d'.chan x.d.ch).nearWait ∧ d'.dram = d.dram ∧
      d'.reg64 (rNbRej x.d.ch) = d.reg64 (rNbRej x.d.ch) + 1 := by
  have hreg : 0x100000 ≤ rNbRej x.d.ch ∧ rNbRej x.d.ch + 4 < 0x180000 := by simp only [rNbRej, rCh]; omega
  obtain ⟨hlow, hhigh⟩ := hreg
  obtain ⟨e, hlost, heq⟩ : ∃ e, NearQuiet d e ∧ NearQuiet (((e.dropNbo x.id).updChan x.d.ch fun ch =>
      { ch with nearWait := ch.nearWait.filter (· != x.id) }).count (rNbRej x.d.ch) 1) (d.nboReject x status) := by
    unfold Dev.nboReject
    dsimp only
    refine ⟨_, ?_, .trans (.trans (.report ..) (.nboAck ..)) (.nboReport ..)⟩
    exact .ite (.foldl (fun _ _ => .regionLost ..) _ _) (.refl d)
  refine ⟨?_, ?_, heq.dram.trans ((Dev.dram_count ..).trans hlost.dram), ?_⟩
  · rw [heq.nbo]
    refine List.find?_eq_none.2 fun y hy => ?_
    simpa using (List.mem_filter.1 hy).2
  · rw [heq.chan, Dev.chan_count]
    exact Dev.not_mem_nearWait _ _ _
  · rw [heq.reg64 hlow hhigh, Dev.reg64_count]
    exact congrArg (· + 1) (hlost.reg64 hlow hhigh)

theorem no_earlier_request {x : Nbo} {rs : List PortReq} (h : ∀ r ∈ rs, x.poster.isSource r.origin = true → x.arr ≤ r.arr) :
    (rs.any fun r => x.poster.isSource r.origin && decide (r.arr < x.arr)) = false := by
  refine List.any_eq_false.2 fun r hr hbehind => ?_
  simp only [Bool.and_eq_true, decide_eq_true_eq] at hbehind
  have := h r hr hbehind.1
  omega

section

variable {d : Dev} {c pos id : Nat} {x : Nbo} (hwait : (d.chan c).nearWait[pos]? = some id) (hnbo : d.nbo id = some x)
  (horder : d.order ≠ none) (hfirst : ∀ r ∈ (d.chan c).driftIn, x.poster.isSource r.origin = true → x.arr ≤ r.arr)

include hwait hnbo horder hfirst

/-- An NBO that no earlier request of its source keeps waiting, and whose checks fail, is rejected (R186, R352). -/
theorem Dev.nboTry_rejects (hstatus : d.nboStatus x ≠ 0) : d.nboTry c pos = d.nboReject x (d.nboStatus x) := by
  rw [Dev.nboTry]
  dsimp only
  rw [hwait]
  dsimp only
  rw [hnbo]
  dsimp only
  rw [no_earlier_request hfirst, if_neg (by simpa using horder), if_pos hstatus]

/-- An NBO whose checks pass, with all its banks free and none of an earlier NBO's among them, is placed (R186, R187, R204). -/
theorem Dev.nboTry_places (hstatus : d.nboStatus x = 0) (hstalls : (d.nboMirrored x && d.mirrorStalls) = false)
    (hresyncs : d.nboResyncs x = false) (hfree : ∀ b ∈ x.d.banks, (d.bankNear c b).used = 0)
    (hearlier : ∀ j y, j ∈ (d.chan c).nearWait.take pos → d.nbo j = some y →
      (∀ b ∈ x.d.banks, b ∉ y.d.banks) ∧ (x.poster.isMirror = true → y.poster.isMirror = false)) :
    d.nboTry c pos = ((d.nboMirror x).nboAck x.poster 0).nboPlace x := by
  have hstaged : (d.bankNear c x.d.bank).staged = none :=
    (BankNear.free_of_unused (hfree _ (NboDesc.bank_mem_banks (Dev.valid_of_nboStatus hstatus)))).2
  have hmirror : (x.poster.isMirror && (((d.chan c).nearWait.take pos).filterMap d.nbo).any (·.poster.isMirror)) = false := by
    rw [Bool.and_eq_false_imp, List.any_eq_false]
    intro hx y hy
    obtain ⟨j, hj, hy⟩ := List.mem_filterMap.1 hy
    rw [(hearlier j y hj hy).2 hx]
    exact Bool.false_ne_true
  have hall : (x.d.banks.all fun b => (d.bankNear c b).reserved.contains id || (decide ((d.bankNear c b).used < 2) &&
      !(((d.chan c).nearWait.take pos).filterMap d.nbo).any fun e => e.d.banks.contains b)) = true := by
    refine List.all_eq_true.2 fun b hb => ?_
    have hopen : ((((d.chan c).nearWait.take pos).filterMap d.nbo).any fun e => e.d.banks.contains b) = false := by
      refine List.any_eq_false.2 fun y hy => ?_
      obtain ⟨j, hj, hy⟩ := List.mem_filterMap.1 hy
      simpa using (hearlier j y hj hy).1 b hb
    rw [hfree b hb, hopen]
    simp
  rw [Dev.nboTry]
  dsimp only
  rw [hwait]
  dsimp only
  rw [hnbo]
  dsimp only
  rw [no_earlier_request hfirst, if_neg (by simpa using horder), if_neg (by simpa using hstatus), hstalls, hresyncs,
    if_neg (by simp), hmirror, if_neg (by simp), hstaged, Option.bind_none]
  dsimp only
  rw [if_neg (by simp), hall, if_pos rfl]

end

end Sys2Proof.Machine

/-! ## Firn loads and chain hops (R188, R197) -/

namespace Sys2Proof.Machine

open Sys2Proof.Claims

/-- The units of two banks, changed one after the other, in the device's NBO. -/
theorem Dev.exists_updUnit_two {d : Dev} {x : Nbo} {b k : Nat} {u v : BankUnit} {f g : BankUnit → BankUnit} {P Q : BankUnit → Prop}
    (hmem : x ∈ d.nbos) (hunit : x.unit b = some u) (hnext : x.unit k = some v) (hother : k ≠ b) (hf : (f u).bank = u.bank)
    (hg : (g v).bank = v.bank) (hP : P (g v)) (hQ : Q (f u)) : ∃ y ∈ ((d.updUnit x.id b f).updUnit x.id k g).nbos, y.id = x.id ∧
      (∃ v' ∈ y.units, v'.bank = k ∧ P v') ∧ ∃ u' ∈ y.units, u'.bank = b ∧ Q u' := by
  have hu := Nbo.bank_of_unit hunit
  have hv := Nbo.bank_of_unit hnext
  refine ⟨_, Dev.mem_updNbo (Dev.mem_updNbo hmem _) _, rfl, ⟨g v, ?_, hg.trans hv, hP⟩, f u, ?_, hf.trans hu, hQ⟩
  · exact List.mem_map.2 ⟨v, List.mem_map.2 ⟨v, Nbo.mem_of_unit hnext, if_neg (by simpa [hv] using hother)⟩, if_pos (by simp [hv])⟩
  · exact List.mem_map.2 ⟨f u, List.mem_map.2 ⟨u, Nbo.mem_of_unit hunit, if_pos (by simp [hu])⟩,
      if_neg (by simpa [hf, hu] using hother.symm)⟩

section

variable {d : Dev} {c b : Nat} {x : Nbo} {u : BankUnit} (h : Executing d c b x u)

include h

theorem mem_of_executing : x ∈ d.nbos := by
  obtain ⟨-, hexec, -, -⟩ := h
  obtain ⟨id, -, hid⟩ := Option.bind_eq_some_iff.1 hexec
  exact Dev.mem_of_nbo hid

/-- A word that has come fills two W registers of the unit (R188). -/
theorem Dev.firnWord_spec (hopen : u.firnDone x.d = false) {r : WordRead}
    (hread : (d.tsvRead { origin := .firn x.id b, port := 2, cls := x.cls, field := x.field }
      ((((c * 64 + x.d.fbank) * 32768 + x.d.frow) * 16) + x.d.fword + u.loaded)).1 = some r) :
    let d' := d.firnWord c b
    d'.dram = d.dram ∧ ∃ y ∈ d'.nbos, y.id = x.id ∧ ∃ v ∈ y.units, v.bank = b ∧ v.loaded = u.loaded + 1 ∧
      v.w = putAt (putAt u.w (2 * u.loaded) (BitVec.ofNat 256 r.data.toNat)) (2 * u.loaded + 1)
        (BitVec.ofNat 256 (r.data.toNat / 2 ^ 256)) := by
  have hmem := mem_of_executing h
  have htaken := WordTaken.tsvRead hread
  obtain ⟨-, hexec, hunit, hruns⟩ := h
  unfold Dev.firnWord
  rw [hexec]
  dsimp only
  rw [hunit]
  dsimp only
  rw [hruns, hopen, if_neg (by simp)]
  generalize d.tsvRead _ _ = p at hread htaken ⊢
  obtain ⟨o, e⟩ := p
  obtain rfl : o = some r := hread
  exact ⟨htaken.dram, Dev.exists_updUnit (htaken.nbos ▸ hmem) hunit rfl ⟨rfl, rfl⟩⟩

/-- A hop marks the unit as sent and combines its vector, and its poison, into the next unit (R180, R197). -/
theorem Dev.chainStep_spec {v : BankUnit} (hnext : x.unit (x.d.nextBank b) = some v) (hother : x.d.nextBank b ≠ b)
    (hreduces : x.d.reduces = true) (hchain : x.d.chain = true) (hend : b ≠ x.d.endBank) (hsent : u.sent = false)
    (hready : x.d.rowCount ≤ u.atoms) (hnextReady : x.d.rowCount ≤ v.atoms)
    (hreceived : b ≠ x.d.startBank → u.received.isSome = true) (hstall : (d.chan c).stallFrom = none) : let d' := d.chainStep c b
    d'.dram = d.dram ∧ ∃ y ∈ d'.nbos, y.id = x.id ∧
      (∃ v' ∈ y.units, v'.bank = x.d.nextBank b ∧ v'.received.isSome = true ∧ v'.vPoison = (u.vPoison || v.vPoison) ∧
        (x.d.perRow = false → ∀ l, l < 16 → lane v'.ac0 l = comb x.d (lane u.ac0 l) (lane v.ac0 l) % 2 ^ 32)) ∧
      ∃ u' ∈ y.units, u'.bank = b ∧ u'.sent = true := by
  have hmem := mem_of_executing h
  obtain ⟨-, hexec, hunit, hruns⟩ := h
  have hgoes : (!x.d.reduces || !x.d.chain || b == x.d.endBank || u.sent || !d.nboRuns x || !decide (x.d.rowCount ≤ u.atoms) ||
      !decide (x.d.rowCount ≤ v.atoms) || (b != x.d.startBank && u.received.isNone) || (d.chan c).stallFrom.isSome) = false := by
    have hupstream : (b != x.d.startBank && u.received.isNone) = false := by
      rw [Bool.and_eq_false_imp]
      intro hb
      simpa using hreceived (by simpa using hb)
    simp [hreduces, hchain, hend, hsent, hruns, hready, hnextReady, hupstream, hstall]
  unfold Dev.chainStep
  rw [hexec]
  dsimp only
  rw [hunit, hnext]
  dsimp only
  rw [hgoes, if_neg Bool.false_ne_true]
  refine ⟨rfl, Dev.exists_updUnit_two hmem hunit hnext hother rfl rfl ⟨rfl, rfl, fun hrow l hl => ?_⟩ rfl⟩
  rw [hrow]
  exact lane_combVec _ _ _ hl

end

end Sys2Proof.Machine

/-! ## The end of an atom (R190, R193, R203) -/

namespace Sys2Proof.Machine

/-- A device after an NBO has gone on or finished: the array, the clock, the atoms, the open rows and the counts of atoms stay. -/
structure AtomsStay (d d' : Dev) : Prop where
  dram : d'.dram = d.dram
  clock : d'.clock = d.clock
  atom : ∀ c b, (d'.bankNear c b).atom = (d.bankNear c b).atom
  row : ∀ c b, ((d'.chan c).bank b).row = ((d.chan c).bank b).row
  count : ∀ c, c < 32 → d'.reg64 (rNbAtom c) = d.reg64 (rNbAtom c)

namespace AtomsStay

variable {d d' : Dev}

theorem of_quiet (h : NearQuiet d d') : AtomsStay d d' where
  dram := h.dram
  clock := h.clock
  atom c b := by rw [h.bankNear]
  row c b := by rw [h.chan]
  count c hc := h.reg64 (by simp only [rNbAtom, rCh]; omega) (by simp only [rNbAtom, rCh]; omega)

theorem refl (d : Dev) : AtomsStay d d := ⟨rfl, rfl, fun _ _ => rfl, fun _ _ => rfl, fun _ _ => rfl⟩

theorem trans {a b c : Dev} (h : AtomsStay a b) (k : AtomsStay b c) : AtomsStay a c :=
  ⟨k.dram.trans h.dram, k.clock.trans h.clock, fun n m => (k.atom n m).trans (h.atom n m), fun n m => (k.row n m).trans (h.row n m),
    fun n hn => (k.count n hn).trans (h.count n hn)⟩

theorem foldl {β : Type} {f : Dev → β → Dev} (h : ∀ d x, AtomsStay d (f d x)) (l : List β) (d : Dev) : AtomsStay d (l.foldl f d) :=
  List.foldlRecOn l f (refl d) fun b hb x _ => hb.trans (h b x)

theorem nbos (d : Dev) (l : List Nbo) : AtomsStay d { d with nbos := l } :=
  ⟨rfl, rfl, fun _ _ => rfl, fun _ _ => rfl, fun _ _ => rfl⟩

theorem updUnit (d : Dev) (id b : Nat) (f : BankUnit → BankUnit) : AtomsStay d (d.updUnit id b f) := nbos ..

theorem updBankNear (d : Dev) (c b : Nat) {f : BankNear → BankNear} (hf : ∀ s, (f s).atom = s.atom) :
    AtomsStay d (d.updBankNear c b f) where
  dram := rfl
  clock := rfl
  atom n m := by
    refine (congrArg BankNear.atom (tabGet_set ..)).trans ?_
    split
    · next hsame => rw [hf, Dev.bankNear, ← hsame, Dev.bankNear]
    · rfl
  row _ _ := rfl
  count _ _ := rfl

theorem releaseHeld (d : Dev) (c id : Nat) : AtomsStay d (d.releaseHeld c id) where
  dram := rfl
  clock := rfl
  atom _ _ := rfl
  row n m := d.chan_updChan_of (fun ch => (ch.bank m).row) c n fun _ => rfl
  count _ _ := rfl

theorem countApart (d : Dev) {o : Nat} (n : Nat) (h : ∀ c, o + 8 ≤ rNbAtom c ∨ rNbAtom c + 8 ≤ o) : AtomsStay d (d.count o n) where
  dram := rfl
  clock := rfl
  atom _ _ := rfl
  row _ _ := rfl
  count c _ := d.reg64_count_apart n (h c)

theorem dropNbo (d : Dev) (id : Nat) : AtomsStay d (d.dropNbo id) := nbos ..

/-- An NBO that finishes tells its posters, and leaves its slots to the NBOs that are staged behind it (R190, R203). -/
theorem nboFinish (d : Dev) (x : Nbo) : AtomsStay d (d.nboFinish x) := by
  have htold (e : Dev) (tag : Nat) (p : Poster) (id st : Nat) :
      AtomsStay e ((if st = 0 then e else e.report (0x400 + st) 2 1 x.d.ch 0 tag x.field).nboReport p id st) :=
    of_quiet ((NearQuiet.ite (.refl e) (.report ..)).trans (.nboReport ..))
  have hslots (e : Dev) (b : Nat) : AtomsStay e (e.updBankNear x.d.ch b fun s => { s with exec := s.staged, staged := none }) :=
    updBankNear e _ _ fun _ => rfl
  have hapart (c : Nat) : rNbFin x.d.ch + 8 ≤ rNbAtom c ∨ rNbAtom c + 8 ≤ rNbFin x.d.ch := by simp only [rNbFin, rNbAtom, rCh]; omega
  unfold Dev.nboFinish
  refine (dropNbo ..).trans ((foldl hslots _ _).trans ((foldl (fun e b => ?ages) _ _).trans ((releaseHeld ..).trans
    ((countApart _ _ hapart).trans ((htold _ _ _ _ _).trans (foldl (fun e f => htold e _ _ _ _) _ _))))))
  case ages =>
    cases (e.bankNear x.d.ch b).exec with
    | none => exact refl e
    | some id => exact updUnit ..

end AtomsStay

/-- The bank of an atom that has ended: free, with its row closed; the requests of host and peers that wait for it go first (R145). -/
def Dev.bankFreed (d : Dev) (c b ends : Nat) : Dev :=
  (d.updBankNear c b fun s => { s with atom := none }).updChan c fun ch =>
    let ch := ch.updBank b fun k => { k with row := none, lastPre := some (ends - 28) }
    { ch with atBoundary := ch.atBoundary.filter (fun x => x.1 != b) ++ (ch.waitsFor b).map fun r => (b, r) }

theorem Dev.atom_bankFreed (d : Dev) (c b ends : Nat) : ((d.bankFreed c b ends).bankNear c b).atom = none :=
  congrArg BankNear.atom (d.bankNear_updBankNear_same c b fun s => { s with atom := none })

theorem Dev.row_bankFreed (d : Dev) (c b ends : Nat) : (((d.bankFreed c b ends).chan c).bank b).row = none := by
  rw [Dev.bankFreed, Dev.chan_updChan, if_pos rfl]
  exact congrArg Bank.row ((Chan.bank_setBank ..).trans (if_pos rfl))

/-- A column word, with its marks, in the array (R205, R219). -/
def EccMem.writeColumn (m : EccMem) (w : Nat) (x : BitVec 256) (marks : BitVec 4) : EccMem :=
  forNat 4 (m.putBytes (8 * w) (toLe 32 x.toNat)) fun m i => m.putSynd (w + i) (if marks.getLsbD i then 0xFF else 0)

theorem Dev.nearWrite_eq (d : Dev) (c b row col : Nat) (x : BitVec 256) (marks : BitVec 4) :
    d.nearWrite c b row col x marks = { d with dram := d.dram.writeColumn (colCode c b row col) x marks } := rfl

theorem EccMem.byte_writeColumn_out (m : EccMem) {w p : Nat} (x : BitVec 256) (marks : BitVec 4) (h : p < 8 * w ∨ 8 * w + 32 ≤ p) :
    (m.writeColumn w x marks).byte p = m.byte p := by
  refine ((EccMem.foldl_putSynd _ (fun i => if marks.getLsbD i then 0xFF else 0) w 4).1 p).trans (m.byte_putBytes_of_out _ _ _ ?_)
  rwa [toLe_eq_map, List.length_map, List.length_range]

/-- The array after the column words of an atom. -/
def EccMem.writeColumns (m : EccMem) (c b row : Nat) (out : List (Nat × BitVec 256 × BitVec 4)) : EccMem :=
  out.foldl (fun m o => m.writeColumn (colCode c b row o.1) o.2.1 o.2.2) m

theorem Dev.foldl_nearWrite (d : Dev) (c b row : Nat) (out : List (Nat × BitVec 256 × BitVec 4)) :
    out.foldl (fun (d : Dev) o => d.nearWrite c b row o.1 o.2.1 o.2.2) d = { d with dram := d.dram.writeColumns c b row out } := by
  induction out generalizing d with
  | nil => rfl
  | cons o out ih => rw [List.foldl_cons, ih, Dev.nearWrite_eq, EccMem.writeColumns, EccMem.writeColumns, List.foldl_cons]

/-- Outside the column words that it writes, an atom leaves the array. -/
theorem EccMem.byte_writeColumns_out (m : EccMem) {c b row p : Nat} {out : List (Nat × BitVec 256 × BitVec 4)}
    (h : ∀ o ∈ out, p < 8 * colCode c b row o.1 ∨ 8 * colCode c b row o.1 + 32 ≤ p) :
    (m.writeColumns c b row out).byte p = m.byte p :=
  List.foldlRecOn (motive := fun e : EccMem => e.byte p = m.byte p) out _ rfl fun e he o ho =>
    (e.byte_writeColumn_out _ _ (h o ho)).trans he

/-- An atom whose work is done has no more to do. -/
theorem Dev.atomWork_of_worked {d : Dev} {c b : Nat} {a : Atom} {x : Nbo} (hatom : (d.bankNear c b).atom = some a)
    (hworked : a.worked = true) (hnbo : d.nbo a.nbo = some x) : d.atomWork c b = d := by
  unfold Dev.atomWork
  rw [hatom]
  dsimp only
  rw [hnbo]
  dsimp only
  cases x.unit b with
  | none => rfl
  | some u => exact if_pos hworked

/-- What an atom writes at its end: the sending atom of a shift writes nothing (R198). -/
def Atom.written (a : Atom) (c b : Nat) (m : EccMem) : EccMem := if a.kind == .shiftSend then m else m.writeColumns c b a.row a.out

def Dev.writeAtom (d : Dev) (c b : Nat) (a : Atom) : Dev := { d with dram := a.written c b d.dram }

theorem Dev.bankNear_writeAtom (d : Dev) (c b k j : Nat) (a : Atom) : (d.writeAtom c b a).bankNear k j = d.bankNear k j := rfl

theorem Dev.chan_writeAtom (d : Dev) (c b k : Nat) (a : Atom) : (d.writeAtom c b a).chan k = d.chan k := rfl

theorem Dev.clock_writeAtom_bankFreed (d : Dev) (c b ends : Nat) (a : Atom) :
    ((d.bankFreed c b ends).writeAtom c b a).clock = d.clock := rfl

theorem Dev.reg64_writeAtom_bankFreed (d : Dev) (c b ends o : Nat) (a : Atom) :
    ((d.bankFreed c b ends).writeAtom c b a).reg64 o = d.reg64 o := rfl

/-- An atom ends: its bank is freed, its words are written, it is counted, and its NBO goes on (R190, R193). -/
theorem Dev.atomDone_stays {d : Dev} {c b : Nat} {a : Atom} {x : Nbo} (hatom : (d.bankNear c b).atom = some a)
    (hworked : a.worked = true) (hkept : a.abandon = false) (hnbo : d.nbo a.nbo = some x) :
    AtomsStay ((((d.advanceTo a.ends).bankFreed c b a.ends).writeAtom c b a).count (rNbAtom c) 1) (d.atomDone c b) := by
  have hlater : (d.advanceTo a.ends).nbo a.nbo = some x := by rw [Dev.nbo, Dev.nbos_advanceTo]; exact hnbo
  have hwritten (e : Dev) : (if a.kind == .shiftSend then e else
      a.out.foldl (fun (d : Dev) o => d.nearWrite c b a.row o.1 o.2.1 o.2.2) e) = e.writeAtom c b a := by
    rw [Dev.foldl_nearWrite, Dev.writeAtom, Atom.written]
    split <;> rfl
  have hgoes (e : Dev) (k : Nat) : AtomsStay e (match e.nbo k with
      | none => e
      | some x => if x.complete then e.nboFinish x else e) := by
    split
    · exact .refl e
    · split
      · exact .nboFinish ..
      · exact .refl e
  unfold Dev.atomDone
  rw [hatom]
  dsimp only
  rw [Dev.atomWork_of_worked hatom hworked hnbo, hatom]
  dsimp only
  rw [hlater]
  dsimp only
  rw [hkept, if_neg Bool.false_ne_true, hwritten]
  refine AtomsStay.trans ?_ (hgoes _ _)
  cases a.kind <;> exact .updUnit ..

/-- What the end of an atom leaves: a free bank with its row closed, one more atom counted, and its words in the array (R190, R193). -/
theorem Dev.atomDone_spec {d : Dev} {c b : Nat} {a : Atom} {x : Nbo} (hc : c < 32) (hatom : (d.bankNear c b).atom = some a)
    (hworked : a.worked = true) (hkept : a.abandon = false) (hnbo : d.nbo a.nbo = some x) : let d' := d.atomDone c b
    (d'.bankNear c b).atom = none ∧ a.ends ≤ d'.clock ∧ d'.reg64 (rNbAtom c) = d.reg64 (rNbAtom c) + 1 ∧
      ((d'.chan c).bank b).row = none ∧ d'.dram = a.written c b d.dram := by
  have hstays := Dev.atomDone_stays hatom hworked hkept hnbo
  refine ⟨?_, ?_, ?_, ?_, ?_⟩
  · rw [hstays.atom, Dev.bankNear_count, Dev.bankNear_writeAtom, Dev.atom_bankFreed]
  · rw [hstays.clock, Dev.clock_count, Dev.clock_writeAtom_bankFreed]
    exact d.le_clock_advanceTo a.ends
  · rw [hstays.count c hc, Dev.reg64_count, Dev.reg64_writeAtom_bankFreed, Dev.reg64_advanceTo]
    rfl
  · rw [hstays.row, Dev.chan_count, Dev.chan_writeAtom, Dev.row_bankFreed]
  · obtain ⟨_, _, _, hlater⟩ := d.advanceTo_frame a.ends
    rw [hstays.dram, Dev.dram_count, hlater]
    rfl

end Sys2Proof.Machine

namespace Sys2Proof.Proofs

open Sys2Proof.Machine Sys2Proof.Claims

/-- Settles O31: each row is one change of the device's NBO or of the array, beside what its poster and the log hear of it. -/
theorem nearBankFlow : Obligations.NearBankFlow := by
  unfold Obligations.NearBankFlow
  constructor
  · intro s c wait
    refine ⟨fun pos id x hlive hwait hnbo hch horder hfirst => ⟨fun hstatus hstalls hresyncs hfree hearlier => ?_, fun hstatus => ?_⟩,
      fun b x u r h hopen hread => ?_,
      fun b x u v h hnext hother hreduces hchain hend hsent hready hnextReady hreceived hstall => ?_⟩
    · refine runs_live _ s _ (fun d => d.nboTry c pos) rfl hlive ?_
      rw [Dev.nboTry_places hwait hnbo horder hfirst hstatus hstalls hresyncs hfree hearlier]
      have hid := Dev.id_of_nbo hnbo
      have hquiet := (NearQuiet.nboMirror s.dev x).trans (.nboAck _ x.poster 0)
      generalize (s.dev.nboMirror x).nboAck x.poster 0 = e at hquiet ⊢
      have hexec : ∀ b ∈ x.d.banks, (e.bankNear x.d.ch b).exec = none := fun b hb => by
        rw [hquiet.bankNear, hch]
        exact (BankNear.free_of_unused (hfree b hb)).1
      obtain ⟨hslots, hwaits, hdram, hplaced⟩ := Dev.nboPlace_spec (hquiet.nbos ▸ Dev.mem_of_nbo hnbo) hexec
      rw [hch, hid] at hslots hwaits
      rw [hid, hquiet.clock] at hplaced
      exact ⟨hslots, hwaits, hdram.trans hquiet.dram, hplaced⟩
    · refine runs_live _ s _ (fun d => d.nboTry c pos) rfl hlive ?_
      rw [Dev.nboTry_rejects hwait hnbo horder hfirst hstatus]
      have hrejected := Dev.nboReject_spec (d := s.dev) (hch ▸ c.isLt) (s.dev.nboStatus x)
      rw [hch, Dev.id_of_nbo hnbo] at hrejected
      exact hrejected
    · exact runs_live _ s _ (fun d => d.firnWord c b) rfl h.1 (Dev.firnWord_spec h hopen hread)
    · exact runs_live _ s _ (fun d => d.chainStep c b) rfl h.1
        (Dev.chainStep_spec h hnext hother hreduces hchain hend hsent hready hnextReady hreceived hstall)
  · intro s c b a x hlive hatom hworked hkept hnbo
    refine runs_live _ s _ (fun d => d.atomDone c b) rfl hlive ?_
    obtain ⟨hfree, hends, hcount, hclosed, hdram⟩ := Dev.atomDone_spec c.isLt hatom hworked hkept hnbo
    refine ⟨hfree, hends, hcount, hclosed, fun hsend => ?_, fun hwrites => ?_⟩
    · exact hdram.trans (if_pos (by simp [hsend]))
    · have hwritten : a.written c b s.dev.dram = s.dev.dram.writeColumns c b a.row a.out := if_neg (by simpa using hwrites)
      rw [hwritten] at hdram
      refine ⟨hdram.trans (congrArg Dev.dram (s.dev.foldl_nearWrite c b a.row a.out)).symm, fun p hp => ?_⟩
      exact (congrArg (·.byte p) hdram).trans (EccMem.byte_writeColumns_out _ hp)

end Sys2Proof.Proofs

/-! Proof of the statement about one floe cycle (R239, R245, R247, R253, R264). -/

/-! ## A slot after a write, and the counters of a slot -/

namespace Sys2Proof.Machine

@[simp] theorem Dev.floe_updFloe_same (d : Dev) (n : Nat) (g : Floe → Floe) : (d.updFloe n g).floe n = g (d.floe n) := by
  rw [Dev.updFloe, Dev.floe_setFloe, if_pos rfl]

@[simp] theorem Dev.floe_setFloe_same (d : Dev) (n : Nat) (f : Floe) : (d.setFloe n f).floe n = f := by
  rw [Dev.floe_setFloe, if_pos rfl]

@[simp] theorem Dev.floe_count (d : Dev) (o k n : Nat) : (d.count o k).floe n = d.floe n := rfl
@[simp] theorem Dev.ls_count (d : Dev) (o k : Nat) : (d.count o k).ls = d.ls := rfl
@[simp] theorem Dev.reg64_settle (d : Dev) (o : Nat) : d.settle.reg64 o = d.reg64 o := rfl
@[simp] theorem Dev.reg64_setFloe (d : Dev) (n : Nat) (f : Floe) (o : Nat) : (d.setFloe n f).reg64 o = d.reg64 o := rfl

/-- An element of a list of fixed length in which one element has been replaced. -/
theorem getD_setAt {α : Type} (n : Nat) (dflt : α) (xs : List α) (i k : Nat) (y : α) :
    ((setAt n dflt xs i y)[k]?).getD dflt = if k < n then (if k = i then y else (xs[k]?).getD dflt) else dflt := by
  by_cases hk : k < n <;> simp [setAt, hk]

theorem Floe.engine_setEngine_ne (f : Floe) {e k : Nat} (hk : k < 6) (hne : k ≠ e) (es : List ECmd) :
    (f.setEngine e es).engine k = f.engine k := by
  rw [Floe.engine, Floe.setEngine, getD_setAt, if_pos hk, if_neg hne, Floe.engine]

/-- A report leaves the counters of the slots. -/
theorem Dev.reg64_report_floe (d : Dev) {n o : Nat} (hlow : rFloe n ≤ o) (hhigh : o < rFloe n + 0xFFC) (hn : n < 136)
    (code sev ukind unit addr info : Nat) (f : Option (BitVec 4)) :
    (d.report code sev ukind unit addr info f).reg64 o = d.reg64 o := by
  have hnot : ∀ p, rFloe n ≤ p → p < rFloe n + 0x1000 → p ∉ reportRegs := fun p hlo hhi => by
    simp only [rFloe] at hlo hhi
    simp only [reportRegs, List.mem_cons, List.not_mem_nil, or_false, rMorSeq, rCpDevsrc, rMorFatal, rMorStat]
    omega
  exact Dev.reg64_report (hnot o hlow (by omega)) (hnot (o + 4) (by omega) (by omega))

/-! ## What a floe cycle leaves -/

/-- A part of a floe cycle that leaves the slot's count of cycles, the array and the local stores. -/
structure CycleKeeps (n : Nat) (d d' : Dev) : Prop where
  cycles : d'.reg64 (rFloeCycles n) = d.reg64 (rFloeCycles n)
  dram : d'.dram = d.dram
  ls : d'.ls = d.ls

namespace CycleKeeps

variable {n : Nat}

theorem refl (d : Dev) : CycleKeeps n d d := ⟨rfl, rfl, rfl⟩

theorem trans {a b c : Dev} (h : CycleKeeps n a b) (k : CycleKeeps n b c) : CycleKeeps n a c :=
  ⟨k.cycles.trans h.cycles, k.dram.trans h.dram, k.ls.trans h.ls⟩

theorem ite {p : Prop} {_ : Decidable p} {d x y : Dev} (h : CycleKeeps n d x) (k : CycleKeeps n d y) :
    CycleKeeps n d (if p then x else y) := by
  split <;> assumption

theorem setFloe (d : Dev) (m : Nat) (f : Floe) : CycleKeeps n d (d.setFloe m f) := ⟨rfl, rfl, rfl⟩

/-- Another counter is counted. -/
theorem count (d : Dev) {o : Nat} (k : Nat) (ho : rFloeCycles n + 8 ≤ o) : CycleKeeps n d (d.count o k) :=
  ⟨d.reg64_count_apart k (.inr ho), rfl, rfl⟩

theorem report (d : Dev) (hn : n < 136) (code sev ukind unit addr info : Nat) (f : Option (BitVec 4)) :
    CycleKeeps n d (d.report code sev ukind unit addr info f) :=
  ⟨d.reg64_report_floe (by simp only [rFloeCycles]; omega) (by simp only [rFloeCycles]; omega) hn code sev ukind unit addr info f,
    Dev.report_dram .., Dev.report_ls ..⟩

theorem trkCycle (d : Dev) : CycleKeeps n d (d.trkCycle n) := by
  have hload : rFloeCycles n + 8 ≤ rTrkWaitLoad n := by simp only [rTrkWaitLoad, rFloeCycles]; omega
  have hstore : rFloeCycles n + 8 ≤ rTrkWaitStore n := by simp only [rTrkWaitStore, rFloeCycles]; omega
  have hfirst : CycleKeeps n d (if (d.floe n).trkStopped 3 then d.count (rTrkWaitLoad n) 1 else d) := ite (count d 1 hload) (refl d)
  unfold Dev.trkCycle
  exact ite (hfirst.trans (count _ 1 hstore)) hfirst

end CycleKeeps

@[simp] theorem Dev.floe_trkCycle (d : Dev) (n k : Nat) : (d.trkCycle n).floe k = d.floe k := by
  unfold Dev.trkCycle
  dsimp only
  split <;> split <;> simp only [Dev.floe_count]

/-- The device at the start of a counted floe cycle: the trackers have been looked at and the cycle is counted (R247, R334). -/
def Dev.cycled (d : Dev) (n : Nat) : Dev := (d.trkCycle n).count (rFloeCycles n) 1

@[simp] theorem Dev.floe_cycled (d : Dev) (n k : Nat) : (d.cycled n).floe k = d.floe k := by
  rw [Dev.cycled, Dev.floe_count, Dev.floe_trkCycle]

/-- What follows the count of a cycle leaves it counted once. -/
theorem Dev.cycled_counts {d d' : Dev} {n : Nat} (h : CycleKeeps n (d.cycled n) d') :
    d'.settle.reg64 (rFloeCycles n) = d.reg64 (rFloeCycles n) + 1 ∧ d'.settle.dram = d.dram ∧ d'.settle.ls = d.ls := by
  obtain ⟨hcycles, hdram, hls⟩ := CycleKeeps.trkCycle (n := n) d
  rw [Dev.reg64_settle, Dev.settle_dram, Dev.settle_ls, h.cycles, h.dram, h.ls, Dev.cycled]
  refine ⟨?_, ?_, ?_⟩
  · rw [Dev.reg64_count, hcycles, BitVec.ofNat_eq_ofNat]
  · rw [Dev.dram_count, hdram]
  · rw [Dev.ls_count, hls]

/-- A cycle does not count bundles that are skipped. -/
theorem Dev.reg64_skipped_cycled (d : Dev) (n : Nat) : (d.cycled n).reg64 (rFloeSkipped n) = d.reg64 (rFloeSkipped n) := by
  rw [Dev.cycled, Dev.reg64_count_apart _ _ (.inl (by simp only [rFloeCycles, rFloeSkipped]; omega)), Dev.trkCycle]
  have hload : rFloeSkipped n + 8 ≤ rTrkWaitLoad n := by simp only [rTrkWaitLoad, rFloeSkipped]; omega
  have hstore : rFloeSkipped n + 8 ≤ rTrkWaitStore n := by simp only [rTrkWaitStore, rFloeSkipped]; omega
  split <;> split <;> simp only [Dev.reg64_count_apart _ 1 (.inr hload), Dev.reg64_count_apart _ 1 (.inr hstore)]

end Sys2Proof.Machine

/-! ## The bundle at pc (R247, R253) -/

namespace Sys2Proof.Machine

open Sys2Proof.Claims

/-- The line at pc has been used once more (R253). -/
def Floe.lineUsed (f : Floe) : Floe :=
  { f with icache := f.icache.map fun y => if y.line == BitVec.ofNat 29 (f.pc.toNat / 128) then { y with used := f.icUse } else y
           icUse := f.icUse + 1 }

variable {d : Dev} {n b : Nat}

theorem Dev.dispatchCycle_held (hst : (d.floe n).st = .running) (hheld : 0 < (d.floe n).hold) :
    d.dispatchCycle n = (d.cycled n).setFloe n { d.floe n with hold := (d.floe n).hold - 1 } := by
  simp [Dev.dispatchCycle, hst, Nat.ne_of_gt hheld, Dev.cycled]

/-- A floe that is not held goes on to the bundle at pc when its line is cached. -/
theorem Dev.dispatchCycle_cached (hst : (d.floe n).st = .running) (hfree : (d.floe n).hold = 0) (hcached : CachedBundle (d.floe n) b) :
    d.dispatchCycle n = ((d.cycled n).setFloe n (d.floe n).lineUsed).dispatchBundle n b := by
  obtain ⟨x, hx, hparity, hbad, rfl⟩ := hcached
  simp [Dev.dispatchCycle, hst, hfree, hx, hparity, hbad, Dev.cycled, Floe.lineUsed, Dev.updFloe]

/-- A line and the two that follow it are asked for (R253). -/
def Floe.askLines (f : Floe) (l : BitVec 29) : Floe := ((f.fetch l).fetch (l + 1)).fetch (l + 2)

/-- A line that is not cached is asked for, with the two that follow it, and nothing else of the floe changes (R253). -/
theorem Dev.dispatchCycle_missed (hst : (d.floe n).st = .running) (hfree : (d.floe n).hold = 0)
    (hmiss : ∀ x ∈ (d.floe n).icache, x.line ≠ BitVec.ofNat 29 ((d.floe n).pc.toNat / 128)) :
    ∃ d', CycleKeeps n (d.cycled n) d' ∧ d'.floe n = d.floe n ∧ d.dispatchCycle n =
      d'.updFloe n fun f => f.askLines (BitVec.ofNat 29 ((d.floe n).pc.toNat / 128)) := by
  have hfind : (d.floe n).icache.find? (fun x => x.line == BitVec.ofNat 29 ((d.floe n).pc.toNat / 128)) = none :=
    List.find?_eq_none.2 fun x hx => by simpa using hmiss x hx
  have hstall : CycleKeeps n (d.cycled n) ((d.cycled n).count (rStallIcache n) 1) :=
    .count _ 1 (by simp only [rStallIcache, rFloeCycles]; omega)
  refine ⟨if ((d.cycled n).count (rStallIcache n) 1).floe n |>.fetching.contains (BitVec.ofNat 29 ((d.floe n).pc.toNat / 128))
    then (d.cycled n).count (rStallIcache n) 1 else ((d.cycled n).count (rStallIcache n) 1).count (rIcMiss n) 1,
    hstall.ite (hstall.trans (.count _ 1 (by simp only [rIcMiss, rFloeCycles]; omega))), ?_, ?_⟩
  · split <;> simp
  · simp [Dev.dispatchCycle, hst, hfree, hfind, Dev.cycled, Floe.askLines]

/-- Asking for a line changes the lines asked for alone. -/
theorem Floe.fetch_frame (f : Floe) (l : BitVec 29) : ∃ ls, f.fetch l = { f with fetching := ls } ∧ ∀ x ∈ f.fetching, x ∈ ls := by
  unfold Floe.fetch
  split
  · exact ⟨_, rfl, fun _ h => h⟩
  · exact ⟨_, rfl, fun _ h => List.mem_append_left _ h⟩

theorem Floe.mem_fetching_fetch (f : Floe) (l : BitVec 29) (hmiss : ∀ x ∈ f.icache, x.line ≠ l) : l ∈ (f.fetch l).fetching := by
  have hnone : f.icache.any (fun x => x.line == l) = false := List.any_eq_false.2 fun x hx => by simpa using hmiss x hx
  unfold Floe.fetch
  by_cases h : l ∈ f.fetching
  · simp [h]
  · simp [h, hnone]

/-- Of a floe that asks for lines, pc, bundles and engines stay. -/
theorem Floe.askLines_spec (f : Floe) (l : BitVec 29) (hmiss : ∀ x ∈ f.icache, x.line ≠ l) :
    l ∈ (f.askLines l).fetching ∧ (f.askLines l).pc = f.pc ∧ (f.askLines l).bundles = f.bundles ∧ (f.askLines l).engines = f.engines := by
  have hasked := f.mem_fetching_fetch l hmiss
  obtain ⟨ls, hfirst, -⟩ := f.fetch_frame l
  obtain ⟨ls', hsecond, hmem⟩ := (f.fetch l).fetch_frame (l + 1)
  obtain ⟨ls'', hthird, hmem'⟩ := ((f.fetch l).fetch (l + 1)).fetch_frame (l + 2)
  rw [hsecond] at hthird hmem'
  rw [Floe.askLines, hsecond, hthird, hfirst]
  exact ⟨hmem' l (hmem l hasked), rfl, rfl, rfl⟩

end Sys2Proof.Machine

/-! ## What a bundle at pc does (R239, R247, R264) -/

namespace Sys2Proof.Machine

open Sys2Proof.Claims

/-- Nothing of a bundle's checks depends on the instruction cache. -/
@[simp] theorem Floe.guardTrue_lineUsed (f : Floe) (h : BitVec 32) : f.lineUsed.guardTrue h = f.guardTrue h := rfl
@[simp] theorem Floe.badEnds_lineUsed (f : Floe) (b : Nat) : f.lineUsed.badEnds b = f.badEnds b := rfl
@[simp] theorem Floe.engine_lineUsed (f : Floe) (e : Nat) : f.lineUsed.engine e = f.engine e := rfl

/-- The engines with a command of the bundle, as a mask. -/
def openMask (b : Nat) : Nat :=
  (List.range 6).foldr (fun s x => (if s != 0 && bundleSlot b s != 0 then 1 else 0) + 2 * x) 0

/-- A floe after it has dispatched a bundle without a wait and without a scalar command (R247). -/
def Floe.passed (f : Floe) (b : Nat) : Floe :=
  { (f.append f.pc b (f.waitHere.getD f.nextBundle) f.n (f.pc + 32)).enter f.pc (bundleHeader b) (f.waitHere.getD f.nextBundle)
      (openMask b) true false with
    pc := f.pc + 32, waitHere := none, nextBundle := f.waitHere.getD f.nextBundle + 1, hold := 0 }

variable {d : Dev} {n b : Nat} {f : Floe}

theorem Dev.dispatchBundle_illegal (hfloe : d.floe n = f) (hroom : f.bundles.length < 512) {slot code : Nat}
    (hlegal : bundleLegal b = some (slot, code)) : d.dispatchBundle n b = d.haltFloe n code f.pc slot true := by
  subst hfloe
  simp [Dev.dispatchBundle, Nat.not_le.2 hroom, hlegal]

theorem Dev.dispatchBundle_skips (hfloe : d.floe n = f) (hroom : f.bundles.length < 512) (hlegal : bundleLegal b = none)
    (hguard : f.guardTrue (bundleHeader b) = false) :
    d.dispatchBundle n b = (d.setFloe n { f.enter f.pc (bundleHeader b) f.nextBundle 0 true true with
      pc := f.pc + 32, nextBundle := f.nextBundle + 1 }).count (rFloeSkipped n) 1 := by
  subst hfloe
  simp [Dev.dispatchBundle, Nat.not_le.2 hroom, hlegal, hguard]

theorem Dev.dispatchBundle_passes (hfloe : d.floe n = f) (hroom : f.bundles.length < 512) (hlegal : bundleLegal b = none)
    (hguard : f.guardTrue (bundleHeader b) = true) (hends : f.badEnds b = none)
    (hqueues : ∀ e, 1 ≤ e → e ≤ 5 → bundleSlot b e ≠ 0 → (f.engine e).length < 256)
    (hwait : hdrWaitCond (bundleHeader b) = 0) (hscalar : bundleSlot b 0 = 0) :
    d.dispatchBundle n b = (d.setFloe n f).setFloe n (f.passed b) := by
  subst hfloe
  have hopen : ([1, 2, 3, 4, 5].any fun s => bundleSlot b s != 0 && decide (256 ≤ ((d.floe n).engine s).length)) = false := by
    refine List.any_eq_false.2 fun e he => ?_
    by_cases hslot : bundleSlot b e = 0
    · simp [hslot]
    · have := hqueues e (by fin_cases he <;> decide) (by fin_cases he <;> decide) hslot
      simp [this]
  have hnowait : (hdrWaitCond (bundleHeader b) != 0) = false := by simp [hwait]
  unfold Dev.dispatchBundle
  dsimp only
  rw [if_neg (Nat.not_le.2 hroom), hlegal]
  dsimp only
  rw [hguard, Bool.not_true, if_neg Bool.false_ne_true, hends]
  dsimp only
  rw [hopen, if_neg Bool.false_ne_true, hnowait, Bool.false_and, if_neg Bool.false_ne_true, hscalar, if_neg fun h => h.1 rfl,
    if_neg fun h => h.1 rfl, if_pos rfl]
  dsimp only
  rw [Dev.floe_setFloe_same]
  rfl

end Sys2Proof.Machine

/-! ## The commands of a bundle in their engines (R247, R272) -/

namespace Sys2Proof.Machine

/-- The command of one slot is appended to its engine, if the slot holds one. -/
def Floe.appendSlot (pc : DevAddr) (b k : Nat) (before : List (BitVec 48)) (next : DevAddr) (f : Floe) (s : Nat) : Floe :=
  if bundleSlot b s = 0 then f
  else { f.setEngine s (f.engine s ++
    [{ bundle := k, pc := pc, word := BitVec.ofNat 48 (bundleSlot b s), nregs := before, issued := false, performed := false,
       faulted := false, srcs := [], dst := none, pos := 0, nbos := [], tags := [], got := [], words := [], sent := false
       counted := false, entry := none, waiting := none, nafter := f.n, next := next, number := f.nextCmd }]) with nextCmd := f.nextCmd + 1 }

/-- An engine after the command of its slot has been appended, if there is one. -/
def Appended (b k : Nat) (pc : DevAddr) (before : List (BitVec 48)) (e : Nat) (es es' : List ECmd) : Prop :=
  (bundleSlot b e = 0 → es' = es) ∧
    (bundleSlot b e ≠ 0 → ∃ c : ECmd, es' = es ++ [c] ∧ c.bundle = k ∧ c.pc = pc ∧
      c.word = BitVec.ofNat 48 (bundleSlot b e) ∧ c.nregs = before ∧ c.issued = false ∧ c.performed = false)

variable (pc : DevAddr) (b k : Nat) (before : List (BitVec 48)) (next : DevAddr)

theorem Floe.append_eq (f : Floe) : f.append pc b k before next = [1, 2, 3, 4, 5].foldl (Floe.appendSlot pc b k before next) f := rfl

theorem Floe.appendSlot_frame (f : Floe) (s : Nat) :
    ∃ es c, f.appendSlot pc b k before next s = { f with engines := es, nextCmd := c } := by
  unfold Floe.appendSlot
  split <;> exact ⟨_, _, rfl⟩

theorem Floe.append_frame (f : Floe) : ∃ es c, f.append pc b k before next = { f with engines := es, nextCmd := c } := by
  rw [Floe.append_eq]
  refine List.foldlRecOn (motive := fun g : Floe => ∃ es c, g = { f with engines := es, nextCmd := c }) _ _ ⟨_, _, rfl⟩ ?_
  rintro _ ⟨es, c, rfl⟩ s -
  obtain ⟨es', c', h⟩ := Floe.appendSlot_frame pc b k before next { f with engines := es, nextCmd := c } s
  exact ⟨es', c', h⟩

theorem Floe.engine_appendSlot_ne (f : Floe) {e s : Nat} (he : e < 6) (hne : e ≠ s) :
    (f.appendSlot pc b k before next s).engine e = f.engine e := by
  unfold Floe.appendSlot
  split
  · rfl
  · exact f.engine_setEngine_ne he hne _

theorem Floe.appended_appendSlot (f : Floe) {e : Nat} (he : e < 6) :
    Appended b k pc before e (f.engine e) ((f.appendSlot pc b k before next e).engine e) := by
  unfold Floe.appendSlot
  refine ⟨fun h => by rw [if_pos h], fun h => ?_⟩
  rw [if_neg h]
  exact ⟨_, f.engine_setEngine he _, rfl, rfl, rfl, rfl, rfl, rfl⟩

theorem Floe.engine_foldl_appendSlot_ne {e : Nat} (he : e < 6) {l : List Nat} (hl : e ∉ l) (f : Floe) :
    (l.foldl (Floe.appendSlot pc b k before next) f).engine e = f.engine e := by
  refine List.foldlRecOn (motive := fun g : Floe => g.engine e = f.engine e) _ _ rfl fun g hg s hs => ?_
  rw [Floe.engine_appendSlot_ne _ _ _ _ _ g he (fun h => hl (h ▸ hs)), hg]

/-- Each engine takes the command of its own slot alone. -/
theorem Floe.appended_foldl {e : Nat} (he : e < 6) {l : List Nat} (hl : l.Nodup) (hmem : e ∈ l) (f : Floe) :
    Appended b k pc before e (f.engine e) ((l.foldl (Floe.appendSlot pc b k before next) f).engine e) := by
  induction l generalizing f with
  | nil => cases hmem
  | cons s l ih =>
    obtain ⟨hs, hl⟩ := List.nodup_cons.1 hl
    rw [List.foldl_cons]
    by_cases hes : e = s
    · subst hes
      rw [Floe.engine_foldl_appendSlot_ne _ _ _ _ _ he hs]
      exact f.appended_appendSlot pc b k before next he
    · rw [← f.engine_appendSlot_ne pc b k before next he hes]
      exact ih hl ((List.mem_cons.1 hmem).resolve_left hes) _

theorem Floe.appended_append (f : Floe) {e : Nat} (hlow : 1 ≤ e) (hhigh : e ≤ 5) :
    Appended b k pc before e (f.engine e) ((f.append pc b k before next).engine e) :=
  Floe.appended_foldl pc b k before next (by omega) (by decide) (by simp; omega) f

omit pc k before next

/-- A bit of a mask that is written bit by bit. -/
theorem testBit_foldr_bit (p : Nat → Bool) (l : List Nat) (e : Nat) :
    (l.foldr (fun s x => (if p s then 1 else 0) + 2 * x) 0).testBit e = ((l[e]?).map p).getD false := by
  induction l generalizing e with
  | nil => simp
  | cons s l ih =>
    rw [List.foldr_cons]
    cases e with
    | zero => cases h : p s <;> simp [h, Nat.testBit_zero]
    | succ e =>
      rw [Nat.testBit_succ, show ∀ x, ((if p s = true then 1 else 0) + 2 * x) / 2 = x from fun x => by split <;> omega, ih]
      simp

theorem getLsbD_openMask {e : Nat} (hlow : 1 ≤ e) (hhigh : e ≤ 5) :
    (BitVec.ofNat 6 (openMask b)).getLsbD e = decide (bundleSlot b e ≠ 0) := by
  have he : e < 6 := by omega
  rw [BitVec.getLsbD_ofNat, openMask, testBit_foldr_bit fun s => s != 0 && bundleSlot b s != 0]
  have hne : (e != 0) = true := bne_iff_ne.2 (by omega)
  by_cases h : bundleSlot b e = 0 <;> simp [h, he, hne]

/-- What a bundle that passes leaves of its floe (R247, R251, R272). -/
theorem Floe.passed_spec (f : Floe) (b : Nat) (hst : f.st = .running) :
    (f.passed b).pc = f.pc + 32 ∧ (f.passed b).st = .running ∧ (f.passed b).n = f.n ∧
      ∃ k : BundleRec, (f.passed b).bundles = f.bundles ++ [k] ∧ k.pc = f.pc ∧ k.header = bundleHeader b ∧ k.released = true ∧
        k.skipped = false ∧ ∀ e, 1 ≤ e → e ≤ 5 → k.open_.getLsbD e = decide (bundleSlot b e ≠ 0) ∧
          Appended b k.number f.pc f.n e (f.engine e) ((f.passed b).engine e) := by
  obtain ⟨es, c, h⟩ := f.append_frame f.pc b (f.waitHere.getD f.nextBundle) f.n (f.pc + 32)
  have happended := fun e hlow hhigh => f.appended_append f.pc b (f.waitHere.getD f.nextBundle) f.n (f.pc + 32) (e := e) hlow hhigh
  rw [Floe.passed, h] at *
  exact ⟨rfl, hst, rfl, _, rfl, rfl, rfl, rfl, rfl, fun e hlow hhigh => ⟨getLsbD_openMask b hlow hhigh, happended e hlow hhigh⟩⟩

end Sys2Proof.Machine

/-! ## A halt at dispatch (R264) -/

namespace Sys2Proof.Machine

theorem CycleKeeps.haltFloe {n : Nat} (d : Dev) (hn : n < 136) (code : Nat) (pc : DevAddr) (slot : Nat) (disp : Bool) :
    CycleKeeps n d (d.haltFloe n code pc slot disp) := by
  unfold Dev.haltFloe
  dsimp only
  split
  · exact .setFloe d n _
  · exact (CycleKeeps.setFloe d n _).trans (.report _ hn ..)
  · exact (CycleKeeps.setFloe d n _).trans (.report _ hn ..)
  · exact .refl d

theorem Dev.floe_haltFloe_running {d : Dev} {n : Nat} {f : Floe} (hfloe : d.floe n = f) (hst : f.st = .running) (code : Nat)
    (pc : DevAddr) (slot : Nat) : (d.haltFloe n code pc slot true).floe n =
      { f with st := .halting, halt := some (BitVec.ofNat 8 code, pc, Fin.ofNat 8 slot), more := false, haltAtDispatch := true } := by
  subst hfloe
  simp only [Dev.haltFloe, hst, if_true, Dev.report_floe_at, Dev.floe_setFloe_same]

end Sys2Proof.Machine

namespace Sys2Proof.Proofs

open Sys2Proof.Machine Sys2Proof.Claims

/-- Settles O32: a floe that is not held comes to the bundle at pc, whose checks decide what it does, or asks for its line. -/
theorem dispatchCycles : Obligations.DispatchCycles := by
  unfold Obligations.DispatchCycles
  intro s n b f counted
  refine ⟨?_, ?_, ?_, ?_, ?_⟩
  · rintro ⟨hlive, hst, hfree, hcached, hlegal, hguard, hends, hroom, hqueues, hwait, hscalar⟩
    refine runs_live _ s _ (fun d => d.dispatchCycle n) rfl hlive ?_
    rw [Dev.dispatchCycle_cached hst hfree hcached,
      Dev.dispatchBundle_passes (f := f.lineUsed) (Dev.floe_setFloe_same ..) hroom hlegal hguard hends hqueues hwait hscalar]
    refine ⟨Dev.cycled_counts (((CycleKeeps.setFloe _ n _).trans (.setFloe _ n _)).trans (.setFloe _ n _)), ?_⟩
    rw [Dev.floe_settle, Dev.floe_setFloe_same]
    exact Floe.passed_spec f.lineUsed b hst
  · intro hlive hst hfree hcached hroom hlegal hguard
    refine runs_live _ s _ (fun d => d.dispatchCycle n) rfl hlive ?_
    rw [Dev.dispatchCycle_cached hst hfree hcached, Dev.dispatchBundle_skips (f := f.lineUsed) (Dev.floe_setFloe_same ..) hroom hlegal hguard]
    refine ⟨Dev.cycled_counts (((CycleKeeps.setFloe _ n _).trans (.setFloe _ n _)).trans
      (.count _ 1 (by simp only [rFloeSkipped, rFloeCycles]; omega))), ?_⟩
    rw [Dev.floe_settle, Dev.floe_count, Dev.floe_setFloe_same]
    refine ⟨rfl, rfl, rfl, ?_⟩
    rw [Dev.reg64_settle, Dev.reg64_count, Dev.reg64_setFloe, Dev.reg64_setFloe, Dev.reg64_skipped_cycled, BitVec.ofNat_eq_ofNat]
  · intro slot code hlive hst hfree hcached hroom hlegal
    refine runs_live _ s _ (fun d => d.dispatchCycle n) rfl hlive ?_
    rw [Dev.dispatchCycle_cached hst hfree hcached, Dev.dispatchBundle_illegal (f := f.lineUsed) (Dev.floe_setFloe_same ..) hroom hlegal]
    refine ⟨Dev.cycled_counts ((CycleKeeps.setFloe _ n _).trans (.haltFloe _ n.isLt ..)), ?_⟩
    rw [Dev.floe_settle, Dev.floe_haltFloe_running (f := f.lineUsed) (Dev.floe_setFloe_same ..) hst]
    exact ⟨rfl, rfl, rfl, rfl, rfl⟩
  · intro hlive hst hheld
    refine runs_live _ s _ (fun d => d.dispatchCycle n) rfl hlive ?_
    rw [Dev.dispatchCycle_held hst hheld]
    refine ⟨Dev.cycled_counts (.setFloe _ n _), ?_⟩
    rw [Dev.floe_settle, Dev.floe_setFloe_same]
  · intro hlive hst hfree hmiss
    refine runs_live _ s _ (fun d => d.dispatchCycle n) rfl hlive ?_
    obtain ⟨d', hkeeps, hfloe, heq⟩ := Dev.dispatchCycle_missed hst hfree hmiss
    rw [heq, Dev.updFloe]
    refine ⟨Dev.cycled_counts (hkeeps.trans (.setFloe _ n _)), ?_⟩
    rw [Dev.floe_settle, Dev.floe_setFloe_same, hfloe]
    exact f.askLines_spec _ hmiss

end Sys2Proof.Proofs

/-! Proof of the statement about the units behind dispatch (R243, R248, R249, R250, R251, R253, R258, R263). -/

/-! ## The instruction cache and the wait unit (R243, R248, R253) -/

namespace Sys2Proof.Machine

variable {d : Dev} {n : Nat}

/-- The mover of a floe's instruction fetches (R253). -/
def Dev.lineMover (d : Dev) (n : Nat) (l : BitVec 29) : Mover :=
  { origin := .floe (BitVec.ofNat 7 (d.logicalOf n)) 0 l.toNat, port := 1, cls := 1, field := (d.floeAccess (d.logicalOf n)).field }

/-- A line that arrives sound and readable is kept, and is no longer under way (R253). -/
theorem Dev.icFill_keeps {l : BitVec 29} {x y : WordRead} (hasked : l ∈ (d.floe n).fetching)
    (hmay : d.mayAccess (d.floeAccess (d.logicalOf n)) (l.toNat * 128) false = true) (hopen : d.regionHeld (l.toNat * 128) = false)
    (hread : (d.tsvReads (d.lineMover n l) [l.toNat * 128, l.toNat * 128 + 64]).1 = some [x, y])
    (hx : x.poison = false) (hy : y.poison = false) :
    l ∉ ((d.icFill n l).floe n).fetching ∧ ∃ e ∈ ((d.icFill n l).floe n).icache, e.line = l ∧ e.bad = 0 ∧ e.parity = false ∧
      e.data = BitVec.ofNat 1024 (x.data.toNat + 2 ^ 512 * y.data.toNat) := by
  rw [Dev.lineMover] at hread
  unfold Dev.icFill
  dsimp only
  rw [if_neg (by simp [hasked]), if_neg (by simp [hmay]), if_neg (by simp [hopen])]
  split
  · next heq =>
    rw [heq] at hread
    cases hread
    simp [hx, hy]
  · next hnone heq =>
    rw [heq] at hread
    exact (hnone _ _ hread).elim

/-- The wait unit releases the oldest entry alone (R248). -/
theorem Dev.waitRelease_releases {w : WaitEnt} {rest : List WaitEnt} {l : Logical} (hwaits : (d.floe n).waits = true)
    (hlist : (d.floe n).waitList = w :: rest)
    (htest : (d.logi (d.logicalOf n)).test (hdrWaitCounter w.header) (hdrWaitIndex w.header) (hdrWaitCond w.header) = some l) :
    (d.waitRelease n).logi (d.logicalOf n) = l ∧ ((d.waitRelease n).floe n).waitList = rest ∧
      ∀ b ∈ ((d.waitRelease n).floe n).bundles, b.number = w.number → b.released = true := by
  have heq : d.waitRelease n = (d.setLogi (d.logicalOf n) l).updFloe n fun f =>
      ({ f with waitList := rest } : Floe).updBundle w.number fun b => { b with released := true } := by
    simp only [Dev.waitRelease, hwaits, hlist, htest, Dev.releaseOldest]
  rw [heq]
  refine ⟨by rw [Dev.updFloe, Dev.logi_setFloe, Dev.logi_setLogi, if_pos rfl], by rw [Dev.floe_updFloe_same]; rfl, ?_⟩
  rw [Dev.floe_updFloe_same]
  intro b hb hnumber
  obtain ⟨b', -, rfl⟩ := List.mem_map.1 hb
  split
  · rfl
  · next hne =>
    rw [if_neg hne] at hnumber
    exact absurd (by simpa using hnumber) hne

/-- A bundle found by its number, after the bundles of that number have been updated. -/
theorem Floe.bundle_updBundle (f : Floe) {k : Nat} {b : BundleRec} {g : BundleRec → BundleRec} (hg : ∀ b, (g b).number = b.number)
    (h : f.bundle k = some b) : (f.updBundle k g).bundle k = some (g b) := by
  have hsame : ((fun b : BundleRec => b.number == k) ∘ fun b => if b.number == k then g b else b) = fun b => b.number == k := by
    funext b
    simp only [Function.comp_apply]
    split <;> simp [hg]
  have hnumber : (b.number == k) = true := List.find?_some (p := fun b : BundleRec => b.number == k) h
  rw [Floe.bundle] at h
  rw [Floe.bundle, Floe.updBundle, List.find?_map, hsame, h, Option.map_some, if_pos hnumber]

/-- A due signal is applied to its object and is marked as applied (R243). -/
theorem Dev.headerSignal_applies {k : Nat} {b : BundleRec} (hbundle : (d.floe n).bundle k = some b) (hdue : b.due = true)
    (hactive : (d.floe n).active = true) :
    (d.headerSignal n k).logi (d.logicalOf n) =
        (d.logi (d.logicalOf n)).signal (hdrSigCounter b.header) (hdrSigIndex b.header) (hdrSigOp b.header) ∧
      (∃ b', ((d.headerSignal n k).floe n).bundle k = some b' ∧ b'.signalled = true) ∧
      ∀ g, g ≠ d.logicalOf n → (d.headerSignal n k).logi g = d.logi g := by
  have heq : d.headerSignal n k = (d.updLogi (d.logicalOf n) fun l =>
      l.signal (hdrSigCounter b.header) (hdrSigIndex b.header) (hdrSigOp b.header)).updFloe n
        fun f => f.updBundle k fun b => { b with signalled := true } := by
    simp [Dev.headerSignal, hbundle, hdue, hactive]
  rw [heq]
  refine ⟨?_, ⟨{ b with signalled := true }, ?_, rfl⟩, fun g hg => ?_⟩
  · rw [Dev.updFloe, Dev.logi_setFloe, Dev.updLogi, Dev.logi_setLogi, if_pos rfl]
  · rw [Dev.floe_updFloe_same]
    exact Floe.bundle_updBundle _ (fun _ => rfl) hbundle
  · rw [Dev.updFloe, Dev.logi_setFloe, Dev.updLogi, Dev.logi_setLogi, if_neg hg]

end Sys2Proof.Machine

/-! ## Queue operands (R258) -/

namespace Sys2Proof.Machine

theorem Floe.queue_setQueue (f : Floe) (q r : Nat) (x : Option TileQ) : (f.setQueue q x).queue r = if r = q then x else f.queue r :=
  tabGet_set _ _ _ _

theorem TileQ.slot_setSlot (q : TileQ) (i j : Nat) (s : SlotSt) : (q.setSlot i s).slot j = if j = i then s else q.slot j :=
  tabGet_set _ _ _ _

/-- A queue of which an operand has been taken: a push fills its next slot, a pop reads its head. -/
def TileQ.taken (q : TileQ) (push : Bool) : TileQ :=
  if push then { q.setSlot q.fill .filling with fill := (q.fill + 1) % q.depth } else q.setSlot q.head .reading

theorem TileQ.taken_push (q : TileQ) :
    (q.taken true).slot q.fill = .filling ∧ (q.taken true).fill = (q.fill + 1) % q.depth ∧ (q.taken true).head = q.head :=
  ⟨(q.slot_setSlot q.fill q.fill .filling).trans (if_pos rfl), rfl, rfl⟩

theorem TileQ.taken_pop (q : TileQ) :
    (q.taken false).slot q.head = .reading ∧ (q.taken false).fill = q.fill ∧ (q.taken false).head = q.head :=
  ⟨(q.slot_setSlot q.head q.head .reading).trans (if_pos rfl), rfl, rfl⟩

/-- Taking an operand changes the operand's queue alone. -/
theorem Floe.takeOperand_frame (f : Floe) (o : QOp) : ∃ qs, (f.takeOperand o).2 = { f with queues := qs } := by
  unfold Floe.takeOperand
  split
  · exact ⟨_, rfl⟩
  · split <;> exact ⟨_, rfl⟩

theorem Floe.queue_takeOperand (f : Floe) (o : QOp) (r : Nat) :
    (f.takeOperand o).2.queue r = if r = o.q then (f.queue r).map (·.taken o.push) else f.queue r := by
  unfold Floe.takeOperand
  split
  · next hq => split <;> simp_all
  · next q hq =>
    by_cases hr : r = o.q
    · subst hr
      cases hpush : o.push <;> simp [hq, Floe.queue_setQueue, TileQ.taken]
    · cases hpush : o.push <;> simp [hr, Floe.queue_setQueue]

/-- A floe of which the operands of a command have been taken, in order. -/
def Floe.takeAll (f : Floe) (ops : List QOp) : Floe := ops.foldl (fun g o => (g.takeOperand o).2) f

theorem Floe.takeAll_frame (f : Floe) (ops : List QOp) : ∃ qs, f.takeAll ops = { f with queues := qs } := by
  refine List.foldlRecOn (motive := fun g : Floe => ∃ qs, g = { f with queues := qs }) _ _ ⟨_, rfl⟩ ?_
  rintro _ ⟨qs, rfl⟩ o -
  obtain ⟨qs', h⟩ := Floe.takeOperand_frame { f with queues := qs } o
  exact ⟨qs', h⟩

theorem Floe.queue_takeAll_ne (f : Floe) {ops : List QOp} {r : Nat} (hr : ∀ o ∈ ops, r ≠ o.q) : (f.takeAll ops).queue r = f.queue r := by
  refine List.foldlRecOn (motive := fun g : Floe => g.queue r = f.queue r) _ _ rfl fun g hg o ho => ?_
  rw [g.queue_takeOperand, if_neg (hr o ho), hg]

/-- Operands of different queues are each taken from their queue as it stood. -/
theorem Floe.queue_takeAll (f : Floe) {ops : List QOp} (hapart : (ops.map (·.q)).Nodup) {o : QOp} (ho : o ∈ ops) :
    (f.takeAll ops).queue o.q = (f.queue o.q).map (·.taken o.push) := by
  induction ops generalizing f with
  | nil => cases ho
  | cons a ops ih =>
    obtain ⟨ha, hapart⟩ := List.nodup_cons.1 hapart
    have hothers : ∀ x ∈ ops, a.q ≠ x.q := fun x hx h => ha (List.mem_map.2 ⟨x, hx, h.symm⟩)
    rcases List.mem_cons.1 ho with rfl | ho
    · exact (Floe.queue_takeAll_ne _ hothers).trans ((f.queue_takeOperand o o.q).trans (if_pos rfl))
    · refine (ih (f.takeOperand a).2 hapart ho).trans ?_
      rw [f.queue_takeOperand, if_neg (hothers o ho).symm]

end Sys2Proof.Machine

/-! ## Issue, completion, retirement and the end of a halt (R249, R250, R251, R263) -/

namespace Sys2Proof.Machine

variable {d : Dev} {n e : Nat}

@[simp] theorem Dev.floes_sramRead (d : Dev) (store unit : Nat) : (d.sramRead store unit).floes = d.floes := by
  unfold Dev.sramRead
  dsimp only
  split
  · exact Dev.report_floes ..
  · rfl

theorem Dev.floe_issueReads (d : Dev) (n e : Nat) (c : ECmd) (k : Nat) : (d.issueReads n e c).floe k = d.floe k := by
  have hfloes : (d.issueReads n e c).floes = d.floes := by
    unfold Dev.issueReads
    dsimp only
    split <;> split <;> simp only [Dev.floes_sramRead]
  rw [Dev.floe, hfloes, Dev.floe]

/-- A command of an engine, after the commands of its number have been updated. -/
theorem Dev.mem_engine_updCmd_of_mem {c : ECmd} (he : e < 6) (g : ECmd → ECmd) (hmem : c ∈ (d.floe n).engine e) :
    g c ∈ ((d.updCmd n e c.number g).floe n).engine e := by
  rw [Dev.updCmd, Dev.floe_updFloe_same, Floe.engine_setEngine _ he]
  exact List.mem_map.2 ⟨c, hmem, by simp⟩

theorem Dev.queue_updCmd (d : Dev) (n e k : Nat) (g : ECmd → ECmd) (q : Nat) :
    ((d.updCmd n e k g).floe n).queue q = (d.floe n).queue q := by
  rw [Dev.updCmd, Dev.floe_updFloe_same]
  rfl

/-- An engine that may issue takes the operands of its next command and marks the command as issued (R249, R258). -/
theorem Dev.engineIssue_issues {c : ECmd} (he : e ≠ 0) (hmay : (d.floe n).mayIssue = true)
    (hnext : ((d.floe n).engine e).find? (fun c => !c.issued) = some c)
    (hidle : ∀ x ∈ (d.floe n).engine e, x.issued = true → x.performed = true)
    (hreleased : (((d.floe n).bundle c.bundle).map (·.released)).getD true = true)
    (hready : ∀ o ∈ slotQueues e c.word.toNat, (d.floe n).operandWait o = none) :
    ∃ srcs dst entry, d.engineIssue n e =
      ((d.setFloe n ((d.floe n).takeAll (slotQueues e c.word.toNat))).issueReads n e c).updCmd n e c.number fun x =>
        { x with issued := true, srcs := srcs, dst := dst, waiting := none, entry := entry } := by
  have hbusy : (((d.floe n).engine e).any fun x => x.issued && !x.performed) = false :=
    List.any_eq_false.2 fun x hx => by
      have := hidle x hx
      cases hi : x.issued <;> simp_all
  have hnowait : (slotQueues e c.word.toNat).findSome? (d.floe n).operandWait = none := List.findSome?_eq_none_iff.2 hready
  unfold Dev.engineIssue
  dsimp only
  rw [if_neg (by simp [he, hmay]), hnext]
  dsimp only
  rw [hbusy, hreleased, if_neg (by simp), hnowait]
  dsimp only
  refine ⟨_, _, _, congrArg (fun f => ((d.setFloe n f).issueReads n e c).updCmd n e c.number _) ?_⟩
  refine (List.foldl_hom Prod.fst fun s o => ?_).symm
  split <;> rfl

/-- What issue leaves of the command and of its operands' queues. -/
theorem Dev.engineIssue_spec {c : ECmd} (he : e < 6) (hne : e ≠ 0) (hmay : (d.floe n).mayIssue = true)
    (hnext : ((d.floe n).engine e).find? (fun c => !c.issued) = some c)
    (hidle : ∀ x ∈ (d.floe n).engine e, x.issued = true → x.performed = true)
    (hreleased : (((d.floe n).bundle c.bundle).map (·.released)).getD true = true)
    (hapart : ((slotQueues e c.word.toNat).map (·.q)).Nodup)
    (hready : ∀ o ∈ slotQueues e c.word.toNat, (d.floe n).operandWait o = none ∧ ((d.floe n).queue o.q).isSome) :
    (∃ c' ∈ ((d.engineIssue n e).floe n).engine e, c'.number = c.number ∧ c'.word = c.word ∧ c'.issued = true ∧ c'.waiting = none) ∧
      ∀ o ∈ slotQueues e c.word.toNat, ∃ q q', (d.floe n).queue o.q = some q ∧ ((d.engineIssue n e).floe n).queue o.q = some q' ∧
        (o.push = true → q'.slot q.fill = .filling ∧ q'.fill = (q.fill + 1) % q.depth ∧ q'.head = q.head) ∧
        (o.push = false → q'.slot q.head = .reading ∧ q'.fill = q.fill ∧ q'.head = q.head) := by
  obtain ⟨srcs, dst, entry, heq⟩ := Dev.engineIssue_issues hne hmay hnext hidle hreleased fun o ho => (hready o ho).1
  obtain ⟨qs, hframe⟩ := (d.floe n).takeAll_frame (slotQueues e c.word.toNat)
  rw [heq]
  constructor
  · refine ⟨_, Dev.mem_engine_updCmd_of_mem he _ ?_, rfl, rfl, rfl, rfl⟩
    rw [Dev.floe_issueReads, Dev.floe_setFloe_same, hframe]
    exact List.mem_of_find?_eq_some hnext
  · intro o ho
    obtain ⟨q, hq⟩ := Option.isSome_iff_exists.1 (hready o ho).2
    refine ⟨q, q.taken o.push, hq, ?_, fun h => ?_, fun h => ?_⟩
    · rw [Dev.queue_updCmd, Dev.floe_issueReads, Dev.floe_setFloe_same, Floe.queue_takeAll _ hapart ho, hq, Option.map_some]
    · rw [h]
      exact q.taken_push
    · rw [h]
      exact q.taken_pop

/-- The oldest command of an engine leaves it and its bundle when all that it waits for has come (R250). -/
theorem Dev.engineComplete_spec {c : ECmd} {rest : List ECmd} (he : e < 6) (hengine : (d.floe n).engine e = c :: rest)
    (hactive : (d.floe n).active = true) (hperformed : c.performed = true) (hsound : c.faulted = false) (hnbos : c.nbos = [])
    (htags : c.tags = []) (hwords : c.words = []) :
    let f := (d.engineComplete n e).floe n
    f.engine e = rest ∧ (∀ b ∈ f.bundles, b.number = c.bundle → b.open_.getLsbD e = false) ∧
      f.storesDone = (d.floe n).storesDone + (if e = 4 then 1 else 0) ∧ ∀ k, k < 6 → k ≠ e → f.engine k = (d.floe n).engine k := by
  have heq : (d.engineComplete n e).floe n =
      { (((d.floe n).setEngine e rest).updBundle c.bundle fun b => { b with open_ := b.open_ &&& ~~~(BitVec.ofNat 6 (2 ^ e)) }) with
        storesDone := (d.floe n).storesDone + (if e = 4 then 1 else 0) } := by
    unfold Dev.engineComplete
    dsimp only
    rw [hengine]
    dsimp only
    rw [if_neg (by simp [hactive, hperformed, hsound, hnbos, htags, hwords]), Dev.floe_setFloe_same]
    split <;> rfl
  dsimp only
  rw [heq]
  refine ⟨Floe.engine_setEngine _ he _, fun b hb hnumber => ?_, rfl, fun k hk hne => Floe.engine_setEngine_ne _ hk hne _⟩
  obtain ⟨b', -, rfl⟩ := List.mem_map.1 hb
  split
  · dsimp only
    rw [BitVec.getLsbD_and, BitVec.getLsbD_not, BitVec.getLsbD_ofNat, Nat.testBit_two_pow_self]
    simp [he]
  · next hne =>
    rw [if_neg hne] at hnumber
    exact absurd (by simpa using hnumber) hne

/-- Leaving a launch changes that of the floe, and its command. -/
theorem Dev.leaveLaunch_spec (d : Dev) (n : Nat) (halted : Option (BitVec 8 × BitVec 64)) (frozen : Bool) :
    (∃ l, (d.leaveLaunch n halted frozen).floe n = { d.floe n with launch := l }) ∧
      ∀ o, (d.leaveLaunch n halted frozen).reg64 o = d.reg64 o := by
  unfold Dev.leaveLaunch
  dsimp only
  split
  · exact ⟨⟨none, Dev.floe_setFloe_same ..⟩, fun _ => rfl⟩
  · exact ⟨⟨_, rfl⟩, fun _ => rfl⟩

/-- The oldest bundle retires; with the last one after END the floe becomes idle (R246, R251). -/
theorem Dev.bundleRetire_spec {b : BundleRec} {rest : List BundleRec} (hbundles : (d.floe n).bundles = b :: rest)
    (hactive : (d.floe n).active = true) (hreleased : b.released = true) (hclosed : b.open_ = 0)
    (hsignalled : (b.signalled || b.skipped) = true) :
    ((d.bundleRetire n).floe n).bundles = rest ∧ (d.bundleRetire n).reg64 (rFloeBundles n) = d.reg64 (rFloeBundles n) + 1 ∧
      ((d.bundleRetire n).floe n).st = if (d.floe n).st = .ending ∧ rest = [] then .idle else (d.floe n).st := by
  have hcounted : ((d.setFloe n { d.floe n with bundles := rest }).count (rFloeBundles n) 1).reg64 (rFloeBundles n) =
      d.reg64 (rFloeBundles n) + 1 := Dev.reg64_count ..
  have hgoes : ((d.floe n).active && b.released && b.open_ == 0 && (b.signalled || b.skipped)) = true := by
    simp [hactive, hreleased, hclosed, hsignalled]
  have heq : d.bundleRetire n = if (d.floe n).st = .ending ∧ rest = [] then
      ((((d.setFloe n { d.floe n with bundles := rest }).count (rFloeBundles n) 1).setFloe n
        { d.floe n with bundles := rest, st := .idle }).leaveLaunch n none false)
      else (d.setFloe n { d.floe n with bundles := rest }).count (rFloeBundles n) 1 := by
    unfold Dev.bundleRetire
    dsimp only
    rw [hbundles]
    dsimp only
    simp only [hgoes, if_true, Dev.floe_count, Dev.floe_setFloe_same]
  rw [heq]
  by_cases hlast : (d.floe n).st = .ending ∧ rest = []
  · obtain ⟨⟨l, hfloe⟩, hreg⟩ := (((d.setFloe n { d.floe n with bundles := rest }).count (rFloeBundles n) 1).setFloe n
      { d.floe n with bundles := rest, st := .idle }).leaveLaunch_spec n none false
    rw [if_pos hlast, if_pos hlast, hfloe, hreg, Dev.floe_setFloe_same]
    exact ⟨rfl, hcounted, rfl⟩
  · rw [if_neg hlast, if_neg hlast, Dev.floe_count, Dev.floe_setFloe_same]
    exact ⟨rfl, hcounted, rfl⟩

/-- Has a halting floe nothing left to wait for (R262, R263)? -/
def Floe.drained (f : Floe) : Bool :=
  if f.haltAtDispatch then f.bundles.isEmpty
  else (f.engines.all fun es => es.all fun c => c.faulted && c.nbos.isEmpty && c.tags.isEmpty && c.words.isEmpty) && !f.bundles.any (·.due)

theorem Floe.drained_of {f : Floe} (hdispatch : f.haltAtDispatch = true → f.bundles = [])
    (hcmds : f.haltAtDispatch = false → ∀ es ∈ f.engines, ∀ c ∈ es, c.faulted = true ∧ c.nbos = [] ∧ c.tags = [] ∧ c.words = [])
    (hsignals : f.haltAtDispatch = false → ∀ b ∈ f.bundles, b.due = false) : f.drained = true := by
  unfold Floe.drained
  cases h : f.haltAtDispatch with
  | true => simp [hdispatch h]
  | false =>
    have hall : ∀ es ∈ f.engines, ∀ c ∈ es, (c.faulted && c.nbos.isEmpty && c.tags.isEmpty && c.words.isEmpty) = true :=
      fun es hes c hc => by
        obtain ⟨hfaulted, hnbos, htags, hwords⟩ := hcmds h es hes c hc
        simp [hfaulted, hnbos, htags, hwords]
    have hnone : f.bundles.any (·.due) = false := List.any_eq_false.2 fun b hb => by simp [hsignals h b hb]
    rw [if_neg Bool.false_ne_true, hnone, Bool.not_false, Bool.and_true]
    exact List.all_eq_true.2 fun es hes => List.all_eq_true.2 (hall es hes)

/-- A floe that halts and has drained has halted, with empty engines (R263). -/
theorem Dev.floeHalted_halts {h : BitVec 8 × DevAddr × Fin 8} (hst : (d.floe n).st = .halting) (hhalt : (d.floe n).halt = some h)
    (hdrained : (d.floe n).drained = true) :
    ∃ l, (d.floeHalted n).floe n = { d.floe n with st := .halted, engines := List.replicate 6 [], launch := l } := by
  have heq : d.floeHalted n = (d.setFloe n { d.floe n with st := .halted, engines := List.replicate 6 [] }).leaveLaunch n
      (some (h.1, haltAddr h.2.1 h.2.2.val)) false := by
    unfold Dev.floeHalted
    dsimp only
    split
    · next hhalt' =>
      rw [hhalt] at hhalt'
      cases hhalt'
      exact if_pos hdrained
    · next hother => exact (hother h.1 h.2.1 h.2.2 hst hhalt).elim
  obtain ⟨⟨l, hfloe⟩, -⟩ := (d.setFloe n { d.floe n with st := .halted, engines := List.replicate 6 [] }).leaveLaunch_spec n
    (some (h.1, haltAddr h.2.1 h.2.2.val)) false
  rw [heq]
  exact ⟨l, hfloe.trans (by rw [Dev.floe_setFloe_same])⟩

end Sys2Proof.Machine

namespace Sys2Proof.Proofs

open Sys2Proof.Machine Sys2Proof.Claims

/-- Settles O33: each unit by what it changes of its floe and of the floe's objects. -/
theorem frontEndUnits : Obligations.FrontEndUnits := by
  unfold Obligations.FrontEndUnits
  intro s n hlive f me
  refine ⟨fun l x y hasked hmay hopen hread hx hy => ?_, fun w rest l hwaits hlist htest => ?_, fun k b hbundle hdue hactive => ?_,
    fun e c hne hmay hnext hidle hreleased => ?_,
    fun e c rest hengine hactive hperformed hsound hnbos htags hwords => ?_,
    fun b rest hbundles hactive hreleased hclosed hsignalled => ?_, fun h hst hhalt hdispatch hcmds hsignals => ?_⟩
  · exact runs_live _ s _ (fun d => d.icFill n l) rfl hlive (Dev.icFill_keeps hasked hmay hopen hread hx hy)
  · exact runs_live _ s _ (fun d => d.waitRelease n) rfl hlive (Dev.waitRelease_releases hwaits hlist htest)
  · exact runs_live _ s _ (fun d => d.headerSignal n k) rfl hlive (Dev.headerSignal_applies hbundle hdue hactive)
  · intro ops hapart hready
    exact runs_live _ s _ (fun d => d.engineIssue n e) rfl hlive
      (Dev.engineIssue_spec e.isLt (Fin.val_ne_of_ne hne) hmay hnext hidle hreleased hapart hready)
  · refine runs_live _ s _ (fun d => d.engineComplete n e) rfl hlive ?_
    obtain ⟨hrest, hopen, hstores, hothers⟩ :=
      Dev.engineComplete_spec e.isLt hengine hactive hperformed hsound hnbos htags hwords
    exact ⟨hrest, hopen, by simpa [Fin.ext_iff] using hstores, hothers⟩
  · exact runs_live _ s _ (fun d => d.bundleRetire n) rfl hlive
      (Dev.bundleRetire_spec hbundles hactive hreleased hclosed hsignalled)
  · refine runs_live _ s _ (fun d => d.floeHalted n) rfl hlive ?_
    obtain ⟨l, hfloe⟩ := Dev.floeHalted_halts hst hhalt (Floe.drained_of hdispatch hcmds hsignals)
    rw [Dev.floe_settle, hfloe]
    refine ⟨rfl, hhalt, fun k => ?_, rfl, rfl⟩
    rw [Floe.engine, List.getElem?_replicate]
    split <;> rfl

end Sys2Proof.Proofs

/-! Proof of the statement about the scalar commands that write no counter (R244, R245, R246, R254, R256, R257, R278). -/

/-! ## Words of the scalar slot (R277, R278) -/

namespace Sys2Proof.Machine

/-- A word whose bits below its opcode are among those that the opcode uses is legal (R270, R277). -/
theorem scalarLegal_of_uses {w u : Nat} (hzero : bits w 31 26 ≠ 0) (hins : bits w 31 26 ≠ 2) (huses : scalarUses w = some u)
    (hlow : w % 2 ^ 26 &&& u = w % 2 ^ 26) : scalarLegal w = 0 := by
  rw [scalarLegal, if_neg hzero, if_neg fun h => hins h.1, huses, usesLegal]
  exact if_pos hlow

/-- Two fields, one above the other, lie within a mask when each lies within its part of it. -/
theorem and_mask_fields {x u y v k : Nat} (hx : x &&& u = x) (hy : y &&& v = y) (hyk : y < 2 ^ k) (hvk : v < 2 ^ k) :
    (2 ^ k * x + y) &&& (2 ^ k * u + v) = 2 ^ k * x + y := by
  refine Nat.eq_of_testBit_eq fun j => ?_
  rw [Nat.testBit_and, Nat.testBit_two_pow_mul_add _ hyk, Nat.testBit_two_pow_mul_add _ hvk]
  split
  · rw [← Nat.testBit_and, hy]
  · rw [← Nat.testBit_and, hx]

theorem and_low_mask {y k : Nat} (hy : y < 2 ^ k) : y &&& (2 ^ k - 1) = y := by
  rw [Nat.and_two_pow_sub_one_eq_mod, Nat.mod_eq_of_lt hy]

theorem scalarWaits_of_op {f : Floe} {w : Nat} (hcfg : bits w 31 26 ≠ 0x20) (hfree : bits w 31 26 ≠ 0x21) : f.scalarWaits w = false := by
  simp [Floe.scalarWaits, hcfg, hfree]

theorem scalarWaits_of_idle {f : Floe} {w : Nat} (hidle : f.queueIdle (bits w 25 21) = true) : f.scalarWaits w = false := by
  simp [Floe.scalarWaits, hidle]

/-- The word of CMP (R278). -/
def cmpWord (k a : Nat) (byReg : Bool) (b imm : Nat) : Nat := 0x10 * 2 ^ 26 + cmpFields k a byReg b imm

theorem cmpWord_fields {k a b imm : Nat} (hk : k < 4) (ha : a < 8) (hb : b < 8) (himm : imm < 2 ^ 16) (byReg : Bool) :
    let w := cmpWord k a byReg b imm
    bits w 31 26 = 0x10 ∧ bits w 25 23 = a ∧ bits w 19 18 = k ∧ w.testBit 17 = byReg ∧
      (byReg = true → bits w 22 20 = b) ∧ (byReg = false → bits w 15 0 = imm) := by
  cases byReg <;> simp only [cmpWord, cmpFields, bits_eq_div_mod, Nat.testBit_eq_decide_div_mod_eq, if_true, if_false,
    Bool.false_eq_true, decide_eq_true_eq, decide_eq_false_iff_not, Bool.true_eq_false, true_imp_iff, false_imp_iff, and_true, true_and] <;> omega

theorem scalarLegal_cmpWord (k : Fin 4) (a b : Fin 8) (byReg : Bool) (imm : BitVec 16) :
    scalarLegal (cmpWord k a byReg b imm.toNat) = 0 := by
  obtain ⟨hop, -, -, hbyReg, -, -⟩ := cmpWord_fields k.isLt a.isLt b.isLt imm.isLt byReg
  have huses : scalarUses (cmpWord k a byReg b imm.toNat) = some (0x3800000 + 0xC0000 + 0x20000 + if byReg then 0x700000 else 0xFFFF) := by
    simp only [scalarUses, hop, hbyReg]
  refine scalarLegal_of_uses (by rw [hop]; decide) (by rw [hop]; decide) huses ?_
  have hlow : cmpWord k a byReg b imm.toNat % 2 ^ 26 = cmpFields k a byReg b imm.toNat := by
    simp only [cmpWord, cmpFields]
    split <;> omega
  rw [hlow]
  cases byReg with
  | true =>
    have hall : ∀ k : Fin 4, ∀ a b : Fin 8, cmpFields k a true b 0 &&& (0x3800000 + 0xC0000 + 0x20000 + 0x700000) = cmpFields k a true b 0 := by
      decide
    exact hall k a b
  | false =>
    have hall : ∀ k : Fin 4, ∀ a : Fin 8, (a.val * 2 ^ 7 + k.val * 2 ^ 2) &&& 0x38E = a.val * 2 ^ 7 + k.val * 2 ^ 2 := by decide
    have hfields := and_mask_fields (k := 16) (hall k a) (and_low_mask imm.isLt) imm.isLt (by decide)
    have hsum : cmpFields k a false b imm.toNat = 2 ^ 16 * (a.val * 2 ^ 7 + k.val * 2 ^ 2) + imm.toNat := by
      simp only [cmpFields, if_false, Bool.false_eq_true]
      omega
    rw [hsum]
    exact hfields

/-- A word whose fields below the opcode are zero but for one of the queue's number and one of the record's (R257, R278). -/
theorem queueWord_fields {op q rec : Nat} (hop : op < 64) (hq : q < 32) (hrec : rec < 2 ^ 18) :
    let w := op * 2 ^ 26 + q * 2 ^ 21 + rec
    bits w 31 26 = op ∧ bits w 25 21 = q ∧ bits w 17 0 = rec ∧ w % 2 ^ 26 = q * 2 ^ 21 + rec := by
  simp only [bits_eq_div_mod]
  omega

theorem scalarLegal_qcfgWord (q : Fin 32) (rec : BitVec 18) : scalarLegal (0x20 * 2 ^ 26 + q.val * 2 ^ 21 + rec.toNat) = 0 := by
  obtain ⟨hop, -, -, hlow⟩ := queueWord_fields (op := 0x20) (by decide) q.isLt rec.isLt
  refine scalarLegal_of_uses (u := 0x3E00000 + 0x3FFFF) (by rw [hop]; decide) (by rw [hop]; decide) (by simp only [scalarUses, hop]) ?_
  have hall : ∀ q : Fin 32, q.val * 2 ^ 3 &&& 0xF8 = q.val * 2 ^ 3 := by decide
  have hsum : q.val * 2 ^ 21 + rec.toNat = 2 ^ 18 * (q.val * 2 ^ 3) + rec.toNat := by omega
  rw [hlow, hsum]
  exact and_mask_fields (k := 18) (hall q) (and_low_mask rec.isLt) rec.isLt (by decide)

theorem scalarLegal_qfreeWord (q : Fin 32) : scalarLegal (0x21 * 2 ^ 26 + q.val * 2 ^ 21) = 0 := by
  revert q
  decide

theorem scalarLegal_cmpxWord (k : Fin 4) : scalarLegal (0x11 * 2 ^ 26 + k.val * 2 ^ 18) = 0 := by
  revert k
  decide

theorem brWord_fields (off : BitVec 26) :
    bits (0x18 * 2 ^ 26 + off.toNat) 31 26 = 0x18 ∧ (0x18 * 2 ^ 26 + off.toNat) % 2 ^ 26 = off.toNat := by
  have := off.isLt
  simp only [bits_eq_div_mod]
  omega

theorem scalarLegal_brWord (off : BitVec 26) : scalarLegal (0x18 * 2 ^ 26 + off.toNat) = 0 := by
  obtain ⟨hop, hlow⟩ := brWord_fields off
  refine scalarLegal_of_uses (u := 2 ^ 26 - 1) (by rw [hop]; decide) (by rw [hop]; decide) (by simp only [scalarUses, hop]; rfl) ?_
  rw [hlow]
  exact and_low_mask off.isLt

/-- The two's complement reading of a number is that of its low bits. -/
theorem sextInt_eq_toInt {w x : Nat} (v : BitVec w) (hw : 0 < w) (h : x % 2 ^ w = v.toNat) : sextInt w x = v.toInt := by
  have hhalf := Nat.two_pow_pred_add_two_pow_pred hw
  rw [sextInt, h, BitVec.toInt_eq_toNat_cond]
  split <;> split <;> omega

/-- A branch goes `off` bundles of 32 bytes from its own (R245, R278). -/
theorem branchTarget_eq (pc : DevAddr) (off : BitVec 26) :
    pc + BitVec.ofInt 36 (32 * sextInt 26 (0x18 * 2 ^ 26 + off.toNat)) = pc + off.signExtend 36 * 32 := by
  rw [sextInt_eq_toInt off (by decide) (brWord_fields off).2, BitVec.ofInt_mul, BitVec.mul_comm]
  rfl

end Sys2Proof.Machine

/-! ## What a scalar command does (R244, R278) -/

namespace Sys2Proof.Machine

variable {d e : Dev} {n w : Nat}

/-- A legal command of a running floe that need not wait, and does not branch, leaves what its execution leaves. -/
theorem Dev.scalarRow_next (hst : (d.floe n).st = .running) (hlegal : scalarLegal w = 0) (hnowait : (d.floe n).scalarWaits w = false)
    (hexec : d.scalarExec n w (d.floe n).pc = .next e none) : d.scalarRow n w = e := by
  simp [Dev.scalarRow, hst, hlegal, hnowait, hexec]

/-- A branch that is taken moves pc alone. -/
theorem Dev.scalarRow_branch {p : DevAddr} (hst : (d.floe n).st = .running) (hlegal : scalarLegal w = 0)
    (hnowait : (d.floe n).scalarWaits w = false) (hexec : d.scalarExec n w (d.floe n).pc = .next d (some p)) :
    d.scalarRow n w = d.setFloe n { d.floe n with pc := p } := by
  simp [Dev.scalarRow, hst, hlegal, hnowait, hexec, Dev.updFloe]

/-- A read of a sound word of local store leaves the device as it is. -/
theorem Dev.lsRead_clean {off : Nat} (hcorrected : (d.ls.readWord (lsIndex n off)).corrected = 0)
    (huncorr : (d.ls.readWord (lsIndex n off)).uncorr = 0) : d.lsRead n off = (d.ls.readWord (lsIndex n off), d) := by
  simp [Dev.lsRead, hcorrected, huncorr]

/-- A sound record outside every queue is read (R279). -/
theorem Dev.recordRead_sound {rec : Nat} (hclear : (d.floe n).inQueue (8 * rec) 8 = false)
    (hpoison : (d.ls.readWord (lsIndex n (8 * rec))).poison = false) (hcorrected : (d.ls.readWord (lsIndex n (8 * rec))).corrected = 0)
    (huncorr : (d.ls.readWord (lsIndex n (8 * rec))).uncorr = 0) :
    d.recordRead n rec = (.ok (fieldAt (d.ls.readWord (lsIndex n (8 * rec))).data.toNat (8 * rec % 64) 8), d) := by
  simp [Dev.recordRead, hclear, Dev.lsRead_clean hcorrected huncorr, hpoison]

/-- A record that passes the checks of R257 configures the queue, empty. -/
theorem Dev.qcfg_configures {q rec x : Nat} (hread : d.recordRead n rec = (.ok x, d))
    (hreserved : (x.testBit 15 || x.testBit 23 || x.testBit 27 || x.testBit 31 || bits x 47 42 != 0 || bits x 63 48 != 0) = false)
    (hproducer : 1 ≤ bits x 26 24 ∧ bits x 26 24 ≤ 3) (hconsumer : 1 ≤ bits x 30 28 ∧ bits x 30 28 ≤ 4)
    (hfits : bits x 14 0 * 64 + (bits x 41 32 + 1) * ((bits x 22 16 + 1) * 64) ≤ 2 ^ 21)
    (hclear : ({ d.floe n with queues := tabErase (d.floe n).queues q } : Floe).inQueue (bits x 14 0 * 64)
      ((bits x 41 32 + 1) * ((bits x 22 16 + 1) * 64)) = false) :
    d.qcfg n q rec = .next (d.setFloe n ((d.floe n).setQueue q (some
      { base := bits x 14 0 * 64, tile := (bits x 22 16 + 1) * 64, producer := bits x 26 24, consumer := bits x 30 28
        depth := bits x 41 32 + 1, head := 0, fill := 0, slots := [] }))) none := by
  unfold Dev.qcfg
  rw [hread]
  dsimp only
  rw [hreserved, hclear, if_neg (by simp only [Bool.false_eq_true, false_or]; omega),
    if_neg (by simp only [Bool.false_eq_true, or_false]; omega)]

/-- What a comparator compares its counter with (R244). -/
def CmpB.value (f : Floe) : CmpB → BitVec 48
  | .imm v => v.zeroExtend 48
  | .reg r => f.nreg r

/-- The outputs of a comparator that has been set: equal, and less (R244). -/
theorem Floe.guard_setCmp (f : Floe) {k i : Nat} (hi : i < 8) (hk : i / 2 = k) (a : Fin 8) (o : CmpB) :
    ({ f with cmps := setAt 4 none f.cmps k (some (a, o)) } : Floe).guard i =
      if i % 2 = 0 then f.nreg a == o.value f else decide (f.nreg a < o.value f) := by
  have hlt : i / 2 < 4 := by omega
  rw [Floe.guard, getD_setAt, if_pos hlt, if_pos hk]
  cases o <;> rfl

theorem Floe.guard_clearCmp (f : Floe) {k i : Nat} (hi : i < 8) (hk : i / 2 = k) :
    ({ f with cmps := setAt 4 none f.cmps k none } : Floe).guard i = false := by
  have hlt : i / 2 < 4 := by omega
  rw [Floe.guard, getD_setAt, if_pos hlt, if_pos hk]

theorem Floe.guard_setCmp_ne (f : Floe) {k i : Nat} (hi : i < 8) (hk : i / 2 ≠ k) (x : Option (Fin 8 × CmpB)) :
    ({ f with cmps := setAt 4 none f.cmps k x } : Floe).guard i = f.guard i := by
  have hlt : i / 2 < 4 := by omega
  rw [Floe.guard, getD_setAt, if_pos hlt, if_neg hk]
  rfl

/-- The setting that CMP gives its comparator (R278). -/
def cmpSetting (byReg : Bool) (b : Fin 8) (imm : BitVec 16) : CmpB := if byReg then .reg b else .imm imm

theorem cmpSetting_value (f : Floe) (byReg : Bool) (b : Fin 8) (imm : BitVec 16) :
    (cmpSetting byReg b imm).value f = if byReg then f.nreg b else imm.zeroExtend 48 := by
  cases byReg <;> rfl

theorem Dev.scalarExec_cmp (d : Dev) (n : Nat) (k : Fin 4) (a b : Fin 8) (byReg : Bool) (imm : BitVec 16) (pc : DevAddr) :
    d.scalarExec n (cmpWord k a byReg b imm.toNat) pc = .next (d.setFloe n { d.floe n with
      cmps := setAt 4 none (d.floe n).cmps k (some (a, cmpSetting byReg b imm)) }) none := by
  obtain ⟨hop, ha, hk, hbyReg, hb, himm⟩ := cmpWord_fields k.isLt a.isLt b.isLt imm.isLt byReg
  simp only [Dev.scalarExec, hop, ha, hk, hbyReg]
  cases byReg with
  | true => simp [hb rfl, cmpSetting]
  | false => simp [himm rfl, cmpSetting]

end Sys2Proof.Machine

namespace Sys2Proof.Proofs

open Sys2Proof.Machine Sys2Proof.Claims

/-- A scalar command that leaves one floe changed runs, and leaves every other floe and the rest of the device. -/
theorem runs_scalar_floe {i : Instr} {s : State} {n w : Nat} {f : Floe} {P : Dev → Prop}
    (h : exec i s = s.does fun d => d.inService fun d => d.scalarRow n w) (hlive : s.dev.sys.phase.live = true)
    (hrow : s.dev.scalarRow n w = s.dev.setFloe n f)
    (hP : ∀ d : Dev, ((∀ m, m ≠ n → d.floe m = s.dev.floe m) ∧ d = ({ s.dev with floes := d.floes } : Dev).settle) →
      d.floe n = f → P d) :
    Runs i s P := by
  refine runs_live i s P _ h hlive (hP _ ⟨fun m hm => ?_, ?_⟩ ?_)
  · rw [Dev.floe_settle, hrow, Dev.floe_setFloe, if_neg hm]
  · rw [hrow]
    rfl
  · rw [Dev.floe_settle, hrow, Dev.floe_setFloe_same]

/-- Settles O35: each command by its word and by the one change of its floe that it makes. -/
theorem scalarControl : Obligations.ScalarControl := by
  unfold Obligations.ScalarControl
  intro s n k a b byReg imm off q f others hlive hst
  refine ⟨?_, ?_, ?_, ?_, ?_, fun hidle => ?_, fun rec => ?_⟩
  · obtain ⟨hop, -⟩ := cmpWord_fields k.isLt a.isLt b.isLt imm.isLt byReg
    refine runs_scalar_floe (w := cmpWord k a byReg b imm.toNat) rfl hlive
      (Dev.scalarRow_next hst (scalarLegal_cmpWord k a b byReg imm) (scalarWaits_of_op (by rw [hop]; decide) (by rw [hop]; decide))
        (Dev.scalarExec_cmp ..)) fun d hothers hfloe => ⟨hothers, ?_⟩
    rw [hfloe, ← cmpSetting_value f byReg b imm]
    refine ⟨(f.guard_setCmp (by omega) (by omega) ..).trans (if_pos (by omega)),
      (f.guard_setCmp (by omega) (by omega) ..).trans (if_neg (by omega)), rfl, fun i hi hne => f.guard_setCmp_ne hi hne _⟩
  · have hfields : bits (0x11 * 2 ^ 26 + k.val * 2 ^ 18) 31 26 = 0x11 ∧ bits (0x11 * 2 ^ 26 + k.val * 2 ^ 18) 19 18 = k.val := by
      simp only [bits_eq_div_mod]
      omega
    obtain ⟨hop, hk⟩ := hfields
    refine runs_scalar_floe (w := 0x11 * 2 ^ 26 + k.val * 2 ^ 18) rfl hlive
      (Dev.scalarRow_next hst (scalarLegal_cmpxWord k) (scalarWaits_of_op (by rw [hop]; decide) (by rw [hop]; decide))
        (by simp only [Dev.scalarExec, hop, hk]; rfl)) fun d hothers hfloe => ⟨hothers, ?_⟩
    rw [hfloe]
    exact ⟨f.guard_clearCmp (by omega) (by omega), f.guard_clearCmp (by omega) (by omega), rfl⟩
  · obtain ⟨hop, -⟩ := brWord_fields off
    refine runs_scalar_floe (w := 0x18 * 2 ^ 26 + off.toNat) rfl hlive
      (Dev.scalarRow_branch hst (scalarLegal_brWord off) (scalarWaits_of_op (by rw [hop]; decide) (by rw [hop]; decide))
        (by simp only [Dev.scalarExec, hop]; rfl)) fun d hothers hfloe => ⟨hothers, ?_⟩
    rw [hfloe, branchTarget_eq]
  · exact runs_scalar_floe (w := 0x19 * 2 ^ 26) rfl hlive (Dev.scalarRow_next hst (by decide) (scalarWaits_of_op (by decide) (by decide)) rfl)
      fun d hothers hfloe => ⟨hothers, hfloe⟩
  · exact runs_scalar_floe (w := 0x1A * 2 ^ 26) rfl hlive (Dev.scalarRow_next hst (by decide) (scalarWaits_of_op (by decide) (by decide)) rfl)
      fun d hothers hfloe => ⟨hothers, hfloe⟩
  · obtain ⟨hop, hq, -⟩ := queueWord_fields (op := 0x21) (rec := 0) (by decide) q.isLt (by decide)
    rw [Nat.add_zero] at hop hq
    refine runs_scalar_floe (w := 0x21 * 2 ^ 26 + q.val * 2 ^ 21) rfl hlive
      (Dev.scalarRow_next hst (scalarLegal_qfreeWord q) (scalarWaits_of_idle (by rw [hq]; exact hidle))
        (by simp only [Dev.scalarExec, hop, hq]; rfl)) fun d hothers hfloe => ⟨hothers, ?_⟩
    rw [hfloe]
    exact ⟨(f.queue_setQueue ..).trans (if_pos rfl), fun r hr => (f.queue_setQueue ..).trans (if_neg hr), rfl⟩
  · intro w x base tile depth hidle hrecord hpoison hcorrected huncorr h15 h23 h27 h31 h42 h48 hp hp' hc hc' hfits hclear
    obtain ⟨hop, hq, hrec, -⟩ := queueWord_fields (op := 0x20) (by decide) q.isLt rec.isLt
    have hreserved : (x.testBit 15 || x.testBit 23 || x.testBit 27 || x.testBit 31 || bits x 47 42 != 0 || bits x 63 48 != 0) = false := by
      simp [h15, h23, h27, h31, h42, h48]
    have hconfigures := Dev.qcfg_configures (q := q) (Dev.recordRead_sound hrecord hpoison hcorrected huncorr) hreserved
      ⟨hp, hp'⟩ ⟨hc, hc'⟩ hfits hclear
    refine runs_scalar_floe (w := 0x20 * 2 ^ 26 + q.val * 2 ^ 21 + rec.toNat) rfl hlive
      (Dev.scalarRow_next hst (scalarLegal_qcfgWord q rec) (scalarWaits_of_idle (by rw [hq]; exact hidle))
        (by simp only [Dev.scalarExec, hop, hq, hrec]; exact hconfigures)) fun d hothers hfloe => ⟨hothers, ?_⟩
    rw [hfloe]
    exact ⟨rfl, fun r hr => (f.queue_setQueue ..).trans (if_neg hr), (f.queue_setQueue ..).trans (if_pos rfl)⟩

end Sys2Proof.Proofs

/-! Proof of the statement about the vector commands (R261, R276, R281, R282, R365). -/

/-! ## What reading tiles and reporting poison leave (R233, R393) -/

namespace Sys2Proof.Machine

/-- Two devices with the same slots, local stores and array. -/
structure SameTiles (d d' : Dev) : Prop where
  floes : d'.floes = d.floes
  ls : d'.ls = d.ls
  dram : d'.dram = d.dram

namespace SameTiles

theorem refl (d : Dev) : SameTiles d d := ⟨rfl, rfl, rfl⟩

theorem trans {a b c : Dev} (h : SameTiles a b) (k : SameTiles b c) : SameTiles a c :=
  ⟨k.floes.trans h.floes, k.ls.trans h.ls, k.dram.trans h.dram⟩

theorem ite {p : Prop} {_ : Decidable p} {d x y : Dev} (h : SameTiles d x) (k : SameTiles d y) : SameTiles d (if p then x else y) := by
  split <;> assumption

theorem floe {d d' : Dev} (h : SameTiles d d') (n : Nat) : d'.floe n = d.floe n := by rw [Dev.floe, h.floes, Dev.floe]

theorem setReg (d : Dev) (o : Nat) (v : Reg) : SameTiles d (d.setReg o v) := ⟨rfl, rfl, rfl⟩

theorem count (d : Dev) (o k : Nat) : SameTiles d (d.count o k) := ⟨rfl, rfl, rfl⟩

theorem report (d : Dev) (code sev ukind unit addr info : Nat) (f : Option (BitVec 4)) :
    SameTiles d (d.report code sev ukind unit addr info f) := ⟨Dev.report_floes .., Dev.report_ls .., Dev.report_dram ..⟩

theorem lsRead (d : Dev) (n off : Nat) : SameTiles d (d.lsRead n off).2 := by
  have hcorrected : SameTiles d (if (d.ls.readWord (lsIndex n off)).corrected = 0 then d
      else (d.count (rLsCe n) (d.ls.readWord (lsIndex n off)).corrected).report 0x0007 1 4 n (off / 64 * 64) 0) :=
    ite (refl d) ((count d _ _).trans (report ..))
  exact ite hcorrected (hcorrected.trans ((count _ _ _).trans (report ..)))

theorem poisonMoved (d : Dev) (n engine addr : Nat) : SameTiles d (d.poisonMoved n engine addr) := by
  unfold Dev.poisonMoved
  exact ite (report ..) ((report ..).trans ((setReg _ _ _).trans ((setReg _ _ _).trans (setReg _ _ _))))

end SameTiles

/-- Words read in order are those that stand in the local store, and reading them leaves it. -/
theorem Dev.foldl_lsRead (n : Nat) (at_ : Nat → Nat) (is : List Nat) (ws : List WordRead) (d : Dev) :
    let r := is.foldl (fun (s : List WordRead × Dev) i => (s.1 ++ [(s.2.lsRead n (at_ i)).1], (s.2.lsRead n (at_ i)).2)) (ws, d)
    r.1 = ws ++ is.map (fun i => d.ls.readWord (lsIndex n (at_ i))) ∧ SameTiles d r.2 := by
  induction is generalizing ws d with
  | nil => exact ⟨(List.append_nil ws).symm, .refl d⟩
  | cons i is ih =>
    have hread := SameTiles.lsRead d n (at_ i)
    obtain ⟨hwords, hsame⟩ := ih (ws ++ [(d.lsRead n (at_ i)).1]) (d.lsRead n (at_ i)).2
    refine ⟨?_, hread.trans hsame⟩
    rw [List.foldl_cons, hwords, hread.ls, List.map_cons, List.append_assoc]
    rfl

/-- A tile that is read is the tile as it stands. -/
theorem Dev.tileRead_spec (d : Dev) (n base size : Nat) :
    (d.tileRead n base size).1 = d.tileSeen n base size ∧ SameTiles d (d.tileRead n base size).2 := by
  obtain ⟨hwords, hsame⟩ := Dev.foldl_lsRead n (fun i => base + 64 * i) (List.range (size / 64)) [] d
  exact ⟨congrArg wordsTile hwords, hsame⟩

/-- A source tile is the tile of its queue slot as it stands (R261). -/
theorem Dev.srcTile_same {d d' : Dev} (h : SameTiles d d') (n : Nat) (c : ECmd) (k : Nat) :
    (d'.srcTile n c k).1 = (d.srcTile n c k).1 ∧ SameTiles d (d'.srcTile n c k).2 := by
  have hseen : ∀ base size, d'.tileSeen n base size = d.tileSeen n base size := fun base size => by
    rw [Dev.tileSeen, h.ls, Dev.tileSeen]
  unfold Dev.srcTile
  split
  · exact ⟨rfl, h⟩
  · next q i keep hsrc =>
    dsimp only
    rw [h.floe]
    split
    · exact ⟨hseen _ _, h⟩
    · obtain ⟨htile, hsame⟩ := d'.tileRead_spec n ((d.floe n).slotPlace q i).1 ((d.floe n).slotPlace q i).2
      exact ⟨htile.trans ((hseen _ _).trans (d.tileRead_spec n _ _).1.symm), h.trans hsame⟩

end Sys2Proof.Machine

/-! ## A tile that is written (R261, R366) -/

namespace Sys2Proof.Machine

open Sys2Proof.Claims

/-- The words of a tile, put into a memory from word `w` on. -/
def EccMem.putTile (m : EccMem) (w : Nat) (t : Tile) (k : Nat) : EccMem :=
  (List.range k).foldl (fun m i => m.writeWord (w + i) (BitVec.ofNat 512 (t.data >>> (512 * i))) (if t.poison.testBit i then 0xFF else 0)) m

theorem EccMem.putTile_succ (m : EccMem) (w : Nat) (t : Tile) (k : Nat) : m.putTile w t (k + 1) =
    (m.putTile w t k).writeWord (w + k) (BitVec.ofNat 512 (t.data >>> (512 * k))) (if t.poison.testBit k then 0xFF else 0) := by
  rw [EccMem.putTile, List.range_succ, List.foldl_append]
  rfl

theorem EccMem.readWord_putTile_out (m : EccMem) (w : Nat) (t : Tile) (k : Nat) {j : Nat} (h : ∀ i, i < k → j ≠ w + i) :
    (m.putTile w t k).readWord j = m.readWord j := by
  induction k with
  | zero => rfl
  | succ k ih => rw [EccMem.putTile_succ, EccMem.readWord_writeWord_of_ne _ _ _ _ (h k (Nat.lt_succ_self k)), ih fun i hi => h i (by omega)]

theorem EccMem.readWord_putTile_in (m : EccMem) (w : Nat) (t : Tile) (k : Nat) {i : Nat} (hi : i < k) :
    ((m.putTile w t k).readWord (w + i)).data = BitVec.ofNat 512 (t.data >>> (512 * i)) ∧
      ((m.putTile w t k).readWord (w + i)).poison = t.poison.testBit i := by
  induction k with
  | zero => cases hi
  | succ k ih =>
    rw [EccMem.putTile_succ]
    by_cases hik : i = k
    · subst hik
      rw [EccMem.readWord_writeWord]
      refine ⟨rfl, ?_⟩
      cases t.poison.testBit i <;> rfl
    · rw [EccMem.readWord_writeWord_of_ne _ _ _ _ (by omega)]
      exact ih (by omega)

theorem lsIndex_add (n off k : Nat) : lsIndex n (off + 64 * k) = lsIndex n off + k := by
  simp only [lsIndex]
  omega

theorem Dev.foldl_ls (d : Dev) (g : EccMem → Nat → EccMem) (l : List Nat) :
    l.foldl (fun (d : Dev) i => { d with ls := g d.ls i }) d = { d with ls := l.foldl g d.ls } := by
  induction l generalizing d with
  | nil => rfl
  | cons i l ih => exact ih { d with ls := g d.ls i }

theorem Dev.tileWrite_eq (d : Dev) (n base : Nat) (t : Tile) :
    d.tileWrite n base t = { d with ls := d.ls.putTile (lsIndex n base) t (t.size / 64) } := by
  rw [Dev.tileWrite, forNat]
  simp only [lsIndex_add]
  exact d.foldl_ls (fun m i => m.writeWord (lsIndex n base + i) (BitVec.ofNat 512 (t.data >>> (512 * i)))
    (if t.poison.testBit i then 0xFF else 0)) _

/-- A written tile is held, and every other word of the local stores reads as before. -/
theorem holdsTile_of_putTile {d d' : Dev} {n base size : Nat} {t : Tile} (h : d'.ls = d.ls.putTile (lsIndex n base) t (size / 64)) :
    HoldsTile d d' n base size t := by
  refine ⟨fun k hk => ?_, fun w hw => ?_⟩
  · rw [h, lsIndex_add]
    exact EccMem.readWord_putTile_in _ _ _ _ hk
  · rw [h]
    exact EccMem.readWord_putTile_out _ _ _ _ fun i hi => lsIndex_add n base i ▸ hw i hi

end Sys2Proof.Machine

/-! ## A command that has been performed (R249, R258) -/

namespace Sys2Proof.Machine

open Sys2Proof.Claims

variable {d : Dev} {n e : Nat} {c : ECmd}

/-- A source that is released leaves the engines, and every queue that is configured stays so. -/
theorem Floe.releaseSrc_frame (f : Floe) (s : Nat × Nat × Bool) :
    (∃ qs, f.releaseSrc s = { f with queues := qs }) ∧ ∀ q, f.queue q ≠ none → (f.releaseSrc s).queue q ≠ none := by
  have hset : ∀ x : TileQ, ∀ q, f.queue q ≠ none → (f.setQueue s.1 (some x)).queue q ≠ none := fun x q hq => by
    rw [Floe.queue_setQueue]
    split
    · exact Option.some_ne_none x
    · exact hq
  unfold Floe.releaseSrc
  split
  · exact ⟨⟨_, rfl⟩, fun _ hq => hq⟩
  · split
    · exact ⟨⟨_, rfl⟩, hset _⟩
    · exact ⟨⟨_, rfl⟩, hset _⟩

theorem Floe.releaseAll_frame (f : Floe) (srcs : List (Nat × Nat × Bool)) :
    (∃ qs, srcs.foldl Floe.releaseSrc f = { f with queues := qs }) ∧
      ∀ q, f.queue q ≠ none → (srcs.foldl Floe.releaseSrc f).queue q ≠ none := by
  refine List.foldlRecOn (motive := fun g : Floe => (∃ qs, g = { f with queues := qs }) ∧ ∀ q, f.queue q ≠ none → g.queue q ≠ none)
    _ _ ⟨⟨_, rfl⟩, fun _ hq => hq⟩ ?_
  rintro _ ⟨⟨qs, rfl⟩, hkept⟩ s -
  obtain ⟨⟨qs', h⟩, hkeeps⟩ := Floe.releaseSrc_frame { f with queues := qs } s
  exact ⟨⟨qs', h⟩, fun q hq => hkeeps q (hkept q hq)⟩

/-- A command that pushed a tile has given back its operands, and the slot that it filled is ready (R258). -/
theorem Dev.performed_spec {q i : Nat} (he : e < 6) (hmem : c ∈ (d.floe n).engine e) (hdst : c.dst = some (q, i))
    (hqueue : (d.floe n).queue q ≠ none) :
    DonePerforming (d.performed n e c) n e c ∧ (∃ x, ((d.performed n e c).floe n).queue q = some x ∧ x.slot i = .ready) ∧
      (d.performed n e c).ls = d.ls ∧ (d.performed n e c).dram = d.dram := by
  obtain ⟨⟨qs, hframe⟩, hkept⟩ := (d.floe n).releaseAll_frame c.srcs
  obtain ⟨x, hx⟩ := Option.ne_none_iff_exists'.1 (hkept q hqueue)
  have heq : d.performed n e c = (d.setFloe n ((c.srcs.foldl Floe.releaseSrc (d.floe n)).setQueue q (some (x.setSlot i .ready)))).updCmd n e
      c.number fun y => { y with performed := true, waiting := none, srcs := [], dst := none } := by
    simp only [Dev.performed, Dev.updFloe, hdst, hx]
  rw [heq]
  refine ⟨⟨_, Dev.mem_engine_updCmd_of_mem he _ ?_, rfl, rfl, rfl, rfl⟩, ⟨x.setSlot i .ready, ?_, ?_⟩, rfl, rfl⟩
  · rw [Dev.floe_setFloe_same, hframe]
    exact hmem
  · rw [Dev.queue_updCmd, Dev.floe_setFloe_same, Floe.queue_setQueue, if_pos rfl]
  · rw [TileQ.slot_setSlot, if_pos rfl]

end Sys2Proof.Machine

/-! ## The tile of a vector command (R276, R281, R282) -/

namespace Sys2Proof.Machine

/-- Every vector command makes a tile of its destination's size. -/
theorem size_vecTile (v : VSlot) (ta tb tc : Tile) (size : Nat) : (vecTile v ta tb tc size).size = size := by
  unfold vecTile
  split <;> rfl

/-- A digit of a number that is written digit by digit. -/
theorem digit_foldr {b : Nat} (hb : 0 < b) (l : List Nat) (hl : ∀ x ∈ l, x < b) (k : Nat) :
    l.foldr (fun x y => x + b * y) 0 / b ^ k % b = (l[k]?).getD 0 := by
  induction l generalizing k with
  | nil => simp
  | cons x l ih =>
    have hx : x < b := hl x List.mem_cons_self
    rw [List.foldr_cons]
    cases k with
    | zero => simp [Nat.add_mul_mod_self_left, Nat.mod_eq_of_lt hx]
    | succ k =>
      rw [Nat.pow_succ', ← Nat.div_div_eq_div_mul, Nat.add_mul_div_left _ _ hb, Nat.div_eq_of_lt hx, Nat.zero_add,
        ih fun y hy => hl y (List.mem_cons_of_mem x hy)]
      simp

/-- An element of a tile that is made of its elements, within the tile. -/
theorem elem_tileOf {size b k : Nat} {es : List (Nat × Bool)} (hfits : b * (k + 1) ≤ 8 * size) :
    (tileOf size b es).elem b k = ((es[k]?).map Prod.fst).getD 0 % 2 ^ b := by
  have hdigits : es.foldr (fun p x => p.1 % 2 ^ b + 2 ^ b * x) 0 = (es.map fun p => p.1 % 2 ^ b).foldr (fun x y => x + 2 ^ b * y) 0 := by
    rw [List.foldr_map]
  have hdigit := digit_foldr (Nat.two_pow_pos b) (es.map fun p => p.1 % 2 ^ b)
    (fun x hx => by obtain ⟨p, -, rfl⟩ := List.mem_map.1 hx; exact Nat.mod_lt _ (Nat.two_pow_pos b)) k
  have hsplit : 8 * size = b * k + b + (8 * size - b * (k + 1)) := by rw [Nat.mul_succ] at *; omega
  rw [Tile.elem, tileOf]
  dsimp only
  rw [hdigits, Nat.shiftRight_eq_div_pow, hsplit, Nat.pow_add, Nat.pow_add, Nat.mul_assoc, Nat.mod_mul_right_div_self,
    Nat.mod_mod_of_dvd _ (Nat.dvd_mul_right _ _), Nat.pow_mul, hdigit, List.getElem?_map]
  cases es[k]? <;> simp

theorem VFmt.bits_pos (f : VFmt) : 0 < f.bits := by cases f <;> decide

/-- Each element of an element-wise result is the opcode's result on the elements of its place (R281, R282). -/
theorem elem_vecElementwise {v : VSlot} {ta tb tc : Tile} {size k : Nat} (hsize : ta.size ≤ size)
    (hk : k < ta.size * 8 / (vfmtOf v.fmt).bits) :
    (vecElementwise v ta tb tc size).elem (vfmtOf v.fmt).bits k =
      vecElem v.op (vfmtOf v.fmt) (ta.elem (vfmtOf v.fmt).bits k)
        (if v.bmode == 1 then immB (vfmtOf v.fmt) v.imm else tb.elem (vfmtOf v.fmt).bits (bIndex v k))
        (tc.elem (vfmtOf v.fmt).bits k) % 2 ^ (vfmtOf v.fmt).bits := by
  have hfits : (vfmtOf v.fmt).bits * (k + 1) ≤ 8 * size := by
    have hbits : (k + 1) * (vfmtOf v.fmt).bits ≤ ta.size * 8 := Nat.mul_le_of_le_div _ _ _ hk
    rw [Nat.mul_comm]
    omega
  rw [vecElementwise, elem_tileOf hfits]
  simp [hk]

theorem vecTile_of_elementwise {v : VSlot} (h : v.op ≤ 0x0C ∨ 0x11 ≤ v.op) (ta tb tc : Tile) (size : Nat) :
    vecTile v ta tb tc size = vecElementwise v ta tb tc size := by
  unfold vecTile
  split
  case h_5 => rfl
  all_goals omega

end Sys2Proof.Machine

/-! ## A vector command (R282) -/

namespace Sys2Proof.Machine

open Sys2Proof.Claims

/-- Does the word of a vector command name a second tile (R281, R282)? -/
def vecNamesB (c : ECmd) : Bool := vecUsesB (vslot c.word.toNat).op && (vslot c.word.toNat).bmode != 1

/-- Does it name a third one (R282)? -/
def vecNamesC (c : ECmd) : Bool := vecUsesC (vslot c.word.toNat).op

/-- A tile that a command may name: read, or standing for nothing. -/
def Dev.srcTileIf (d : Dev) (n : Nat) (c : ECmd) (k : Nat) (used : Bool) : Tile × Dev :=
  if used then d.srcTile n c k else ({ size := 0, data := 0, poison := 0 }, d)

/-- A vector command whose tiles have been read pushes its result, and reports its poison (R261, R365, R393). -/
def Dev.vecFinish (d : Dev) (n : Nat) (c : ECmd) (ta tb tc : Tile) : Dev :=
  let t := vecTile (vslot c.word.toNat) ta tb tc (d.dstSize n c)
  let at_ := d.srcPoisonAddr n c ([ta] ++ (if vecNamesB c then [tb] else []) ++ (if vecNamesC c then [tc] else []))
  let d := d.pushTile n c t
  let d := if t.poison = 0 then d else d.poisonMoved n 1 at_
  d.performed n 1 c

theorem Dev.vecPerform_eq (d : Dev) (n : Nat) (c : ECmd) : d.vecPerform n c =
    let a := d.srcTile n c 0
    let b := a.2.srcTileIf n c 1 (vecNamesB c)
    let e := b.2.srcTileIf n c (if vecNamesB c then 2 else 1) (vecNamesC c)
    e.2.vecFinish n c a.1 b.1 e.1 := rfl

/-- The tile that a vector command pushes on the sources that stand in its queues. -/
def Dev.vecResult (d : Dev) (n : Nat) (c : ECmd) (size : Nat) : Tile :=
  let none' : Tile := { size := 0, data := 0, poison := 0 }
  vecTile (vslot c.word.toNat) (source d n c 0) (if vecNamesB c then source d n c 1 else none')
    (if vecNamesC c then source d n c (if vecNamesB c then 2 else 1) else none') size

variable {d d' : Dev} {n : Nat} {c : ECmd}

theorem Dev.srcTileIf_same (h : SameTiles d d') (k : Nat) (used : Bool) :
    (d'.srcTileIf n c k used).1 = (if used then source d n c k else { size := 0, data := 0, poison := 0 }) ∧
      SameTiles d (d'.srcTileIf n c k used).2 := by
  cases used with
  | true => exact Dev.srcTile_same h n c k
  | false => exact ⟨rfl, h⟩

/-- A vector command reads its sources, writes its result and reports the poison that the result carries. -/
theorem Dev.vecPerform_writes {q i : Nat} (hdst : c.dst = some (q, i)) :
    ∃ d₁ d₂, SameTiles d d₁ ∧
      SameTiles (d₁.tileWrite n ((d.floe n).slotPlace q i).1 (d.vecResult n c ((d.floe n).slotPlace q i).2)) d₂ ∧
      d.vecPerform n c = d₂.performed n 1 c := by
  obtain ⟨-, hsameA⟩ := Dev.srcTile_same (.refl d) n c 0
  obtain ⟨hB, hsameB⟩ := Dev.srcTileIf_same (n := n) (c := c) hsameA 1 (vecNamesB c)
  obtain ⟨hC, hsameC⟩ := Dev.srcTileIf_same (n := n) (c := c) hsameB (if vecNamesB c then 2 else 1) (vecNamesC c)
  rw [Dev.vecPerform_eq]
  dsimp only
  rw [hB, hC]
  generalize (((d.srcTile n c 0).2.srcTileIf n c 1 (vecNamesB c)).2.srcTileIf n c (if vecNamesB c then 2 else 1) (vecNamesC c)).2 = e
    at hsameC ⊢
  have hsize : e.dstSize n c = ((d.floe n).slotPlace q i).2 := by rw [Dev.dstSize, hdst, hsameC.floe]
  have hpush : ∀ t, e.pushTile n c t = e.tileWrite n ((d.floe n).slotPlace q i).1 t := fun t => by
    rw [Dev.pushTile, hdst, hsameC.floe]
  refine ⟨e, _, hsameC, ?_, rfl⟩
  rw [hsize, hpush]
  exact .ite (.refl _) (.poisonMoved ..)

/-- What a vector command leaves (R261, R281). -/
theorem Dev.vecPerform_spec {q i : Nat} (hmem : c ∈ (d.floe n).engine 1) (hdst : c.dst = some (q, i))
    (hqueue : (d.floe n).queue q ≠ none) :
    HoldsTile d (d.vecPerform n c) n ((d.floe n).slotPlace q i).1 ((d.floe n).slotPlace q i).2
        (d.vecResult n c ((d.floe n).slotPlace q i).2) ∧
      DonePerforming (d.vecPerform n c) n 1 c ∧ (d.vecPerform n c).dram = d.dram ∧
      ∃ x, ((d.vecPerform n c).floe n).queue q = some x ∧ x.slot i = .ready := by
  obtain ⟨d₁, d₂, hread, hwritten, heq⟩ := Dev.vecPerform_writes (d := d) (n := n) hdst
  rw [Dev.tileWrite_eq, Dev.vecResult, size_vecTile, ← Dev.vecResult] at hwritten
  have hfloe : d₂.floe n = d.floe n := (hwritten.floe n).trans (hread.floe n)
  obtain ⟨hdone, hready, hls, hdram⟩ := Dev.performed_spec (d := d₂) (by decide) (hfloe ▸ hmem) hdst (hfloe ▸ hqueue)
  rw [heq]
  refine ⟨holdsTile_of_putTile ?_, hdone, hdram.trans (hwritten.dram.trans hread.dram), hready⟩
  rw [hls, hwritten.ls, hread.ls]

/-- The engine performs the vector command that stands issued, when it is of the row's opcode (R249). -/
theorem Dev.engineRow_vector {op : Nat} (h : Performs d n 1 op c) : d.engineRow n 1 op = d.vecPerform n c := by
  obtain ⟨-, hactive, hcurrent, hop⟩ := h
  simp [Dev.engineRow, hcurrent, hactive, hop]

end Sys2Proof.Machine

namespace Sys2Proof.Proofs

open Sys2Proof.Machine Sys2Proof.Claims

/-- The rows of the vector slot with their opcodes (R282). -/
def vectorRows (n : Fin 136) : List (Instr × Nat) :=
  [(.vecAdd n, 0x01), (.vecSub n, 0x02), (.vecMul n, 0x03), (.vecFma n, 0x04), (.vecMax n, 0x05), (.vecMin n, 0x06), (.vecAbs n, 0x07),
    (.vecNeg n, 0x08), (.vecRcp n, 0x09), (.vecRsqrt n, 0x0A), (.vecExp2 n, 0x0B), (.vecLog2 n, 0x0C), (.vecCvt n, 0x0D),
    (.vecMxq n, 0x0E), (.vecRsum n, 0x0F), (.vecRmax n, 0x10), (.vecAnd n, 0x11), (.vecOr n, 0x12), (.vecXor n, 0x13),
    (.vecShl n, 0x14), (.vecShr n, 0x15), (.vecCmplt n, 0x16), (.vecCmpeq n, 0x17), (.vecSel n, 0x18), (.vecCopy n, 0x19)]

/-- Each row has the vector engine perform a command of its opcode. -/
theorem exec_vectorRow (s : State) (n : Fin 136) :
    ∀ p ∈ vectorRows n, exec p.1 s = s.does fun d => d.inService fun d => d.engineRow n 1 p.2 := by
  simp only [vectorRows, List.forall_mem_cons]
  refine ⟨rfl, rfl, rfl, rfl, rfl, rfl, rfl, rfl, rfl, rfl, rfl, rfl, rfl, rfl, rfl, rfl, rfl, rfl, rfl, rfl, rfl, rfl, rfl, rfl, rfl, ?_⟩
  exact fun p hp => absurd hp List.not_mem_nil

/-- Settles O36: the rows share one effect, whose tile's elements are the opcode's results. -/
theorem vectorCommands : Obligations.VectorCommands := by
  unfold Obligations.VectorCommands
  intro s n c q i row op hrow hperforms hdst hqueue v f useB none' ta tb tc at_ t
  have ⟨hlive, _, hcurrent, hop⟩ := hperforms
  refine ⟨?_, fun helementwise hsize k hk => ?_⟩
  · refine runs_live _ s _ (fun d => d.engineRow n 1 op) (exec_vectorRow s n _ hrow) hlive ?_
    rw [Dev.engineRow_vector hperforms]
    exact Dev.vecPerform_spec (List.mem_of_find?_eq_some hcurrent) hdst hqueue
  · have hop' : v.op = op := hop
    have hresult := elem_vecElementwise (v := v) (tb := tb) (tc := tc) hsize hk
    rw [hop'] at hresult
    rw [show t = vecElementwise v ta tb tc at_.2 from vecTile_of_elementwise (hop'.symm ▸ helementwise) ..]
    exact hresult

end Sys2Proof.Proofs
